-- ==== Sys2Proof/Word.lean ====
section
/-!
DEFINITION. The machine words of the PNM-9144 model and their plainest arithmetic: 32-bit registers
(R10), bytes, instants of the module's clock, and sparse tables with one canonical form.
-/
namespace Sys2Proof

/-- A register or Wormin general-register word (R10, R111). -/
abbrev Word := BitVec 32

/-- One byte of a memory or of a frame. -/
abbrev Byte := BitVec 8

/-- An instant or a duration of the module's clock, in units of 1/144 ns: a second is 144e9 units, every
tick period of R45 is a whole number of units, so is a main-clock cycle (90) and the clock's 0.25 ns (36). -/
abbrev Instant := Nat

/-- The field [hi:lo] of a word, as a number. -/
def fld (w : Word) (hi lo : Nat) : Nat := (w.toNat >>> lo) % 2 ^ (hi - lo + 1)

/-- The word with its field [hi:lo] replaced. -/
def setFld (w : Word) (hi lo : Nat) (x : Nat) : Word :=
  let m := (2 ^ (hi - lo + 1) - 1) <<< lo
  (w &&& ~~~(BitVec.ofNat 32 m)) ||| BitVec.ofNat 32 ((x <<< lo) &&& m)

/-- Bit `i` of a word. -/
def bitOf (w : Word) (i : Nat) : Bool := w.getLsbD i

/-- A word with the single bit `i` set. -/
def oneBit (i : Nat) : Word := BitVec.ofNat 32 (2 ^ i)

/-- The word with bit `i` set or cleared. -/
def putBit (w : Word) (i : Nat) (b : Bool) : Word := if b then w ||| oneBit i else w &&& ~~~ (oneBit i)

/-- A number as a word. -/
abbrev W (n : Nat) : Word := BitVec.ofNat 32 n

/-- A truth value as one bit. -/
def b2n (b : Bool) : Nat := if b then 1 else 0

/-- A sparse table: (key, entry) pairs, keys strictly rising, no entry equal to what an unlisted key reads as. -/
abbrev Tab (α : Type) := List (Nat × α)

/-- The entry of a key; an unlisted key reads as `d`. -/
def Tab.get {α : Type} (d : α) : Tab α → Nat → α
  | [], _ => d
  | (k', v) :: t, k => if k' = k then v else Tab.get d t k

/-- Insert or replace an entry, keeping the keys rising; nothing is said about defaults here. -/
def Tab.ins {α : Type} : Tab α → Nat → α → Tab α
  | [], k, v => [(k, v)]
  | (k', v') :: t, k, v =>
    if k < k' then (k, v) :: (k', v') :: t
    else if k = k' then (k, v) :: t
    else (k', v') :: Tab.ins t k v

/-- Remove a key: every entry of it. -/
def Tab.del {α : Type} : Tab α → Nat → Tab α
  | [], _ => []
  | (k', v') :: t, k => if k = k' then Tab.del t k else (k', v') :: Tab.del t k

/-- Write an entry and keep the canonical form: writing the default removes the key. -/
def Tab.put {α : Type} [DecidableEq α] (d : α) (t : Tab α) (k : Nat) (v : α) : Tab α :=
  if v = d then Tab.del t k else Tab.ins t k v

/-- The canonical form, from a lower bound on the keys. -/
def Tab.wfFrom {α : Type} [DecidableEq α] (d : Nat → α) : Option Nat → Tab α → Bool
  | _, [] => true
  | lo, (k, v) :: t =>
    (match lo with | none => true | some b => decide (b < k)) && decide (v ≠ d k) && Tab.wfFrom d (some k) t

/-- The canonical form of a table whose unlisted key k reads as `d k`. -/
def Tab.wf {α : Type} [DecidableEq α] (d : Nat → α) (t : Tab α) : Bool := Tab.wfFrom d none t

/-- Replace the element of a list at an index; past the end nothing changes. -/
def setAt {α : Type} : List α → Nat → α → List α
  | [], _, _ => []
  | _ :: t, 0, v => v :: t
  | h :: t, n + 1, v => h :: setAt t n v

/-- One whole second of the clock. -/
def second : Instant := 144000000000
/-- One microsecond. -/
def usec : Instant := 144000
/-- One millisecond. -/
def msec : Instant := 144000000
/-- One nanosecond. -/
def nsec : Instant := 144
/-- One cycle of the 1.6 GHz main clock. -/
def mainCycle : Instant := 90

end Sys2Proof
end

