-- ==== Sys2Proof/Syntax.lean ====
section
/-!
DEFINITION. The commands of the PNM-9144 block: ONE inductive, one constructor per row of spec/opcode_table.json, and the
operand types they carry. The table gives its rows no bits; a command's operands are what the rule of its row says reaches
the part with it: the word written, the frame received, the instant of an event on the module's clock.
-/
namespace Sys2Proof

/-- Who writes a register (R361): function 0 is the PF, 1 to 63 the VFs; a manager image (R156); the management bus (R362). -/
inductive Writer where
  | fn (f : Fin 64) | image | bus
deriving DecidableEq, Repr

/-- One 32-bit word of a write with its byte enables (R361). -/
structure BusWord where
  be : BitVec 4
  data : Word
deriving DecidableEq, Repr

/-- One ASDU of a sampled-value frame (R83 to R90, R94). -/
structure SvAsdu where
  svId : List Byte
  dsLen : Nat
  smpCnt : Nat
  confRev : Word
  smpSynch : Nat
  gmId : Option (BitVec 64)
  /-- refrTm, where the ASDU carries it -/
  refrTm : Option Instant
  vals : List Word
  quals : List Word
deriving DecidableEq, Repr

/-- A member of a GOOSE dataset as its type encodes it (R193): BOOLEAN, INTEGER and UNSIGNED of up to 32 bits, FLOAT32,
BIT STRING of up to 32 bits with bit 0 of the string first, and a member of this module's own publications, whose type the
manual does not give: the 32-bit word itself. -/
inductive GooseVal where
  | bool (b : Bool) | int (bits : Fin 33) (v : Int) | uint (v : Nat) | float (v : Word) | bits (l : List Bool) | word (v : Word)
deriving DecidableEq, Repr

/-- A received GOOSE message (R66, R193). -/
structure GooseMsg where
  goCbRef : List Byte
  stNum : Nat
  sqNum : Nat
  talMs : Nat
  confRev : Word
  test : Bool
  sim : Bool
  ndsCom : Bool
  members : List GooseVal
deriving DecidableEq, Repr

/-- A lease message of the redundant pair (R271, R272). -/
inductive LeaseKind where
  | renewal | ack | yld | ready | refuse | swapFailed
deriving DecidableEq, Repr

/-- A lease message (R271). `sender` is the MAC address base + 145 of the module that sent it; `authentic` says whether a
network frame's AES-GMAC tag verifies. -/
structure LeaseMsg where
  kind : LeaseKind
  fromB : Bool
  gate : Bool
  solo : Bool
  epoch : Nat
  seq : Nat
  echo : Nat
  tick : Nat
  ckpt : Nat
  sender : BitVec 48
  authentic : Bool
deriving DecidableEq, Repr

/-- PTP messages (R30, R31, R35). -/
inductive PtpKind where
  | sync | announce | delayReq | delayResp | pdelayReq | pdelayResp | followUp | pdelayFollowUp
deriving DecidableEq, Repr

/-- An event message: one that carries a hardware timestamp point (R34, R36). -/
def PtpKind.event : PtpKind → Bool
  | .sync | .delayReq | .pdelayReq | .pdelayResp => true
  | _ => false

/-- The data set of an Announce that the best master algorithm compares (R33, R37, R41; IEEE 1588). -/
structure Announce where
  domain : Nat
  prio1 : Nat
  cls : Nat
  acc : Nat
  variance : Nat
  prio2 : Nat
  gm : BitVec 64
  steps : Nat
  sender : BitVec 80
deriving DecidableEq, Repr

/-- A PTP message (R30 to R36): `source` is the sourcePortIdentity (clockIdentity and 16-bit port number), `srcIp` the IPv4
source address, `seq` sequenceId, `correction` correctionField and `ts` the message's timestamp field in quarter ns, `request` the
requestingPortIdentity of a response, `ann` the data set of an Announce. -/
structure PtpMsg where
  kind : PtpKind
  domain : Nat
  ipv4 : Bool
  srcIp : Word
  source : BitVec 80
  seq : Nat
  correction : Int
  ts : Nat
  request : BitVec 80
  ann : Option Announce
  /-- currentUtcOffset, leap59 and leap61 of an Announce -/
  utc : Option (Int × Bool × Bool)
deriving DecidableEq, Repr

/-- What a frame carries, as the Colander parses it. `verify` and `respond` are the mPackets of 802.3br verification (R62). -/
inductive Payload where
  | sv (appid : Nat) (sim : Bool) (parses : Bool) (asdus : List SvAsdu)
  | goose (appid : Nat) (parses : Bool) (msg : GooseMsg)
  | ptp (m : PtpMsg)
  | verify
  | respond
  | pfc (enables : BitVec 8) (quanta : List Nat)
  | pause (quanta : Nat)
  | lease (m : LeaseMsg)
  | raw (etherType : Nat) (bytes : List Byte)
deriving DecidableEq, Repr

/-- The MACsec protection of a frame (R68): the secure association its SecTAG names, as 2 × channel + association (a
transmitted frame: the association), the packet number, whether the ICV verifies, the octets that the SecTAG and the ICV
add, and the ICV of a transmitted frame. -/
structure Macsec where
  sa : Option (Fin 8)
  pn : Nat
  icvOk : Bool
  octets : Nat
  icv : List (BitVec 8)
deriving DecidableEq, Repr

/-- The MAC algorithm an IEC 62351-6 tag names (R298). -/
inductive MacAlg where
  | gmac | hmac | other
deriving DecidableEq, Repr

/-- An IEC 62351-6 tag (R297, R298): the key identifier and the MAC algorithm it names, and whether it was computed with that key over the
frame as received. -/
structure SecTag where
  keyId : Word
  alg : MacAlg
  correct : Bool
deriving DecidableEq, Repr

/-- An Ethernet frame at a port. `len` counts destination address to FCS. -/
structure Frame where
  dst : BitVec 48
  src : BitVec 48
  vid : Option (BitVec 12)
  pcp : Nat
  len : Nat
  fcsErr : Bool
  symErr : Bool
  reasmErr : Bool
  prpSeq : Option (BitVec 16)
  hsrSeq : Option (BitVec 16)
  macsec : Option Macsec
  tag : Option SecTag
  body : Payload
deriving DecidableEq, Repr

/-- A decoded IRIG-B frame (R47, R48): valid code, time quality, UTC seconds of its marker, the control-function
extension's UTC offset and its leap-second warning (true: an inserted second, leap61) where they are carried. -/
structure IrigFrame where
  ok : Bool
  quality : BitVec 4
  utcSec : Nat
  ext : Option Int
  leap : Option Bool
deriving DecidableEq, Repr

/-- A port, and an instant at which something about it happens (R37). -/
structure PortTime where
  port : Fin 144
  tm : Instant
deriving DecidableEq, Repr

/-- A reference input, 1PPS or IRIG-B, and the instant at which it is found absent (R37). -/
structure RefTime where
  irig : Bool
  tm : Instant
deriving DecidableEq, Repr

/-- An edge of the 1PPS input: its sense and its instant (R47). -/
structure PpsEdge where
  rising : Bool
  tm : Instant
deriving DecidableEq, Repr

/-- The path a lease message takes (R271): the pair link or the network. -/
inductive Path where
  | pair | net
deriving DecidableEq, Repr

/-- The two ownership tables whose words list owners per object (R261): GOOSE publications, SV publications, cores. -/
inductive OwnTable where
  | gpub | spub | core
deriving DecidableEq, Repr

/-- The registers of a gate that GATE_WRITE writes (R166). -/
inductive GateReg where
  | memb | cfg
deriving DecidableEq, Repr

/-- Where an uncorrectable error strikes (R343). -/
inductive ErrLoc where
  | coreLocal (p : Fin 72)
  | heddle (u : Fin 17)
  | packetBuffer (cell : Nat)
  | ddrPage (page : Nat)
  | pantry (word : Nat)
  | stateMemory (line : Nat)
  | lineShadow
  | loom
  | tru
  | retainedRead (l : Fin 64)
  | keyStore
  | other (block : Fin 19)
deriving DecidableEq, Repr

/-- The host link's events (R246, R247): it comes up or retrains at a rate code and width as HIF_STATUS shows them. -/
inductive LinkEvent where
  | up (rate : Fin 16) (width : Fin 32) | retrain (rate : Fin 16) (width : Fin 32) | lost | hotReset
deriving DecidableEq, Repr

/-- A place that a shadow mismatch self-test covers (R348): a cluster's spare and the core it shadows, or HU-S. -/
inductive ShadowPlace where
  | cluster (c : Fin 8) | heddle
deriving DecidableEq, Repr

/-- The unit HC_CMD shadow names (R356). -/
inductive ShadowTarget where
  | core (p : Fin 72) | heddle (u : Fin 17)
deriving DecidableEq, Repr

/-- One 64-byte submission-queue entry as fetched (R253, R254). -/
structure SqEntry where
  opcode : Nat
  tag : Nat
  host : Nat
  off : Nat
  len : Nat
  /-- word 1 [5:0], on the PF: target tenant of IMG_PUT and IMG_LOAD -/
  target : Nat
deriving DecidableEq, Repr

/-- What a checkpoint holds (R280), item by item as it is sent: a 4 KiB page of State Memory, a core's retained copy and
fs, a loop's parameter words and committed state, a publication's stNum, an armed-frame slot, a control tenant with the
first 8 bytes of its image signature. -/
inductive CkptItem where
  | page (n : Fin 8192) (data : List Byte)
  | retained (l : Fin 64) (fs : Word) (data : List Byte)
  | loop (k : Fin 256) (params : List Word) (st : List Int)
  | pub (p : Fin 1024) (stNum : Nat)
  | slot (i : Fin 4096) (armed : Bool)
  | tenant (t : Fin 64) (sig : List Byte)
deriving DecidableEq, Repr

/-- An item of a checkpoint as it is sent, with the checkpoint's sequence number (R282). -/
structure CkptPage where
  seq : Nat
  item : CkptItem
deriving DecidableEq, Repr

/-- A checkpoint's closing record (R282): its sequence number, its tick, whether it is full, and how many items it has. -/
structure CkptClose where
  seq : Nat
  tick : Nat
  full : Bool
  items : Nat
deriving DecidableEq, Repr

/-- What the archive engine reads of an inserted drive (R322, R323, R326): its capacity in bytes, its superblock (archive identity,
first slot and slots, both divided by 1024), the link's width and rate, the critical warning of its SMART log. -/
structure DriveInfo where
  capacity : Nat
  sblock : Option (Nat × Nat × Nat)
  width : Nat
  rate : Nat
  critical : Bool
  /-- LBA data size of namespace 1, in octets, and whether it carries metadata or protection information (R322) -/
  lba : Nat
  metadata : Bool
deriving DecidableEq, Repr

/-- The module counters that are persisted in steps (R311). -/
inductive Counter where
  | opTime | pwrCyc | logLost
deriving DecidableEq, Repr

/-- A field supply group's class (R337). -/
inductive SupplyClass where
  | good | absent | overLimit | reversed
deriving DecidableEq, Repr

/-- The two outputs of a breaker channel. -/
inductive BcOut where
  | trip | close
deriving DecidableEq, Repr

/-- The start-up self tests' results (R346). -/
structure SelfTest where
  cores : List Nat
  units : List Nat
  sramOk : Bool
deriving DecidableEq, Repr

/-- Live readings a telemetry record takes (R354): 24 temperatures in 1/16 °C as 16-bit words, 16 rails in mV, for each cage
its temperature and Vcc, and for each of its lanes bias, transmit and receive power. -/
structure TelemetryIn where
  temps : List Nat
  rails : List Nat
  cages : List (Nat × Nat)
  lanes : List (Nat × Nat × Nat)
deriving DecidableEq, Repr

/-- A management-bus command as it arrives (R364, R365): the command octet, the length and payload octets after it, and of a write
command the packet error code received. The command octet is the row's own, or one the module does not know in its place. -/
structure BusCmd where
  code : Byte
  data : List Byte
  pec : Byte
deriving DecidableEq, Repr

/-- The self-test of an active core is late (R348): its cluster, whether the spare has passed, and when. -/
structure SelfTestLate where
  cluster : Fin 8
  sparePass : Bool
  tm : Instant
deriving DecidableEq, Repr

/-- A transaction entry (R149, R190, R194): a State Memory write, a publication value or quality word, a breaker output, the
arming of an armed-frame slot, a loop word, a register. -/
inductive Entry where
  | mem (off : Nat) (bytes : List Byte)
  | pub (obj member : Nat) (quality : Bool) (v : Word)
  | out (ch : Fin 16) (o : BcOut) (level : Bool)
  | arm (slot : Nat) (disarm : Bool)
  | loopWord (c : Fin 8) (i : Fin 32) (j : Fin 32) (v : Word)
  | reg (off : Nat) (v : Word)
deriving DecidableEq, Repr

/-- One item of an input map (R193). `otherType` is a GOOSE member of a type the table does not list. -/
inductive MapItem where
  | gooseStatus (g : Fin 2048)
  | gooseMember (g : Fin 2048) (m : Nat)
  | inputs | changes | pair | clock | otherType
deriving DecidableEq, Repr

/-- A core's section of an image (R266): retained initial values, code, entries, watchdog budget in cycles. -/
structure CoreImage where
  entry : Word
  errorEntry : Word
  code : List Byte
  watchdog : Nat
  retained : List Byte
deriving DecidableEq, Repr

/-- A Wormin image, section by section (R266). -/
structure Image where
  manager : Bool
  keyId : Word
  length : Nat
  cores : List CoreImage
  reservation : Nat
  consecMax : Nat
  windowMax : Nat
  fallback : List Entry
  hist : Nat
  pnm6 : Bool
  subst : Tab (List Word)
  map : List MapItem
  loops : List (Fin 8 × Fin 32 × List Word)
  kernels : Nat
deriving DecidableEq, Repr

/-- A staged image as IMG_LOAD finds it (R265): its sections, whether its header, kind and section bounds parse, the octets
before the signature, the signature, and whether the program store write verifies. -/
structure ImageLoad where
  img : Image
  parses : Bool
  bytes : List Byte
  sig : List Byte
  writeOk : Bool
deriving DecidableEq, Repr

/-- Who executes a Wormin instruction: a logical core L = 8c + k (R185), or a record in flight in a Heddle unit (R133). -/
inductive Who where
  | core (l : Fin 64) | record (u : Fin 17) (id : Nat)
deriving DecidableEq, Repr

/-- The fields of format A (R126). -/
structure FmtA where
  pr : BitVec 3
  d : BitVec 5
  s1 : BitVec 5
  s2 : BitVec 5
deriving DecidableEq, Repr
/-- The fields of format I. -/
structure FmtI where
  pr : BitVec 3
  d : BitVec 5
  s1 : BitVec 5
  imm : BitVec 12
deriving DecidableEq, Repr
/-- The fields of format U. -/
structure FmtU where
  pr : BitVec 3
  d : BitVec 5
  imm : BitVec 17
deriving DecidableEq, Repr
/-- The fields of format M. -/
structure FmtM where
  pr : BitVec 3
  d : BitVec 5
  base : BitVec 5
  off : BitVec 12
deriving DecidableEq, Repr
/-- The fields of format X. -/
structure FmtX where
  pr : BitVec 3
  acc : BitVec 2
  mode : BitVec 3
  s1 : BitVec 5
  s2 : BitVec 5
deriving DecidableEq, Repr

/-- The commands of the block: one constructor per row of the table of operations and events: the
Wormin instructions first, then the part's other operations and events, each in the table's order. -/
inductive Instr where
  /-- ADD (R136): ADD writes the wrapping sum of two registers. -/
  | add (x : Who) (f : FmtA)
  /-- SUB (R136): SUB writes the wrapping difference. -/
  | sub (x : Who) (f : FmtA)
  /-- AND (R136): AND writes the bitwise AND. -/
  | and (x : Who) (f : FmtA)
  /-- OR (R136): OR writes the bitwise OR. -/
  | or (x : Who) (f : FmtA)
  /-- XOR (R136): XOR writes the bitwise XOR. -/
  | xor (x : Who) (f : FmtA)
  /-- SLL (R136): SLL shifts left logically by s2[4:0]. -/
  | sll (x : Who) (f : FmtA)
  /-- SRL (R136): SRL shifts right logically. -/
  | srl (x : Who) (f : FmtA)
  /-- SRA (R136): SRA shifts right arithmetically. -/
  | sra (x : Who) (f : FmtA)
  /-- MIN (R136): MIN writes the signed minimum. -/
  | min (x : Who) (f : FmtA)
  /-- MAX (R136): MAX writes the signed maximum. -/
  | max (x : Who) (f : FmtA)
  /-- MINU (R136): MINU writes the unsigned minimum. -/
  | minu (x : Who) (f : FmtA)
  /-- MAXU (R136): MAXU writes the unsigned maximum. -/
  | maxu (x : Who) (f : FmtA)
  /-- ADDS (R121): ADDS adds with signed saturation and sets iov. -/
  | adds (x : Who) (f : FmtA)
  /-- SUBS (R121): SUBS subtracts with signed saturation. -/
  | subs (x : Who) (f : FmtA)
  /-- ADDUS (R121): ADDUS adds with unsigned saturation. -/
  | addus (x : Who) (f : FmtA)
  /-- SUBUS (R121): SUBUS subtracts with unsigned saturation. -/
  | subus (x : Who) (f : FmtA)
  /-- MUL (R136): MUL writes the low 32 bits of the product. -/
  | mul (x : Who) (f : FmtA)
  /-- MULH (R136): MULH writes the high word of the signed product. -/
  | mulh (x : Who) (f : FmtA)
  /-- MULHU (R136): MULHU writes the high word of the unsigned product. -/
  | mulhu (x : Who) (f : FmtA)
  /-- ABSS (R136): ABSS writes the saturating absolute value. -/
  | abss (x : Who) (f : FmtA)
  /-- CLZ (R136): CLZ counts leading zeros. -/
  | clz (x : Who) (f : FmtA)
  /-- POPC (R136): POPC counts ones. -/
  | popc (x : Who) (f : FmtA)
  /-- SEXB (R136): SEXB sign-extends a byte. -/
  | sexb (x : Who) (f : FmtA)
  /-- SEXH (R136): SEXH sign-extends a halfword. -/
  | sexh (x : Who) (f : FmtA)
  /-- ZEXH (R136): ZEXH zero-extends a halfword. -/
  | zexh (x : Who) (f : FmtA)
  /-- ADDI (R136): ADDI adds a sign-extended immediate. -/
  | addi (x : Who) (f : FmtI)
  /-- ANDI (R136): ANDI ANDs a zero-extended immediate. -/
  | andi (x : Who) (f : FmtI)
  /-- ORI (R136): ORI ORs a zero-extended immediate. -/
  | ori (x : Who) (f : FmtI)
  /-- XORI (R136): XORI XORs a zero-extended immediate. -/
  | xori (x : Who) (f : FmtI)
  /-- SLLI (R136): SLLI shifts left by an immediate. -/
  | slli (x : Who) (f : FmtI)
  /-- SRLI (R136): SRLI shifts right logically by an immediate. -/
  | srli (x : Who) (f : FmtI)
  /-- SRAI (R136): SRAI shifts right arithmetically by an immediate. -/
  | srai (x : Who) (f : FmtI)
  /-- LUI (R136): LUI places imm17 in bits [31:15]. -/
  | lui (x : Who) (f : FmtU)
  /-- LLO (R136): LLO fills bits [14:0] from the immediate. -/
  | llo (x : Who) (f : FmtU)
  /-- CEQ (R138): CEQ writes equality to a predicate. -/
  | ceq (x : Who) (f : FmtA)
  /-- CNE (R138): CNE writes inequality to a predicate. -/
  | cne (x : Who) (f : FmtA)
  /-- CLT (R138): CLT writes signed less-than to a predicate. -/
  | clt (x : Who) (f : FmtA)
  /-- CLE (R138): CLE writes signed less-or-equal to a predicate. -/
  | cle (x : Who) (f : FmtA)
  /-- CLTU (R138): CLTU writes unsigned less-than to a predicate. -/
  | cltu (x : Who) (f : FmtA)
  /-- CLEU (R138): CLEU writes unsigned less-or-equal to a predicate. -/
  | cleu (x : Who) (f : FmtA)
  /-- CTST (R138): CTST writes a non-zero AND to a predicate. -/
  | ctst (x : Who) (f : FmtA)
  /-- CMPI (R138): CMPI compares with an immediate into a predicate. -/
  | cmpi (x : Who) (f : FmtI)
  /-- PAND (R138): PAND ANDs predicates. -/
  | pand (x : Who) (f : FmtA)
  /-- POR (R138): POR ORs predicates. -/
  | por (x : Who) (f : FmtA)
  /-- PXOR (R138): PXOR XORs predicates. -/
  | pxor (x : Who) (f : FmtA)
  /-- PANDN (R138): PANDN writes p[s1] AND NOT p[s2]. -/
  | pandn (x : Who) (f : FmtA)
  /-- PFROM (R138): PFROM sets a predicate from a non-zero register. -/
  | pfrom (x : Who) (f : FmtA)
  /-- PTO (R138): PTO copies a predicate into a register. -/
  | pto (x : Who) (f : FmtA)
  /-- DIV (R121): DIV divides signed with defined results for zero and overflow. -/
  | div (l : Fin 64) (f : FmtA)
  /-- DIVU (R121): DIVU divides unsigned. -/
  | divu (l : Fin 64) (f : FmtA)
  /-- REM (R121): REM writes the signed remainder. -/
  | rem (l : Fin 64) (f : FmtA)
  /-- REMU (R121): REMU writes the unsigned remainder. -/
  | remu (l : Fin 64) (f : FmtA)
  /-- RDSR (R136): RDSR reads pc, fs, tk or ts. -/
  | rdsr (l : Fin 64) (f : FmtI)
  /-- CLRF (R112): CLRF clears the named sticky flags. -/
  | clrf (l : Fin 64) (f : FmtI)
  /-- MACQ (R122): MACQ combines an exact Q15 product into an accumulator. -/
  | macq (x : Who) (f : FmtX)
  /-- MACQ31 (R136): MACQ31 combines a rounded Q31 product into an accumulator. -/
  | macq31 (x : Who) (f : FmtX)
  /-- ACCQ15 (R136): ACCQ15 combines a Q15 value into an accumulator. -/
  | accq15 (x : Who) (f : FmtX)
  /-- ACCQ31 (R136): ACCQ31 combines a Q31 value into an accumulator. -/
  | accq31 (x : Who) (f : FmtX)
  /-- MAGSQ (R136): MAGSQ combines a squared magnitude into an accumulator. -/
  | magsq (x : Who) (f : FmtX)
  /-- ASHR (R136): ASHR shifts an accumulator right with rounding. -/
  | ashr (x : Who) (f : FmtX)
  /-- AMOV (R136): AMOV combines another accumulator into one. -/
  | amov (x : Who) (f : FmtX)
  /-- SDFT (R139): SDFT updates one complex sliding-DFT bin in an accumulator pair. -/
  | sdft (x : Who) (f : FmtX)
  /-- MULQ (R122): MULQ multiplies Q15 with rounding and saturation. -/
  | mulq (x : Who) (f : FmtA)
  /-- ADDQ (R122): ADDQ adds Q15 with saturation. -/
  | addq (x : Who) (f : FmtA)
  /-- SUBQ (R122): SUBQ subtracts Q15 with saturation. -/
  | subq (x : Who) (f : FmtA)
  /-- NEGQ (R122): NEGQ negates Q15 with saturation. -/
  | negq (x : Who) (f : FmtA)
  /-- ABSQ (R122): ABSQ takes the Q15 absolute value with saturation. -/
  | absq (x : Who) (f : FmtA)
  /-- ATAN2 (R136): ATAN2 writes the Q15 angle divided by π. -/
  | atan2 (x : Who) (f : FmtA)
  /-- MULQ31 (R122): MULQ31 multiplies Q31 with rounding and saturation. -/
  | mulq31 (x : Who) (f : FmtA)
  /-- ADDQ31 (R122): ADDQ31 adds Q31 with saturation. -/
  | addq31 (x : Who) (f : FmtA)
  /-- SUBQ31 (R122): SUBQ31 subtracts Q31 with saturation. -/
  | subq31 (x : Who) (f : FmtA)
  /-- NEGQ31 (R122): NEGQ31 negates Q31 with saturation. -/
  | negq31 (x : Who) (f : FmtA)
  /-- ABSQ31 (R122): ABSQ31 takes the Q31 absolute value with saturation. -/
  | absq31 (x : Who) (f : FmtA)
  /-- Q31TOQ15 (R123): Q31TOQ15 narrows Q31 to Q15. -/
  | q31toq15 (x : Who) (f : FmtA)
  /-- RNDQ15 (R123): RNDQ15 narrows an accumulator to Q15. -/
  | rndq15 (x : Who) (f : FmtA)
  /-- RNDQ31 (R123): RNDQ31 narrows an accumulator to Q31. -/
  | rndq31 (x : Who) (f : FmtA)
  /-- FADD (R140): FADD adds FP32. -/
  | fadd (l : Fin 64) (f : FmtA)
  /-- FSUB (R140): FSUB subtracts FP32. -/
  | fsub (l : Fin 64) (f : FmtA)
  /-- FMUL (R140): FMUL multiplies FP32. -/
  | fmul (l : Fin 64) (f : FmtA)
  /-- FDIV (R140): FDIV divides FP32, blocking. -/
  | fdiv (l : Fin 64) (f : FmtA)
  /-- FSQRT (R140): FSQRT takes the FP32 square root, blocking. -/
  | fsqrt (l : Fin 64) (f : FmtA)
  /-- FMIN (R140): FMIN writes the IEEE minimumNumber. -/
  | fmin (l : Fin 64) (f : FmtA)
  /-- FMAX (R140): FMAX writes the IEEE maximumNumber. -/
  | fmax (l : Fin 64) (f : FmtA)
  /-- FNEG (R140): FNEG flips the sign bit. -/
  | fneg (l : Fin 64) (f : FmtA)
  /-- FABS (R140): FABS clears the sign bit. -/
  | fabs (l : Fin 64) (f : FmtA)
  /-- FMAC (R140): FMAC performs a fused multiply-add. -/
  | fmac (l : Fin 64) (f : FmtA)
  /-- FCEQ (R140): FCEQ writes FP32 equality to a predicate. -/
  | fceq (l : Fin 64) (f : FmtA)
  /-- FCLT (R140): FCLT writes FP32 less-than to a predicate. -/
  | fclt (l : Fin 64) (f : FmtA)
  /-- FCLE (R140): FCLE writes FP32 less-or-equal to a predicate. -/
  | fcle (l : Fin 64) (f : FmtA)
  /-- FCUN (R140): FCUN sets a predicate when either operand is NaN. -/
  | fcun (l : Fin 64) (f : FmtA)
  /-- FCVTW (R140): FCVTW converts FP32 to signed integer with rounding. -/
  | fcvtw (l : Fin 64) (f : FmtA)
  /-- FCVTWT (R140): FCVTWT converts FP32 to signed integer with truncation. -/
  | fcvtwt (l : Fin 64) (f : FmtA)
  /-- FCVTWU (R140): FCVTWU converts FP32 to unsigned integer with rounding. -/
  | fcvtwu (l : Fin 64) (f : FmtA)
  /-- FCVTWUT (R140): FCVTWUT converts FP32 to unsigned integer with truncation. -/
  | fcvtwut (l : Fin 64) (f : FmtA)
  /-- FCVTQ15 (R140): FCVTQ15 converts FP32 to Q15 with rounding. -/
  | fcvtq15 (l : Fin 64) (f : FmtA)
  /-- FCVTQ15T (R140): FCVTQ15T converts FP32 to Q15 with truncation. -/
  | fcvtq15t (l : Fin 64) (f : FmtA)
  /-- FCVTQ31 (R140): FCVTQ31 converts FP32 to Q31 with rounding. -/
  | fcvtq31 (l : Fin 64) (f : FmtA)
  /-- FCVTQ31T (R140): FCVTQ31T converts FP32 to Q31 with truncation. -/
  | fcvtq31t (l : Fin 64) (f : FmtA)
  /-- FCVTSW (R140): FCVTSW converts a signed integer to FP32. -/
  | fcvtsw (l : Fin 64) (f : FmtA)
  /-- FCVTSWU (R140): FCVTSWU converts an unsigned integer to FP32. -/
  | fcvtswu (l : Fin 64) (f : FmtA)
  /-- FCVTSQ15 (R140): FCVTSQ15 converts Q15 to FP32. -/
  | fcvtsq15 (l : Fin 64) (f : FmtA)
  /-- FCVTSQ31 (R140): FCVTSQ31 converts Q31 to FP32. -/
  | fcvtsq31 (l : Fin 64) (f : FmtA)
  /-- LB (R141): LB loads a sign-extended byte. -/
  | lb (l : Fin 64) (f : FmtM)
  /-- LBU (R141): LBU loads a zero-extended byte. -/
  | lbu (l : Fin 64) (f : FmtM)
  /-- LH (R141): LH loads a sign-extended halfword. -/
  | lh (l : Fin 64) (f : FmtM)
  /-- LHU (R141): LHU loads a zero-extended halfword. -/
  | lhu (l : Fin 64) (f : FmtM)
  /-- LW (R141): LW loads a word from local memory or State Memory. -/
  | lw (l : Fin 64) (f : FmtM)
  /-- LD (R141): LD loads 8 bytes into a register pair. -/
  | ld (l : Fin 64) (f : FmtM)
  /-- SB (R141): SB stores a byte to local memory. -/
  | sb (l : Fin 64) (f : FmtM)
  /-- SH (R141): SH stores a halfword. -/
  | sh (l : Fin 64) (f : FmtM)
  /-- SW (R141): SW stores a word. -/
  | sw (l : Fin 64) (f : FmtM)
  /-- SD (R141): SD stores a register pair. -/
  | sd (l : Fin 64) (f : FmtM)
  /-- LA (R141): LA loads an accumulator. -/
  | la (l : Fin 64) (f : FmtM)
  /-- SA (R141): SA stores an accumulator sign-extended. -/
  | sa (l : Fin 64) (f : FmtM)
  /-- PFSM (R143): PFSM prefetches a State Memory line and returns the turn hint. -/
  | pfsm (l : Fin 64) (f : FmtM)
  /-- WAITSM (R143): WAITSM stops issue until every outstanding State Memory access completes. -/
  | waitsm (l : Fin 64) (f : FmtA)
  /-- LROW (R144): LROW loads one word of an owned warp's row or history. -/
  | lrow (l : Fin 64) (f : FmtA) (sel : BitVec 7)
  /-- LIMG (R146): LIMG loads a word of the input image. -/
  | limg (l : Fin 64) (f : FmtI)
  /-- BR (R147): BR branches relative to pc. -/
  | br (l : Fin 64) (f : FmtU)
  /-- CALL (R147): CALL branches and links in g31. -/
  | call (l : Fin 64) (f : FmtU)
  /-- JR (R147): JR jumps to a register target. -/
  | jr (l : Fin 64) (f : FmtI)
  /-- CALLR (R147): CALLR jumps to a register target and links. -/
  | callr (l : Fin 64) (f : FmtI)
  /-- TEND (R152): TEND ends the core's program window after its CLU requests complete and sends the barrier. -/
  | tend (l : Fin 64) (f : FmtA)
  /-- TXW (R148): TXW stages a 4-byte State Memory write. -/
  | txw (l : Fin 64) (f : FmtM)
  /-- TXWD (R148): TXWD stages an 8-byte State Memory write. -/
  | txwd (l : Fin 64) (f : FmtM)
  /-- TXPUB (R148): TXPUB stages a publication member value or quality. -/
  | txpub (l : Fin 64) (f : FmtA) (quality : Bool)
  /-- TXOUT (R148): TXOUT stages a breaker output level. -/
  | txout (l : Fin 64) (f : FmtA)
  /-- TXARM (R148): TXARM stages the arm or disarm of an armed-frame slot. -/
  | txarm (l : Fin 64) (f : FmtA) (disarm : Bool)
  /-- TXABORT (R150): TXABORT aborts the tenant's transaction for the tick. -/
  | txabort (l : Fin 64) (f : FmtA)
  /-- CEVAL (R216): CEVAL evaluates a control loop in the working state and returns its candidate. -/
  | ceval (l : Fin 64) (f : FmtA)
  /-- CSET (R221): CSET writes a loop parameter live. -/
  | cset (l : Fin 64) (f : FmtA)
  /-- CSETT (R221): CSETT stages a loop parameter write for the commit. -/
  | csett (l : Fin 64) (f : FmtA)
  /-- CGET (R220): CGET reads a loop parameter or state word. -/
  | cget (l : Fin 64) (f : FmtA)
  /-- CINJ (R227): CINJ applies a test-signal control word to a loop. -/
  | cinj (l : Fin 64) (f : FmtA)
  /-- HGET (R159): HGET reads a word of the flowing record. -/
  | hget (x : Who) (f : FmtI)
  /-- HLD (R162): HLD reads a stage-state word for the record's warp. -/
  | hld (x : Who) (f : FmtM)
  /-- HST (R154): HST updates a stage-state word in one of eight modes. -/
  | hst (x : Who) (f : FmtM)
  /-- TRIP (R155): TRIP sends a release request for an armed-frame slot to the TRU. -/
  | trip (x : Who) (f : FmtI)
  /-- TRIPBC (R16): TRIPBC sets a channel's TRIPBC latch and asserts its TRIP output within 100 ns. -/
  | tripbc (x : Who) (f : FmtI)
  /-- HMARK (R163): HMARK ORs bits into the mark byte of the record's warp or gate. -/
  | hmark (x : Who) (f : FmtI)
  /-- HPASS (R163): HPASS writes an event to the unit's event ring, or counts a drop. -/
  | hpass (x : Who) (f : FmtI)
  /-- SRD (R156): SRD reads a PF register from a manager image. -/
  | srd (l : Fin 64) (f : FmtI)
  /-- SWR (R156): SWR writes a PF register from a manager image. -/
  | swr (l : Fin 64) (f : FmtA)
  /-- SFENCE (R156): SFENCE waits until earlier SWRs have taken effect. -/
  | sfence (l : Fin 64) (f : FmtA)
  /-- TXSWR (R156): TXSWR stages a register write for the commit. -/
  | txswr (l : Fin 64) (f : FmtA)
  /-- REGISTER_WRITE (R361): A host, manager-image or management-bus write to a register that has no row of its own stores, clears or sets bits as its access code says, and persists RWP words in the Pantry. -/
  | registerWrite (who : Writer) (off : Nat) (ws : List BusWord)
  /-- WEAR_REMAP (R309): A word that has taken 80 000 000 writes is copied to a free spare word in the background, and the mapping is switched. -/
  | wearRemap (word : Nat)
  /-- FRAME_RECEIVE (R63): A received frame reaches the Colander and is checked, reassembled, validated, deduplicated, filtered, classified, matched, delivered and admitted in order. -/
  | frameReceive (p : Fin 144) (f : Frame) (tm : Instant)
  /-- TAG_VERDICT (R169): The IEC 62351-6 tag check of a frame completes, failures are counted, and an act-then-verify release is reported when its deciding frame fails. -/
  | tagVerdict (frame : Nat)
  /-- EGRESS_DEQUEUE (R75): The frame at the head of an egress queue is selected by class order, aged out if it is too old, or started on the wire. -/
  | egressDequeue (p : Fin 144) (tm : Instant)
  /-- FRAME_SENT (R74): A frame finishes on a port, its reference count falls, and its cells and descriptor are freed at zero. -/
  | frameSent (p : Fin 144) (tm : Instant)
  /-- PFC_REPEAT (R76): PFC pause is sent again every 32 768 quanta while overflow stays at or above resume_thr, or quanta 0 is sent once it falls below. -/
  | pfcRepeat
  /-- SWC_P_CFG_WRITE (R58): A write to port configuration is checked for cage speed and reserved values, then enables, disables, retrains or loops the port. -/
  | swcPCfgWrite (p : Fin 144) (v : Word)
  /-- SWC_P_MACSEC_WRITE (R69): A MACsec enable on a port is refused while the port carries the fast path. -/
  | swcPMacsecWrite (p : Fin 144) (v : Word)
  /-- BLOCK_LOCK (R60): A training port reaches lock (and Clause 37 completion), goes Up and starts preemption verification. -/
  | blockLock (p : Fin 144) (tm : Instant)
  /-- TRAINING_TIMEOUT (R60): A port is still without lock 500 ms into training, so it restarts training and counts link_down_events. -/
  | trainingTimeout (p : Fin 144)
  /-- LOSS_OF_LOCK (R60): An Up or Fenced port losing lock for 1 ms or losing signal returns to Training and discards its queued frames. -/
  | lossOfLock (p : Fin 144)
  /-- VERIFY_ATTEMPT_TIMEOUT (R62): An unanswered 802.3br verify attempt leads to the next attempt, and after the third the status becomes Failed. -/
  | verifyAttemptTimeout (p : Fin 144)
  /-- VERIFY_RESPONSE (R62): A valid verify response makes the port's preemption status Active. -/
  | verifyResponse (p : Fin 144)
  /-- FENCE_AUTO_RELEASE (R77): A Fenced port with auto-release returns to Up after its clean interval without errors. -/
  | fenceAutoRelease (p : Fin 144) (tm : Instant)
  /-- FENCE_RELEASE (R60): SWC_P_FENCECTL.release returns a Fenced port to Up. -/
  | fenceRelease (p : Fin 144)
  /-- SWC_P_LATCH (R80): The port's 64 counters are copied into the latched set at one edge, and are optionally cleared. -/
  | swcPLatch (p : Fin 144) (v : Word) (tm : Instant)
  /-- FDB_READ (R70): The forwarding entry for a MAC address and VID is read. -/
  | fdbRead
  /-- FDB_WRITE_STATIC (R70): A static forwarding entry is written. -/
  | fdbWriteStatic
  /-- FDB_DELETE (R70): A forwarding entry is deleted. -/
  | fdbDelete
  /-- FDB_FLUSH_LEARNED (R70): Learned forwarding entries are flushed. -/
  | fdbFlushLearned
  /-- FDB_AGE_OUT (R70): A learned entry with no frame from its source for SWC_FDB_AGE seconds is removed. -/
  | fdbAgeOut (mac : BitVec 48) (vid : BitVec 12) (tm : Instant)
  /-- VLAN_WRITE (R70): The VLAN entry named by SWC_VLAN_IDX is written from the membership, untag and control registers. -/
  | vlanWrite
  /-- VLAN_READ (R70): The VLAN entry named by SWC_VLAN_IDX is read into the registers. -/
  | vlanRead
  /-- SWC_OVF_CFG_WRITE (R73): A write to overflow configuration is checked for ranges and threshold order, and is otherwise refused with SWC_IRQ.cfg_rej. -/
  | swcOvfCfgWrite (v : Word)
  /-- COL_MATCH_READ (R82): The match entry in force at COL_MATCH_IDX is read into the key registers. -/
  | colMatchRead
  /-- COL_MATCH_WRITE (R82): A match entry is written, held until the grant edge inside a grant session, or refused. -/
  | colMatchWrite
  /-- COL_MATCH_INVALIDATE (R82): A match entry is invalidated in its change cycle, or refused. -/
  | colMatchInvalidate
  /-- COL_PAIRMODE_WRITE (R65): Port pairs are set to none, PRP or HSR, and the write is rejected whole for a 17th HSR pair or a reserved value. -/
  | colPairmodeWrite (i : Fin 5) (v : Word)
  /-- DUP_ENTRY_FORGET (R65): A duplicate-table entry with no traffic for COL_DUPCFG.forget ms is forgotten. -/
  | dupEntryForget (pair : Fin 72) (mac : BitVec 48) (tm : Instant)
  /-- TICK_EDGE (R45): A tick edge starts a new tick number and closes a row, applies steps, rate changes, grants and starts, and delivers rows and marks. -/
  | tickEdge
  /-- PROGRAM_WINDOW_OPEN (R186): 3 µs after the tick edge every core of a Running or Test tenant starts at its entry, or at the error-task entry, with its initial state. -/
  | programWindowOpen
  /-- WATCHDOG (R130): A core that runs its watchdog budget without executing TEND traps with cause 4. -/
  | watchdog (l : Fin 64)
  /-- DEADLINE (R197): At T − r barriers are sampled, late cores stop, and each tenant's entries, retained copies and fallbacks are applied to the line shadow. -/
  | deadline
  /-- SWAP (R197): At D + 5.5 µs the committed image and commit area change as one, and the TRU, publishers, Field I/O Unit and CLU take their updates. -/
  | swap
  /-- COMMIT_COMPLETE (R20): The commit phase ends at D + 6 µs, and a designated operation for the tick starts its copy. -/
  | commitComplete
  /-- DOP_COPY_DONE (R209): A designated copy completes, and its destination lines change at one swap with CMT_SEQ. -/
  | dopCopyDone
  /-- ARBITER_GRANT (R235): A bank arbiter grants the oldest eligible request, and its burst starts after the current one ends. -/
  | arbiterGrant (b : Fin 16)
  /-- QUOTA_WINDOW (R237): A new 512-cycle window restarts the high-priority and background quotas. -/
  | quotaWindow
  /-- DDR5_GRANT (R242): A DDR5 channel arbiter grants a burst of 64-byte accesses. -/
  | ddr5Grant (ch : Fin 4)
  /-- PAIR_LINK_WRITE_RECEIVE (R243): An incoming pair-link burst lands in the receive buffer, and credits return as it is written. -/
  | pairLinkWriteReceive (bytes : Nat)
  /-- CREDIT_RETURN (R243): Returned credits let the Pair Link Unit request the local grant for an outgoing burst. -/
  | creditReturn (bytes : Nat)
  /-- PARTITION_ENTRY_WRITE (R233): A write of SMA_PT_SIZE checks a partition entry and installs it from the next swap, or refuses it with a reason. -/
  | partitionEntryWrite (t : Fin 64) (j : Fin 8) (v : Word)
  /-- SMA_B_CLR (R245): A write clears the longest-wait record of a bank. -/
  | smaBClr (b : Fin 16) (v : Word)
  /-- SMA_D_CLR (R245): A write clears the longest-wait record of a DDR5 channel. -/
  | smaDClr (ch : Fin 4) (v : Word)
  /-- UNCORRECTABLE_ERROR (R343): An uncorrectable ECC error is resolved by its location as a core loss, a dead unit, a retired cell or page, or a module fault. -/
  | uncorrectableError (loc : ErrLoc)
  /-- DDR5_CHANNEL_LOST (R343): A DDR5 channel is lost, which degrades overflow, rebuilds the history ring and stops playback. -/
  | ddr5ChannelLost (ch : Fin 4)
  /-- HISTORY_WRITE (R101): A closed row is written to the history ring in DDR5, or recorded as a gap when its slot is reused. -/
  | historyWrite
  /-- HISTORY_REBUILD_DONE (R103): The history ring is rebuilt, empty, over the remaining DDR5 channels. -/
  | historyRebuildDone
  /-- LOOPBACK_ASDU (R106): A playback ASDU enters the Colander after match and reaches the target warp's Heddle unit and the Loom. -/
  | loopbackAsdu (stream : Fin 512)
  /-- PB_START (R108): LOOM_PB_GO.start checks the playback set-up and arms playback, or records a reason code. -/
  | pbStart
  /-- PB_STOP (R108): LOOM_PB_GO.stop returns playback to Idle at the next edge. -/
  | pbStop
  /-- LOOM_CTRL_WRITE (R92): A write of Loom control is accepted or refused for the close delay, and takes effect at the next tick edge. -/
  | loomCtrlWrite (v : Word)
  /-- LOOM_TRANSIT_WRITE (R91): A write of the transit budget is refused when it breaks any warp's cover. -/
  | loomTransitWrite (v : Word)
  /-- LOOM_W_CFG_WRITE (R97): A write of warp configuration outside a grant changes only sim_accept and otherwise sets cfg_rej. -/
  | loomWCfgWrite (w : Fin 512) (v : Word)
  /-- RECORD_DISPATCH (R160): A record waiting in the Colander dispatch stage enters its Heddle unit, or is dropped at the rate limit. -/
  | recordDispatch (u : Fin 16)
  /-- RECORD_EXIT (R134): A record leaves the last stage, and its sat, ova and iov are ORed into the kernel flags. -/
  | recordExit (u : Fin 16) (id : Nat)
  /-- RELEASE_REQUEST (R173): A release request reaches the TRU and is discarded as stale, refused, held for verification or accepted in unit order. -/
  | releaseRequest (tm : Instant)
  /-- VBA_HOLD_END (R170): A verify-before-act hold of 112 cycles ends, and the request is released or dropped according to the verdict. -/
  | vbaHoldEnd (tm : Instant)
  /-- RETRANSMISSION (R177): A held frame is retransmitted at its next schedule point with sqNum + 1. -/
  | retransmission (pub : Fin 1024) (tm : Instant)
  /-- GOOSE_PUBLISH (R190): A GOOSE publication sends its frame at its normal schedule when no hold is in force. -/
  | goosePublish (pub : Fin 1024) (tm : Instant)
  /-- SV_PUBLISH (R197): An SV publication sends its next frame with the values taken at the swap. -/
  | svPublish (pub : Fin 128)
  /-- SLOT_READ (R172): TRU_SLOT_CMD read loads the staging registers from a slot. -/
  | slotRead
  /-- SLOT_WRITE (R172): TRU_SLOT_CMD write stores the staging registers into a slot, or is refused. -/
  | slotWrite
  /-- SLOT_CLEAR (R172): TRU_SLOT_CMD clear empties a slot. -/
  | slotClear
  /-- TRU_CTRL_WRITE (R380): A write of TRU_CTRL.en enables or stops releases and retransmissions. -/
  | truCtrlWrite (v : Word)
  /-- TRU_RETX_WRITE (R380): A write of the retransmission timing is checked and takes effect at each stream's next transmission. -/
  | truRetxWrite (v : Word)
  /-- KERNEL_LOAD (R161): HDL_U_KLOAD checks a staged kernel table and installs it between two cycles, or reports a refusal. -/
  | kernelLoad (u : Fin 17) (v : Word)
  /-- HDL_BINDING_WRITE (R157): A write of HDL_U_WARP is held in the grant session, or refused with a reason. -/
  | hdlBindingWrite (u : Fin 17) (j : Fin 32) (v : Word)
  /-- GATE_WRITE (R166): A write of a gate's membership or configuration is checked, and open collections are discarded. -/
  | gateWrite (u : Fin 17) (g : Fin 8) (reg : GateReg) (v : Word)
  /-- GATE_VSEL_WRITE (R168): A write of a gate's value selection applies to later group records without discarding collections. -/
  | gateVselWrite (u : Fin 17) (g : Fin 8) (v : Word)
  /-- STATE_WORD_WRITE (R162): A manager write of a stage-state word takes effect within 16 cycles and is mirrored to DDR5. -/
  | stateWordWrite (u : Fin 17) (v : Word)
  /-- HDL_U_CTRL_WRITE (R379): A write of dispatch enable or rotation enable of a Heddle unit takes effect from the next cycle. -/
  | hdlUCtrlWrite (u : Fin 17) (v : Word)
  /-- EVT_POP (R163): HDL_U_EVT_POP moves the oldest event of the ring into the data registers. -/
  | evtPop (u : Fin 17)
  /-- SHADOW_PERIOD_START (R179): HU-S starts shadowing the next active unit by copying its kernels and stage memory. -/
  | shadowPeriodStart
  /-- SHADOW_COPY_DONE (R179): The shadow copy completes and comparison starts. -/
  | shadowCopyDone
  /-- BIST_COMPLETE (R348): The self-test after a mismatch completes, and the verdicts declare units dead or the event transient. -/
  | bistComplete (place : ShadowPlace) (sparePass activePass : Bool)
  /-- HEDDLE_RESTORE_DONE (R181): The spare has loaded a dead unit's kernels and restored stage memory from the DDR5 mirror. -/
  | heddleRestoreDone
  /-- CORE_LOST (R203): A core is lost, its generation increments, its tenant's tick fails, and a spare starts loading or the tenant is fenced. -/
  | coreLost (l : Fin 64)
  /-- SPARE_READY (R203): The spare has loaded the code, retained region and fs and is ready to take the logical core. -/
  | spareReady (c : Fin 8)
  /-- CORE_SHADOW_ROTATION (R347): The cluster spare moves on to shadow the next active core after 4800 ticks. -/
  | coreShadowRotation (c : Fin 8)
  /-- START (R187): The tenant command start records a start tick and moves a Stopped tenant to Starting, or is refused. -/
  | start (t : Fin 64)
  /-- STOP (R187): The tenant command stop cancels a start, stops a tenant with a fallback commit, or clears a fault. -/
  | stop (t : Fin 64)
  /-- ENTER_TEST (R187): The tenant command enter_test moves a Running tenant to Test at commit. -/
  | enterTest (t : Fin 64)
  /-- LEAVE_TEST (R187): The tenant command leave_test moves a Test tenant to Running at commit. -/
  | leaveTest (t : Fin 64)
  /-- FENCE (R187): The tenant command fence moves the tenant to Fenced with a fallback commit. -/
  | fence (t : Fin 64)
  /-- UNFENCE (R187): The tenant command unfence returns a Fenced tenant to Stopped when all its cores are served. -/
  | unfence (t : Fin 64)
  /-- CMT_T_TOL_WRITE (R211): A write of the overrun tolerance is accepted only while the tenant is Stopped. -/
  | cmtTTolWrite (t : Fin 64) (v : Word)
  /-- CMT_CFG_WRITE (R195): A write of the commit reserve is accepted only while every tenant is Empty or Stopped and no operation is scheduled. -/
  | cmtCfgWrite (v : Word)
  /-- DOP_SUBMIT (R208): CMT_DOP_GO.submit checks and schedules a designated snapshot or settings commit, or refuses it with a reason. -/
  | dopSubmit
  /-- DOP_CANCEL (R209): CMT_DOP_GO.cancel cancels a scheduled designated operation. -/
  | dopCancel
  /-- APERTURE_WRITE (R206): A PF write through the State Memory aperture is buffered for the next swap, or discarded and reported. -/
  | apertureWrite (off : Nat) (data : List Byte)
  /-- LOOP_WORD_WRITE (R221): A PF write to a loop parameter or mode word takes effect at the loop's next evaluation. -/
  | loopWordWrite (c : Fin 8) (i : Fin 32) (j : Fin 32) (v : Word)
  /-- CLU_L_OWN_WRITE (R212): A change of loop owner is accepted only between idle tenants, and it resets the loop. -/
  | cluLOwnWrite (c : Fin 8) (i : Fin 32) (v : Word)
  /-- CLU_SG_MEMB_WRITE (R223): A write replaces or dissolves a min-select group's membership, or is refused. -/
  | cluSgMembWrite (c : Fin 8) (k : Fin 8) (v : Word)
  /-- INJ_CMD (R227): A PF injection command applies a control word to a loop whose owner is in Test, or is refused. -/
  | injCmd (c : Fin 8) (v : Word)
  /-- CAP_ARM (R230): CLU_CAP_CMD.arm starts a capture channel at the next swap or at the trigger. -/
  | capArm (c : Fin 8) (n : Fin 2)
  /-- CAP_STOP (R230): CLU_CAP_CMD.stop makes a ring capture store its post samples and then stop. -/
  | capStop (c : Fin 8) (n : Fin 2)
  /-- CAP_READ (R230): A read of CLU_CAP_RDDATA returns two samples and advances the pointer by 2. -/
  | capRead (c : Fin 8) (n : Fin 2)
  /-- CLU_CAP_CTRL_WRITE (R230): A write of the capture configuration is ignored while the channel is armed or running. -/
  | cluCapCtrlWrite (c : Fin 8) (n : Fin 2) (v : Word)
  /-- PCIE_LINK_CHANGE (R247): The host link comes up, retrains, is lost or is hot-reset without affecting anything outside the host interface. -/
  | pcieLinkChange (e : LinkEvent)
  /-- VF_FLR (R258): A function-level reset of a VF resets its registers and mailboxes and increments its generation number. -/
  | vfFlr (f : Fin 64)
  /-- PF_FLR (R258): A PF function-level reset increments every VF generation and discards an open grant session. -/
  | pfFlr
  /-- NUMVFS_CHANGE (R258): A change of NumVFs increments every VF's generation number. -/
  | numvfsChange (n : Fin 64)
  /-- COMMAND_ABANDON (R258): A queue command with a stale generation tag is abandoned, and its staging and buffers are freed. -/
  | commandAbandon (f : Fin 64) (q : Fin 16)
  /-- DB_MB_SEND (R251): A VF's outbound mailbox send is accepted, frozen and signalled to the PF, or refused. -/
  | dbMbSend (f : Fin 64)
  /-- DB_MB_ACK (R251): A VF releases its inbound buffer, and the acknowledgement is recorded for the manager. -/
  | dbMbAck (f : Fin 64)
  /-- MBX_SEND (R251): The manager's inbound mailbox send to a VF is accepted and signalled, or refused. -/
  | mbxSend (f : Fin 64)
  /-- MBX_ACK (R251): The manager acknowledges an outbound message, which clears out_busy and raises VF vector 1. -/
  | mbxAck (f : Fin 64)
  /-- DB_SQ_TAIL (R254): A submission-queue tail doorbell lets the module fetch and tag new entries, or stops the queue on a bad value. -/
  | dbSqTail (f : Fin 64) (q : Fin 16) (tail : Nat) (entries : List SqEntry)
  /-- DB_CQ_HEAD (R254): A completion-queue head doorbell frees completion entries. -/
  | dbCqHead (f : Fin 64) (q : Fin 16) (head : Nat)
  /-- QUEUE_ENABLE (R253): Setting VF_Q_CTRL.en starts a queue pair with heads and tails at 0. -/
  | queueEnable (f : Fin 64) (q : Fin 16) (v : Word)
  /-- NOP (R253): The queue command NOP completes with status 0. -/
  | nop (f : Fin 64) (q : Fin 16)
  /-- IMG_PUT (R253): The queue command IMG_PUT copies image bytes from host memory to the tenant's staging area. -/
  | imgPut (f : Fin 64) (q : Fin 16) (data : List Byte) (hostErr : Bool)
  /-- IMG_LOAD (R265): The queue command IMG_LOAD verifies, installs and copies a staged image and leaves the tenant Stopped. -/
  | imgLoad (f : Fin 64) (q : Fin 16) (img : ImageLoad)
  /-- CI_READ (R255): The queue command CI_READ copies State Memory to host memory from one commit. -/
  | ciRead (f : Fin 64) (q : Fin 16)
  /-- CI_READ_ATTEMPT (R255): A CI_READ copy starts after a swap, and restarts or gives up when another swap intervenes. -/
  | ciReadAttempt (f : Fin 64) (q : Fin 16) (intervened : Bool)
  /-- QUEUE_COMPLETION (R254): A command completes, and its completion entry and vector are posted when completion room exists. -/
  | queueCompletion (f : Fin 64) (q : Fin 16)
  /-- GRANT_OPEN (R260): HIF_GR_OPEN opens a grant session for a warp or GOOSE subscription, or is refused. -/
  | grantOpen (v : Word)
  /-- GRANT_COMMIT (R260): HIF_GR_CLOSE.commit checks every rule of the session and schedules the grant for the next tick edge, or discards it. -/
  | grantCommit
  /-- GRANT_DISCARD (R260): HIF_GR_CLOSE.discard discards an open grant session. -/
  | grantDiscard
  /-- OWNERSHIP_WRITE (R261): An ownership-table word write changes owners at the next swap, or is refused whole. -/
  | ownershipWrite (tab : OwnTable) (i : Fin 256) (v : Word)
  /-- UNLOAD (R266): HIF_T_CMD.unload erases a Stopped tenant's image, releases its grants and leaves it Empty. -/
  | unload (t : Fin 64)
  /-- CONFIG_RECORD_WRITTEN (R264): The configuration record in the program store is atomically replaced, and saving clears. -/
  | configRecordWritten
  /-- LEASE_RENEWAL (R272): A module with an open gate sends a renewal every lease / 4 on the pair link and the network path. -/
  | leaseRenewal (tm : Instant)
  /-- RENEWAL (R272): A received renewal restarts the standby timer and is acknowledged, answered with a higher epoch, or causes demotion. -/
  | renewal (path : Path) (m : LeaseMsg) (tm : Instant)
  /-- ACKNOWLEDGEMENT (R273): A received acknowledgement extends the holder's lease from the send instant of the renewal it answers. -/
  | acknowledgement (path : Path) (m : LeaseMsg) (tm : Instant)
  /-- YIELD (R284): A received yield naming a handover tick is answered with ready or refuse. -/
  | yield (path : Path) (m : LeaseMsg) (tm : Instant)
  /-- READY (R284): A received ready lets the active module proceed with the planned swap at tick h. -/
  | ready (path : Path) (m : LeaseMsg) (tm : Instant)
  /-- REFUSE (R284): A received refuse abandons the planned swap. -/
  | refuse (path : Path) (m : LeaseMsg) (tm : Instant)
  /-- SWAP_FAILED (R285): A received swap failed makes the former holder reopen its gate and restart its control tenants. -/
  | swapFailed (path : Path) (m : LeaseMsg) (tm : Instant)
  /-- LEASE_EXPIRY (R273): The holder's lease ends, so its gate closes unless the partner shows quiet. -/
  | leaseExpiry (tm : Instant)
  /-- TAKEOVER (R278): A standby reaching r + L + G raises and persists its epoch and releases its quiet lines. -/
  | takeover (tm : Instant)
  /-- TAKEOVER_QUIET_CHECK (R278): 20 µs after releasing the quiet lines, the module proceeds to restore, or Module B backs off. -/
  | takeoverQuietCheck (tm : Instant)
  /-- QUIET_CHANGE (R276): The partner's quiet lines change, which may close a quiet-held gate or report a wire fault. -/
  | quietChange (qp qn : Bool) (tm : Instant)
  /-- RESTORE_COMPLETE (R283): The checkpoint restore is written, and the control tenants are started two ticks after the next edge. -/
  | restoreComplete
  /-- CHECKPOINT_PAGE_RECEIVE (R282): The standby writes an arriving checkpoint page over the older version in its checkpoint store. -/
  | checkpointPageReceive (item : CkptPage)
  /-- CHECKPOINT_CLOSE (R282): A closing record makes the checkpoint current, or flags an image mismatch. -/
  | checkpointClose (c : CkptClose)
  /-- CHECKPOINT_SENT (R281): The transfer of a checkpoint completes on the active module. -/
  | checkpointSent
  /-- PLANNED_SWAP_DUE (R284): The planned swap interval expires, and the active module prepares a yield. -/
  | plannedSwapDue
  /-- PAIR_SWAP (R284): The PLU swap command starts a planned role swap. -/
  | pairSwap
  /-- PAIR_FENCE (R277): The PLU fence command moves the module to FENCED with its gate closed. -/
  | pairFence
  /-- PAIR_UNFENCE (R277): The PLU unfence command returns the module to STANDBY with its timer started. -/
  | pairUnfence (tm : Instant)
  /-- SOLO (R277): The PLU solo command makes the module SOLO when its partner shows quiet. -/
  | solo (tm : Instant)
  /-- LEAVE_SOLO (R277): The PLU leave_solo command returns a SOLO module to ACTIVE. -/
  | leaveSolo
  /-- PLU_EPOCH_WRITE (R287): A PF write of the lease epoch is accepted only in FENCED and only upwards. -/
  | pluEpochWrite (v : Word)
  /-- PLU_T_CLASS_WRITE (R268): A write of the tenant classes changes only the bits of Empty or Stopped tenants. -/
  | pluTClassWrite (i : Fin 2) (v : Word)
  /-- PLU_LEASE_WRITE (R287): A write of lease and guard is range-checked and takes effect at the next renewal. -/
  | pluLeaseWrite (v : Word)
  /-- KS_GEN (R292): GEN generates a slot's shadow value from the TRNG. -/
  | ksGen (slot : Fin 1024)
  /-- KS_UNWRAP (R292): UNWRAP unwraps a value into a slot's shadow under a wrap-only slot. -/
  | ksUnwrap (slot : Fin 1024)
  /-- KS_PUBIMP (R292): PUBIMP imports a public point into a slot's shadow. -/
  | ksPubimp (slot : Fin 1024)
  /-- KS_DERIVE (R293): DERIVE computes a derived slot's shadow with the counter-mode KDF. -/
  | ksDerive (slot : Fin 1024)
  /-- KS_SWAP (R294): SWAP makes a verified shadow active together with its descendants. -/
  | ksSwap (slot : Fin 1024)
  /-- KS_DISCARD (R294): DISCARD empties a slot's shadow. -/
  | ksDiscard (slot : Fin 1024)
  /-- KS_ERASE (R294): ERASE empties a slot unless it has children or is bound. -/
  | ksErase (slot : Fin 1024)
  /-- KS_READPUB (R300): READPUB returns a slot's public point. -/
  | ksReadpub (slot : Fin 1024)
  /-- KS_SIGN (R300): SIGN signs a digest with a private slot. -/
  | ksSign (slot : Fin 1024)
  /-- KS_VERIFY (R300): VERIFY checks a signature with a public slot. -/
  | ksVerify (slot : Fin 1024)
  /-- KS_HMAC (R300): HMAC computes an HMAC-SHA-256 tag over a message. -/
  | ksHmac (slot : Fin 1024)
  /-- KS_HMACV (R300): HMACV verifies an HMAC-SHA-256 tag. -/
  | ksHmacv (slot : Fin 1024)
  /-- KS_OWNER (R299): OWNER installs a new owner key from a slot's shadow under the current owner key's signature. -/
  | ksOwner (slot : Fin 1024)
  /-- PROV_ARM (R306): PROV_ARM arms provisioning for 1 s. -/
  | provArm (tm : Instant)
  /-- PROV_CONFIRM (R306): PROV_CONFIRM re-provisions a keyless module with a new root and identity, or is refused. -/
  | provConfirm (tm : Instant)
  /-- PROV_ARM_EXPIRY (R306): An armed provisioning that has not been confirmed within 1 s lapses. -/
  | provArmExpiry (tm : Instant)
  /-- KS_COMMAND_DONE (R300): A Key Store command completes, and its status and outputs are posted. -/
  | ksCommandDone
  /-- KS_BINDING_READ (R296): KS_B_CMD read loads a binding into the binding registers. -/
  | ksBindingRead
  /-- KS_BINDING_WRITE (R297): KS_B_CMD write installs a key binding, or refuses it with a reason. -/
  | ksBindingWrite
  /-- KS_BINDING_CLEAR (R297): KS_B_CMD clear removes a binding. -/
  | ksBindingClear
  /-- KS_OWN_WRITE (R301): A write of slot owners follows the ownership rule and the binding check. -/
  | ksOwnWrite (i : Fin 256) (v : Word)
  /-- KEY_RECORD_SAVED (R295): The encrypted key record is atomically written to the program store, and saving clears. -/
  | keyRecordSaved
  /-- TAMPER_TRIP (R303): A tamper source trips, every secret is zeroised within 20 µs, and the tamper record is written. -/
  | tamperTrip (src : Fin 5)
  /-- LOG_FLUSH (R315): The log flush command, or a severe record, a full batch or a power-fail warning, starts writing pending records to log memory. -/
  | logFlush (f : Fin 64)
  /-- LOG_FLUSH_DONE (R315): A flush finishes programming log memory, and LOG_LAST updates. -/
  | logFlushDone
  /-- CLEAR_ARM (R320): The log command clear_arm arms a clear for 1 s. -/
  | clearArm (f : Fin 64) (tm : Instant)
  /-- CLEAR_CONFIRM (R320): The log command clear_confirm starts a clear into a new generation, or is refused. -/
  | clearConfirm (f : Fin 64) (tm : Instant)
  /-- SECTOR_ERASE_DONE (R320): A log sector erase completes, its mark is programmed, and the next sector may be used. -/
  | sectorEraseDone
  /-- LOG_FREEZE_WRITE (R319): A function sets or releases its log freeze. -/
  | logFreezeWrite (f : Fin 64) (v : Word) (tm : Instant)
  /-- FREEZE_TIMEOUT (R319): A freeze held for 10 s is released automatically. -/
  | freezeTimeout (f : Fin 64) (tm : Instant)
  /-- LOG_CUR_ADV (R318): A function's log cursor advances by 16 records. -/
  | logCurAdv (f : Fin 64)
  /-- LOG_READ_VERIFY (R353): The daily read-verify checks flushed records and logs CRC failures. -/
  | logReadVerify (sector : Fin 4096) (idx : Fin 1023) (crcOk : Bool)
  /-- COUNTER_PERSIST (R311): A stepped module counter is persisted to the Pantry at its interval. -/
  | counterPersist (c : Counter)
  /-- ARCHIVE_VALUE_WRITTEN (R324): The value part of a slot completes on its drive, and the index write is submitted. -/
  | archiveValueWritten (ok : Bool)
  /-- ARCHIVE_INDEX_WRITTEN (R324): The index part of a slot completes with written set. -/
  | archiveIndexWritten (ok : Bool)
  /-- DRIVE_REMOVE (R326): A drive is removed, and its slots become unavailable. -/
  | driveRemove (d : Fin 4)
  /-- DRIVE_INSERT (R326): An inserted drive serves the archive again when its superblock matches. -/
  | driveInsert (d : Fin 4) (drv : DriveInfo)
  /-- FORMAT_DRIVE (R326): ARC_FMT formats one drive with its slot range, or is refused. -/
  | formatDrive (d : Fin 4)
  /-- FORMAT_ALL (R326): ARC_FMT formats all drives into a new empty archive while the feed is off. -/
  | formatAll
  /-- ARCHIVE_TRANSFER (R327): ARC_XFER copies slots to host memory or to DDR5 as rows. -/
  | archiveTransfer (v : Word)
  /-- TRANSFER_DONE (R327): An archive transfer completes, or ends with an error. -/
  | transferDone (hostErr : Bool)
  /-- BI_TRANSITION (R329): A raw binary-input transition is time-stamped and starts debounce, or is recorded as blocked. -/
  | biTransition (i : Fin 32) (level : Bool) (tm : Instant)
  /-- DEBOUNCE_EXPIRY (R329): A level held for the debounce time becomes an accepted change, is entered in the edge ring and is checked for chatter. -/
  | debounceExpiry (i : Fin 32) (tm : Instant)
  /-- CHATTER_RELEASE (R330): A blocked input quiet for the release time is unblocked, and it takes the debounced level. -/
  | chatterRelease (i : Fin 32) (tm : Instant)
  /-- FIO_EDGE_POP (R331): The oldest input edge record is moved into the edge registers. -/
  | fioEdgePop
  /-- FIO_BI_GRANT_WRITE (R332): A write of a tenant's input grants takes effect at the next swap, or is refused. -/
  | fioBiGrantWrite (t : Fin 64) (v : Word)
  /-- BC_OWN_WRITE (R333): A change of channel owner clears the latch, inhibit and fault state at its swap. -/
  | bcOwnWrite (i : Fin 4) (v : Word)
  /-- INHIBIT_TIMER (R335): The committed CLOSE level has been 0 for 10 ms, so the close inhibit clears. -/
  | inhibitTimer (k : Fin 16) (tm : Instant)
  /-- MIN_TRIP_EXPIRY (R334): The minimum TRIP time is met, and a fallen command turns the output off. -/
  | minTripExpiry (k : Fin 16) (tm : Instant)
  /-- CURRENT_LIMIT (R336): An output's load current reaches or leaves 300 mA, so it enters or leaves Limit. -/
  | currentLimit (k : Fin 16) (o : BcOut) (ma : Nat) (tm : Instant)
  /-- LIMIT_TIMEOUT (R336): 2 ms in Limit switches the output off into Retry. -/
  | limitTimeout (k : Fin 16) (o : BcOut) (tm : Instant)
  /-- RETRY_TIMEOUT (R336): 50 ms in Retry switches the output on again or, after 4 attempts, latches it off. -/
  | retryTimeout (k : Fin 16) (o : BcOut) (tm : Instant)
  /-- CLR_LATCH (R336): FIO_BC_CMD.clr_latch returns a latched-off output to Off. -/
  | clrLatch (k : Fin 16)
  /-- SUPPLY_CHANGE (R337): A field supply group changes class, and its outputs are driven or held off. -/
  | supplyChange (g : Fin 4) (cls : SupplyClass) (quarterVolts : Nat)
  /-- SUPERVISION_PULSE (R338): A supervised Off output sources 2 mA for 1 ms every 100 ms. -/
  | supervisionPulse (k : Fin 16) (o : BcOut) (tm : Instant)
  /-- SUPERVISION_PULSE_END (R338): At the end of a pulse the output is judged open or good. -/
  | supervisionPulseEnd (k : Fin 16) (o : BcOut) (above12V : Bool) (tm : Instant)
  /-- LOW_CURRENT_TIMEOUT (R338): An On output below 5 mA for 10 ms is judged open. -/
  | lowCurrentTimeout (k : Fin 16) (tm : Instant) (o : BcOut)
  /-- ANNOUNCE_RECEIVE (R37): A received Announce runs the best master algorithm, and a grandmaster change sends the clock to Holdover. -/
  | announceReceive (p : Fin 144) (m : Announce) (tm : Instant)
  /-- SYNC_RECEIVE (R37): A Sync interval yields a measured offset that qualifies, filters, corrects, locks or re-locks the clock. -/
  | syncReceive (p : Fin 144) (gm : BitVec 64) (offset : Int) (tm : Instant)
  /-- PDELAY_RECEIVE (R30): A received peer-delay message updates the link delay of its port. -/
  | pdelayReceive (p : Fin 144) (delay : Nat) (tm : Instant)
  /-- PTP_TRANSMIT (R35): At its message interval the module sends a Sync, Announce, Delay_Req or Pdelay message with an inserted timestamp. -/
  | ptpTransmit (p : Fin 144) (kind : PtpKind) (tm : Instant)
  /-- ANNOUNCE_TIMEOUT (R37): No Announce arrives within the timeout, so the source is lost and any pending step is cancelled. -/
  | announceTimeout (at' : PortTime)
  /-- REFERENCE_LOST (R37): The reference input is absent for 2 s, so the source is lost. -/
  | referenceLost (r : RefTime)
  /-- PPS_IN_EDGE (R47): A 1PPS input edge is time-stamped, entered in the edge ring and, in role 3, measured as an offset. -/
  | ppsInEdge (e : PpsEdge)
  /-- IRIG_B_FRAME (R47): An IRIG-B frame is decoded, its on-time marker is time-stamped, and in role 2 it qualifies or measures the source. -/
  | irigBFrame (m : IrigFrame) (tm : Instant)
  /-- SLEW_DONE (R40): The slew reaches zero offset, and the rate adjustment ends. -/
  | slewDone (tm : Instant)
  /-- HOLDOVER_SPEC_EXPIRY (R39): Holdover passes TIME_HOLDCFG.minutes, so hold_in_spec clears and clockClass changes. -/
  | holdoverSpecExpiry (tm : Instant)
  /-- PPS_OUT (R49): 1PPS out is asserted at the top of each second. -/
  | ppsOut
  /-- PPS_OUT_END (R49): 1PPS out is de-asserted after its configured width. -/
  | ppsOutEnd
  /-- TIME_CTRL_WRITE (R53): A write of clock control sets role, profile and transparent clock, and en := 0 sends the clock to Free-run. -/
  | timeCtrlWrite (v : Word)
  /-- TIME_PTPCFG_WRITE (R54): A write of PTP intervals is range-checked whole. -/
  | timePtpcfgWrite (v : Word)
  /-- TIME_TICKCFG_WRITE (R46): A write of the tick rate is accepted only with all tenants idle and playback off, and it waits for the top of second. -/
  | timeTickcfgWrite (v : Word)
  /-- TIME_LATCH (R52): Writing TIME_LATCH captures time and tick number at one instant. -/
  | timeLatch (v : Word) (tm : Instant)
  /-- TIME_SET_GO (R44): TIME_SET_GO submits a time to set as a step or slew, or is rejected. -/
  | timeSetGo (v : Word) (tm : Instant)
  /-- TIME_EDGE_POP (R50): The oldest timing-input edge is moved into the edge registers. -/
  | timeEdgePop (v : Word)
  /-- TIMESTAMP_CALIBRATION (R35): The path-delay calibration of a port runs every 10 s and on a temperature change. -/
  | timestampCalibration (p : Fin 144)
  /-- OCXO_AGEING_UPDATE (R311): The OCXO ageing model is learned and persisted every 24 h while Locked. -/
  | ocxoAgeingUpdate (model : Word)
  /-- GOOSE_TAL_EXPIRY (R193): A GOOSE subscription receives no message within its timeAllowedToLive and becomes expired. -/
  | gooseTalExpiry (g : Fin 2048) (tm : Instant)
  /-- POWER_GOOD (R344): Both supplies come into range, and the Health Controller starts boot. -/
  | powerGood (tm : Instant)
  /-- BOOT_IMAGE_VERIFIED (R346): The boot image is read and its signature checked, falling back to copy B or to Fault-halt. -/
  | bootImageVerified (aOk bOk : Bool)
  /-- SELF_TEST_COMPLETE (R346): The start-up SRAM, core and Heddle self-tests complete and mark failed units dead. -/
  | selfTestComplete (r : SelfTest)
  /-- DDR5_TRAINED (R346): DDR5 training and test complete, and failing channels are lost. -/
  | ddr5Trained (ok : BitVec 4)
  /-- KEY_STORE_UNLOCK (R306): The key store is unlocked from the root, or provisioned at the first start. -/
  | keyStoreUnlock (checkOk : Bool)
  /-- CONFIG_RESTORED (R345): The configuration record is restored, and the switch, Colander and Time Unit are enabled. -/
  | configRestored (recordOk : Bool)
  /-- TENANT_IMAGES_LOADED (R344): Tenant images are verified and copied, and kernels and templates are loaded. -/
  | tenantImagesLoaded (bad : List (Fin 64))
  /-- LOOM_START (R344): The Loom starts at tick edge n0, and tenants start two ticks later. -/
  | loomStart
  /-- POWER_FAIL_WARNING (R351): The power-fail warning cancels the swap, closes the gate, persists counters, flushes the log and drives the module to reset. -/
  | powerFailWarning (tm : Instant)
  /-- POWER_FAIL_RESET (R341): 10 ms after the warning the module resets and waits for power good. -/
  | powerFailReset (tm : Instant)
  /-- RAIL_FAULT (R372): A monitored rail stays outside its window for more than 10 µs, which is a module fault. -/
  | railFault (rail : Fin 16)
  /-- FAULT_RESTART (R342): After the fault log flush the module resets and reboots, or stays in Fault-halt. -/
  | faultRestart (tm : Instant)
  /-- THERMAL_HOLD (R341): A die sensor reaches 125 °C, and the power-fail sequence runs without loss of power. -/
  | thermalHold (tm : Instant)
  /-- THERMAL_RELEASE (R341): Every sensor has been below 100 °C for 60 s, so the module boots again. -/
  | thermalRelease
  /-- RETIRE_CORE (R356): HC_CMD retire core declares a core dead and lists it. -/
  | retireCore (p : Fin 72) (force : Bool)
  /-- RETIRE_HEDDLE_UNIT (R356): HC_CMD retire Heddle unit declares a unit dead and lists it. -/
  | retireHeddleUnit (u : Fin 17) (force : Bool)
  /-- SHADOW_NOW (R356): HC_CMD shadow moves the rotation to a named unit at the next tick edge. -/
  | shadowNow (place : ShadowTarget)
  /-- CLEAR_DEAD (R350): HC_CMD clear_dead empties the dead list from the next start-up. -/
  | clearDead
  /-- HC_RESET (R341): HC_CMD reset resets the module. -/
  | hcReset (tm : Instant)
  /-- CLEAR_CAUSE (R356): HC_CMD clear_cause clears HC_RESET_CAUSE. -/
  | clearCause
  /-- SRAM_SCRUB (R353): A background SRAM scrub pass corrects lines. -/
  | sramScrub (corrected : Nat) (addr : Nat)
  /-- DDR5_PATROL (R353): A background DDR5 patrol pass corrects or retires pages. -/
  | ddr5Patrol (retired : List Nat)
  /-- PANTRY_SCRUB (R353): A background Pantry scrub rewrites corrected words. -/
  | pantryScrub (corrected : List Nat)
  /-- TELEMETRY_RECORD (R354): Every 100 ms a telemetry record is written to the host ring and PF vector 21 is raised, or the record is dropped. -/
  | telemetryRecord (r : TelemetryIn) (tm : Instant)
  /-- INVENTORY (R365): The management command INVENTORY returns the identity words. -/
  | inventory (b : BusCmd)
  /-- ASSET (R365): The management command ASSET returns the asset tag. -/
  | asset (b : BusCmd)
  /-- HEALTH (R365): The management command HEALTH returns the state, cause, fault, time and temperatures. -/
  | health (b : BusCmd)
  /-- LOG_INFO (R365): The management command LOG_INFO returns the log generation, bounds and status. -/
  | logInfo (b : BusCmd)
  /-- LOG_SEL (R365): The management command LOG_SEL sets the bus log selector. -/
  | logSel (b : BusCmd)
  /-- LOG_READ (R365): The management command LOG_READ returns 32 octets of log memory and advances the selector. -/
  | logRead (b : BusCmd)
  /-- PWR_STATE (R365): The management command PWR_STATE returns the supply and module state. -/
  | pwrState (b : BusCmd)
  /-- PWR_ARM (R366): The management command PWR_ARM arms a power command for 1 s. -/
  | pwrArm (b : BusCmd) (tm : Instant)
  /-- PWR_SHUTDOWN (R366): A confirmed shutdown runs the power-fail sequence and holds the main domain off. -/
  | pwrShutdown (b : BusCmd) (tm : Instant)
  /-- PWR_POWER_ON (R366): A confirmed power on enables the main domain and starts start-up, or is refused. -/
  | pwrPowerOn (b : BusCmd) (tm : Instant)
  /-- PWR_RESET (R366): A confirmed reset acts as HC_CMD reset. -/
  | pwrReset (b : BusCmd) (tm : Instant)
  /-- STATUS_READ (R365): A read to the bus address alone returns the status of the last write command. -/
  | statusRead
  /-- BUS_TIMEOUT (R364): SCL held low for 35 ms makes the module release the bus and discard the transaction. -/
  | busTimeout
  /-- PAUSE_QUANTA_EXPIRY (R76): The pause time set by a received PFC or Clause 31 pause frame runs out, and the paused TC0–TC4 queue of the port becomes eligible again. -/
  | pauseQuantaExpiry (p : Fin 144) (tc : Fin 5)
  /-- CORE_SELF_TEST_TIMEOUT (R348): An active core's self-test has not completed 1 s after the mismatch while the spare has passed, so the spare takes over under R203 and the core finishes its test out of service. -/
  | coreSelfTestTimeout (r : SelfTestLate)
  /-- PAIR_LINK_LANE_DOWN (R286): A pair link lane Li goes down, lease messages move to the next lane that is up, and checkpoint bandwidth shrinks. -/
  | pairLinkLaneDown (i : Fin 4)
  /-- PAIR_LINK_LANE_UP (R271): A pair link lane Li comes up, PLU_STATUS.lanes shows it, and it carries lease messages and checkpoints again. -/
  | pairLinkLaneUp (i : Fin 4)
  /-- TAMPER_SOURCE_CLEARED (R302): A tripped tamper source returns to normal, for example the lid is closed and its latch is re-armed, and the source leaves KS_STATUS.trip_now. -/
  | tamperSourceCleared (src : Fin 5)
  /-- CLEAR_ARM_EXPIRY (R320): A log clear_arm that has not been confirmed within 1 s lapses, and LOG_STATUS.clear_armed clears. -/
  | clearArmExpiry (tm : Instant)
  /-- STANDBY_POWER_LOSS (R366): The 3.3 V standby supply is lost, the always-on domain stops, ROS values are lost, and a shutdown hold-off ends. -/
  | standbyPowerLoss
  /-- STANDBY_POWER_UP (R367): Standby power arrives alone, the always-on domain starts, the tamper logic reads the lid latch, and the management bus begins serving its standby commands. -/
  | standbyPowerUp (lidOpened lidOpen : Bool)
  /-- TEMP_WARN (R356): A die sensor reaches 110 °C, and HC_IRQ.temp_warn sets. -/
  | tempWarn (sensor : Fin 24) (t16 : BitVec 16)
  /-- QSFP28_MODULE_INSERTED (R371): A QSFP28 module is inserted in a front cage and, if it declares a power class above 3.5 W, is held in low-power mode with its four ports kept in Training. -/
  | qsfp28ModuleInserted (cage : Fin 12) (highPower : Bool)
deriving DecidableEq, Repr

end Sys2Proof
end

