-- ==== Sys2Proof/Decode.lean ====
section
/-!
DEFINITION. Reading words. The table of operations and events gives its rows no bits, so no word spells a command
(decodeTableWord). A Wormin instruction has a 32-bit word all the same (R126 to R129 and the instruction reference): the encoder
and the decoder of those words stand here, one case per major opcode and fn. What an operand field may hold is checked where the
instruction executes.
-/
namespace Sys2Proof

/-- The command a word spells by the bits of spec/opcode_table.json: no row gives any (log entry 1). -/
def decodeTableWord (_nbits _w : Nat) : Option Instr := none

/-! ## The five formats (R126) -/

/-- Format A: op, d, s1, s2, fn, pr from bit 31 down. -/
def wordA (op : BitVec 7) (fn : BitVec 7) (f : FmtA) : Word := op ++ f.d ++ f.s1 ++ f.s2 ++ fn ++ f.pr
/-- Format I: op, d, s1, imm12, pr. -/
def wordI (op : BitVec 7) (f : FmtI) : Word := op ++ f.d ++ f.s1 ++ f.imm ++ f.pr
/-- Format U: op, d, imm17, pr. -/
def wordU (op : BitVec 7) (f : FmtU) : Word := op ++ f.d ++ f.imm ++ f.pr
/-- Format M: op, d or s, base, off12, pr. -/
def wordM (op : BitVec 7) (f : FmtM) : Word := op ++ f.d ++ f.base ++ f.off ++ f.pr
/-- Format X: op, acc, mode, s1, s2, fn, pr. -/
def wordX (op : BitVec 7) (fn : BitVec 7) (f : FmtX) : Word := op ++ f.acc ++ f.mode ++ f.s1 ++ f.s2 ++ fn ++ f.pr

/-- Major opcode and fn of a word. -/
def opField (w : Word) : BitVec 7 := w.extractLsb' 25 7
def fnField (w : Word) : BitVec 7 := w.extractLsb' 3 7

def fieldsA (w : Word) : FmtA := ⟨w.extractLsb' 0 3, w.extractLsb' 20 5, w.extractLsb' 15 5, w.extractLsb' 10 5⟩
def fieldsI (w : Word) : FmtI := ⟨w.extractLsb' 0 3, w.extractLsb' 20 5, w.extractLsb' 15 5, w.extractLsb' 3 12⟩
def fieldsU (w : Word) : FmtU := ⟨w.extractLsb' 0 3, w.extractLsb' 20 5, w.extractLsb' 3 17⟩
def fieldsM (w : Word) : FmtM := ⟨w.extractLsb' 0 3, w.extractLsb' 20 5, w.extractLsb' 15 5, w.extractLsb' 3 12⟩
def fieldsX (w : Word) : FmtX :=
  ⟨w.extractLsb' 0 3, w.extractLsb' 23 2, w.extractLsb' 20 3, w.extractLsb' 15 5, w.extractLsb' 10 5⟩

/-! ## Decoding (R126, R129) -/

/-- The instructions that a tick core and a Heddle unit share, and those of a Heddle unit. -/
def decodeShared (x : Who) (w : Word) : Option Instr :=
  match (opField w).toNat with
  | 0x0 =>
    match (fnField w).toNat with
    | 0x0 => some (.add x (fieldsA w))
    | 0x1 => some (.sub x (fieldsA w))
    | 0x2 => some (.and x (fieldsA w))
    | 0x3 => some (.or x (fieldsA w))
    | 0x4 => some (.xor x (fieldsA w))
    | 0x5 => some (.sll x (fieldsA w))
    | 0x6 => some (.srl x (fieldsA w))
    | 0x7 => some (.sra x (fieldsA w))
    | 0x8 => some (.min x (fieldsA w))
    | 0x9 => some (.max x (fieldsA w))
    | 0xa => some (.minu x (fieldsA w))
    | 0xb => some (.maxu x (fieldsA w))
    | 0xc => some (.adds x (fieldsA w))
    | 0xd => some (.subs x (fieldsA w))
    | 0xe => some (.addus x (fieldsA w))
    | 0xf => some (.subus x (fieldsA w))
    | 0x10 => some (.mul x (fieldsA w))
    | 0x11 => some (.mulh x (fieldsA w))
    | 0x12 => some (.mulhu x (fieldsA w))
    | 0x13 => some (.abss x (fieldsA w))
    | 0x14 => some (.clz x (fieldsA w))
    | 0x15 => some (.popc x (fieldsA w))
    | 0x16 => some (.sexb x (fieldsA w))
    | 0x17 => some (.sexh x (fieldsA w))
    | 0x18 => some (.zexh x (fieldsA w))
    | _ => none
  | 0x1 => some (.addi x (fieldsI w))
  | 0x2 => some (.andi x (fieldsI w))
  | 0x3 => some (.ori x (fieldsI w))
  | 0x4 => some (.xori x (fieldsI w))
  | 0x5 => some (.slli x (fieldsI w))
  | 0x6 => some (.srli x (fieldsI w))
  | 0x7 => some (.srai x (fieldsI w))
  | 0x8 => some (.lui x (fieldsU w))
  | 0x9 => some (.llo x (fieldsU w))
  | 0xa =>
    match (fnField w).toNat with
    | 0x0 => some (.ceq x (fieldsA w))
    | 0x1 => some (.cne x (fieldsA w))
    | 0x2 => some (.clt x (fieldsA w))
    | 0x3 => some (.cle x (fieldsA w))
    | 0x4 => some (.cltu x (fieldsA w))
    | 0x5 => some (.cleu x (fieldsA w))
    | 0x6 => some (.ctst x (fieldsA w))
    | _ => none
  | 0xb => some (.cmpi x (fieldsI w))
  | 0xc =>
    match (fnField w).toNat with
    | 0x0 => some (.pand x (fieldsA w))
    | 0x1 => some (.por x (fieldsA w))
    | 0x2 => some (.pxor x (fieldsA w))
    | 0x3 => some (.pandn x (fieldsA w))
    | 0x4 => some (.pfrom x (fieldsA w))
    | 0x5 => some (.pto x (fieldsA w))
    | _ => none
  | 0x10 =>
    match (fnField w).toNat with
    | 0x0 => some (.macq x (fieldsX w))
    | 0x1 => some (.macq31 x (fieldsX w))
    | 0x2 => some (.accq15 x (fieldsX w))
    | 0x3 => some (.accq31 x (fieldsX w))
    | 0x4 => some (.magsq x (fieldsX w))
    | 0x5 => some (.ashr x (fieldsX w))
    | 0x6 => some (.amov x (fieldsX w))
    | _ => none
  | 0x11 =>
    match (fnField w).toNat with
    | 0x0 => some (.sdft x (fieldsX w))
    | _ => none
  | 0x12 =>
    match (fnField w).toNat with
    | 0x0 => some (.mulq x (fieldsA w))
    | 0x1 => some (.addq x (fieldsA w))
    | 0x2 => some (.subq x (fieldsA w))
    | 0x3 => some (.negq x (fieldsA w))
    | 0x4 => some (.absq x (fieldsA w))
    | 0x5 => some (.atan2 x (fieldsA w))
    | 0x8 => some (.mulq31 x (fieldsA w))
    | 0x9 => some (.addq31 x (fieldsA w))
    | 0xa => some (.subq31 x (fieldsA w))
    | 0xb => some (.negq31 x (fieldsA w))
    | 0xc => some (.absq31 x (fieldsA w))
    | 0xd => some (.q31toq15 x (fieldsA w))
    | _ => none
  | 0x13 =>
    match (fnField w).toNat with
    | 0x0 => some (.rndq15 x (fieldsA w))
    | 0x1 => some (.rndq31 x (fieldsA w))
    | _ => none
  | 0x58 => some (.hget x (fieldsI w))
  | 0x59 => some (.hld x (fieldsM w))
  | 0x5a => some (.hst x (fieldsM w))
  | 0x5b => some (.trip x (fieldsI w))
  | 0x5c => some (.tripbc x (fieldsI w))
  | 0x5d => some (.hmark x (fieldsI w))
  | 0x5e => some (.hpass x (fieldsI w))
  | _ => none

/-- The instructions that only a tick core executes. -/
def decodeTick (l : Fin 64) (w : Word) : Option Instr :=
  match (opField w).toNat with
  | 0xd =>
    match (fnField w).toNat with
    | 0x0 => some (.div l (fieldsA w))
    | 0x1 => some (.divu l (fieldsA w))
    | 0x2 => some (.rem l (fieldsA w))
    | 0x3 => some (.remu l (fieldsA w))
    | _ => none
  | 0xe => some (.rdsr l (fieldsI w))
  | 0xf => some (.clrf l (fieldsI w))
  | 0x20 =>
    match (fnField w).toNat with
    | 0x0 => some (.fadd l (fieldsA w))
    | 0x1 => some (.fsub l (fieldsA w))
    | 0x2 => some (.fmul l (fieldsA w))
    | 0x3 => some (.fdiv l (fieldsA w))
    | 0x4 => some (.fsqrt l (fieldsA w))
    | 0x5 => some (.fmin l (fieldsA w))
    | 0x6 => some (.fmax l (fieldsA w))
    | 0x7 => some (.fneg l (fieldsA w))
    | 0x8 => some (.fabs l (fieldsA w))
    | 0x9 => some (.fmac l (fieldsA w))
    | _ => none
  | 0x21 =>
    match (fnField w).toNat with
    | 0x0 => some (.fceq l (fieldsA w))
    | 0x1 => some (.fclt l (fieldsA w))
    | 0x2 => some (.fcle l (fieldsA w))
    | 0x3 => some (.fcun l (fieldsA w))
    | _ => none
  | 0x22 =>
    match (fnField w).toNat with
    | 0x0 => some (.fcvtw l (fieldsA w))
    | 0x1 => some (.fcvtwt l (fieldsA w))
    | 0x2 => some (.fcvtwu l (fieldsA w))
    | 0x3 => some (.fcvtwut l (fieldsA w))
    | 0x4 => some (.fcvtq15 l (fieldsA w))
    | 0x5 => some (.fcvtq15t l (fieldsA w))
    | 0x6 => some (.fcvtq31 l (fieldsA w))
    | 0x7 => some (.fcvtq31t l (fieldsA w))
    | 0x8 => some (.fcvtsw l (fieldsA w))
    | 0x9 => some (.fcvtswu l (fieldsA w))
    | 0xa => some (.fcvtsq15 l (fieldsA w))
    | 0xb => some (.fcvtsq31 l (fieldsA w))
    | _ => none
  | 0x30 => some (.lb l (fieldsM w))
  | 0x31 => some (.lbu l (fieldsM w))
  | 0x32 => some (.lh l (fieldsM w))
  | 0x33 => some (.lhu l (fieldsM w))
  | 0x34 => some (.lw l (fieldsM w))
  | 0x35 => some (.ld l (fieldsM w))
  | 0x36 => some (.sb l (fieldsM w))
  | 0x37 => some (.sh l (fieldsM w))
  | 0x38 => some (.sw l (fieldsM w))
  | 0x39 => some (.sd l (fieldsM w))
  | 0x3a => some (.la l (fieldsM w))
  | 0x3b => some (.sa l (fieldsM w))
  | 0x3c => some (.pfsm l (fieldsM w))
  | 0x3d =>
    match (fnField w).toNat with
    | 0x0 => some (.waitsm l (fieldsA w))
    | _ => none
  | 0x3e => some (.lrow l (fieldsA w) (fnField w))
  | 0x3f => some (.limg l (fieldsI w))
  | 0x40 => some (.br l (fieldsU w))
  | 0x41 => some (.call l (fieldsU w))
  | 0x42 => some (.jr l (fieldsI w))
  | 0x43 => some (.callr l (fieldsI w))
  | 0x48 =>
    match (fnField w).toNat with
    | 0x0 => some (.tend l (fieldsA w))
    | _ => none
  | 0x49 => some (.txw l (fieldsM w))
  | 0x4a => some (.txwd l (fieldsM w))
  | 0x4b =>
    match (fnField w).toNat with
    | 0 => some (.txpub l (fieldsA w) false)
    | 1 => some (.txpub l (fieldsA w) true)
    | _ => none
  | 0x4c =>
    match (fnField w).toNat with
    | 0x0 => some (.txout l (fieldsA w))
    | _ => none
  | 0x4d =>
    match (fnField w).toNat with
    | 0 => some (.txarm l (fieldsA w) false)
    | 1 => some (.txarm l (fieldsA w) true)
    | _ => none
  | 0x4e =>
    match (fnField w).toNat with
    | 0x0 => some (.txabort l (fieldsA w))
    | _ => none
  | 0x50 =>
    match (fnField w).toNat with
    | 0x0 => some (.ceval l (fieldsA w))
    | _ => none
  | 0x51 =>
    match (fnField w).toNat with
    | 0x0 => some (.cset l (fieldsA w))
    | 0x1 => some (.csett l (fieldsA w))
    | _ => none
  | 0x52 =>
    match (fnField w).toNat with
    | 0x0 => some (.cget l (fieldsA w))
    | _ => none
  | 0x53 =>
    match (fnField w).toNat with
    | 0x0 => some (.cinj l (fieldsA w))
    | _ => none
  | 0x70 => some (.srd l (fieldsI w))
  | 0x71 =>
    match (fnField w).toNat with
    | 0x0 => some (.swr l (fieldsA w))
    | _ => none
  | 0x72 =>
    match (fnField w).toNat with
    | 0x0 => some (.sfence l (fieldsA w))
    | _ => none
  | 0x73 =>
    match (fnField w).toNat with
    | 0x0 => some (.txswr l (fieldsA w))
    | _ => none
  | _ => none

/-- The instruction a word spells on its executor; none where the major opcode or its fn is not defined there. -/
def decodeWormin (x : Who) (w : Word) : Option Instr :=
  match x with
  | .core l => (decodeShared x w).or (decodeTick l w)
  | .record _ _ => decodeShared x w

/-! ## Encoding (R126, R129) -/

/-- The word of a Wormin instruction with its executor; none for a command that is no instruction. -/
def encodeWormin : Instr → Option (Who × Word)
  | .add x f => some (x, wordA 0x0 0x0 f)
  | .sub x f => some (x, wordA 0x0 0x1 f)
  | .and x f => some (x, wordA 0x0 0x2 f)
  | .or x f => some (x, wordA 0x0 0x3 f)
  | .xor x f => some (x, wordA 0x0 0x4 f)
  | .sll x f => some (x, wordA 0x0 0x5 f)
  | .srl x f => some (x, wordA 0x0 0x6 f)
  | .sra x f => some (x, wordA 0x0 0x7 f)
  | .min x f => some (x, wordA 0x0 0x8 f)
  | .max x f => some (x, wordA 0x0 0x9 f)
  | .minu x f => some (x, wordA 0x0 0xa f)
  | .maxu x f => some (x, wordA 0x0 0xb f)
  | .adds x f => some (x, wordA 0x0 0xc f)
  | .subs x f => some (x, wordA 0x0 0xd f)
  | .addus x f => some (x, wordA 0x0 0xe f)
  | .subus x f => some (x, wordA 0x0 0xf f)
  | .mul x f => some (x, wordA 0x0 0x10 f)
  | .mulh x f => some (x, wordA 0x0 0x11 f)
  | .mulhu x f => some (x, wordA 0x0 0x12 f)
  | .abss x f => some (x, wordA 0x0 0x13 f)
  | .clz x f => some (x, wordA 0x0 0x14 f)
  | .popc x f => some (x, wordA 0x0 0x15 f)
  | .sexb x f => some (x, wordA 0x0 0x16 f)
  | .sexh x f => some (x, wordA 0x0 0x17 f)
  | .zexh x f => some (x, wordA 0x0 0x18 f)
  | .addi x f => some (x, wordI 0x1 f)
  | .andi x f => some (x, wordI 0x2 f)
  | .ori x f => some (x, wordI 0x3 f)
  | .xori x f => some (x, wordI 0x4 f)
  | .slli x f => some (x, wordI 0x5 f)
  | .srli x f => some (x, wordI 0x6 f)
  | .srai x f => some (x, wordI 0x7 f)
  | .lui x f => some (x, wordU 0x8 f)
  | .llo x f => some (x, wordU 0x9 f)
  | .ceq x f => some (x, wordA 0xa 0x0 f)
  | .cne x f => some (x, wordA 0xa 0x1 f)
  | .clt x f => some (x, wordA 0xa 0x2 f)
  | .cle x f => some (x, wordA 0xa 0x3 f)
  | .cltu x f => some (x, wordA 0xa 0x4 f)
  | .cleu x f => some (x, wordA 0xa 0x5 f)
  | .ctst x f => some (x, wordA 0xa 0x6 f)
  | .cmpi x f => some (x, wordI 0xb f)
  | .pand x f => some (x, wordA 0xc 0x0 f)
  | .por x f => some (x, wordA 0xc 0x1 f)
  | .pxor x f => some (x, wordA 0xc 0x2 f)
  | .pandn x f => some (x, wordA 0xc 0x3 f)
  | .pfrom x f => some (x, wordA 0xc 0x4 f)
  | .pto x f => some (x, wordA 0xc 0x5 f)
  | .div l f => some (.core l, wordA 0xd 0x0 f)
  | .divu l f => some (.core l, wordA 0xd 0x1 f)
  | .rem l f => some (.core l, wordA 0xd 0x2 f)
  | .remu l f => some (.core l, wordA 0xd 0x3 f)
  | .rdsr l f => some (.core l, wordI 0xe f)
  | .clrf l f => some (.core l, wordI 0xf f)
  | .macq x f => some (x, wordX 0x10 0x0 f)
  | .macq31 x f => some (x, wordX 0x10 0x1 f)
  | .accq15 x f => some (x, wordX 0x10 0x2 f)
  | .accq31 x f => some (x, wordX 0x10 0x3 f)
  | .magsq x f => some (x, wordX 0x10 0x4 f)
  | .ashr x f => some (x, wordX 0x10 0x5 f)
  | .amov x f => some (x, wordX 0x10 0x6 f)
  | .sdft x f => some (x, wordX 0x11 0x0 f)
  | .mulq x f => some (x, wordA 0x12 0x0 f)
  | .addq x f => some (x, wordA 0x12 0x1 f)
  | .subq x f => some (x, wordA 0x12 0x2 f)
  | .negq x f => some (x, wordA 0x12 0x3 f)
  | .absq x f => some (x, wordA 0x12 0x4 f)
  | .atan2 x f => some (x, wordA 0x12 0x5 f)
  | .mulq31 x f => some (x, wordA 0x12 0x8 f)
  | .addq31 x f => some (x, wordA 0x12 0x9 f)
  | .subq31 x f => some (x, wordA 0x12 0xa f)
  | .negq31 x f => some (x, wordA 0x12 0xb f)
  | .absq31 x f => some (x, wordA 0x12 0xc f)
  | .q31toq15 x f => some (x, wordA 0x12 0xd f)
  | .rndq15 x f => some (x, wordA 0x13 0x0 f)
  | .rndq31 x f => some (x, wordA 0x13 0x1 f)
  | .fadd l f => some (.core l, wordA 0x20 0x0 f)
  | .fsub l f => some (.core l, wordA 0x20 0x1 f)
  | .fmul l f => some (.core l, wordA 0x20 0x2 f)
  | .fdiv l f => some (.core l, wordA 0x20 0x3 f)
  | .fsqrt l f => some (.core l, wordA 0x20 0x4 f)
  | .fmin l f => some (.core l, wordA 0x20 0x5 f)
  | .fmax l f => some (.core l, wordA 0x20 0x6 f)
  | .fneg l f => some (.core l, wordA 0x20 0x7 f)
  | .fabs l f => some (.core l, wordA 0x20 0x8 f)
  | .fmac l f => some (.core l, wordA 0x20 0x9 f)
  | .fceq l f => some (.core l, wordA 0x21 0x0 f)
  | .fclt l f => some (.core l, wordA 0x21 0x1 f)
  | .fcle l f => some (.core l, wordA 0x21 0x2 f)
  | .fcun l f => some (.core l, wordA 0x21 0x3 f)
  | .fcvtw l f => some (.core l, wordA 0x22 0x0 f)
  | .fcvtwt l f => some (.core l, wordA 0x22 0x1 f)
  | .fcvtwu l f => some (.core l, wordA 0x22 0x2 f)
  | .fcvtwut l f => some (.core l, wordA 0x22 0x3 f)
  | .fcvtq15 l f => some (.core l, wordA 0x22 0x4 f)
  | .fcvtq15t l f => some (.core l, wordA 0x22 0x5 f)
  | .fcvtq31 l f => some (.core l, wordA 0x22 0x6 f)
  | .fcvtq31t l f => some (.core l, wordA 0x22 0x7 f)
  | .fcvtsw l f => some (.core l, wordA 0x22 0x8 f)
  | .fcvtswu l f => some (.core l, wordA 0x22 0x9 f)
  | .fcvtsq15 l f => some (.core l, wordA 0x22 0xa f)
  | .fcvtsq31 l f => some (.core l, wordA 0x22 0xb f)
  | .lb l f => some (.core l, wordM 0x30 f)
  | .lbu l f => some (.core l, wordM 0x31 f)
  | .lh l f => some (.core l, wordM 0x32 f)
  | .lhu l f => some (.core l, wordM 0x33 f)
  | .lw l f => some (.core l, wordM 0x34 f)
  | .ld l f => some (.core l, wordM 0x35 f)
  | .sb l f => some (.core l, wordM 0x36 f)
  | .sh l f => some (.core l, wordM 0x37 f)
  | .sw l f => some (.core l, wordM 0x38 f)
  | .sd l f => some (.core l, wordM 0x39 f)
  | .la l f => some (.core l, wordM 0x3a f)
  | .sa l f => some (.core l, wordM 0x3b f)
  | .pfsm l f => some (.core l, wordM 0x3c f)
  | .waitsm l f => some (.core l, wordA 0x3d 0x0 f)
  | .lrow l f sel => some (.core l, wordA 0x3e sel f)
  | .limg l f => some (.core l, wordI 0x3f f)
  | .br l f => some (.core l, wordU 0x40 f)
  | .call l f => some (.core l, wordU 0x41 f)
  | .jr l f => some (.core l, wordI 0x42 f)
  | .callr l f => some (.core l, wordI 0x43 f)
  | .tend l f => some (.core l, wordA 0x48 0x0 f)
  | .txw l f => some (.core l, wordM 0x49 f)
  | .txwd l f => some (.core l, wordM 0x4a f)
  | .txpub l f b => some (.core l, wordA 0x4b (if b then 1 else 0) f)
  | .txout l f => some (.core l, wordA 0x4c 0x0 f)
  | .txarm l f b => some (.core l, wordA 0x4d (if b then 1 else 0) f)
  | .txabort l f => some (.core l, wordA 0x4e 0x0 f)
  | .ceval l f => some (.core l, wordA 0x50 0x0 f)
  | .cset l f => some (.core l, wordA 0x51 0x0 f)
  | .csett l f => some (.core l, wordA 0x51 0x1 f)
  | .cget l f => some (.core l, wordA 0x52 0x0 f)
  | .cinj l f => some (.core l, wordA 0x53 0x0 f)
  | .hget x f => some (x, wordI 0x58 f)
  | .hld x f => some (x, wordM 0x59 f)
  | .hst x f => some (x, wordM 0x5a f)
  | .trip x f => some (x, wordI 0x5b f)
  | .tripbc x f => some (x, wordI 0x5c f)
  | .hmark x f => some (x, wordI 0x5d f)
  | .hpass x f => some (x, wordI 0x5e f)
  | .srd l f => some (.core l, wordI 0x70 f)
  | .swr l f => some (.core l, wordA 0x71 0x0 f)
  | .sfence l f => some (.core l, wordA 0x72 0x0 f)
  | .txswr l f => some (.core l, wordA 0x73 0x0 f)
  | .registerWrite _ _ _ | .wearRemap _ | .frameReceive _ _ _ | .tagVerdict _ | .egressDequeue _ _ | .frameSent _ _
  | .pfcRepeat | .swcPCfgWrite _ _ | .swcPMacsecWrite _ _ | .blockLock _ _ | .trainingTimeout _ | .lossOfLock _
  | .verifyAttemptTimeout _ | .verifyResponse _ | .fenceAutoRelease _ _ | .fenceRelease _ | .swcPLatch _ _ _
  | .fdbRead | .fdbWriteStatic | .fdbDelete | .fdbFlushLearned | .fdbAgeOut _ _ _ | .vlanWrite | .vlanRead
  | .swcOvfCfgWrite _ | .colMatchRead | .colMatchWrite | .colMatchInvalidate | .colPairmodeWrite _ _
  | .dupEntryForget _ _ _ | .tickEdge | .programWindowOpen | .watchdog _ | .deadline | .swap | .commitComplete
  | .dopCopyDone | .arbiterGrant _ | .quotaWindow | .ddr5Grant _ | .pairLinkWriteReceive _ | .creditReturn _
  | .partitionEntryWrite _ _ _ | .smaBClr _ _ | .smaDClr _ _ | .uncorrectableError _ | .ddr5ChannelLost _
  | .historyWrite | .historyRebuildDone | .loopbackAsdu _ | .pbStart | .pbStop | .loomCtrlWrite _
  | .loomTransitWrite _ | .loomWCfgWrite _ _ | .recordDispatch _ | .recordExit _ _ | .releaseRequest _ | .vbaHoldEnd _
  | .retransmission _ _ | .goosePublish _ _ | .svPublish _ | .slotRead | .slotWrite | .slotClear | .truCtrlWrite _
  | .truRetxWrite _ | .kernelLoad _ _ | .hdlBindingWrite _ _ _ | .gateWrite _ _ _ _ | .gateVselWrite _ _ _
  | .stateWordWrite _ _ | .hdlUCtrlWrite _ _ | .evtPop _ | .shadowPeriodStart | .shadowCopyDone | .bistComplete _ _ _
  | .heddleRestoreDone | .coreLost _ | .spareReady _ | .coreShadowRotation _ | .start _ | .stop _ | .enterTest _
  | .leaveTest _ | .fence _ | .unfence _ | .cmtTTolWrite _ _ | .cmtCfgWrite _ | .dopSubmit | .dopCancel
  | .apertureWrite _ _ | .loopWordWrite _ _ _ _ | .cluLOwnWrite _ _ _ | .cluSgMembWrite _ _ _ | .injCmd _ _
  | .capArm _ _ | .capStop _ _ | .capRead _ _ | .cluCapCtrlWrite _ _ _ | .pcieLinkChange _ | .vfFlr _ | .pfFlr
  | .numvfsChange _ | .commandAbandon _ _ | .dbMbSend _ | .dbMbAck _ | .mbxSend _ | .mbxAck _ | .dbSqTail _ _ _ _
  | .dbCqHead _ _ _ | .queueEnable _ _ _ | .nop _ _ | .imgPut _ _ _ _ | .imgLoad _ _ _ | .ciRead _ _
  | .ciReadAttempt _ _ _ | .queueCompletion _ _ | .grantOpen _ | .grantCommit | .grantDiscard | .ownershipWrite _ _ _
  | .unload _ | .configRecordWritten | .leaseRenewal _ | .renewal _ _ _ | .acknowledgement _ _ _ | .yield _ _ _
  | .ready _ _ _ | .refuse _ _ _ | .swapFailed _ _ _ | .leaseExpiry _ | .takeover _ | .takeoverQuietCheck _
  | .quietChange _ _ _ | .restoreComplete | .checkpointPageReceive _ | .checkpointClose _ | .checkpointSent
  | .plannedSwapDue | .pairSwap | .pairFence | .pairUnfence _ | .solo _ | .leaveSolo | .pluEpochWrite _
  | .pluTClassWrite _ _ | .pluLeaseWrite _ | .ksGen _ | .ksUnwrap _ | .ksPubimp _ | .ksDerive _ | .ksSwap _
  | .ksDiscard _ | .ksErase _ | .ksReadpub _ | .ksSign _ | .ksVerify _ | .ksHmac _ | .ksHmacv _ | .ksOwner _
  | .provArm _ | .provConfirm _ | .provArmExpiry _ | .ksCommandDone | .ksBindingRead | .ksBindingWrite
  | .ksBindingClear | .ksOwnWrite _ _ | .keyRecordSaved | .tamperTrip _ | .logFlush _ | .logFlushDone | .clearArm _ _
  | .clearConfirm _ _ | .sectorEraseDone | .logFreezeWrite _ _ _ | .freezeTimeout _ _ | .logCurAdv _
  | .logReadVerify _ _ _ | .counterPersist _ | .archiveValueWritten _ | .archiveIndexWritten _ | .driveRemove _
  | .driveInsert _ _ | .formatDrive _ | .formatAll | .archiveTransfer _ | .transferDone _ | .biTransition _ _ _
  | .debounceExpiry _ _ | .chatterRelease _ _ | .fioEdgePop | .fioBiGrantWrite _ _ | .bcOwnWrite _ _
  | .inhibitTimer _ _ | .minTripExpiry _ _ | .currentLimit _ _ _ _ | .limitTimeout _ _ _ | .retryTimeout _ _ _
  | .clrLatch _ | .supplyChange _ _ _ | .supervisionPulse _ _ _ | .supervisionPulseEnd _ _ _ _
  | .lowCurrentTimeout _ _ _ | .announceReceive _ _ _ | .syncReceive _ _ _ _ | .pdelayReceive _ _ _
  | .ptpTransmit _ _ _ | .announceTimeout _ | .referenceLost _ | .ppsInEdge _ | .irigBFrame _ _ | .slewDone _
  | .holdoverSpecExpiry _ | .ppsOut | .ppsOutEnd | .timeCtrlWrite _ | .timePtpcfgWrite _ | .timeTickcfgWrite _
  | .timeLatch _ _ | .timeSetGo _ _ | .timeEdgePop _ | .timestampCalibration _ | .ocxoAgeingUpdate _
  | .gooseTalExpiry _ _ | .powerGood _ | .bootImageVerified _ _ | .selfTestComplete _ | .ddr5Trained _
  | .keyStoreUnlock _ | .configRestored _ | .tenantImagesLoaded _ | .loomStart | .powerFailWarning _
  | .powerFailReset _ | .railFault _ | .faultRestart _ | .thermalHold _ | .thermalRelease | .retireCore _ _
  | .retireHeddleUnit _ _ | .shadowNow _ | .clearDead | .hcReset _ | .clearCause | .sramScrub _ _ | .ddr5Patrol _
  | .pantryScrub _ | .telemetryRecord _ _ | .inventory _ | .asset _ | .health _ | .logInfo _ | .logSel _ | .logRead _
  | .pwrState _ | .pwrArm _ _ | .pwrShutdown _ _ | .pwrPowerOn _ _ | .pwrReset _ _ | .statusRead | .busTimeout
  | .pauseQuantaExpiry _ _ | .coreSelfTestTimeout _ | .pairLinkLaneDown _ | .pairLinkLaneUp _ | .tamperSourceCleared _
  | .clearArmExpiry _ | .standbyPowerLoss | .standbyPowerUp _ _ | .tempWarn _ _ | .qsfp28ModuleInserted _ _
      => none

end Sys2Proof
end

