-- ==== Sys2Proof/Config.lean ====
section
/-!
DEFINITION. What an implementation fixes and the values the manual leaves open. Every free value is an opaque
constant applied to a counter held in State (log entry 2) or to the operands it depends on: nothing in the model
constrains it.
-/
namespace Sys2Proof

/-- Free 32-bit values (log entry 2): an open value is this constant applied to State.freeCtr. -/
opaque Config.freeWord : Nat → BitVec 32
/-- Free bytes (log entry 2), applied to the place read: scratch memory that no instruction has written (R116). -/
opaque Config.freeScratch : Nat → Nat → Nat → BitVec 8
/-- The rate correction the OCXO ageing model gives (R37, R311: the model's format is not given). -/
opaque Config.rateOfAgeing : BitVec 32 → BitVec 32
/-- The hash bucket of a forwarding entry (R70: the hash is not given). -/
opaque Config.fdbHash : BitVec 12 → BitVec 48 → Nat
/-- The error, in LSB, of an ATAN2 result within the 2 LSB of R136, by operands. -/
opaque Config.atan2Err : BitVec 16 → BitVec 16 → BitVec 32
/-- The error, in LSB, of the injection sine within the accuracy of R228, by phase word. -/
opaque Config.sineErr : BitVec 32 → BitVec 32

/-- IPv4 source address of a port (R32: no register of the port configuration holds it). -/
opaque Config.portIp : Nat → BitVec 32
/-- Whether the integrator places the PTP event messages a port sends under MACsec protection (R36). -/
opaque Config.ptpProtected : Nat → Bool
/-- Replay window of a port's receive associations, 0 to 2^32 − 1 (R68: no register holds it). -/
opaque Config.replayWindow : Nat → BitVec 32
/-- Which of its two bound associations a port transmits with (R68: not given). -/
opaque Config.macsecTx : Nat → Bool
/-- Octets of a SecTAG and ICV (R68; IEEE 802.1AE). -/
opaque Config.secTagLen : Nat

/-- How far the DDR5 overflow writer may lag behind what has arrived, in clock units (R73: the tolerance of the write rate is not
given). -/
opaque Config.ovfBurst : Nat

/-- Octets of a sampled-value frame, by its format, ASDUs, values per ASDU and svID length (R106: the manual gives no octet
layout). -/
opaque Config.svLen : Nat → Nat → Nat → Nat → Nat

/-- Source MAC address of a playback stream's frames (R106 gives none). -/
opaque Config.streamSrc : Nat → BitVec 48
/-- DDR5 channel of a DDR5 offset (R242: the interleave is not given). -/
opaque Config.ddrChannel : Nat → Nat

/-- The error of a sweep's phase increment within the 2^-20 of R228, by INJ_F0, INJ_F1, INJ_DUR and evaluation. -/
opaque Config.sweepErr : Nat → Nat → Nat → Nat → BitVec 64
/-- Number of the last member of a publication's dataset, modulo 64 (R148: where the dataset is declared is not given), by
publication. -/
opaque Config.pubLastMember : Nat → Nat

/-! What the publishers send (R177, R190, R194): addresses, identifiers, ports and the encoding of a dataset are not given.
Publications 0 to 1023 are GOOSE, 1024 to 1151 SV. -/
opaque Config.pubDst : Nat → BitVec 48
opaque Config.pubSrc : Nat → BitVec 48
opaque Config.pubVid : Nat → BitVec 12
opaque Config.pubPcp : Nat → Nat
opaque Config.pubAppid : Nat → Nat
opaque Config.pubRef : Nat → List (BitVec 8)
opaque Config.pubConfRev : Nat → BitVec 32
/-- timeAllowedToLive of a publication, in ms. -/
opaque Config.pubTal : Nat → Nat
/-- Port group of a publication. -/
opaque Config.pubGroup : Nat → Nat
/-- Octets of a publication's frame, by its dataset words. -/
opaque Config.pubLen : Nat → List (BitVec 32) → Nat
/-- allData of a publication, by its dataset words (value, quality, member by member). -/
opaque Config.allData : Nat → List (BitVec 32) → List (BitVec 8)
/-- allData without its last member. -/
opaque Config.dropLast : List (BitVec 8) → List (BitVec 8)
/-- Octets of the IEC 62351-6 extension (R172: its size is not given). -/
opaque Config.tagLen : Nat

/-- Whether FP32 tininess is judged after rounding (IEEE 754 leaves it to the implementation; log entry 10). -/
opaque Config.tinyAfterRounding : Bool

/-! The cryptographic primitives (R288 to R292, R298): standard algorithms, held as uninterpreted functions
(log entry 5). Keys, messages and tags are octet strings. -/
/-- HMAC-SHA-256 of a message under a key: 32 octets. -/
opaque Config.hmacSha256 : List Byte → List Byte → List Byte
/-- AES-GMAC tag of a message under a key with an initialisation vector: 16 octets. -/
opaque Config.gmac : List Byte → List Byte → List Byte → List Byte
/-- GCM ICV of a MACsec frame (R68, R296) under a key, salt, SSCI and packet number, over the frame's octets. -/
opaque Config.macsecIcv : List Byte → List Byte → BitVec 32 → Nat → List Byte → List Byte
/-- Initialisation vector of a lease message's tag (R271: not given), by sequence number. -/
opaque Config.leaseIv : Nat → List Byte
/-- AES-ECB of 16 zero octets under a key (R291). -/
opaque Config.aesZero : List Byte → List Byte
/-- The x-coordinate of the shared point of a private key and a peer point (R293). -/
opaque Config.ecdh : List Byte → List Byte → List Byte
/-- SHA-384 digest. -/
opaque Config.sha384 : List Byte → List Byte
/-- SHA-256 digest. -/
opaque Config.sha256 : List Byte → List Byte
/-- AES key unwrap (RFC 3394/5649 kind): none when the integrity check fails. -/
opaque Config.keyUnwrap : List Byte → List Byte → Option (List Byte)
/-- The public point of a private key, P-256 or P-384 by the key's length. -/
opaque Config.ecPublic : List Byte → List Byte
/-- Whether a point lies on its curve. -/
opaque Config.ecOnCurve : List Byte → Bool
/-- ECDSA signature of a digest under a private key with a nonce counter. -/
opaque Config.ecSign : List Byte → List Byte → Nat → List Byte
/-- ECDSA verification of a signature over a digest under a public point. -/
opaque Config.ecVerify : List Byte → List Byte → List Byte → Bool
/-- A random octet of the true random number generator, by draw number. -/
opaque Config.trngByte : Nat → BitVec 8
/-- The backplane position is that of Module B (R287). -/
opaque Config.moduleB : Bool
/-- The three geographic address pins of the backplane connector (R364): GA is this number modulo 8. -/
opaque Config.geoAddr : Nat

end Sys2Proof
end

