-- ==== Sys2Proof/Machine/State.lean ====
section
/-!
DEFINITION. The state of the PNM-9144 block: every register (one sparse table keyed by PF BAR0 offset, Machine/Regs.lean
gives the map), every memory, queue, buffer, counter, mode and pin behind the registers, and the queue of waiting commands.
Plain data throughout.
-/
namespace Sys2Proof.Machine

/-- Faults of the block. A module fault of the part is a state the part enters (R342), not a stop of the model. -/
inductive Fault where
  /-- No meaning raises it: the manual gives the block no event that ends its behaviour. Safe. -/
  | unreachable
deriving DecidableEq, Repr

/-- Why a command has no meaning. -/
inductive Refusal where
  /-- Raised only by arms of Machine/Dispatch.lean for commands without a meaning. Safe. -/
  | notModelled (mnemonic : String)
deriving DecidableEq, Repr

/-! ## Time Unit (chapter 02) -/

/-- A pending step of R40: k whole tick periods, the residue in clock units, and whether it waits for the top of a
second (TIME_SET). -/
structure PendStep where
  k : Int
  rho : Int
  top : Bool
deriving DecidableEq, Repr

/-- One entry of the timing edge ring (R50). -/
structure TimeEdge where
  stamp : Instant
  irig : Bool
deriving DecidableEq, Repr

/-- The Time Unit behind its registers. -/
structure TimeUnit where
  /-- number of the current tick (R45) -/
  tick : Nat
  /-- instant of the current tick's edge -/
  edge : Instant
  /-- false until the Time Unit has produced its first edge after start-up -/
  ticking : Bool
  /-- rate correction without any slew adjustment, in 1/16 ppb (R38) -/
  rate : Int
  /-- slew adjustment in force, in 1/16 ppb (R40) -/
  slewAdj : Int
  /-- measured offsets, newest first, at most 8, in quarter ns (R37) -/
  filt : List Int
  /-- consecutive filtered values within 100 ns -/
  lockRun : Nat
  /-- consecutive filtered values beyond 1 µs while Locked -/
  overRun : Nat
  /-- rates of the last 64 Sync intervals, newest first (R37) -/
  rateHist : List Int
  /-- consecutive qualifying intervals, frames or seconds (R37) -/
  qual : Nat
  step : Option PendStep
  /-- accepted tick-rate code waiting for the top of second (R46) -/
  ratePend : Option Nat
  ring : List TimeEdge
  pps : Bool
  /-- operating-time instant at which 1PPS out was last asserted (R49) -/
  ppsAt : Instant
  /-- operating-time instant at which Locked was entered; length of the last spell in Locked; entry to Holdover -/
  lockedSince : Instant
  lockedFor : Instant
  holdSince : Instant
  /-- Locked for 24 h before this Holdover and its minutes not run out (R39) -/
  holdOk : Bool
  /-- best master data set and the port it arrives on (R33, R37) -/
  best : Option (Announce × Fin 144)
  /-- a TIME_SET has been accepted (role 3 qualification, R37) -/
  timeSet : Bool
  linkDelay : Tab Nat
  calibrated : List Nat
  /-- best Announce heard on each port and the operating-time instant of its last message (R33, R37) -/
  heard : Tab (Option (Announce × Instant))
  /-- operating-time instants of the last Sync of the master, IRIG-B frame and 1PPS edge (R37) -/
  syncAt : Option Instant
  irigAt : Option Instant
  edgeAt : Option Instant
  /-- UTC offset and leap-second warning of the last IRIG-B control-function extension (R47) -/
  irigUtc : Option (Int × Option Bool)
  /-- sequence numbers of the PTP messages sent, by 8 × port + kind -/
  ptpSeq : Tab Nat
deriving DecidableEq, Repr

/-! ## Ports, switch core, Colander (chapter 03) -/

/-- A frame held by the switch core (R72 to R74): stored once, with the redundancy tag that each port of a pair sends it with
(R65). -/
structure Stored where
  frame : Frame
  tags : Tab (Option (BitVec 16))
  /-- the port that sends it round its HSR ring, and the form it arrived in -/
  ring : Option (Fin 144 × Frame)
  tc : Nat
  cells : Nat
  refs : Nat
  stamp : Instant
  inPort : Option (Fin 144)
  ddr : Bool
  /-- the publication whose frame it is (R275) -/
  pub : Option Nat
deriving DecidableEq, Repr

/-- A frame of the TRU frame store queued for a port (R71). -/
structure TripItem where
  pub : Nat
  slot : Option Nat
  frame : Frame
  /-- octets from the start of ctlEpoch to the end of the frame (R275) -/
  tail : Nat
deriving DecidableEq, Repr

/-- The octets of a frame, over which its ICV is computed (R68; the model holds frames parsed). -/
opaque Config.frameOctets : Frame → List Byte

/-- What a port has on the wire: a stored frame in the form it leaves in, or a trip frame. -/
inductive WireItem where
  | stored (id : Nat) (f : Frame)
  | trip (t : TripItem)
deriving DecidableEq, Repr

/-- One port behind its registers. -/
structure Port where
  /-- queues TC0 to TC7 of frame identifiers, head first -/
  q : List (List Nat)
  trips : List TripItem
  wire : Option WireItem
  /-- preempted frame, to be resumed in the form it started in -/
  preempted : Option (Nat × Frame)
  /-- express frame aborted for a trip, waiting to be sent again -/
  resend : Option Nat
  /-- TC0 to TC4 paused by a received pause (R76) -/
  paused : BitVec 5
  /-- queue of each of TC0 to TC4 in spill mode (R73) -/
  spill : BitVec 5
  deficit : List Nat
  cursor : Nat
  /-- instants of FCS and symbol errors, newest first (R77) -/
  errs : List Instant
  /-- operating-time instant of the last FCS or symbol error, or of entry to Fenced (R77) -/
  lastErr : Instant
  /-- lowest packet number the next frame of each receive association must have, by 2 × channel + association, and the next
  packet number to send, at 8 and 9 (R68) -/
  pn : Tab Nat
  /-- live statistics counters, 40 bits each (R79) -/
  cnt : Tab Nat
  /-- held in low-power mode by its QSFP28 module (R371) -/
  lowPower : Bool
deriving DecidableEq, Repr

def Port.reset : Port :=
  ⟨[[], [], [], [], [], [], [], []], [], none, none, none, 0, 0, [0, 0, 0, 0, 0], 0, [], 0, [], [], false⟩

/-- A forwarding entry (R70): VLAN and MAC, data word, static, last frame from the source. -/
structure FdbEntry where
  vid : BitVec 12
  mac : BitVec 48
  data : Word
  static : Bool
  /-- operating-time instant of the last frame from the source -/
  at' : Instant
deriving DecidableEq, Repr

/-- A VLAN entry (R70): membership and untag bitmaps over the 144 ports, control word. -/
structure Vlan where
  mem : BitVec 144
  untag : BitVec 144
  ctl : Word
deriving DecidableEq, Repr

/-- A duplicate-table entry (R65): key, highest sequence number, record of the 64 values ending at it. -/
structure DupEntry where
  pair : Fin 72
  mac : BitVec 48
  h : BitVec 16
  seen : BitVec 64
  /-- operating-time instant of its last traffic -/
  at' : Instant
deriving DecidableEq, Repr

/-- A match entry of the Colander (R66, R82). -/
structure MatchEntry where
  mac : BitVec 48
  vid : BitVec 12
  appid : BitVec 16
  express : Bool
  valid : Bool
  grp : BitVec 6
  id : List Byte
deriving DecidableEq, Repr

def MatchEntry.reset : MatchEntry := ⟨0, 0, 0, false, false, 0, []⟩

/-- An IEC 62351-6 tag check in progress (R169): its number, the warp its frame belongs to, its verdict. -/
structure TagCheck where
  id : Nat
  warp : Fin 512
  ok : Bool
  /-- the Heddle unit whose HDL_U_AUTHFAIL a failure counts in: none where another check of the same frame counts there (R170) -/
  unit : Option Nat
  /-- frame the check belongs to -/
  frame : Nat
deriving DecidableEq, Repr

/-- A GOOSE subscription's status and member values (R193). -/
structure GooseSub where
  valid : Bool
  /-- operating-time instant at which timeAllowedToLive of the last message runs out -/
  until' : Instant
  expired : Bool
  test : Bool
  sim : Bool
  ndsCom : Bool
  tagFail : Bool
  changes : Nat
  stNum : Nat
  sqNum : Nat
  seen : Bool
  members : List Word
deriving DecidableEq, Repr

def GooseSub.reset : GooseSub := ⟨false, 0, false, false, false, false, false, 0, 0, 0, false, []⟩

/-- The switch core and the Colander behind their registers. -/
structure Switch where
  frames : Tab (Option Stored)
  nextFrame : Nat
  /-- DDR5 overflow occupancy in bytes (R73) -/
  ovfBytes : Nat
  pausing : Bool
  /-- instant until which the DDR5 overflow writer is busy at its rate (R73) -/
  writerTo : Instant
  retired : List Nat
  fdb : List FdbEntry
  vlan : Tab (Option Vlan)
  /-- most recently used first (R65) -/
  dup : List DupEntry
  pairSeq : Tab (BitVec 16)
  matchTab : Tab MatchEntry
  checks : List TagCheck
  sub : Tab GooseSub
deriving DecidableEq, Repr

/-! ## Loom (chapter 04) -/

/-- A sample placed in an open row (R90, R93): status bits of its own, words, values, 4-bit qualities. -/
structure Sample where
  au : Bool
  sim : Bool
  realign : Bool
  playback : Bool
  conflict : Bool
  synch : Nat
  smpCnt : Nat
  margin : Int
  vals : List Word
  quals : BitVec 64
  /-- tag check of its frame, while its verdict is outstanding (R170) -/
  chk : Option Nat
deriving DecidableEq, Repr

/-- A warp entry of a row (R93): the status word, the count and margin word, 16 values, 16 four-bit qualities. -/
structure WarpEntry where
  status : Word
  word1 : Word
  vals : List Word
  quals : BitVec 64
deriving DecidableEq, Repr

def WarpEntry.zero : WarpEntry := ⟨0, 0, [], 0⟩

/-- A closed row (R93): header words common to all tenants, warp entries. -/
structure Row where
  tick : Nat
  stepcnt : Nat
  flags : Word
  d : Nat
  /-- 1 + number of rows closed before it since the ring was last rebuilt (R145) -/
  index : Nat
  /-- not in the history ring: hist_en was 0, or R103 -/
  gap : Bool
  warps : Tab WarpEntry
deriving DecidableEq, Repr

/-- One warp behind its registers (R86 to R100). -/
structure WarpSt where
  anchor : Option (Nat × Nat)
  good : Nat
  lateSeen : Bool
  reassigned : Bool
  /-- an alignment mode has been set by an ASDU -/
  modeSet : Bool
  realign : Bool
  simLeave : Bool
  held : Option Sample
  /-- index of the first row closed after the warp's current grant took effect (R145) -/
  since : Nat
deriving DecidableEq, Repr

def WarpSt.reset : WarpSt := ⟨none, 0, false, false, false, false, false, none, 0⟩

/-- The Loom behind its registers. -/
structure Loom where
  started : Bool
  /-- placement enable in force, taken at tick edges (R109) -/
  enable : Bool
  /-- accepted close delay waiting for the next edge (R92) -/
  delayPend : Option Nat
  /-- open rows: tick number to the samples placed, by warp -/
  openRows : Tab (Tab (Option Sample))
  warp : Tab WarpSt
  /-- closed rows, newest first: on-chip slots and history ring together; at most the last F -/
  closed : List Row
  /-- rows closed since the Loom started or the ring was rebuilt -/
  nClosed : Nat
  /-- closed rows whose history write is still due, oldest first, by row index (R101, R103) -/
  histDue : List Nat
  /-- flushed rows still due (R42, R92) and the last tick they cover -/
  flushUpTo : Option Nat
  /-- operating-time instant of the last edge that discarded the open rows (R99) -/
  cutAt : Option Instant
  /-- block_ticks by tenant (R42) -/
  block : Tab Nat
  /-- stop requested, taken at the next edge (R108) -/
  pbStop : Bool
  /-- samples of each playback stream waiting for their frame (R106) -/
  pbHold : Tab (List SvAsdu)
  /-- playback ASDUs after match, waiting to reach their warp, oldest first: stream, target warp, simulation bit, ASDU, instant -/
  pbLoop : List (Nat × Nat × Bool × SvAsdu × Instant)
deriving DecidableEq, Repr

/-! ## Pantry, module log, archive (chapter 14) -/

/-- What the Pantry keeps beside a word (R309, R310). -/
structure PanWord where
  wear : Nat
  phys : Nat
  remaps : Nat
  hour : Nat
  hourWrites : Nat
  hot : Bool
deriving DecidableEq, Repr

def PanWord.reset : PanWord := ⟨0, 0, 0, 0, 0, false⟩

/-- A module log record (R313); its CRC is computed when the record is shown. -/
structure LogRec where
  seq : Nat
  hours : Nat
  ms : Nat
  noOptime : Bool
  utc : Option (Nat × Nat)
  severity : Nat
  pcc : Nat
  source : Nat
  cls : Nat
  detail : Nat
  data : List Word
deriving DecidableEq, Repr

/-- One sector of log memory (R316, R320, R321). `erased` is the erase-complete mark, `begun` the erase-begun mark;
`mixed` is any other content. -/
structure LogSector where
  header : Option (Nat × Nat)
  begun : Bool
  erased : Bool
  mixed : Bool
  recs : List LogRec
deriving DecidableEq, Repr

def LogSector.reset : LogSector := ⟨none, false, false, false, []⟩

/-- Pantry, log and archive behind their registers. -/
structure Recorder where
  pan : Tab PanWord
  /-- persisted values of the module counters (R311): operating time, power cycles, lost count, ageing model -/
  panOp : Nat
  panCyc : Nat
  panLost : Nat
  panAgeing : Word
  /-- operating time at which the ageing model was last persisted -/
  ageAt : Instant
  /-- log staging ring, oldest first -/
  ring : List LogRec
  /-- number of records the flush in progress covers -/
  flushing : Option Nat
  sectors : Tab LogSector
  /-- sector the next record enters -/
  sector : Nat
  /-- function that armed a clear, and when (R320) -/
  armBy : Option (Fin 64)
  armAt : Instant
  freezeAt : Tab Instant
  /-- clear in progress: function, its generation number, old generation, first and last sequence numbers, step -/
  clearing : Option (Nat × Nat × Nat × Nat × Nat)
  clearStep : Nat
  /-- sectors still to erase (R320, R321), in order -/
  erase : List Nat
  /-- last persisted-lost instant (R311) -/
  lostAt : Instant
  /-- a start-up has programmed the erase-complete mark of every blank sector (R321) -/
  marked : Bool
  /-- a flush was commanded while one was running (R315); pending records that a clear still has to flush into the old log (R320) -/
  flushAgain : Bool
  clearLeft : Nat
  /-- operating time cannot be read: its Pantry word has an uncorrectable error (R314) -/
  opUnread : Bool
  /-- sectors found at start-up are still being erased (R321, R367) -/
  recovering : Bool
deriving DecidableEq, Repr

/-- A slot of the archive (R323). -/
structure ArcSlot where
  seq : Nat
  gap : Bool
  written : Bool
  row : Option Row
deriving DecidableEq, Repr

def ArcSlot.reset : ArcSlot := ⟨0, false, false, none⟩

/-- What the write of the row at the head of the archive staging ring waits for (R324). -/
inductive ArcStage where
  | value | index
deriving DecidableEq, Repr

/-- A drive of the archive (R322, R326): present, its superblock (archive identity, first slot and slots, both divided by
1024), the slots its capacity gives, link width and rate, critical warning. -/
structure Drive where
  present : Bool
  sblock : Option (Nat × Nat × Nat)
  slots : Nat
  width : Nat
  rate : Nat
  critical : Bool
deriving DecidableEq, Repr

def Drive.reset : Drive := ⟨false, none, 0, 0, 0, false⟩

/-- A transfer as its command found it (R327): the command, first slot, slots, destination. -/
structure Xfer where
  cmd : Word
  first : Nat
  count : Nat
  dst : Nat
deriving DecidableEq, Repr

/-- The Archive Engine behind its registers: drives, written slots, staged rows oldest first (none: a row that is no longer held), the
transfer in progress. -/
structure Archive where
  drive : Tab Drive
  slots : Tab ArcSlot
  staging : List (Option Row)
  stage : ArcStage
  ready : Bool
  xfer : Option Xfer
  /-- end of the highest range given to a drive that has left (R326) -/
  top : Nat
deriving DecidableEq, Repr
/-! ## Tick cores and tenants (chapters 05, 06, 08) -/

/-- What an issued core is doing. -/
inductive CoreRun where
  | idle | running | ended | stopped
deriving DecidableEq, Repr

/-- The working registers of an executor (R110, R133): general registers, accumulators, predicates (p0 is bit 0 and reads
1), sticky flags. -/
structure Ctx where
  g : Tab Word
  a : Tab (BitVec 40)
  p : BitVec 8
  fs : Word
deriving DecidableEq, Repr

def Ctx.reset : Ctx := ⟨[], [], 1, 0⟩

/-- What an instruction writes: general registers, accumulators, predicates, and the fs bits it sets. -/
structure Wr where
  g : List (Nat × Word)
  a : List (Nat × BitVec 40)
  p : List (Nat × Bool)
  fl : Word
deriving DecidableEq, Repr

/-- A tick core, by logical core (R110, R111, R137, R142). -/
structure Core where
  ctx : Ctx
  pc : Word
  /-- main-clock cycles since the tick edge at which the next instruction may issue: ts -/
  cyc : Nat
  run : CoreRun
  /-- first cycle a register's value may be used: 0 to 31 g, 32 to 35 a -/
  ready : Tab Nat
  /-- first cycle an accumulator may be used by a chained op 0x10 instruction (R137) -/
  chain : Tab Nat
  /-- outstanding State Memory accesses: bank, completion cycle -/
  outst : List (Nat × Nat)
  /-- prefetch lines: State Memory line address, completion cycle -/
  pf : List (Nat × Nat)
  /-- completion cycle of the newest CLU request (R213), and of the newest CEVAL, CSET or CINJ (R152) -/
  clu : Nat
  cluEnd : Nat
  /-- completion cycle of the newest SWR (R156) -/
  swr : Nat
  /-- local memory but scratch: code, delivery area, retained region -/
  mem : List Host.Cell
  /-- scratch bytes written in this program window (R116) -/
  scr : Tab (Option Byte)
  epoch : Nat
  entries : List Entry
  tended : Bool
  lost : Bool
  /-- last cycle in which it may still issue after a trap on a core of its tenant (R131, R132) -/
  haltAt : Option Nat
deriving DecidableEq, Repr

def Core.reset : Core :=
  ⟨.reset, 0, 0, .idle, [], [], [], [], 0, 0, 0, [], [], 0, [], false, false, none⟩

/-- A command of R187 waiting for its commit. -/
inductive TenantCmd where
  | enterTest | leaveTest | stop | fence
deriving DecidableEq, Repr

/-- One tenant behind its registers. -/
structure Tenant where
  /-- its image, installed (R265) -/
  image : Option Image
  /-- cause of R201 with which the transaction of the tick was aborted -/
  abort : Option Nat
  trapped : Bool
  lostTick : Bool
  mismatch : Bool
  /-- commands waiting for their commit phase, oldest first (R187) -/
  pend : List TenantCmd
  /-- committed-or-not of the ticks since the start tick, newest first, at most F -/
  window : List Bool
  first : Bool
  replaced : Bool
  prevUncommitted : Bool
  committing : Bool
  fallbackDue : Bool
  fallbackDone : Bool
  errorRun : Bool
  /-- entries staged this tick (CMT_T_ENTRIES) -/
  staged : Nat
  /-- start tick recorded by start, whether it starts in Test (R187) -/
  startAt : Nat
  startTest : Bool
  /-- the next swap writes the image's initial values into the retained copies (R187) -/
  initDue : Bool
  /-- its loops are set to their initial values at the start edge (R212); not after a checkpoint's restore (R283, R285) -/
  loopInit : Bool
  /-- an uncorrectable error struck a read of a retained region (R196) -/
  retErr : Bool
  /-- first 8 bytes of the image signature (R280) -/
  sig : List Byte
  /-- its program windows have opened in the tick; its last commit phase found it in Test (R191) -/
  ran : Bool
  inTest : Bool
  /-- the levels its outputs hold come from a commit phase that found it in Test (R191) -/
  heldTest : Bool
  /-- physical cores whose trap record the tenant filled, by 9 × cluster + core (R210) -/
  trapCores : List Nat
deriving DecidableEq, Repr

def Tenant.reset : Tenant :=
  ⟨none, none, false, false, false, [], [], false, false, false, false, false, false, false, 0, 0, false, false, false, false, [], false, false, false, []⟩

/-- The spare of a cluster (R203, R347, R348): the logical core it is loading for, whether it is ready, ticks of the current
shadow period, whether it runs in lockstep, and the positions of the active core and of the spare that are in self-test after a
mismatch. -/
structure Spare where
  loading : Option Nat
  ready : Bool
  ticks : Nat
  lockstep : Bool
  testing : Option (Nat × Nat)
  next : Option Nat
  /-- operating time of the mismatch under test; position of a core that has passed its test while the spare was taking its place (R348) -/
  testAt : Instant
  passed : Option Nat
deriving DecidableEq, Repr

def Spare.reset : Spare := ⟨none, false, 0, false, none, none, 0, none⟩

/-- Where the tick stands (R20, R197). -/
inductive Phase where
  | idle | delivered | window | applied | swapped
deriving DecidableEq, Repr

/-- A designated-operation slot (R208, R209): its registers CMT_DOP_TICK, CMT_DOP_CFG and CMT_DOP_LIST as written, and the operation
submitted. -/
structure Dop where
  tickLo : Word
  tickHi : Word
  cfg : Word
  listAt : Word
  tick : Nat
  settings : Bool
  list : List (Nat × Nat × Nat)
  status : Nat
  reason : Nat
deriving DecidableEq, Repr

def Dop.reset : Dop := ⟨0, 0, 0, 0, 0, false, [], 0, 0⟩

/-- The Commit Unit behind its registers. -/
structure Commit where
  phase : Phase
  /-- line shadow (R198): stretches of State Memory that the next swap replaces, each a base, a length and its non-zero
  bytes -/
  shadow : List (Nat × Nat × List Host.Cell)
  /-- lines still to be written back to their banks (R198) -/
  writeBack : List Nat
  /-- aperture writes waiting for the swap, in arrival order (R206) -/
  aperture : List (Nat × List Byte)
  /-- updates taken at the swap: publication entries, arming entries, outputs, loop words, registers, by tenant -/
  updates : List (Nat × Entry)
  /-- tenants whose fallback applies at this swap -/
  fallbacks : List Nat
  dop : Tab Dop
  copying : Option Nat
  /-- ownership, partition and grant writes waiting for the swap (R233, R261, R332): register offset and word -/
  waiting : List (Nat × Word)
  /-- reserve in force, in µs, from the last tick edge (R195) -/
  reserve : Nat
  /-- partition entries in force and as accepted for the next swap (R233), by 8t + j: base and size words -/
  part : Tab (Word × Word)
  partNext : Tab (Word × Word)
deriving DecidableEq, Repr

/-! ## Heddle units (chapter 07) -/

/-- A record (R159): its words, the binding slot or gate it belongs to, and its own context as it passes the stages (R134).
`pend` holds the results of instructions still in their stages, by the first stage that sees them. -/
structure HRec where
  id : Nat
  words : Tab Word
  group : Bool
  /-- binding slot, or gate number -/
  slot : Nat
  warp : Nat
  kernel : Nat
  owner : Nat
  sim : Bool
  policy : Nat
  /-- tag check of the frame whose ASDU this is, 0 none, and the checks a verify-before-act release waits for -/
  deciding : Nat
  verify : List Nat
  gen : Nat
  stage : Nat
  ctx : Ctx
  pend : List (Nat × Wr)
  /-- main-clock cycle of operating time in which the record was ready, and its ingress port (R160) -/
  ready : Nat
  port : Nat
deriving DecidableEq, Repr

/-- A collection of a gate (R167); a completed one stays until its row closes, so that further records of its instant are ignored. -/
structure GColl where
  tick : Nat
  cnt : Nat
  recs : List HRec
  complete : Bool
deriving DecidableEq, Repr

/-- An event ring entry (R163). -/
structure HEvent where
  code : Nat
  stage : Nat
  obj : Nat
  group : Bool
  word2 : Word
deriving DecidableEq, Repr

/-- One logical Heddle unit (index 16: the unit that serves none), behind its registers. -/
structure HUnit where
  /-- loaded kernel tables: an unlisted index holds NOP in every stage -/
  kernels : Tab (List Word)
  /-- stage state by (stage × 32 + slot) × 64 + word, and its DDR5 mirror (R162) -/
  sm : Tab Word
  mirror : Tab Word
  /-- the Colander's dispatch stage for the unit, oldest first (R160) -/
  queue : List HRec
  flight : List HRec
  nextId : Nat
  events : List HEvent
  coll : Tab (List GColl)
  /-- state-reset flag waiting for delivery (R181) -/
  resetDue : Bool
deriving DecidableEq, Repr

def HUnit.reset : HUnit := ⟨[], [], [], [], [], 0, [], [], false⟩

/-- A release request (R173) on its way to, or held in, the TRU. -/
structure TripReq where
  unit : Nat
  gen : Nat
  slot : Nat
  tenant : Nat
  policy : Nat
  deciding : Nat
  verify : List Nat
  tm : Instant
deriving DecidableEq, Repr

/-- The Heddle units, and the tag verdicts they share with the Colander (R169). -/
structure Heddle where
  unit : Tab HUnit
  /-- verdicts given, by frame -/
  verdict : List (Nat × Bool)
  /-- release requests not yet at the TRU, in arrival order -/
  reqs : List TripReq
  /-- verify-before-act holds, oldest first -/
  holds : List TripReq
  /-- releases under act-then-verify whose verdict is outstanding -/
  acted : List TripReq
  /-- ticks of the shadow period used; comparison running (R179) -/
  shadowTicks : Nat
  comparing : Bool
  /-- first record of the shadowed unit that the spare has taken too (R179) -/
  compareFrom : Nat
  /-- logical unit whose restore is in progress (R181), and its dead physical unit is the spare's place -/
  restoring : Option Nat
  /-- next unit the rotation shadows -/
  next : Nat
  /-- HC_CMD shadow has named `next`: the rotation moves there at the next tick edge (R356) -/
  moveNow : Bool
deriving DecidableEq, Repr

def Heddle.reset : Heddle := ⟨[], [], [], [], [], 0, false, 0, none, 0, false⟩

/-! ## Trip Release Unit and publishers (chapter 07, R190) -/

/-- An armed-frame slot (R172): staging words as stored, template octets, state 0 Empty, 1 Disarmed, 2 Armed, 3 Released. -/
structure TSlot where
  cfg : Word
  len : Word
  ofs : Word
  tofs : Word
  template : List Byte
  st : Nat
  owner : Nat
  /-- owner from the next swap (R172) -/
  nextOwner : Option Nat
  portMiss : Bool
  relSec : Word
  relNs : Word
  missed : Nat
deriving DecidableEq, Repr

def TSlot.reset : TSlot := ⟨0, 0, 0, 0, [], 0, 0, none, false, 0, 0, 0⟩

/-- A publication (R177, R190): stNum, sqNum, the slot that holds it, dataset words by member (2m value, 2m + 1 quality), the
retransmission step and its next instant, and for an SV publication its smpCnt. -/
structure Pub where
  stNum : Nat
  sqNum : Nat
  hold : Option Nat
  data : Tab Word
  step : Nat
  nextAt : Instant
  smpCnt : Nat
  /-- t of its frames: the octets of a UtcTime, taken at the last new state -/
  utc : List Byte
  /-- stNum comes from a checkpoint; its first frame is a new state (R283) -/
  restored : Bool
deriving DecidableEq, Repr

def Pub.reset : Pub := ⟨0, 0, none, [], 0, 0, 0, [], false⟩

/-- The TRU and the publishers: publications 0 to 1023 GOOSE, 1024 to 1151 SV. -/
structure Tru where
  slot : Tab TSlot
  pub : Tab Pub
deriving DecidableEq, Repr

def Tru.reset : Tru := ⟨[], []⟩

/-! ## Control Law Units (chapter 09) -/

/-- A test-signal generator (R228): the values taken at acceptance and its position; the phase in units of 2^-32 of its steps. -/
structure Inj where
  kind : Nat
  point : Nat
  order : Nat
  amp : Int
  f0 : Nat
  f1 : Nat
  dur : Nat
  phase : Nat
  lfsr : Nat
  k : Nat
  /-- not yet evaluated: capture may trigger on its first evaluation (R230) -/
  fresh : Bool
deriving DecidableEq, Repr

/-- The state of a loop (R220): integrator in Q9.30 units, Q15 values as integers, STAT bits [14:8], injection. `u` and `vh`
are the terms of R216 that a group selection of the same tick uses, `off` whether the evaluation was in mode Off. -/
structure LoopSt where
  i : Int
  cand : Int
  out : Int
  err : Int
  d : Int
  pv : Int
  sp : Int
  stat : Nat
  inj : Option Inj
  lastInj : Int
  u : Int
  vh : Int
  off : Bool
deriving DecidableEq, Repr

def LoopSt.reset : LoopSt := ⟨0, 0, 0, 0, 0, 0, 0, 0, none, 0, 0, 0, false⟩

/-- One loop: committed state, working state when it has been evaluated in the tick, an injection request accepted since the last
swap (of a stop: none), whether the working state has taken it, and whether it comes from the first evaluation of an accepted injection
(R220, R227, R230). -/
structure LoopBox where
  com : LoopSt
  wrk : Option LoopSt
  req : Option (Option Inj)
  taken : Bool
  trig : Bool
deriving DecidableEq, Repr

def LoopBox.reset : LoopBox := ⟨.reset, none, none, false, false⟩

/-- A capture channel (R229, R230): samples oldest first, samples stored since it was armed, swaps to pass before the next sample,
samples still to store after a stop. -/
structure Cap where
  buf : List (BitVec 16)
  count : Nat
  skip : Nat
  post : Option Nat
  /-- tick number, with stepcnt above bit 48, of the sample at index 0 -/
  stamps : List Nat
deriving DecidableEq, Repr

def Cap.reset : Cap := ⟨[], 0, 0, none, []⟩

/-- The eight CLUs: loops by 32c + i, capture channels by 2c + n; instant at which each CLU is free again. -/
structure Clu where
  loop : Tab LoopBox
  cap : Tab Cap
  busyTo : Tab Nat
  /-- groups resolved in this tick, by 8c + k, with the loop selected -/
  resolved : Tab (Option Nat)
  /-- longest wait of the tick, in cycles -/
  maxWait : Tab Nat
deriving DecidableEq, Repr

def Clu.reset : Clu := ⟨[], [], [], [], []⟩

/-! ## Memory arbiters (chapter 10) -/

/-- A request waiting at an arbiter (R234, R235): its port, the core of a cluster port or of a row load (for the Pair Link Unit 0
incoming, 1 outgoing; for the Commit Unit 0 a write back, 1 a read of a designated copy), its arrival cycle, its beats still to transfer, its pass mask, the core's generation number (R241), and
the offset it names. -/
structure ArbReq where
  port : Nat
  core : Nat
  stamp : Nat
  beats : Nat
  mask : BitVec 16
  gen : Nat
  line : Nat
deriving DecidableEq, Repr

/-- One arbiter: the requests it holds, in order of arrival, those held in their requesters, the grants or beats each quota port
has used in the window, the window they count in, and the cycle at which the burst in its data phase ends, with its port. -/
structure Arb where
  reqs : List ArbReq
  held : List ArbReq
  used : Tab Nat
  window : Nat
  wasMasked : Bool
  busyTo : Nat
  busyPort : Nat
deriving DecidableEq, Repr

def Arb.reset : Arb := ⟨[], [], [], 0, false, 0, 15⟩

/-! ## Host interface (chapter 11) -/

/-- An open grant session (R260): kind 0 warp, 1 GOOSE subscription; object; tenant; register writes and match entries held. -/
structure Session where
  kind : Nat
  obj : Nat
  tenant : Nat
  held : Tab Word
  entries : Tab MatchEntry
deriving DecidableEq, Repr

/-- A fetched queue command (R253, R254, R258): its entry, the generation number it is tagged with, the status and tick it
will post once done, CI_READ attempts used, and whether CI_READ has begun. -/
structure QCmd where
  e : SqEntry
  gen : Nat
  status : Option Nat
  tick : Nat
  stepcnt : Nat
  attempts : Nat
  running : Bool
deriving DecidableEq, Repr

/-- A queue pair (R253, R254): heads, tails, completion phase, the fetched commands, oldest first, and
the entries behind the tail doorbell that are not fetched yet. -/
structure Queue where
  sqHead : Nat
  sqTail : Nat
  cqHead : Nat
  cqTail : Nat
  phase : Bool
  cmds : List QCmd
  todo : List SqEntry
deriving DecidableEq, Repr

def Queue.reset : Queue := ⟨0, 0, 0, 0, true, [], []⟩

/-- The Host Interface behind its registers. -/
structure Hif where
  session : Option Session
  /-- committed sessions whose grant takes effect at the next tick edge (R260) -/
  granted : List Session
  /-- owner of each GOOSE subscription -/
  subOwner : Tab Nat
  /-- queue pairs, by 16 × function + q -/
  queue : Tab Queue
  /-- staging areas, by tenant (R253) -/
  staging : Tab (List Host.Cell)
  /-- commits counted towards vector 3, by tenant (R256) -/
  commits : Tab Nat
  /-- instant of the last logged violation, by function (R262) -/
  violAt : Tab Instant
deriving DecidableEq, Repr

def Hif.reset : Hif := ⟨none, [], [], [], [], [], []⟩

/-! ## The redundant pair (chapter 12) -/

/-- A checkpoint: sequence number, tick, items. -/
structure Ckpt where
  seq : Nat
  tick : Nat
  full : Bool
  items : List CkptItem
deriving DecidableEq, Repr

/-- Where a takeover stands (R278, R283): none, the 20 µs after releasing the quiet lines, restoring. -/
inductive TakeStage where
  | none | quietWait | restoring
deriving DecidableEq, Repr

/-- The Pair Link Unit behind its registers. Instants count main-clock time (R273). -/
structure Plu where
  /-- sequence number of the next message, and the send instants of the last renewals by sequence number, newest first -/
  seq : Nat
  sent : List (Nat × Instant)
  /-- send instant of the newest acknowledged renewal: s; the renewals of `sent` that have been acknowledged; the instant at which
  the gate opened, from which the first lease counts -/
  acked : Option Instant
  ackNos : List Nat
  opened : Option Instant
  /-- PLU_LEASE in force while an accepted write waits for the next renewal (R287) -/
  leaseOld : Option Word
  /-- arrival of the newest renewal, or entry to STANDBY: r -/
  heard : Instant
  /-- last valid message on the network path -/
  netAt : Option Instant
  /-- partner's lines QUIET_P and QUIET_N -/
  qp : Bool
  qn : Bool
  take : TakeStage
  takeTo : Nat
  /-- operating-time instant at which the quiet lines were released -/
  takeAt : Instant
  /-- epoch before a takeover attempt -/
  oldEpoch : Word
  /-- tick at whose edge the gate opens -/
  openAt : Option Nat
  /-- planned swap on the active module: handover tick named in the yield, ready received -/
  yieldTick : Option Nat
  ready : Bool
  /-- planned swap on the standby: handover tick answered with ready, final checkpoint written -/
  handTick : Option Nat
  finalIn : Bool
  /-- quiet after a completed yield: a swap-failed message may still reopen the gate -/
  yielded : Bool
  retries : Nat
  /-- a yield waits for the checkpoint being sent (R284) -/
  swapWanted : Bool
  /-- control tenants start again when the gate reopens (R285) -/
  restart : Bool
  /-- operating-time instant of the last planned swap -/
  swapBase : Instant
  /-- active side: pages changed since the last complete checkpoint, next checkpoint is full, checkpoint being sent, pages of
  it that have been frozen with their content -/
  dirty : List Nat
  fullNext : Bool
  sending : Option Ckpt
  /-- standby side: the current complete checkpoint (all pages held), and the items of the one arriving -/
  store : Option Ckpt
  coming : List CkptItem
  /-- sequence number of the checkpoint whose items are arriving -/
  comingSeq : Nat
  /-- restored items the next swap applies -/
  apply : List CkptItem
  /-- credits held, and bytes in the receive buffer (R243) -/
  credits : Nat
  rxBytes : Nat
  /-- bursts of the checkpoint being sent whose local grant has been requested, and that have been granted (R243) -/
  outAsked : Nat
  outSent : Nat
  /-- the partner has been sent for a full checkpoint since it last held one or fell silent (R280) -/
  fullAsked : Bool
  /-- at the yield of a planned swap: the instant, and State Memory and the loops as committed at tick h − 1 (R285) -/
  yieldAt : Instant
  yieldMem : List Host.Cell
  yieldLoops : List CkptItem
deriving DecidableEq, Repr

def Plu.reset : Plu :=
  ⟨1, [], none, [], none, none, 0, none, true, false, .none, 0, 0, 0, none, none, false, none, false, false, 0, false, false, 0, [], true, none, none, [], 0, [],
    262144, 0, 0, 0, false, 0, [], []⟩

/-! ## Key Store (chapter 13) -/

/-- A key value with its record (R288, R289, R293): type and use codes, the octets of the value, key identifier, and for a
derived value its parent slot, label, peer point and level. `gen` marks a value made by GEN, whose check value the
manager can only learn from KS_RES. -/
structure KeyVal where
  typ : Nat
  use : Nat
  val : List Byte
  kid : Word
  parent : Option Nat
  label : List Byte
  peer : List Byte
  depth : Nat
  gen : Bool
deriving DecidableEq, Repr

/-- One slot (R288): active value, shadow value, shadow verified. -/
structure KeySlot where
  active : Option KeyVal
  shadow : Option KeyVal
  verified : Bool
deriving DecidableEq, Repr

def KeySlot.reset : KeySlot := ⟨none, none, false⟩

/-- The key record in the program store (R295): sealed under a storage key, it opens under that key alone (log entry 5). -/
structure KeyRecord where
  under : List Byte
  slots : Tab KeySlot
deriving DecidableEq, Repr

/-- A binding as written (R296): KS_B_SLOTS, KS_B_KIDA, KS_B_KIDB and the 12-octet salt. -/
structure KeyBinding where
  slots : Word
  kidA : Word
  kidB : Word
  salt : List Byte
deriving DecidableEq, Repr

def KeyBinding.none : KeyBinding := ⟨0, 0, 0, []⟩

/-- An owner key kept in the owner region of the Pantry (R299): slot, key identifier, public point. -/
structure OwnerKey where
  slot : Nat
  kid : Word
  point : List Byte
deriving DecidableEq, Repr

/-- The command in progress (R300): what it will post, and the owner region and KS_OWNERKEY to put back if a trip aborts it;
`prov`: an accepted PROV_CONFIRM, which provisions when it completes (R304, R306). -/
structure KsRun where
  status : Nat
  check : Option Nat
  out : Option (List Byte)
  undoOwner : List (Nat × OwnerKey)
  undoOwnerKey : Word
  prov : Bool
deriving DecidableEq, Repr

/-- The Key Store behind its registers. -/
structure KeyStore where
  slot : Tab KeySlot
  root : Option (List Byte)
  /-- the storage key: derived from the root at unlock and provisioning, cleared by zeroisation (R295, R303) -/
  storageKey : Option (List Byte)
  /-- bindings, by kind × 65536 + object -/
  bind : Tab KeyBinding
  /-- owner region: kind 0 tenant images, 1 manager images -/
  owner : List (Nat × OwnerKey)
  run : Option KsRun
  /-- instant at which PROV_ARM was accepted -/
  armAt : Option Instant
  /-- the key record in the program store (R295); unreadable after zeroisation -/
  record : Option KeyRecord
  /-- operating time of the last tamper record -/
  tripAt : Instant
  /-- a tamper log record waits until the log can be written (R303, R304) -/
  logDue : Bool
  lidOpen : Bool
  /-- the sources of the tamper record in the Pantry, as KS_TAMPER shows them (R303, R307) -/
  tamperRec : Word
  /-- the last binding write: its instant, its key, and the binding it replaced (R304: a trip of the same cycle wins) -/
  lastBind : Option (Instant × Nat × KeyBinding)
deriving DecidableEq, Repr

def KeyStore.reset : KeyStore := ⟨[], none, none, [], [], none, none, none, 0, false, false, 0, none⟩

/-! ## Field I/O (chapter 15) -/

/-- A binary input (R329, R330): raw level, its last transition, accepted state, accepted changes remembered for chatter
blocking, and whether it has changed since the previous tick edge. -/
structure FioIn where
  /-- raw level, the operating time and the PTP stamp of the transition to it -/
  raw : Bool
  rawAt : Instant
  stamp : Instant
  /-- the level before that transition, with its own instants: a level of less than 1 µs is ignored (R329) -/
  before : Option (Bool × Instant × Instant)
  acc : Bool
  blocked : Bool
  /-- operating times of the accepted changes within the window, newest first (R330) -/
  recent : List Instant
  changed : Bool
  /-- operating time of the last accepted change, and the accepted state and change bit before that instant (R332) -/
  accAt : Option Instant
  accOld : Bool
  changedOld : Bool
  /-- a raw change of a blocked input that has not lasted 1 µs yet (R329, R330) -/
  rawDue : Bool
deriving DecidableEq, Repr

def FioIn.reset : FioIn := ⟨false, 0, 0, none, false, false, [], false, none, false, false, false⟩

/-- An edge ring entry (R331). -/
structure FioEdge where
  stamp : Instant
  input : Fin 32
  level : Bool
  blocked : Bool
  timeValid : Bool
deriving DecidableEq, Repr

/-- Output states of R336. -/
inductive OutState where
  | off | on | limit | retry | latched
deriving DecidableEq, Repr

/-- One TRIP or CLOSE output (R336, R338). Instants are operating time: `onAt` is the turn-on that the minimum of R334 counts from,
`since` the entry into the present state, `lowAt` the instant since which the load current of an On output has been below 5 mA,
`pulseAt` the start of the last supervision pulse. -/
structure FioDrive where
  st : OutState
  attempts : Nat
  onAt : Instant
  since : Instant
  lowAt : Option Instant
  refused : Bool
  pulse : Bool
  pulseAt : Option Instant
  opens : Nat
  goods : Nat
deriving DecidableEq, Repr

def FioDrive.reset : FioDrive := ⟨.off, 0, 0, 0, none, false, false, none, 0, 0⟩

/-- A breaker command channel: its two outputs, the operating time since which CLOSE has been committed 0 (R335), and that of the last
TRIPBC (R178, R339). -/
structure FioCh where
  trip : FioDrive
  close : FioDrive
  closeZero : Option Instant
  latchAt : Option Instant
deriving DecidableEq, Repr

def FioCh.reset : FioCh := ⟨.reset, .reset, none, none⟩

/-- The Field I/O Unit behind its registers. -/
structure Fio where
  inp : Tab FioIn
  edges : List FioEdge
  ch : Tab FioCh
deriving DecidableEq, Repr

def Fio.reset : Fio := ⟨[], [], []⟩

/-! ## Health Controller and management bus (chapters 16 to 18) -/

/-- The configuration record (R264, R345): grants and ownership registers, warp and subscription grants with their match
entries, key bindings, partitions, kernels and armed-frame slots (R344), and the state each tenant last held. -/
structure ConfigRec where
  regs : Tab Word
  matchTab : Tab MatchEntry
  bind : Tab KeyBinding
  fdb : List FdbEntry
  vlan : Tab (Option Vlan)
  tenants : Tab Nat
  subs : Tab Nat
  part : Tab (Word × Word)
  kernels : Tab (Tab (List Word))
  slots : Tab TSlot
deriving DecidableEq, Repr

/-- The Health Controller behind its registers. -/
structure Health where
  /-- 3.3 V standby present; 12 V main good; main domain enabled; held off by a shutdown (R366) -/
  standby : Bool
  mainGood : Bool
  mainOn : Bool
  holdOff : Bool
  /-- start-up step reached (R344): 1 power good, 2 boot image, 3 self-test, 4 DDR5, 5 keys, 6 configuration, 7 images, 8 Loom -/
  stage : Nat
  bootAt : Instant
  /-- what the power-fail sequence in progress ends in: 0 a plain power fail, 1 a shutdown (R366), 2 a thermal hold (R341), 3 a shutdown
  whose recorded cause is a module fault (R366) -/
  ending : Nat
  warnAt : Instant
  /-- operating time of the last module fault (R342); the fault may not restart automatically (R346) -/
  lastFault : Option Instant
  noRestart : Bool
  faultAt : Instant
  /-- units listed dead in the Pantry (R350): physical cores 0 to 71, Heddle units 100 to 116 -/
  deadList : List Nat
  /-- transient verdicts by unit, operating times, newest first (R349); mismatch counts by unit -/
  transient : Tab (List Instant)
  mismatch : Tab Nat
  /-- retired DDR5 pages (R343) -/
  pages : List Nat
  /-- start tick at which Booting ends (R341) -/
  startTick : Option Nat
  config : Option ConfigRec
  /-- management bus: armed power command and its instant, status of the last write command, log selector -/
  busArm : Option (Nat × Instant)
  busStatus : Nat
  busSector : Nat
  busOffset : Nat
  /-- telemetry sequence number -/
  telSeq : Nat
  /-- operating time when main power ceased to be good, from where it counts on (R311) -/
  opHold : Option Instant
deriving DecidableEq, Repr

def Health.reset : Health :=
  ⟨false, false, false, false, 0, 0, 0, 0, none, false, 0, [], [], [], [], none, none, none, 0, 0, 0, 0, none⟩

/-- What a front-panel indicator shows (R377). -/
inductive Light where
  | off | green | amber | red
deriving DecidableEq, Repr

/-! ## What leaves the part (the model's own trace) -/

/-- Something the block sends to the world outside: newest first in State.out. -/
inductive Out where
  | frame (p : Fin 144) (f : Frame) (tm : Instant)
  | msix (fn : Fin 64) (vec : Nat)
  | dma (fn : Fin 64) (addr : Nat) (bytes : List Byte)
  /-- a lease message, with its octets on the path: on the network path EtherType, message and tag (R271) -/
  | lease (path : Path) (m : LeaseMsg) (octets : List Byte)
  /-- pair-link credits returned to the peer (R243) -/
  | credits (bytes : Nat)
  /-- what the pair link carries of a checkpoint: its items, then its closing record (R281, R282) -/
  | page (p : CkptPage)
  | closing (c : CkptClose)
  | bus (bytes : List Byte)
  /-- an NVMe Flush to a drive (R325) -/
  | driveFlush (d : Nat)
deriving DecidableEq, Repr

/-! ## The whole state -/

/-- The state of the block. -/
structure State where
  /-- every register, keyed by PF BAR0 offset; unlisted offsets read as `resetWord` (Machine/Regs.lean) -/
  regs : Tab Word
  /-- the module's PTP time (R14, R37) -/
  now : Instant
  /-- operating time since manufacture (R311) -/
  op : Instant
  time : TimeUnit
  port : Tab Port
  sw : Switch
  loom : Loom
  core : Tab Core
  ten : Tab Tenant
  cmt : Commit
  spare : Tab Spare
  /-- State Memory arbiters 0 to 15, DDR5 channel arbiters 16 to 19 -/
  arb : Tab Arb
  plu : Plu
  rec' : Recorder
  arc : Archive
  hif : Hif
  hdl : Heddle
  tru : Tru
  clu : Clu
  fio : Fio
  ks : KeyStore
  hc : Health
  /-- State Memory, 32 MiB; an unlisted byte reads 0 (R345) -/
  mem : List Host.Cell
  /-- DDR5 bytes the playback buffer and archive transfers use; an unlisted byte reads 0 -/
  ddr : List Host.Cell
  /-- the model's own: what has left the part, newest first -/
  out : List Out
  /-- the model's own: number of free values drawn -/
  freeCtr : Nat
  /-- the commands waiting, first in, first out -/
  pending : List Instr
deriving DecidableEq, Repr

/-- The Time Unit at power-up: Free-run, time 0 (R37). -/
def TimeUnit.reset : TimeUnit :=
  ⟨0, 0, false, 0, 0, [], 0, 0, [], 0, none, none, [], false, 0, 0, 0, 0, false, none, false, [], [], [], none, none, none, none, []⟩

def Switch.reset : Switch := ⟨[], 0, 0, false, 0, [], [], [], [], [], [], [], []⟩

def Loom.reset : Loom := ⟨false, true, none, [], [], [], 0, [], none, none, [], false, [], []⟩

def Commit.reset : Commit := ⟨.idle, [], [], [], [], [], [], none, [], 16, [], []⟩

def Recorder.reset : Recorder := ⟨[], 0, 0, 0, 0, 0, [], none, [], 0, none, 0, [], none, 0, [], 0, false, false, 0, false, false⟩

def Archive.reset : Archive := ⟨[], [], [], .value, false, none, 0⟩

/-- The machine right after reset: the part as delivered, without power history, nothing commanded (log entry 4). -/
def State.reset : State where
  regs := []
  now := 0
  op := 0
  time := .reset
  port := []
  sw := .reset
  loom := .reset
  core := []
  ten := []
  cmt := .reset
  spare := []
  arb := []
  plu := .reset
  rec' := .reset
  arc := .reset
  hif := .reset
  hdl := .reset
  tru := .reset
  clu := .reset
  fio := .reset
  ks := .reset
  hc := .reset
  mem := []
  ddr := []
  out := []
  freeCtr := 0
  pending := []

end Sys2Proof.Machine
end

