-- ==== Sys2Proof/Machine/Regs.lean ====
section
/-!
DEFINITION. The register map: the offset of every register family as the chapters' register tables give it
(R10, R11, R51, R81, R109, R164, R184, R210, R231, R245, R267, R287, R307, R328, R340, R357, R360), its access code,
its writable bits and its value right after reset. A register's offset in PF BAR0 is its key in State.regs; VF register offsets
follow at 4 GiB + 256 KiB × v.
-/
namespace Sys2Proof.Machine

/-- Where the registers of Heddle unit i lie: 64 KiB apart, and the unit that serves none at 0x7F8000 (R359). -/
def hdlBase (i : Nat) : Nat := if i = 16 then 0x7F8000 else 0x700000 + 0x10000 * i
/-- TIME_CTRL (R51). -/
def Reg.timeCtrl : Nat := 0x200000
/-- TIME_PTPCFG (R51). -/
def Reg.timePtpcfg : Nat := 0x200004
/-- TIME_PRIO (R51). -/
def Reg.timePrio : Nat := 0x200008
/-- TIME_TICKCFG (R51). -/
def Reg.timeTickcfg : Nat := 0x20000c
/-- TIME_STATE (R51). -/
def Reg.timeState : Nat := 0x200010
/-- TIME_LATCH (R51). -/
def Reg.timeLatch : Nat := 0x200014
/-- TIME_SEC_HI (R51). -/
def Reg.timeSecHi : Nat := 0x200018
/-- TIME_SEC_LO (R51). -/
def Reg.timeSecLo : Nat := 0x20001c
/-- TIME_NS (R51). -/
def Reg.timeNs : Nat := 0x200020
/-- TIME_TICK_HI (R51). -/
def Reg.timeTickHi : Nat := 0x200024
/-- TIME_TICK_LO (R51). -/
def Reg.timeTickLo : Nat := 0x200028
/-- TIME_OFFSET (R51). -/
def Reg.timeOffset : Nat := 0x20002c
/-- TIME_FREQ (R51). -/
def Reg.timeFreq : Nat := 0x200030
/-- TIME_HOLDCFG (R51). -/
def Reg.timeHoldcfg : Nat := 0x200034
/-- TIME_HOLDSTAT (R51). -/
def Reg.timeHoldstat : Nat := 0x200038
/-- TIME_GMID_HI (R51). -/
def Reg.timeGmidHi : Nat := 0x20003c
/-- TIME_GMID_LO (R51). -/
def Reg.timeGmidLo : Nat := 0x200040
/-- TIME_STEPCNT (R51). -/
def Reg.timeStepcnt : Nat := 0x200044
/-- TIME_STEPK_LO (R51). -/
def Reg.timeStepkLo : Nat := 0x200048
/-- TIME_STEPK_HI (R51). -/
def Reg.timeStepkHi : Nat := 0x20004c
/-- TIME_UTCOFS (R51). -/
def Reg.timeUtcofs : Nat := 0x200050
/-- TIME_PPSOUT (R51). -/
def Reg.timePpsout : Nat := 0x200054
/-- TIME_REFIN (R51). -/
def Reg.timeRefin : Nat := 0x200058
/-- TIME_REFDLY (R51). -/
def Reg.timeRefdly : Nat := 0x20005c
/-- TIME_REFSTAT (R51). -/
def Reg.timeRefstat : Nat := 0x200060
/-- TIME_EDGE_POP (R51). -/
def Reg.timeEdgePop : Nat := 0x200064
/-- TIME_EDGE_SEC (R51). -/
def Reg.timeEdgeSec : Nat := 0x200068
/-- TIME_EDGE_NS (R51). -/
def Reg.timeEdgeNs : Nat := 0x20006c
/-- TIME_EDGE_INFO (R51). -/
def Reg.timeEdgeInfo : Nat := 0x200070
/-- TIME_SET_SEC_HI (R51). -/
def Reg.timeSetSecHi : Nat := 0x200074
/-- TIME_SET_SEC_LO (R51). -/
def Reg.timeSetSecLo : Nat := 0x200078
/-- TIME_SET_GO (R51). -/
def Reg.timeSetGo : Nat := 0x20007c
/-- TIME_FOREIGN (R51). -/
def Reg.timeForeign : Nat := 0x200080
/-- TIME_IRQ (R51). -/
def Reg.timeIrq : Nat := 0x200084
/-- TIME_IRQEN (R51). -/
def Reg.timeIrqen : Nat := 0x200088
/-- SWC_CTRL (R81). -/
def Reg.swcCtrl : Nat := 0x300000
/-- SWC_FDB_AGE (R81). -/
def Reg.swcFdbAge : Nat := 0x300004
/-- SWC_AGE_LO (R81). -/
def Reg.swcAgeLo : Nat := 0x300008
/-- SWC_AGE_HI (R81). -/
def Reg.swcAgeHi : Nat := 0x30000c
/-- SWC_OVF_CFG (R81). -/
def Reg.swcOvfCfg : Nat := 0x300010
/-- SWC_OVF_STAT (R81). -/
def Reg.swcOvfStat : Nat := 0x300014
/-- SWC_DESC_FREE (R81). -/
def Reg.swcDescFree : Nat := 0x300018
/-- SWC_BUF_FREE (R81). -/
def Reg.swcBufFree : Nat := 0x30001c
/-- SWC_PCPMAP (R81). -/
def Reg.swcPcpmap : Nat := 0x300020
/-- SWC_DWRR (R81). -/
def Reg.swcDwrr : Nat := 0x300024
/-- SWC_FDB_CMD (R81). -/
def Reg.swcFdbCmd : Nat := 0x300030
/-- SWC_FDB_MAC_HI (R81). -/
def Reg.swcFdbMacHi : Nat := 0x300034
/-- SWC_FDB_MAC_LO (R81). -/
def Reg.swcFdbMacLo : Nat := 0x300038
/-- SWC_FDB_DATA (R81). -/
def Reg.swcFdbData : Nat := 0x30003c
/-- SWC_FDB_STAT (R81). -/
def Reg.swcFdbStat : Nat := 0x300040
/-- SWC_VLAN_IDX (R81). -/
def Reg.swcVlanIdx : Nat := 0x300044
/-- SWC_VLAN_MEM (R81). -/
def Reg.swcVlanMem (i : Nat) : Nat := 0x300048 + 0x4 * i
/-- SWC_VLAN_UNTAG (R81). -/
def Reg.swcVlanUntag (i : Nat) : Nat := 0x30005c + 0x4 * i
/-- SWC_VLAN_CTL (R81). -/
def Reg.swcVlanCtl : Nat := 0x300070
/-- SWC_IRQ (R81). -/
def Reg.swcIrq : Nat := 0x300080
/-- SWC_IRQEN (R81). -/
def Reg.swcIrqen : Nat := 0x300084
/-- SWC_CNTIRQ_SUM (R81). -/
def Reg.swcCntirqSum (i : Nat) : Nat := 0x300090 + 0x4 * i
/-- SWC_P_CFG (R81). -/
def Reg.swcPCfg (i : Nat) : Nat := 0x400000 + 0x1000 * i
/-- SWC_P_STATUS (R81). -/
def Reg.swcPStatus (i : Nat) : Nat := 0x400004 + 0x1000 * i
/-- SWC_P_FENCE (R81). -/
def Reg.swcPFence (i : Nat) : Nat := 0x400008 + 0x1000 * i
/-- SWC_P_FENCECTL (R81). -/
def Reg.swcPFencectl (i : Nat) : Nat := 0x40000c + 0x1000 * i
/-- SWC_P_PVID (R81). -/
def Reg.swcPPvid (i : Nat) : Nat := 0x400010 + 0x1000 * i
/-- SWC_P_MACSEC (R81). -/
def Reg.swcPMacsec (i : Nat) : Nat := 0x400014 + 0x1000 * i
/-- SWC_P_LATCH (R81). -/
def Reg.swcPLatch (i : Nat) : Nat := 0x400018 + 0x1000 * i
/-- SWC_P_LATCH_SEC (R81). -/
def Reg.swcPLatchSec (i : Nat) : Nat := 0x40001c + 0x1000 * i
/-- SWC_P_LATCH_NS (R81). -/
def Reg.swcPLatchNs (i : Nat) : Nat := 0x400020 + 0x1000 * i
/-- SWC_P_CNTIRQ_LO (R81). -/
def Reg.swcPCntirqLo (i : Nat) : Nat := 0x400024 + 0x1000 * i
/-- SWC_P_CNTIRQ_HI (R81). -/
def Reg.swcPCntirqHi (i : Nat) : Nat := 0x400028 + 0x1000 * i
/-- SWC_P_CNTIRQEN_LO (R81). -/
def Reg.swcPCntirqenLo (i : Nat) : Nat := 0x40002c + 0x1000 * i
/-- SWC_P_CNTIRQEN_HI (R81). -/
def Reg.swcPCntirqenHi (i : Nat) : Nat := 0x400030 + 0x1000 * i
/-- SWC_P_PREEMPT (R81). -/
def Reg.swcPPreempt (i : Nat) : Nat := 0x400034 + 0x1000 * i
/-- SWC_P_CNT (R81). -/
def Reg.swcPCnt (i j : Nat) : Nat := 0x400200 + 0x1000 * i + 0x4 * j
/-- COL_CTRL (R81). -/
def Reg.colCtrl : Nat := 0x500000
/-- COL_DUPCFG (R81). -/
def Reg.colDupcfg : Nat := 0x500004
/-- COL_DUPSTAT (R81). -/
def Reg.colDupstat : Nat := 0x500008
/-- COL_PAIRMODE (R81). -/
def Reg.colPairmode (i : Nat) : Nat := 0x500010 + 0x4 * i
/-- COL_MATCH_IDX (R81). -/
def Reg.colMatchIdx : Nat := 0x500040
/-- COL_MATCH_CMD (R81). -/
def Reg.colMatchCmd : Nat := 0x500044
/-- COL_KEY_MAC_HI (R81). -/
def Reg.colKeyMacHi : Nat := 0x500048
/-- COL_KEY_MAC_LO (R81). -/
def Reg.colKeyMacLo : Nat := 0x50004c
/-- COL_KEY_MISC (R81). -/
def Reg.colKeyMisc : Nat := 0x500050
/-- COL_KEY_GRP (R81). -/
def Reg.colKeyGrp : Nat := 0x500054
/-- COL_KEY_IDLEN (R81). -/
def Reg.colKeyIdlen : Nat := 0x500058
/-- COL_KEY_ID (R81). -/
def Reg.colKeyId (i : Nat) : Nat := 0x500060 + 0x4 * i
/-- COL_MATCH_STAT (R81). -/
def Reg.colMatchStat : Nat := 0x5000b0
/-- COL_UNMATCHED (R81). -/
def Reg.colUnmatched : Nat := 0x5000c0
/-- COL_MALFORMED (R81). -/
def Reg.colMalformed : Nat := 0x5000c4
/-- COL_PORT_REJ (R81). -/
def Reg.colPortRej : Nat := 0x5000c8
/-- COL_DUP_EVICT (R81). -/
def Reg.colDupEvict : Nat := 0x5000cc
/-- COL_IRQ (R81). -/
def Reg.colIrq : Nat := 0x5000e0
/-- COL_IRQEN (R81). -/
def Reg.colIrqen : Nat := 0x5000e4
/-- COL_PGRP (R81). -/
def Reg.colPgrp (i j : Nat) : Nat := 0x501000 + 0x10 * i + 0x4 * j
/-- COL_PGRPX (R81). -/
def Reg.colPgrpx (i : Nat) : Nat := 0x501400 + 0x4 * i
/-- LOOM_CTRL (R109). -/
def Reg.loomCtrl : Nat := 0x600000
/-- LOOM_STAT (R109). -/
def Reg.loomStat : Nat := 0x600004
/-- LOOM_TRANSIT (R109). -/
def Reg.loomTransit : Nat := 0x600008
/-- LOOM_CLOSED_LO (R109). -/
def Reg.loomClosedLo : Nat := 0x600010
/-- LOOM_CLOSED_HI (R109). -/
def Reg.loomClosedHi : Nat := 0x600014
/-- LOOM_IRQ (R109). -/
def Reg.loomIrq : Nat := 0x600020
/-- LOOM_IRQEN (R109). -/
def Reg.loomIrqen : Nat := 0x600024
/-- LOOM_ABSENT (R109). -/
def Reg.loomAbsent (i : Nat) : Nat := 0x600030 + 0x4 * i
/-- LOOM_AU (R109). -/
def Reg.loomAu (i : Nat) : Nat := 0x600070 + 0x4 * i
/-- LOOM_PB_CTRL (R109). -/
def Reg.loomPbCtrl : Nat := 0x600100
/-- LOOM_PB_STATUS (R109). -/
def Reg.loomPbStatus : Nat := 0x600104
/-- LOOM_PB_BUF_LO (R109). -/
def Reg.loomPbBufLo : Nat := 0x600108
/-- LOOM_PB_BUF_HI (R109). -/
def Reg.loomPbBufHi : Nat := 0x60010c
/-- LOOM_PB_ROWS (R109). -/
def Reg.loomPbRows : Nat := 0x600110
/-- LOOM_PB_PROD (R109). -/
def Reg.loomPbProd : Nat := 0x600114
/-- LOOM_PB_CONS (R109). -/
def Reg.loomPbCons : Nat := 0x600118
/-- LOOM_PB_START_LO (R109). -/
def Reg.loomPbStartLo : Nat := 0x60011c
/-- LOOM_PB_START_HI (R109). -/
def Reg.loomPbStartHi : Nat := 0x600120
/-- LOOM_PB_DTAB_LO (R109). -/
def Reg.loomPbDtabLo : Nat := 0x600124
/-- LOOM_PB_DTAB_HI (R109). -/
def Reg.loomPbDtabHi : Nat := 0x600128
/-- LOOM_PB_NSTR (R109). -/
def Reg.loomPbNstr : Nat := 0x60012c
/-- LOOM_PB_UNDERRUN (R109). -/
def Reg.loomPbUnderrun : Nat := 0x600130
/-- LOOM_PB_GO (R109). -/
def Reg.loomPbGo : Nat := 0x600134
/-- LOOM_W_CFG (R109). -/
def Reg.loomWCfg (i : Nat) : Nat := 0x610000 + 0x40 * i
/-- LOOM_W_CONFREV (R109). -/
def Reg.loomWConfrev (i : Nat) : Nat := 0x610004 + 0x40 * i
/-- LOOM_W_DELAY (R109). -/
def Reg.loomWDelay (i : Nat) : Nat := 0x610008 + 0x40 * i
/-- LOOM_W_HYST (R109). -/
def Reg.loomWHyst (i : Nat) : Nat := 0x61000c + 0x40 * i
/-- LOOM_W_STATE (R109). -/
def Reg.loomWState (i : Nat) : Nat := 0x610010 + 0x40 * i
/-- LOOM_W_LATE (R109). -/
def Reg.loomWLate (i : Nat) : Nat := 0x610014 + 0x40 * i
/-- LOOM_W_EARLY (R109). -/
def Reg.loomWEarly (i : Nat) : Nat := 0x610018 + 0x40 * i
/-- LOOM_W_DUP (R109). -/
def Reg.loomWDup (i : Nat) : Nat := 0x61001c + 0x40 * i
/-- LOOM_W_REJ (R109). -/
def Reg.loomWRej (i : Nat) : Nat := 0x610020 + 0x40 * i
/-- LOOM_W_IGN (R109). -/
def Reg.loomWIgn (i : Nat) : Nat := 0x610024 + 0x40 * i
/-- LOOM_W_REANCHOR (R109). -/
def Reg.loomWReanchor (i : Nat) : Nat := 0x610028 + 0x40 * i
/-- LOOM_W_MISSING (R109). -/
def Reg.loomWMissing (i : Nat) : Nat := 0x61002c + 0x40 * i
/-- HDL_U_CTRL (R184). -/
def Reg.hdlUCtrl (i : Nat) : Nat := hdlBase i + 0x0
/-- HDL_U_STATUS (R184). -/
def Reg.hdlUStatus (i : Nat) : Nat := hdlBase i + 0x4
/-- HDL_U_WMAX (R184). -/
def Reg.hdlUWmax (i : Nat) : Nat := hdlBase i + 0x8
/-- HDL_U_KFLAGS (R184). -/
def Reg.hdlUKflags (i : Nat) : Nat := hdlBase i + 0xc
/-- HDL_U_RECORDS (R184). -/
def Reg.hdlURecords (i : Nat) : Nat := hdlBase i + 0x10
/-- HDL_U_TRIPREQ (R184). -/
def Reg.hdlUTripreq (i : Nat) : Nat := hdlBase i + 0x14
/-- HDL_U_TRIPREJ (R184). -/
def Reg.hdlUTriprej (i : Nat) : Nat := hdlBase i + 0x18
/-- HDL_U_RATEDROP (R184). -/
def Reg.hdlURatedrop (i : Nat) : Nat := hdlBase i + 0x1c
/-- HDL_U_MISMATCH (R184). -/
def Reg.hdlUMismatch (i : Nat) : Nat := hdlBase i + 0x20
/-- HDL_U_AUTHFAIL (R184). -/
def Reg.hdlUAuthfail (i : Nat) : Nat := hdlBase i + 0x24
/-- HDL_U_AUTHLATE (R184). -/
def Reg.hdlUAuthlate (i : Nat) : Nat := hdlBase i + 0x28
/-- HDL_U_EVT_POP (R184). -/
def Reg.hdlUEvtPop (i : Nat) : Nat := hdlBase i + 0x30
/-- HDL_U_EVT_INFO (R184). -/
def Reg.hdlUEvtInfo (i : Nat) : Nat := hdlBase i + 0x34
/-- HDL_U_EVT_DATA0 (R184). -/
def Reg.hdlUEvtData0 (i : Nat) : Nat := hdlBase i + 0x38
/-- HDL_U_EVT_DATA1 (R184). -/
def Reg.hdlUEvtData1 (i : Nat) : Nat := hdlBase i + 0x3c
/-- HDL_U_EVT_DROP (R184). -/
def Reg.hdlUEvtDrop (i : Nat) : Nat := hdlBase i + 0x40
/-- HDL_U_KLOAD (R184). -/
def Reg.hdlUKload (i : Nat) : Nat := hdlBase i + 0x50
/-- HDL_U_KSTAT (R184). -/
def Reg.hdlUKstat (i : Nat) : Nat := hdlBase i + 0x54
/-- HDL_U_KOWN0 (R184). -/
def Reg.hdlUKown0 (i : Nat) : Nat := hdlBase i + 0x58
/-- HDL_U_KOWN1 (R184). -/
def Reg.hdlUKown1 (i : Nat) : Nat := hdlBase i + 0x5c
/-- HDL_U_SMADDR (R184). -/
def Reg.hdlUSmaddr (i : Nat) : Nat := hdlBase i + 0x60
/-- HDL_U_SMDATA (R184). -/
def Reg.hdlUSmdata (i : Nat) : Nat := hdlBase i + 0x64
/-- HDL_U_IRQ (R184). -/
def Reg.hdlUIrq (i : Nat) : Nat := hdlBase i + 0x70
/-- HDL_U_IRQEN (R184). -/
def Reg.hdlUIrqen (i : Nat) : Nat := hdlBase i + 0x74
/-- HDL_U_WARP (R184). -/
def Reg.hdlUWarp (i j : Nat) : Nat := hdlBase i + 0x80 + 0x4 * j
/-- HDL_G_MEMB (R184). -/
def Reg.hdlGMemb (i j : Nat) : Nat := hdlBase i + 0x100 + 0x20 * j
/-- HDL_G_CFG (R184). -/
def Reg.hdlGCfg (i j : Nat) : Nat := hdlBase i + 0x104 + 0x20 * j
/-- HDL_G_VSEL (R184). -/
def Reg.hdlGVsel (i j : Nat) : Nat := hdlBase i + 0x108 + 0x20 * j
/-- HDL_G_DONE (R184). -/
def Reg.hdlGDone (i j : Nat) : Nat := hdlBase i + 0x10c + 0x20 * j
/-- HDL_G_INCOMPLETE (R184). -/
def Reg.hdlGIncomplete (i j : Nat) : Nat := hdlBase i + 0x110 + 0x20 * j
/-- HDL_G_LATE (R184). -/
def Reg.hdlGLate (i j : Nat) : Nat := hdlBase i + 0x114 + 0x20 * j
/-- HDL_U_MARK (R184). -/
def Reg.hdlUMark (i j : Nat) : Nat := hdlBase i + 0x200 + 0x4 * j
/-- HDL_U_GMARK (R184). -/
def Reg.hdlUGmark (i j : Nat) : Nat := hdlBase i + 0x220 + 0x4 * j
/-- HDL_U_KTAB (R184). -/
def Reg.hdlUKtab (i j : Nat) : Nat := hdlBase i + 0x1000 + 0x4 * j
/-- TRU_CTRL (R379). -/
def Reg.truCtrl : Nat := 0x800000
/-- TRU_RETX (R379). -/
def Reg.truRetx : Nat := 0x800004
/-- TRU_SLOT_IDX (R379). -/
def Reg.truSlotIdx : Nat := 0x800010
/-- TRU_SLOT_CMD (R379). -/
def Reg.truSlotCmd : Nat := 0x800014
/-- TRU_S_CFG (R379). -/
def Reg.truSCfg : Nat := 0x800018
/-- TRU_S_LEN (R379). -/
def Reg.truSLen : Nat := 0x80001c
/-- TRU_S_OFS (R379). -/
def Reg.truSOfs : Nat := 0x800020
/-- TRU_S_TOFS (R379). -/
def Reg.truSTofs : Nat := 0x800024
/-- TRU_S_STAT (R379). -/
def Reg.truSStat : Nat := 0x800028
/-- TRU_S_REL_SEC (R379). -/
def Reg.truSRelSec : Nat := 0x80002c
/-- TRU_S_REL_NS (R379). -/
def Reg.truSRelNs : Nat := 0x800030
/-- TRU_S_MISS (R379). -/
def Reg.truSMiss : Nat := 0x800034
/-- TRU_P_IDX (R379). -/
def Reg.truPIdx : Nat := 0x800040
/-- TRU_P_STNUM (R379). -/
def Reg.truPStnum : Nat := 0x800044
/-- TRU_P_SQNUM (R379). -/
def Reg.truPSqnum : Nat := 0x800048
/-- TRU_P_STAT (R379). -/
def Reg.truPStat : Nat := 0x80004c
/-- TRU_RELEASES (R379). -/
def Reg.truReleases : Nat := 0x800060
/-- TRU_REJECTS (R379). -/
def Reg.truRejects : Nat := 0x800064
/-- TRU_VBA_DROP (R379). -/
def Reg.truVbaDrop : Nat := 0x800068
/-- TRU_ATV_FAIL (R379). -/
def Reg.truAtvFail : Nat := 0x80006c
/-- TRU_STALE (R379). -/
def Reg.truStale : Nat := 0x800070
/-- TRU_ABORTS (R379). -/
def Reg.truAborts : Nat := 0x800074
/-- TRU_IRQ (R379). -/
def Reg.truIrq : Nat := 0x800080
/-- TRU_IRQEN (R379). -/
def Reg.truIrqen : Nat := 0x800084
/-- TRU_TEMPLATE (R379). -/
def Reg.truTemplate (i : Nat) : Nat := 0x801000 + 0x4 * i
/-- ARR_C_CTRL (R210). -/
def Reg.arrCCtrl (i : Nat) : Nat := 0x900000 + 0x10000 * i
/-- ARR_C_STATUS (R210). -/
def Reg.arrCStatus (i : Nat) : Nat := 0x900004 + 0x10000 * i
/-- ARR_C_MAP (R210). -/
def Reg.arrCMap (i : Nat) : Nat := 0x900008 + 0x10000 * i
/-- ARR_C_SHUTTLE (R210). -/
def Reg.arrCShuttle (i : Nat) : Nat := 0x90000c + 0x10000 * i
/-- ARR_C_IRQ (R210). -/
def Reg.arrCIrq (i : Nat) : Nat := 0x900010 + 0x10000 * i
/-- ARR_C_IRQEN (R210). -/
def Reg.arrCIrqen (i : Nat) : Nat := 0x900014 + 0x10000 * i
/-- ARR_K_STATUS (R210). -/
def Reg.arrKStatus (i j : Nat) : Nat := 0x900100 + 0x10000 * i + 0x40 * j
/-- ARR_K_ENTRY (R210). -/
def Reg.arrKEntry (i j : Nat) : Nat := 0x900104 + 0x10000 * i + 0x40 * j
/-- ARR_K_TRAP (R210). -/
def Reg.arrKTrap (i j : Nat) : Nat := 0x900108 + 0x10000 * i + 0x40 * j
/-- ARR_K_TRAPPC (R210). -/
def Reg.arrKTrappc (i j : Nat) : Nat := 0x90010c + 0x10000 * i + 0x40 * j
/-- ARR_K_TRAPADDR (R210). -/
def Reg.arrKTrapaddr (i j : Nat) : Nat := 0x900110 + 0x10000 * i + 0x40 * j
/-- ARR_K_TEND_TS (R210). -/
def Reg.arrKTendTs (i j : Nat) : Nat := 0x900114 + 0x10000 * i + 0x40 * j
/-- ARR_K_TEND_MAX (R210). -/
def Reg.arrKTendMax (i j : Nat) : Nat := 0x900118 + 0x10000 * i + 0x40 * j
/-- ARR_K_SMWAIT (R210). -/
def Reg.arrKSmwait (i j : Nat) : Nat := 0x90011c + 0x10000 * i + 0x40 * j
/-- CMT_CFG (R211). -/
def Reg.cmtCfg : Nat := 0xa00000
/-- CMT_STATUS (R211). -/
def Reg.cmtStatus : Nat := 0xa00004
/-- CMT_SEQ (R211). -/
def Reg.cmtSeq : Nat := 0xa00008
/-- CMT_LAST_LO (R211). -/
def Reg.cmtLastLo : Nat := 0xa0000c
/-- CMT_LAST_HI (R211). -/
def Reg.cmtLastHi : Nat := 0xa00010
/-- CMT_RESV_SUM (R211). -/
def Reg.cmtResvSum : Nat := 0xa00014
/-- CMT_PHASE (R211). -/
def Reg.cmtPhase : Nat := 0xa00018
/-- CMT_IRQ (R211). -/
def Reg.cmtIrq : Nat := 0xa00020
/-- CMT_IRQEN (R211). -/
def Reg.cmtIrqen : Nat := 0xa00024
/-- CMT_FAULTED0 (R211). -/
def Reg.cmtFaulted0 : Nat := 0xa00028
/-- CMT_FAULTED1 (R211). -/
def Reg.cmtFaulted1 : Nat := 0xa0002c
/-- CMT_DOP_IDX (R211). -/
def Reg.cmtDopIdx : Nat := 0xa00040
/-- CMT_DOP_TICK_LO (R211). -/
def Reg.cmtDopTickLo : Nat := 0xa00044
/-- CMT_DOP_TICK_HI (R211). -/
def Reg.cmtDopTickHi : Nat := 0xa00048
/-- CMT_DOP_CFG (R211). -/
def Reg.cmtDopCfg : Nat := 0xa0004c
/-- CMT_DOP_LIST (R211). -/
def Reg.cmtDopList : Nat := 0xa00050
/-- CMT_DOP_GO (R211). -/
def Reg.cmtDopGo : Nat := 0xa00054
/-- CMT_DOP_STAT (R211). -/
def Reg.cmtDopStat : Nat := 0xa00058
/-- CMT_T_CMD (R211). -/
def Reg.cmtTCmd (i : Nat) : Nat := 0xa01000 + 0x40 * i
/-- CMT_T_START_LO (R211). -/
def Reg.cmtTStartLo (i : Nat) : Nat := 0xa01004 + 0x40 * i
/-- CMT_T_START_HI (R211). -/
def Reg.cmtTStartHi (i : Nat) : Nat := 0xa01008 + 0x40 * i
/-- CMT_T_STATE (R211). -/
def Reg.cmtTState (i : Nat) : Nat := 0xa0100c + 0x40 * i
/-- CMT_T_TOL (R211). -/
def Reg.cmtTTol (i : Nat) : Nat := 0xa01010 + 0x40 * i
/-- CMT_T_UNCOM (R211). -/
def Reg.cmtTUncom (i : Nat) : Nat := 0xa01014 + 0x40 * i
/-- CMT_T_UNC_TOTAL (R211). -/
def Reg.cmtTUncTotal (i : Nat) : Nat := 0xa01018 + 0x40 * i
/-- CMT_T_LASTCAUSE (R211). -/
def Reg.cmtTLastcause (i : Nat) : Nat := 0xa0101c + 0x40 * i
/-- CMT_T_ENTRIES (R211). -/
def Reg.cmtTEntries (i : Nat) : Nat := 0xa01020 + 0x40 * i
/-- CMT_T_RESV (R211). -/
def Reg.cmtTResv (i : Nat) : Nat := 0xa01024 + 0x40 * i
/-- CMT_T_LAST_LO (R211). -/
def Reg.cmtTLastLo (i : Nat) : Nat := 0xa01028 + 0x40 * i
/-- CMT_T_LAST_HI (R211). -/
def Reg.cmtTLastHi (i : Nat) : Nat := 0xa0102c + 0x40 * i
/-- CMT_T_CORES0 (R211). -/
def Reg.cmtTCores0 (i : Nat) : Nat := 0xa01030 + 0x40 * i
/-- CMT_T_CORES1 (R211). -/
def Reg.cmtTCores1 (i : Nat) : Nat := 0xa01034 + 0x40 * i
/-- CLU_L_MODE (R214). -/
def Reg.cluLMode (i j : Nat) : Nat := 0xb01000 + 0x10000 * i + 0x80 * j
/-- CLU_L_SP (R214). -/
def Reg.cluLSp (i j : Nat) : Nat := 0xb01004 + 0x10000 * i + 0x80 * j
/-- CLU_L_FF (R214). -/
def Reg.cluLFf (i j : Nat) : Nat := 0xb01008 + 0x10000 * i + 0x80 * j
/-- CLU_L_MAN (R214). -/
def Reg.cluLMan (i j : Nat) : Nat := 0xb0100c + 0x10000 * i + 0x80 * j
/-- CLU_L_BANK (R214). -/
def Reg.cluLBank (i j : Nat) : Nat := 0xb01010 + 0x10000 * i + 0x80 * j
/-- CLU_L_INJ_AMP (R214). -/
def Reg.cluLInjAmp (i j : Nat) : Nat := 0xb01014 + 0x10000 * i + 0x80 * j
/-- CLU_L_INJ_F0 (R214). -/
def Reg.cluLInjF0 (i j : Nat) : Nat := 0xb01018 + 0x10000 * i + 0x80 * j
/-- CLU_L_INJ_F1 (R214). -/
def Reg.cluLInjF1 (i j : Nat) : Nat := 0xb0101c + 0x10000 * i + 0x80 * j
/-- CLU_L_B0_KP (R214). -/
def Reg.cluLB0Kp (i j : Nat) : Nat := 0xb01020 + 0x10000 * i + 0x80 * j
/-- CLU_L_B0_KI (R214). -/
def Reg.cluLB0Ki (i j : Nat) : Nat := 0xb01024 + 0x10000 * i + 0x80 * j
/-- CLU_L_B0_KD (R214). -/
def Reg.cluLB0Kd (i j : Nat) : Nat := 0xb01028 + 0x10000 * i + 0x80 * j
/-- CLU_L_B0_DF (R214). -/
def Reg.cluLB0Df (i j : Nat) : Nat := 0xb0102c + 0x10000 * i + 0x80 * j
/-- CLU_L_B0_UMIN (R214). -/
def Reg.cluLB0Umin (i j : Nat) : Nat := 0xb01030 + 0x10000 * i + 0x80 * j
/-- CLU_L_B0_UMAX (R214). -/
def Reg.cluLB0Umax (i j : Nat) : Nat := 0xb01034 + 0x10000 * i + 0x80 * j
/-- CLU_L_B0_RATE (R214). -/
def Reg.cluLB0Rate (i j : Nat) : Nat := 0xb01038 + 0x10000 * i + 0x80 * j
/-- CLU_L_INJ_DUR (R214). -/
def Reg.cluLInjDur (i j : Nat) : Nat := 0xb0103c + 0x10000 * i + 0x80 * j
/-- CLU_L_B1_KP (R214). -/
def Reg.cluLB1Kp (i j : Nat) : Nat := 0xb01040 + 0x10000 * i + 0x80 * j
/-- CLU_L_B1_KI (R214). -/
def Reg.cluLB1Ki (i j : Nat) : Nat := 0xb01044 + 0x10000 * i + 0x80 * j
/-- CLU_L_B1_KD (R214). -/
def Reg.cluLB1Kd (i j : Nat) : Nat := 0xb01048 + 0x10000 * i + 0x80 * j
/-- CLU_L_B1_DF (R214). -/
def Reg.cluLB1Df (i j : Nat) : Nat := 0xb0104c + 0x10000 * i + 0x80 * j
/-- CLU_L_B1_UMIN (R214). -/
def Reg.cluLB1Umin (i j : Nat) : Nat := 0xb01050 + 0x10000 * i + 0x80 * j
/-- CLU_L_B1_UMAX (R214). -/
def Reg.cluLB1Umax (i j : Nat) : Nat := 0xb01054 + 0x10000 * i + 0x80 * j
/-- CLU_L_B1_RATE (R214). -/
def Reg.cluLB1Rate (i j : Nat) : Nat := 0xb01058 + 0x10000 * i + 0x80 * j
/-- CLU_L_I_LO (R214). -/
def Reg.cluLILo (i j : Nat) : Nat := 0xb01060 + 0x10000 * i + 0x80 * j
/-- CLU_L_I_HI (R214). -/
def Reg.cluLIHi (i j : Nat) : Nat := 0xb01064 + 0x10000 * i + 0x80 * j
/-- CLU_L_CAND (R214). -/
def Reg.cluLCand (i j : Nat) : Nat := 0xb01068 + 0x10000 * i + 0x80 * j
/-- CLU_L_OUT (R214). -/
def Reg.cluLOut (i j : Nat) : Nat := 0xb0106c + 0x10000 * i + 0x80 * j
/-- CLU_L_ERR (R214). -/
def Reg.cluLErr (i j : Nat) : Nat := 0xb01070 + 0x10000 * i + 0x80 * j
/-- CLU_L_DSTATE (R214). -/
def Reg.cluLDstate (i j : Nat) : Nat := 0xb01074 + 0x10000 * i + 0x80 * j
/-- CLU_L_STAT (R214). -/
def Reg.cluLStat (i j : Nat) : Nat := 0xb01078 + 0x10000 * i + 0x80 * j
/-- CLU_L_PV (R214). -/
def Reg.cluLPv (i j : Nat) : Nat := 0xb0107c + 0x10000 * i + 0x80 * j
/-- CLU_STATUS (R231). -/
def Reg.cluStatus (i : Nat) : Nat := 0xb00000 + 0x10000 * i
/-- CLU_STICKY (R231). -/
def Reg.cluSticky (i : Nat) : Nat := 0xb00004 + 0x10000 * i
/-- CLU_INJACT (R231). -/
def Reg.cluInjact (i : Nat) : Nat := 0xb00008 + 0x10000 * i
/-- CLU_IRQ (R231). -/
def Reg.cluIrq (i : Nat) : Nat := 0xb00010 + 0x10000 * i
/-- CLU_IRQEN (R231). -/
def Reg.cluIrqen (i : Nat) : Nat := 0xb00014 + 0x10000 * i
/-- CLU_SG_MEMB (R231). -/
def Reg.cluSgMemb (i j : Nat) : Nat := 0xb00020 + 0x10000 * i + 0x8 * j
/-- CLU_SG_STAT (R231). -/
def Reg.cluSgStat (i j : Nat) : Nat := 0xb00024 + 0x10000 * i + 0x8 * j
/-- CLU_L_OWN (R231). -/
def Reg.cluLOwn (i j : Nat) : Nat := 0xb00080 + 0x10000 * i + 0x4 * j
/-- CLU_INJ_CMD (R231). -/
def Reg.cluInjCmd (i : Nat) : Nat := 0xb00100 + 0x10000 * i
/-- CLU_INJ_WORD (R231). -/
def Reg.cluInjWord (i : Nat) : Nat := 0xb00104 + 0x10000 * i
/-- CLU_INJ_RES (R231). -/
def Reg.cluInjRes (i : Nat) : Nat := 0xb00108 + 0x10000 * i
/-- CLU_CAP_CTRL (R231). -/
def Reg.cluCapCtrl (i j : Nat) : Nat := 0xb00200 + 0x10000 * i + 0x40 * j
/-- CLU_CAP_POST (R231). -/
def Reg.cluCapPost (i j : Nat) : Nat := 0xb00204 + 0x10000 * i + 0x40 * j
/-- CLU_CAP_STAT (R231). -/
def Reg.cluCapStat (i j : Nat) : Nat := 0xb00208 + 0x10000 * i + 0x40 * j
/-- CLU_CAP_CMD (R231). -/
def Reg.cluCapCmd (i j : Nat) : Nat := 0xb0020c + 0x10000 * i + 0x40 * j
/-- CLU_CAP_T0_LO (R231). -/
def Reg.cluCapT0Lo (i j : Nat) : Nat := 0xb00210 + 0x10000 * i + 0x40 * j
/-- CLU_CAP_T0_HI (R231). -/
def Reg.cluCapT0Hi (i j : Nat) : Nat := 0xb00214 + 0x10000 * i + 0x40 * j
/-- CLU_CAP_HOLD (R231). -/
def Reg.cluCapHold (i j : Nat) : Nat := 0xb00218 + 0x10000 * i + 0x40 * j
/-- CLU_CAP_RDPTR (R231). -/
def Reg.cluCapRdptr (i j : Nat) : Nat := 0xb0021c + 0x10000 * i + 0x40 * j
/-- CLU_CAP_RDDATA (R231). -/
def Reg.cluCapRddata (i j : Nat) : Nat := 0xb00220 + 0x10000 * i + 0x40 * j
/-- SMA_STATUS (R245). -/
def Reg.smaStatus : Nat := 0xc00000
/-- SMA_ECC_CORR (R245). -/
def Reg.smaEccCorr : Nat := 0xc00004
/-- SMA_ECC_ADDR (R245). -/
def Reg.smaEccAddr : Nat := 0xc00008
/-- SMA_IRQ (R245). -/
def Reg.smaIrq : Nat := 0xc00010
/-- SMA_IRQEN (R245). -/
def Reg.smaIrqen : Nat := 0xc00014
/-- SMA_PT_STAT (R245). -/
def Reg.smaPtStat : Nat := 0xc00020
/-- SMA_B_GRANTS (R245). -/
def Reg.smaBGrants (i : Nat) : Nat := 0xc00100 + 0x10 * i
/-- SMA_B_MAXWAIT (R245). -/
def Reg.smaBMaxwait (i : Nat) : Nat := 0xc00104 + 0x10 * i
/-- SMA_B_MASKED (R245). -/
def Reg.smaBMasked (i : Nat) : Nat := 0xc00108 + 0x10 * i
/-- SMA_B_CLR (R245). -/
def Reg.smaBClr (i : Nat) : Nat := 0xc0010c + 0x10 * i
/-- SMA_D_GRANTS (R245). -/
def Reg.smaDGrants (i : Nat) : Nat := 0xc00200 + 0x10 * i
/-- SMA_D_MAXWAIT (R245). -/
def Reg.smaDMaxwait (i : Nat) : Nat := 0xc00204 + 0x10 * i
/-- SMA_D_STATUS (R245). -/
def Reg.smaDStatus (i : Nat) : Nat := 0xc00208 + 0x10 * i
/-- SMA_D_CLR (R245). -/
def Reg.smaDClr (i : Nat) : Nat := 0xc0020c + 0x10 * i
/-- SMA_PT_BASE (R245). -/
def Reg.smaPtBase (i j : Nat) : Nat := 0xc01000 + 0x40 * i + 0x8 * j
/-- SMA_PT_SIZE (R245). -/
def Reg.smaPtSize (i j : Nat) : Nat := 0xc01004 + 0x40 * i + 0x8 * j
/-- VF_ID (R248). -/
def Reg.vfId (i : Nat) : Nat := 0x100000000 + 0x40000 * i
/-- VF_STATE (R248). -/
def Reg.vfState (i : Nat) : Nat := 0x100000004 + 0x40000 * i
/-- VF_CFG (R248). -/
def Reg.vfCfg (i : Nat) : Nat := 0x100000008 + 0x40000 * i
/-- VF_CIW_BASE (R248). -/
def Reg.vfCiwBase (i : Nat) : Nat := 0x10000000c + 0x40000 * i
/-- VF_CIW_OOB (R248). -/
def Reg.vfCiwOob (i : Nat) : Nat := 0x100000010 + 0x40000 * i
/-- VF_MB_STAT (R248). -/
def Reg.vfMbStat (i : Nat) : Nat := 0x100000014 + 0x40000 * i
/-- VF_IRQ (R248). -/
def Reg.vfIrq (i : Nat) : Nat := 0x100000018 + 0x40000 * i
/-- VF_IRQEN (R248). -/
def Reg.vfIrqen (i : Nat) : Nat := 0x10000001c + 0x40000 * i
/-- VF_SEQ (R248). -/
def Reg.vfSeq (i : Nat) : Nat := 0x100000020 + 0x40000 * i
/-- VF_SEQTICK_LO (R248). -/
def Reg.vfSeqtickLo (i : Nat) : Nat := 0x100000024 + 0x40000 * i
/-- VF_SEQTICK_HI (R248). -/
def Reg.vfSeqtickHi (i : Nat) : Nat := 0x100000028 + 0x40000 * i
/-- VF_VIOL (R248). -/
def Reg.vfViol (i : Nat) : Nat := 0x100000030 + 0x40000 * i
/-- VF_Q_SQB_LO (R248). -/
def Reg.vfQSqbLo (i j : Nat) : Nat := 0x100000100 + 0x40000 * i + 0x20 * j
/-- VF_Q_SQB_HI (R248). -/
def Reg.vfQSqbHi (i j : Nat) : Nat := 0x100000104 + 0x40000 * i + 0x20 * j
/-- VF_Q_CQB_LO (R248). -/
def Reg.vfQCqbLo (i j : Nat) : Nat := 0x100000108 + 0x40000 * i + 0x20 * j
/-- VF_Q_CQB_HI (R248). -/
def Reg.vfQCqbHi (i j : Nat) : Nat := 0x10000010c + 0x40000 * i + 0x20 * j
/-- VF_Q_SIZE (R248). -/
def Reg.vfQSize (i j : Nat) : Nat := 0x100000110 + 0x40000 * i + 0x20 * j
/-- VF_Q_CTRL (R248). -/
def Reg.vfQCtrl (i j : Nat) : Nat := 0x100000114 + 0x40000 * i + 0x20 * j
/-- VF_Q_STAT (R248). -/
def Reg.vfQStat (i j : Nat) : Nat := 0x100000118 + 0x40000 * i + 0x20 * j
/-- DB_MB_SEND (R248). -/
def Reg.dbMbSend (i : Nat) : Nat := 0x100002000 + 0x40000 * i
/-- DB_MB_ACK (R248). -/
def Reg.dbMbAck (i : Nat) : Nat := 0x100002004 + 0x40000 * i
/-- DB_SQ_TAIL (R248). -/
def Reg.dbSqTail (i j : Nat) : Nat := 0x100002100 + 0x40000 * i + 0x8 * j
/-- DB_CQ_HEAD (R248). -/
def Reg.dbCqHead (i j : Nat) : Nat := 0x100002104 + 0x40000 * i + 0x8 * j
/-- HIF_STATUS (R267). -/
def Reg.hifStatus : Nat := 0xd00000
/-- HIF_IRQ (R267). -/
def Reg.hifIrq : Nat := 0xd00004
/-- HIF_IRQEN (R267). -/
def Reg.hifIrqen : Nat := 0xd00008
/-- HIF_MB_PEND (R267). -/
def Reg.hifMbPend (i : Nat) : Nat := 0xd00010 + 0x4 * i
/-- HIF_MB_ACKD (R267). -/
def Reg.hifMbAckd (i : Nat) : Nat := 0xd00018 + 0x4 * i
/-- HIF_VF_FLR (R267). -/
def Reg.hifVfFlr (i : Nat) : Nat := 0xd00020 + 0x4 * i
/-- HIF_VF_VIOL (R267). -/
def Reg.hifVfViol (i : Nat) : Nat := 0xd00028 + 0x4 * i
/-- HIF_APREJ_CNT (R267). -/
def Reg.hifAprejCnt : Nat := 0xd00030
/-- HIF_APREJ_ADDR (R267). -/
def Reg.hifAprejAddr : Nat := 0xd00034
/-- HIF_GR_OPEN (R267). -/
def Reg.hifGrOpen : Nat := 0xd00040
/-- HIF_GR_STAT (R267). -/
def Reg.hifGrStat : Nat := 0xd00044
/-- HIF_GR_CLOSE (R267). -/
def Reg.hifGrClose : Nat := 0xd00048
/-- HIF_V_INFO (R267). -/
def Reg.hifVInfo (i : Nat) : Nat := 0xd00100 + 0x4 * i
/-- HIF_V_STALE (R267). -/
def Reg.hifVStale (i : Nat) : Nat := 0xd00200 + 0x4 * i
/-- HIF_OWN_GPUB (R267). -/
def Reg.hifOwnGpub (i : Nat) : Nat := 0xd00400 + 0x4 * i
/-- HIF_OWN_SPUB (R267). -/
def Reg.hifOwnSpub (i : Nat) : Nat := 0xd00800 + 0x4 * i
/-- HIF_OWN_CORE (R267). -/
def Reg.hifOwnCore (i : Nat) : Nat := 0xd00880 + 0x4 * i
/-- HIF_T_CMD (R267). -/
def Reg.hifTCmd : Nat := 0xd00900
/-- HIF_T_RES (R267). -/
def Reg.hifTRes : Nat := 0xd00904
/-- HIF_Q_SQB_LO (R267). -/
def Reg.hifQSqbLo (i : Nat) : Nat := 0xd00a00 + 0x20 * i
/-- HIF_Q_SQB_HI (R267). -/
def Reg.hifQSqbHi (i : Nat) : Nat := 0xd00a04 + 0x20 * i
/-- HIF_Q_CQB_LO (R267). -/
def Reg.hifQCqbLo (i : Nat) : Nat := 0xd00a08 + 0x20 * i
/-- HIF_Q_CQB_HI (R267). -/
def Reg.hifQCqbHi (i : Nat) : Nat := 0xd00a0c + 0x20 * i
/-- HIF_Q_SIZE (R267). -/
def Reg.hifQSize (i : Nat) : Nat := 0xd00a10 + 0x20 * i
/-- HIF_Q_CTRL (R267). -/
def Reg.hifQCtrl (i : Nat) : Nat := 0xd00a14 + 0x20 * i
/-- HIF_Q_STAT (R267). -/
def Reg.hifQStat (i : Nat) : Nat := 0xd00a18 + 0x20 * i
/-- HIF_DB_SQ_TAIL (R267). -/
def Reg.hifDbSqTail (i : Nat) : Nat := 0xd00c00 + 0x8 * i
/-- HIF_DB_CQ_HEAD (R267). -/
def Reg.hifDbCqHead (i : Nat) : Nat := 0xd00c04 + 0x8 * i
/-- HIF_MBX_OUT (R267). -/
def Reg.hifMbxOut (i j : Nat) : Nat := 0xd10000 + 0x800 * i + 0x4 * j
/-- HIF_MBX_IN (R267). -/
def Reg.hifMbxIn (i j : Nat) : Nat := 0xd10200 + 0x800 * i + 0x4 * j
/-- HIF_MBX_INFO (R267). -/
def Reg.hifMbxInfo (i : Nat) : Nat := 0xd10400 + 0x800 * i
/-- HIF_MBX_DB (R267). -/
def Reg.hifMbxDb (i : Nat) : Nat := 0xd10404 + 0x800 * i
/-- PLU_CFG (R287). -/
def Reg.pluCfg : Nat := 0xe00000
/-- PLU_LEASE (R287). -/
def Reg.pluLease : Nat := 0xe00004
/-- PLU_CKPT (R287). -/
def Reg.pluCkpt : Nat := 0xe00008
/-- PLU_SWAP (R287). -/
def Reg.pluSwap : Nat := 0xe0000c
/-- PLU_NET (R287). -/
def Reg.pluNet : Nat := 0xe00010
/-- PLU_STATUS (R287). -/
def Reg.pluStatus : Nat := 0xe00014
/-- PLU_EPOCH (R287). -/
def Reg.pluEpoch : Nat := 0xe00018
/-- PLU_PEER_EPOCH (R287). -/
def Reg.pluPeerEpoch : Nat := 0xe0001c
/-- PLU_CMD (R287). -/
def Reg.pluCmd : Nat := 0xe00020
/-- PLU_CMD_RES (R287). -/
def Reg.pluCmdRes : Nat := 0xe00024
/-- PLU_SWAP_STAT (R287). -/
def Reg.pluSwapStat : Nat := 0xe00028
/-- PLU_T_CLASS0 (R287). -/
def Reg.pluTClass0 : Nat := 0xe00030
/-- PLU_T_CLASS1 (R287). -/
def Reg.pluTClass1 : Nat := 0xe00034
/-- PLU_GATE_GPUB (R287). -/
def Reg.pluGateGpub (i : Nat) : Nat := 0xe00040 + 0x4 * i
/-- PLU_GATE_SPUB (R287). -/
def Reg.pluGateSpub (i : Nat) : Nat := 0xe000c0 + 0x4 * i
/-- PLU_RENEW_TX (R287). -/
def Reg.pluRenewTx : Nat := 0xe00100
/-- PLU_ACK_RX (R287). -/
def Reg.pluAckRx : Nat := 0xe00104
/-- PLU_AUTHFAIL (R287). -/
def Reg.pluAuthfail : Nat := 0xe00108
/-- PLU_STALE (R287). -/
def Reg.pluStale : Nat := 0xe0010c
/-- PLU_TAKEOVERS (R287). -/
def Reg.pluTakeovers : Nat := 0xe00110
/-- PLU_DEMOTIONS (R287). -/
def Reg.pluDemotions : Nat := 0xe00114
/-- PLU_CKPT_SEQ (R287). -/
def Reg.pluCkptSeq : Nat := 0xe00118
/-- PLU_CKPT_TICK_LO (R287). -/
def Reg.pluCkptTickLo : Nat := 0xe0011c
/-- PLU_CKPT_TICK_HI (R287). -/
def Reg.pluCkptTickHi : Nat := 0xe00120
/-- PLU_CKPT_KIB (R287). -/
def Reg.pluCkptKib : Nat := 0xe00124
/-- PLU_CKPT_SKIP (R287). -/
def Reg.pluCkptSkip : Nat := 0xe00128
/-- PLU_ACK_AGE (R287). -/
def Reg.pluAckAge : Nat := 0xe0012c
/-- PLU_IRQ (R287). -/
def Reg.pluIrq : Nat := 0xe00130
/-- PLU_IRQEN (R287). -/
def Reg.pluIrqen : Nat := 0xe00134
/-- PLU_PEER_MAC_HI (R287). -/
def Reg.pluPeerMacHi : Nat := 0xe00140
/-- PLU_PEER_MAC_LO (R287). -/
def Reg.pluPeerMacLo : Nat := 0xe00144
/-- KS_STATUS (R307). -/
def Reg.ksStatus : Nat := 0xf00000
/-- KS_CMD (R307). -/
def Reg.ksCmd : Nat := 0xf00004
/-- KS_ARG (R307). -/
def Reg.ksArg : Nat := 0xf00008
/-- KS_ATTR (R307). -/
def Reg.ksAttr : Nat := 0xf0000c
/-- KS_KEYID (R307). -/
def Reg.ksKeyid : Nat := 0xf00010
/-- KS_CHECK (R307). -/
def Reg.ksCheck : Nat := 0xf00014
/-- KS_RES (R307). -/
def Reg.ksRes : Nat := 0xf00018
/-- KS_DLEN (R307). -/
def Reg.ksDlen : Nat := 0xf0001c
/-- KS_IRQ (R307). -/
def Reg.ksIrq : Nat := 0xf00020
/-- KS_IRQEN (R307). -/
def Reg.ksIrqen : Nat := 0xf00024
/-- KS_TAMPER (R307). -/
def Reg.ksTamper : Nat := 0xf00028
/-- KS_ZCNT (R307). -/
def Reg.ksZcnt : Nat := 0xf0002c
/-- KS_SLOTS (R307). -/
def Reg.ksSlots : Nat := 0xf00030
/-- KS_NOKEY (R307). -/
def Reg.ksNokey : Nat := 0xf00034
/-- KS_OWNERKEY (R307). -/
def Reg.ksOwnerkey : Nat := 0xf00038
/-- KS_S_IDX (R307). -/
def Reg.ksSIdx : Nat := 0xf00040
/-- KS_S_INFO (R307). -/
def Reg.ksSInfo : Nat := 0xf00044
/-- KS_S_KEYID (R307). -/
def Reg.ksSKeyid : Nat := 0xf00048
/-- KS_S_CHECK (R307). -/
def Reg.ksSCheck : Nat := 0xf0004c
/-- KS_S_SHCHECK (R307). -/
def Reg.ksSShcheck : Nat := 0xf00050
/-- KS_S_SHKEYID (R307). -/
def Reg.ksSShkeyid : Nat := 0xf00054
/-- KS_B_IDX (R307). -/
def Reg.ksBIdx : Nat := 0xf00060
/-- KS_B_CMD (R307). -/
def Reg.ksBCmd : Nat := 0xf00064
/-- KS_B_SLOTS (R307). -/
def Reg.ksBSlots : Nat := 0xf00068
/-- KS_B_KIDA (R307). -/
def Reg.ksBKida : Nat := 0xf0006c
/-- KS_B_KIDB (R307). -/
def Reg.ksBKidb : Nat := 0xf00070
/-- KS_B_STAT (R307). -/
def Reg.ksBStat : Nat := 0xf00074
/-- KS_DATA (R307). -/
def Reg.ksData (i : Nat) : Nat := 0xf00200 + 0x4 * i
/-- KS_OWN (R307). -/
def Reg.ksOwn (i : Nat) : Nat := 0xf00400 + 0x4 * i
/-- PAN_STATUS (R328). -/
def Reg.panStatus : Nat := 0x1000000
/-- PAN_LOGLOCK (R328). -/
def Reg.panLoglock : Nat := 0x1000004
/-- PAN_RATECFG (R328). -/
def Reg.panRatecfg : Nat := 0x1000008
/-- PAN_OPTIME (R328). -/
def Reg.panOptime : Nat := 0x1000010
/-- PAN_OPTIME_MS (R328). -/
def Reg.panOptimeMs : Nat := 0x1000014
/-- PAN_PWRCYC (R328). -/
def Reg.panPwrcyc : Nat := 0x1000018
/-- PAN_LOG_LOST (R328). -/
def Reg.panLogLost : Nat := 0x100001c
/-- PAN_WEAR_ADDR (R328). -/
def Reg.panWearAddr : Nat := 0x1000020
/-- PAN_WEAR_CNT (R328). -/
def Reg.panWearCnt : Nat := 0x1000024
/-- PAN_WEAR_INFO (R328). -/
def Reg.panWearInfo : Nat := 0x1000028
/-- PAN_HOT (R328). -/
def Reg.panHot : Nat := 0x1000030
/-- PAN_REMAPS (R328). -/
def Reg.panRemaps : Nat := 0x1000034
/-- PAN_IRQ (R328). -/
def Reg.panIrq : Nat := 0x1000040
/-- PAN_IRQEN (R328). -/
def Reg.panIrqen : Nat := 0x1000044
/-- LOG_STATUS (R328). -/
def Reg.logStatus : Nat := 0x1100000
/-- LOG_GEN (R328). -/
def Reg.logGen : Nat := 0x1100004
/-- LOG_FIRST (R328). -/
def Reg.logFirst : Nat := 0x1100008
/-- LOG_LAST (R328). -/
def Reg.logLast : Nat := 0x110000c
/-- LOG_NEXT (R328). -/
def Reg.logNext : Nat := 0x1100010
/-- LOG_DROPPED (R328). -/
def Reg.logDropped : Nat := 0x1100014
/-- LOG_CMD (R328). -/
def Reg.logCmd : Nat := 0x1100018
/-- LOG_CMD_RES (R328). -/
def Reg.logCmdRes : Nat := 0x110001c
/-- LOG_FREEZE (R328). -/
def Reg.logFreeze : Nat := 0x1100020
/-- LOG_ERASED (R328). -/
def Reg.logErased : Nat := 0x1100024
/-- LOG_IRQ (R328). -/
def Reg.logIrq : Nat := 0x1100030
/-- LOG_IRQEN (R328). -/
def Reg.logIrqen : Nat := 0x1100034
/-- LOG_CUR_SEQ (R328). -/
def Reg.logCurSeq : Nat := 0x1100040
/-- LOG_CUR_ADV (R328). -/
def Reg.logCurAdv : Nat := 0x1100044
/-- LOG_RAW_SECT (R328). -/
def Reg.logRawSect : Nat := 0x1100050
/-- LOG_CUR_WIN (R328). -/
def Reg.logCurWin (i : Nat) : Nat := 0x1100800 + 0x4 * i
/-- LOG_RAW_WIN (R328). -/
def Reg.logRawWin (i : Nat) : Nat := 0x1110000 + 0x4 * i
/-- VF_LOG_STATUS (R328). -/
def Reg.vfLogStatus (i : Nat) : Nat := 0x100000400 + 0x40000 * i
/-- VF_LOG_CMD (R328). -/
def Reg.vfLogCmd (i : Nat) : Nat := 0x100000404 + 0x40000 * i
/-- VF_LOG_RES (R328). -/
def Reg.vfLogRes (i : Nat) : Nat := 0x100000408 + 0x40000 * i
/-- VF_LOG_FREEZE (R328). -/
def Reg.vfLogFreeze (i : Nat) : Nat := 0x10000040c + 0x40000 * i
/-- VF_LOG_CUR_SEQ (R328). -/
def Reg.vfLogCurSeq (i : Nat) : Nat := 0x100000410 + 0x40000 * i
/-- VF_LOG_CUR_ADV (R328). -/
def Reg.vfLogCurAdv (i : Nat) : Nat := 0x100000414 + 0x40000 * i
/-- VF_LOG_RAWADDR (R328). -/
def Reg.vfLogRawaddr (i : Nat) : Nat := 0x100000418 + 0x40000 * i
/-- VF_LOG_FIRST (R328). -/
def Reg.vfLogFirst (i : Nat) : Nat := 0x10000041c + 0x40000 * i
/-- VF_LOG_LAST (R328). -/
def Reg.vfLogLast (i : Nat) : Nat := 0x100000420 + 0x40000 * i
/-- VF_LOG_CUR_WIN (R328). -/
def Reg.vfLogCurWin (i j : Nat) : Nat := 0x100000800 + 0x40000 * i + 0x4 * j
/-- VF_LOG_RAW_WIN (R328). -/
def Reg.vfLogRawWin (i j : Nat) : Nat := 0x100000c00 + 0x40000 * i + 0x4 * j
/-- ARC_CTRL (R328). -/
def Reg.arcCtrl : Nat := 0x1200000
/-- ARC_STATUS (R328). -/
def Reg.arcStatus : Nat := 0x1200004
/-- ARC_ID_LO (R328). -/
def Reg.arcIdLo : Nat := 0x1200008
/-- ARC_ID_HI (R328). -/
def Reg.arcIdHi : Nat := 0x120000c
/-- ARC_SLOTS_LO (R328). -/
def Reg.arcSlotsLo : Nat := 0x1200010
/-- ARC_SLOTS_HI (R328). -/
def Reg.arcSlotsHi : Nat := 0x1200014
/-- ARC_HEAD_LO (R328). -/
def Reg.arcHeadLo : Nat := 0x1200018
/-- ARC_HEAD_HI (R328). -/
def Reg.arcHeadHi : Nat := 0x120001c
/-- ARC_TAIL_LO (R328). -/
def Reg.arcTailLo : Nat := 0x1200020
/-- ARC_TAIL_HI (R328). -/
def Reg.arcTailHi : Nat := 0x1200024
/-- ARC_SEQ_LO (R328). -/
def Reg.arcSeqLo : Nat := 0x1200028
/-- ARC_SEQ_HI (R328). -/
def Reg.arcSeqHi : Nat := 0x120002c
/-- ARC_GAPS (R328). -/
def Reg.arcGaps : Nat := 0x1200030
/-- ARC_LOST (R328). -/
def Reg.arcLost : Nat := 0x1200034
/-- ARC_BACKLOG (R328). -/
def Reg.arcBacklog : Nat := 0x1200038
/-- ARC_XFER_SLOT_LO (R328). -/
def Reg.arcXferSlotLo : Nat := 0x1200040
/-- ARC_XFER_SLOT_HI (R328). -/
def Reg.arcXferSlotHi : Nat := 0x1200044
/-- ARC_XFER_CNT (R328). -/
def Reg.arcXferCnt : Nat := 0x1200048
/-- ARC_XFER_DST_LO (R328). -/
def Reg.arcXferDstLo : Nat := 0x120004c
/-- ARC_XFER_DST_HI (R328). -/
def Reg.arcXferDstHi : Nat := 0x1200050
/-- ARC_XFER_CMD (R328). -/
def Reg.arcXferCmd : Nat := 0x1200054
/-- ARC_XFER_STAT (R328). -/
def Reg.arcXferStat : Nat := 0x1200058
/-- ARC_FMT (R328). -/
def Reg.arcFmt : Nat := 0x1200060
/-- ARC_FMT_RES (R328). -/
def Reg.arcFmtRes : Nat := 0x1200064
/-- ARC_IRQ (R328). -/
def Reg.arcIrq : Nat := 0x1200070
/-- ARC_IRQEN (R328). -/
def Reg.arcIrqen : Nat := 0x1200074
/-- ARC_D_STATUS (R328). -/
def Reg.arcDStatus (i : Nat) : Nat := 0x1200080 + 0x10 * i
/-- ARC_D_BASE (R328). -/
def Reg.arcDBase (i : Nat) : Nat := 0x1200084 + 0x10 * i
/-- ARC_D_COUNT (R328). -/
def Reg.arcDCount (i : Nat) : Nat := 0x1200088 + 0x10 * i
/-- ARC_D_ERR (R328). -/
def Reg.arcDErr (i : Nat) : Nat := 0x120008c + 0x10 * i
/-- FIO_CTRL (R340). -/
def Reg.fioCtrl : Nat := 0x1300000
/-- FIO_STATUS (R340). -/
def Reg.fioStatus : Nat := 0x1300004
/-- FIO_SUPPLY (R340). -/
def Reg.fioSupply : Nat := 0x1300008
/-- FIO_IRQ (R340). -/
def Reg.fioIrq : Nat := 0x1300010
/-- FIO_IRQEN (R340). -/
def Reg.fioIrqen : Nat := 0x1300014
/-- FIO_BI_STATE (R340). -/
def Reg.fioBiState : Nat := 0x1300020
/-- FIO_BI_RAW (R340). -/
def Reg.fioBiRaw : Nat := 0x1300024
/-- FIO_BI_CHATTER (R340). -/
def Reg.fioBiChatter : Nat := 0x1300028
/-- FIO_EDGE_POP (R340). -/
def Reg.fioEdgePop : Nat := 0x1300030
/-- FIO_EDGE_SEC (R340). -/
def Reg.fioEdgeSec : Nat := 0x1300034
/-- FIO_EDGE_SEC_HI (R340). -/
def Reg.fioEdgeSecHi : Nat := 0x1300038
/-- FIO_EDGE_NS (R340). -/
def Reg.fioEdgeNs : Nat := 0x130003c
/-- FIO_EDGE_INFO (R340). -/
def Reg.fioEdgeInfo : Nat := 0x1300040
/-- FIO_BC_OWN (R340). -/
def Reg.fioBcOwn (i : Nat) : Nat := 0x1300080 + 0x4 * i
/-- FIO_OUT_CMD (R340). -/
def Reg.fioOutCmd : Nat := 0x1300090
/-- FIO_OUT_PIN (R340). -/
def Reg.fioOutPin : Nat := 0x1300094
/-- FIO_TRIPBC (R340). -/
def Reg.fioTripbc : Nat := 0x1300098
/-- FIO_BI_GRANT (R340). -/
def Reg.fioBiGrant (i : Nat) : Nat := 0x1300100 + 0x4 * i
/-- FIO_BI_CFG (R340). -/
def Reg.fioBiCfg (i : Nat) : Nat := 0x1300200 + 0x4 * i
/-- FIO_BC_CFG (R340). -/
def Reg.fioBcCfg (i : Nat) : Nat := 0x1300300 + 0x4 * i
/-- FIO_BC_STATUS (R340). -/
def Reg.fioBcStatus (i : Nat) : Nat := 0x1300400 + 0x10 * i
/-- FIO_BC_FAULT (R340). -/
def Reg.fioBcFault (i : Nat) : Nat := 0x1300404 + 0x10 * i
/-- FIO_BC_CMD (R340). -/
def Reg.fioBcCmd (i : Nat) : Nat := 0x1300408 + 0x10 * i
/-- FIO_BC_OPS (R340). -/
def Reg.fioBcOps (i : Nat) : Nat := 0x130040c + 0x10 * i
/-- HC_CFG (R356). -/
def Reg.hcCfg : Nat := 0x100000
/-- HC_STATE (R356). -/
def Reg.hcState : Nat := 0x100004
/-- HC_BOOT_MS (R356). -/
def Reg.hcBootMs : Nat := 0x100008
/-- HC_RESET_CAUSE (R356). -/
def Reg.hcResetCause : Nat := 0x10000c
/-- HC_FAULT (R356). -/
def Reg.hcFault : Nat := 0x100010
/-- HC_DEAD_CORE (R356). -/
def Reg.hcDeadCore (i : Nat) : Nat := 0x100014 + 0x4 * i
/-- HC_DEAD_HU (R356). -/
def Reg.hcDeadHu : Nat := 0x100020
/-- HC_DDR (R356). -/
def Reg.hcDdr : Nat := 0x100024
/-- HC_VERDICTS (R356). -/
def Reg.hcVerdicts : Nat := 0x100028
/-- HC_CMD (R356). -/
def Reg.hcCmd : Nat := 0x100030
/-- HC_CMD_RES (R356). -/
def Reg.hcCmdRes : Nat := 0x100034
/-- HC_IRQ (R356). -/
def Reg.hcIrq : Nat := 0x100040
/-- HC_IRQEN (R356). -/
def Reg.hcIrqen : Nat := 0x100044
/-- HC_TEL_BASE_LO (R356). -/
def Reg.hcTelBaseLo : Nat := 0x100050
/-- HC_TEL_BASE_HI (R356). -/
def Reg.hcTelBaseHi : Nat := 0x100054
/-- HC_TEL_SIZE (R356). -/
def Reg.hcTelSize : Nat := 0x100058
/-- HC_TEL_PROD (R356). -/
def Reg.hcTelProd : Nat := 0x10005c
/-- HC_TEL_CONS (R356). -/
def Reg.hcTelCons : Nat := 0x100060
/-- HC_TEL_DROP (R356). -/
def Reg.hcTelDrop : Nat := 0x100064
/-- HC_TEMP (R356). -/
def Reg.hcTemp (i : Nat) : Nat := 0x100080 + 0x4 * i
/-- GLB_IRQ_SUM (R357). -/
def Reg.glbIrqSum : Nat := 0x20
/-- GLB_ASSET (R357). -/
def Reg.glbAsset (i : Nat) : Nat := 0x40 + 0x4 * i
/-- GLB_ORDER (R363). -/
def Reg.glbOrder (i : Nat) : Nat := 0x0 + 0x4 * i
/-- GLB_SERIAL (R363). -/
def Reg.glbSerial (i : Nat) : Nat := 0xc + 0x4 * i
/-- GLB_ISSUE (R363). -/
def Reg.glbIssue : Nat := 0x18
/-- GLB_MAC_LO (R363). -/
def Reg.glbMacLo : Nat := 0x1c

/-- The access codes of R11. -/
inductive Access where
  | rw | ro | wo | w1c | w1s | rwp | ros
deriving DecidableEq, Repr

/-- A family of registers: base offset, dimensions (count, stride) outermost first, access code, writable bits. -/
structure RegFam where
  base : Nat
  dims : List (Nat × Nat)
  acc : Access
  mask : Nat
deriving DecidableEq, Repr

/-- Whether an offset belongs to a family laid out from `base`. -/
def inDims (base : Nat) : List (Nat × Nat) → Nat → Bool
  | [], off => off == base
  | (n, st) :: ds, off =>
    base ≤ off && (off - base) / st < n && inDims (base + st * ((off - base) / st)) ds off

def famTime0 : List RegFam := [
  ⟨0x200000, [], .rwp, 0x7f⟩,
  ⟨0x200004, [], .rwp, 0xffffff⟩,
  ⟨0x200008, [], .rwp, 0xffffff⟩,
  ⟨0x20000c, [], .rwp, 0x3⟩,
  ⟨0x200010, [], .ro, 0xffffffff⟩,
  ⟨0x200014, [], .wo, 0x1⟩,
  ⟨0x200018, [], .ro, 0xffffffff⟩,
  ⟨0x20001c, [], .ro, 0xffffffff⟩,
  ⟨0x200020, [], .ro, 0xffffffff⟩,
  ⟨0x200024, [], .ro, 0xffffffff⟩,
  ⟨0x200028, [], .ro, 0xffffffff⟩,
  ⟨0x20002c, [], .ro, 0xffffffff⟩,
  ⟨0x200030, [], .ro, 0xffffffff⟩,
  ⟨0x200034, [], .rwp, 0xff⟩,
  ⟨0x200038, [], .ro, 0xffffffff⟩,
  ⟨0x20003c, [], .ro, 0xffffffff⟩,
  ⟨0x200040, [], .ro, 0xffffffff⟩,
  ⟨0x200044, [], .ro, 0xffffffff⟩,
  ⟨0x200048, [], .ro, 0xffffffff⟩,
  ⟨0x20004c, [], .ro, 0xffffffff⟩,
  ⟨0x200050, [], .rwp, 0x3ffff⟩,
  ⟨0x200054, [], .rwp, 0x3ff⟩,
  ⟨0x200058, [], .rwp, 0x7⟩,
  ⟨0x20005c, [], .rwp, 0xffffffff⟩,
  ⟨0x200060, [], .ro, 0xffffffff⟩,
  ⟨0x200064, [], .wo, 0x1⟩,
  ⟨0x200068, [], .ro, 0xffffffff⟩,
  ⟨0x20006c, [], .ro, 0xffffffff⟩,
  ⟨0x200070, [], .ro, 0xffffffff⟩,
  ⟨0x200074, [], .rw, 0xffff⟩,
  ⟨0x200078, [], .rw, 0xffffffff⟩,
  ⟨0x20007c, [], .wo, 0x1⟩,
  ⟨0x200080, [], .ro, 0xffffffff⟩,
  ⟨0x200084, [], .w1c, 0x7f⟩,
  ⟨0x200088, [], .rw, 0x7f⟩]
/-- The register families of the window at 0x200000. -/
def famTime : List RegFam := famTime0
def famSwc0 : List RegFam := [
  ⟨0x300000, [], .rwp, 0x3⟩,
  ⟨0x300004, [], .rwp, 0xffff⟩,
  ⟨0x300008, [], .rwp, 0x3fffffff⟩,
  ⟨0x30000c, [], .rwp, 0xfffff⟩,
  ⟨0x300010, [], .rwp, 0x3f1f1f01⟩,
  ⟨0x300014, [], .ro, 0xffffffff⟩,
  ⟨0x300018, [], .ro, 0xffffffff⟩,
  ⟨0x30001c, [], .ro, 0xffffffff⟩,
  ⟨0x300020, [], .rwp, 0xffffff⟩,
  ⟨0x300024, [], .rwp, 0x3fffffff⟩,
  ⟨0x300030, [], .wo, 0x80000003⟩,
  ⟨0x300034, [], .rw, 0xfffffff⟩,
  ⟨0x300038, [], .rw, 0xffffffff⟩,
  ⟨0x30003c, [], .rw, 0x8000ffff⟩,
  ⟨0x300040, [], .ro, 0xffffffff⟩,
  ⟨0x300044, [], .rw, 0xfff⟩,
  ⟨0x300048, [(4, 0x4)], .rw, 0xffffffff⟩,
  ⟨0x300058, [], .rw, 0xffff⟩,
  ⟨0x30005c, [(4, 0x4)], .rw, 0xffffffff⟩,
  ⟨0x30006c, [], .rw, 0xffff⟩,
  ⟨0x300070, [], .rw, 0xc000000f⟩,
  ⟨0x300080, [], .w1c, 0x7f⟩,
  ⟨0x300084, [], .rw, 0x7f⟩,
  ⟨0x300090, [(5, 0x4)], .ro, 0xffffffff⟩]
/-- The register families of the window at 0x300000. -/
def famSwc : List RegFam := famSwc0
def famSwcPort0 : List RegFam := [
  ⟨0x400000, [(144, 0x1000)], .rwp, 0x1ff⟩,
  ⟨0x400004, [(144, 0x1000)], .ro, 0xffffffff⟩,
  ⟨0x400008, [(144, 0x1000)], .rwp, 0xffffffff⟩,
  ⟨0x40000c, [(144, 0x1000)], .wo, 0x1⟩,
  ⟨0x400010, [(144, 0x1000)], .rwp, 0x1fff⟩,
  ⟨0x400014, [(144, 0x1000)], .rwp, 0x7f⟩,
  ⟨0x400018, [(144, 0x1000)], .wo, 0x3⟩,
  ⟨0x40001c, [(144, 0x1000)], .ro, 0xffffffff⟩,
  ⟨0x400020, [(144, 0x1000)], .ro, 0xffffffff⟩,
  ⟨0x400024, [(144, 0x1000)], .w1c, 0xffffffff⟩,
  ⟨0x400028, [(144, 0x1000)], .w1c, 0xffffffff⟩,
  ⟨0x40002c, [(144, 0x1000)], .rw, 0xffffffff⟩,
  ⟨0x400030, [(144, 0x1000)], .rw, 0xffffffff⟩,
  ⟨0x400034, [(144, 0x1000)], .ro, 0xffffffff⟩,
  ⟨0x400200, [(144, 0x1000), (128, 0x4)], .ro, 0xffffffff⟩]
/-- The register families of the window at 0x400000. -/
def famSwcPort : List RegFam := famSwcPort0
def famCol0 : List RegFam := [
  ⟨0x500000, [], .rwp, 0x3⟩,
  ⟨0x500004, [], .rwp, 0xffff⟩,
  ⟨0x500008, [], .ro, 0xffffffff⟩,
  ⟨0x500010, [(4, 0x4)], .rwp, 0xffffffff⟩,
  ⟨0x500020, [], .rwp, 0xffff⟩,
  ⟨0x500040, [], .rw, 0xfff⟩,
  ⟨0x500044, [], .wo, 0x80000003⟩,
  ⟨0x500048, [], .rw, 0xffff⟩,
  ⟨0x50004c, [], .rw, 0xffffffff⟩,
  ⟨0x500050, [], .rw, 0x3fffffff⟩,
  ⟨0x500054, [], .rw, 0x3f⟩,
  ⟨0x500058, [], .rw, 0x7f⟩,
  ⟨0x500060, [(16, 0x4)], .rw, 0xffffffff⟩,
  ⟨0x5000a0, [], .rw, 0xff⟩,
  ⟨0x5000b0, [], .ro, 0xffffffff⟩,
  ⟨0x5000c0, [], .ro, 0xffffffff⟩,
  ⟨0x5000c4, [], .ro, 0xffffffff⟩,
  ⟨0x5000c8, [], .ro, 0xffffffff⟩,
  ⟨0x5000cc, [], .ro, 0xffffffff⟩,
  ⟨0x5000e0, [], .w1c, 0x7⟩,
  ⟨0x5000e4, [], .rw, 0x7⟩,
  ⟨0x501000, [(64, 0x10), (4, 0x4)], .rwp, 0xffffffff⟩,
  ⟨0x501400, [(64, 0x4)], .rwp, 0xffff⟩]
/-- The register families of the window at 0x500000. -/
def famCol : List RegFam := famCol0
def famLoom0 : List RegFam := [
  ⟨0x600000, [], .rwp, 0x3ff⟩,
  ⟨0x600004, [], .ro, 0xffffffff⟩,
  ⟨0x600008, [], .rwp, 0xffff⟩,
  ⟨0x600010, [], .ro, 0xffffffff⟩,
  ⟨0x600014, [], .ro, 0xffffffff⟩,
  ⟨0x600020, [], .w1c, 0x1ff⟩,
  ⟨0x600024, [], .rw, 0x1ff⟩,
  ⟨0x600030, [(16, 0x4)], .ro, 0xffffffff⟩,
  ⟨0x600070, [(16, 0x4)], .ro, 0xffffffff⟩,
  ⟨0x600100, [], .rw, 0x7⟩,
  ⟨0x600104, [], .ro, 0xffffffff⟩,
  ⟨0x600108, [], .rw, 0xfffff000⟩,
  ⟨0x60010c, [], .rw, 0xf⟩,
  ⟨0x600110, [], .rw, 0xffff⟩,
  ⟨0x600114, [], .rw, 0xffff⟩,
  ⟨0x600118, [], .ro, 0xffffffff⟩,
  ⟨0x60011c, [], .rw, 0xffffffff⟩,
  ⟨0x600120, [], .rw, 0xffff⟩,
  ⟨0x600124, [], .rw, 0xffffff80⟩,
  ⟨0x600128, [], .rw, 0xf⟩,
  ⟨0x60012c, [], .rw, 0x3ff⟩,
  ⟨0x600130, [], .ro, 0xffffffff⟩,
  ⟨0x600134, [], .wo, 0x3⟩,
  ⟨0x610000, [(512, 0x40)], .rw, 0x3f7fff⟩,
  ⟨0x610004, [(512, 0x40)], .rw, 0xffffffff⟩,
  ⟨0x610008, [(512, 0x40)], .rw, 0xffff⟩,
  ⟨0x61000c, [(512, 0x40)], .rw, 0xffff⟩,
  ⟨0x610010, [(512, 0x40)], .ro, 0xffffffff⟩,
  ⟨0x610014, [(512, 0x40)], .ro, 0xffffffff⟩,
  ⟨0x610018, [(512, 0x40)], .ro, 0xffffffff⟩,
  ⟨0x61001c, [(512, 0x40)], .ro, 0xffffffff⟩,
  ⟨0x610020, [(512, 0x40)], .ro, 0xffffffff⟩,
  ⟨0x610024, [(512, 0x40)], .ro, 0xffffffff⟩,
  ⟨0x610028, [(512, 0x40)], .ro, 0xffffffff⟩,
  ⟨0x61002c, [(512, 0x40)], .ro, 0xffffffff⟩]
/-- The register families of the window at 0x600000. -/
def famLoom : List RegFam := famLoom0
def famHdl0 : List RegFam := [
  ⟨0x700000, [(16, 0x10000)], .rw, 0x3⟩,
  ⟨0x7f8000, [], .rw, 0x3⟩,
  ⟨0x700004, [(16, 0x10000)], .ro, 0xffffffff⟩,
  ⟨0x7f8004, [], .ro, 0xffffffff⟩,
  ⟨0x700008, [(16, 0x10000)], .ro, 0xffffffff⟩,
  ⟨0x7f8008, [], .ro, 0xffffffff⟩,
  ⟨0x70000c, [(16, 0x10000)], .w1c, 0xffffff⟩,
  ⟨0x7f800c, [], .w1c, 0xffffff⟩,
  ⟨0x700010, [(16, 0x10000)], .ro, 0xffffffff⟩,
  ⟨0x7f8010, [], .ro, 0xffffffff⟩,
  ⟨0x700014, [(16, 0x10000)], .ro, 0xffffffff⟩,
  ⟨0x7f8014, [], .ro, 0xffffffff⟩,
  ⟨0x700018, [(16, 0x10000)], .ro, 0xffffffff⟩,
  ⟨0x7f8018, [], .ro, 0xffffffff⟩,
  ⟨0x70001c, [(16, 0x10000)], .ro, 0xffffffff⟩,
  ⟨0x7f801c, [], .ro, 0xffffffff⟩,
  ⟨0x700020, [(16, 0x10000)], .ro, 0xffffffff⟩,
  ⟨0x7f8020, [], .ro, 0xffffffff⟩,
  ⟨0x700024, [(16, 0x10000)], .ro, 0xffffffff⟩,
  ⟨0x7f8024, [], .ro, 0xffffffff⟩,
  ⟨0x700028, [(16, 0x10000)], .ro, 0xffffffff⟩,
  ⟨0x7f8028, [], .ro, 0xffffffff⟩,
  ⟨0x700030, [(16, 0x10000)], .wo, 0x1⟩,
  ⟨0x7f8030, [], .wo, 0x1⟩,
  ⟨0x700034, [(16, 0x10000)], .ro, 0xffffffff⟩,
  ⟨0x7f8034, [], .ro, 0xffffffff⟩,
  ⟨0x700038, [(16, 0x10000)], .ro, 0xffffffff⟩,
  ⟨0x7f8038, [], .ro, 0xffffffff⟩,
  ⟨0x70003c, [(16, 0x10000)], .ro, 0xffffffff⟩,
  ⟨0x7f803c, [], .ro, 0xffffffff⟩,
  ⟨0x700040, [(16, 0x10000)], .ro, 0xffffffff⟩,
  ⟨0x7f8040, [], .ro, 0xffffffff⟩,
  ⟨0x700050, [(16, 0x10000)], .wo, 0x800001ff⟩,
  ⟨0x7f8050, [], .wo, 0x800001ff⟩,
  ⟨0x700054, [(16, 0x10000)], .ro, 0xffffffff⟩,
  ⟨0x7f8054, [], .ro, 0xffffffff⟩,
  ⟨0x700058, [(16, 0x10000)], .ro, 0xffffffff⟩,
  ⟨0x7f8058, [], .ro, 0xffffffff⟩,
  ⟨0x70005c, [(16, 0x10000)], .ro, 0xffffffff⟩,
  ⟨0x7f805c, [], .ro, 0xffffffff⟩]
def famHdl1 : List RegFam := [
  ⟨0x700060, [(16, 0x10000)], .rw, 0x3ffff⟩,
  ⟨0x7f8060, [], .rw, 0x3ffff⟩,
  ⟨0x700064, [(16, 0x10000)], .rw, 0xffffffff⟩,
  ⟨0x7f8064, [], .rw, 0xffffffff⟩,
  ⟨0x700070, [(16, 0x10000)], .w1c, 0x7f⟩,
  ⟨0x7f8070, [], .w1c, 0x7f⟩,
  ⟨0x700074, [(16, 0x10000)], .rw, 0x7f⟩,
  ⟨0x7f8074, [], .rw, 0x7f⟩,
  ⟨0x700080, [(16, 0x10000), (32, 0x4)], .rw, 0xffff⟩,
  ⟨0x7f8080, [(32, 0x4)], .rw, 0xffff⟩,
  ⟨0x700100, [(16, 0x10000), (8, 0x20)], .rw, 0xffffffff⟩,
  ⟨0x7f8100, [(8, 0x20)], .rw, 0xffffffff⟩,
  ⟨0x700104, [(16, 0x10000), (8, 0x20)], .rw, 0xf⟩,
  ⟨0x7f8104, [(8, 0x20)], .rw, 0xf⟩,
  ⟨0x700108, [(16, 0x10000), (8, 0x20)], .rw, 0xffffff⟩,
  ⟨0x7f8108, [(8, 0x20)], .rw, 0xffffff⟩,
  ⟨0x70010c, [(16, 0x10000), (8, 0x20)], .ro, 0xffffffff⟩,
  ⟨0x7f810c, [(8, 0x20)], .ro, 0xffffffff⟩,
  ⟨0x700110, [(16, 0x10000), (8, 0x20)], .ro, 0xffffffff⟩,
  ⟨0x7f8110, [(8, 0x20)], .ro, 0xffffffff⟩,
  ⟨0x700114, [(16, 0x10000), (8, 0x20)], .ro, 0xffffffff⟩,
  ⟨0x7f8114, [(8, 0x20)], .ro, 0xffffffff⟩,
  ⟨0x700200, [(16, 0x10000), (8, 0x4)], .ro, 0xffffffff⟩,
  ⟨0x7f8200, [(8, 0x4)], .ro, 0xffffffff⟩,
  ⟨0x700220, [(16, 0x10000), (2, 0x4)], .ro, 0xffffffff⟩,
  ⟨0x7f8220, [(2, 0x4)], .ro, 0xffffffff⟩,
  ⟨0x701000, [(16, 0x10000), (128, 0x4)], .rw, 0xffffffff⟩,
  ⟨0x7f9000, [(128, 0x4)], .rw, 0xffffffff⟩]
/-- The register families of the window at 0x700000. -/
def famHdl : List RegFam := famHdl0 ++ famHdl1
def famTru0 : List RegFam := [
  ⟨0x800000, [], .rwp, 0x1⟩,
  ⟨0x800004, [], .rwp, 0x3ff03ff⟩,
  ⟨0x800010, [], .rw, 0xfff⟩,
  ⟨0x800014, [], .wo, 0x80000003⟩,
  ⟨0x800018, [], .rw, 0x1ffffff⟩,
  ⟨0x80001c, [], .rw, 0x1ff01ff⟩,
  ⟨0x800020, [], .rw, 0x1ff01ff⟩,
  ⟨0x800024, [], .rw, 0x1ff01ff⟩,
  ⟨0x800028, [], .ro, 0xffffffff⟩,
  ⟨0x80002c, [], .ro, 0xffffffff⟩,
  ⟨0x800030, [], .ro, 0xffffffff⟩,
  ⟨0x800034, [], .ro, 0xffffffff⟩,
  ⟨0x800040, [], .rw, 0x3ff⟩,
  ⟨0x800044, [], .ro, 0xffffffff⟩,
  ⟨0x800048, [], .ro, 0xffffffff⟩,
  ⟨0x80004c, [], .ro, 0xffffffff⟩,
  ⟨0x800060, [], .ro, 0xffffffff⟩,
  ⟨0x800064, [], .ro, 0xffffffff⟩,
  ⟨0x800068, [], .ro, 0xffffffff⟩,
  ⟨0x80006c, [], .ro, 0xffffffff⟩,
  ⟨0x800070, [], .ro, 0xffffffff⟩,
  ⟨0x800074, [], .ro, 0xffffffff⟩,
  ⟨0x800080, [], .w1c, 0x3f⟩,
  ⟨0x800084, [], .rw, 0x3f⟩,
  ⟨0x801000, [(128, 0x4)], .rw, 0xffffffff⟩]
/-- The register families of the window at 0x800000. -/
def famTru : List RegFam := famTru0
def famArr0 : List RegFam := [
  ⟨0x900000, [(8, 0x10000)], .rw, 0x1⟩,
  ⟨0x900004, [(8, 0x10000)], .ro, 0xffffffff⟩,
  ⟨0x900008, [(8, 0x10000)], .ro, 0xffffffff⟩,
  ⟨0x90000c, [(8, 0x10000)], .ro, 0xffffffff⟩,
  ⟨0x900010, [(8, 0x10000)], .w1c, 0x1f⟩,
  ⟨0x900014, [(8, 0x10000)], .rw, 0x1f⟩,
  ⟨0x900100, [(8, 0x10000), (9, 0x40)], .ro, 0xffffffff⟩,
  ⟨0x900104, [(8, 0x10000), (9, 0x40)], .ro, 0xffffffff⟩,
  ⟨0x900108, [(8, 0x10000), (9, 0x40)], .ro, 0xffffffff⟩,
  ⟨0x90010c, [(8, 0x10000), (9, 0x40)], .ro, 0xffffffff⟩,
  ⟨0x900110, [(8, 0x10000), (9, 0x40)], .ro, 0xffffffff⟩,
  ⟨0x900114, [(8, 0x10000), (9, 0x40)], .ro, 0xffffffff⟩,
  ⟨0x900118, [(8, 0x10000), (9, 0x40)], .ro, 0xffffffff⟩,
  ⟨0x90011c, [(8, 0x10000), (9, 0x40)], .ro, 0xffffffff⟩]
/-- The register families of the window at 0x900000. -/
def famArr : List RegFam := famArr0
def famCmt0 : List RegFam := [
  ⟨0xa00000, [], .rwp, 0x3f⟩,
  ⟨0xa00004, [], .ro, 0xffffffff⟩,
  ⟨0xa00008, [], .ro, 0xffffffff⟩,
  ⟨0xa0000c, [], .ro, 0xffffffff⟩,
  ⟨0xa00010, [], .ro, 0xffffffff⟩,
  ⟨0xa00014, [], .ro, 0xffffffff⟩,
  ⟨0xa00018, [], .ro, 0xffffffff⟩,
  ⟨0xa00020, [], .w1c, 0x3f⟩,
  ⟨0xa00024, [], .rw, 0x3f⟩,
  ⟨0xa00028, [], .ro, 0xffffffff⟩,
  ⟨0xa0002c, [], .ro, 0xffffffff⟩,
  ⟨0xa00040, [], .rw, 0x7⟩,
  ⟨0xa00044, [], .rw, 0xffffffff⟩,
  ⟨0xa00048, [], .rw, 0xffff⟩,
  ⟨0xa0004c, [], .rw, 0x7f⟩,
  ⟨0xa00050, [], .rw, 0x1fffff0⟩,
  ⟨0xa00054, [], .wo, 0x3⟩,
  ⟨0xa00058, [], .ro, 0xffffffff⟩,
  ⟨0xa01000, [(64, 0x40)], .wo, 0x80000007⟩,
  ⟨0xa01004, [(64, 0x40)], .rw, 0xffffffff⟩,
  ⟨0xa01008, [(64, 0x40)], .rw, 0x1ffff⟩,
  ⟨0xa0100c, [(64, 0x40)], .ro, 0xffffffff⟩,
  ⟨0xa01010, [(64, 0x40)], .rw, 0xff0f⟩,
  ⟨0xa01014, [(64, 0x40)], .ro, 0xffffffff⟩,
  ⟨0xa01018, [(64, 0x40)], .ro, 0xffffffff⟩,
  ⟨0xa0101c, [(64, 0x40)], .ro, 0xffffffff⟩,
  ⟨0xa01020, [(64, 0x40)], .ro, 0xffffffff⟩,
  ⟨0xa01024, [(64, 0x40)], .ro, 0xffffffff⟩,
  ⟨0xa01028, [(64, 0x40)], .ro, 0xffffffff⟩,
  ⟨0xa0102c, [(64, 0x40)], .ro, 0xffffffff⟩,
  ⟨0xa01030, [(64, 0x40)], .ro, 0xffffffff⟩,
  ⟨0xa01034, [(64, 0x40)], .ro, 0xffffffff⟩]
/-- The register families of the window at 0xa00000. -/
def famCmt : List RegFam := famCmt0
def famClu0 : List RegFam := [
  ⟨0xb01000, [(8, 0x10000), (32, 0x80)], .rw, 0x1f⟩,
  ⟨0xb01004, [(8, 0x10000), (32, 0x80)], .rw, 0xffffffff⟩,
  ⟨0xb01008, [(8, 0x10000), (32, 0x80)], .rw, 0xffffffff⟩,
  ⟨0xb0100c, [(8, 0x10000), (32, 0x80)], .rw, 0xffffffff⟩,
  ⟨0xb01010, [(8, 0x10000), (32, 0x80)], .rw, 0x1⟩,
  ⟨0xb01014, [(8, 0x10000), (32, 0x80)], .rw, 0xffffffff⟩,
  ⟨0xb01018, [(8, 0x10000), (32, 0x80)], .rw, 0xffffffff⟩,
  ⟨0xb0101c, [(8, 0x10000), (32, 0x80)], .rw, 0xffffffff⟩,
  ⟨0xb01020, [(8, 0x10000), (32, 0x80)], .rw, 0xfffff⟩,
  ⟨0xb01024, [(8, 0x10000), (32, 0x80)], .rw, 0xfffff⟩,
  ⟨0xb01028, [(8, 0x10000), (32, 0x80)], .rw, 0xfffff⟩,
  ⟨0xb0102c, [(8, 0x10000), (32, 0x80)], .rw, 0xffffffff⟩,
  ⟨0xb01030, [(8, 0x10000), (32, 0x80)], .rw, 0xffffffff⟩,
  ⟨0xb01034, [(8, 0x10000), (32, 0x80)], .rw, 0xffffffff⟩,
  ⟨0xb01038, [(8, 0x10000), (32, 0x80)], .rw, 0xffffffff⟩,
  ⟨0xb0103c, [(8, 0x10000), (32, 0x80)], .rw, 0xffffff⟩,
  ⟨0xb01040, [(8, 0x10000), (32, 0x80)], .rw, 0xfffff⟩,
  ⟨0xb01044, [(8, 0x10000), (32, 0x80)], .rw, 0xfffff⟩,
  ⟨0xb01048, [(8, 0x10000), (32, 0x80)], .rw, 0xfffff⟩,
  ⟨0xb0104c, [(8, 0x10000), (32, 0x80)], .rw, 0xffffffff⟩,
  ⟨0xb01050, [(8, 0x10000), (32, 0x80)], .rw, 0xffffffff⟩,
  ⟨0xb01054, [(8, 0x10000), (32, 0x80)], .rw, 0xffffffff⟩,
  ⟨0xb01058, [(8, 0x10000), (32, 0x80)], .rw, 0xffffffff⟩,
  ⟨0xb01060, [(8, 0x10000), (32, 0x80)], .ro, 0xffffffff⟩,
  ⟨0xb01064, [(8, 0x10000), (32, 0x80)], .ro, 0xffffffff⟩,
  ⟨0xb01068, [(8, 0x10000), (32, 0x80)], .ro, 0xffffffff⟩,
  ⟨0xb0106c, [(8, 0x10000), (32, 0x80)], .ro, 0xffffffff⟩,
  ⟨0xb01070, [(8, 0x10000), (32, 0x80)], .ro, 0xffffffff⟩,
  ⟨0xb01074, [(8, 0x10000), (32, 0x80)], .ro, 0xffffffff⟩,
  ⟨0xb01078, [(8, 0x10000), (32, 0x80)], .ro, 0x3f⟩,
  ⟨0xb0107c, [(8, 0x10000), (32, 0x80)], .ro, 0xffffffff⟩,
  ⟨0xb00000, [(8, 0x10000)], .ro, 0xffffffff⟩,
  ⟨0xb00004, [(8, 0x10000)], .ro, 0xffffffff⟩,
  ⟨0xb00008, [(8, 0x10000)], .ro, 0xffffffff⟩,
  ⟨0xb00010, [(8, 0x10000)], .w1c, 0x3f⟩,
  ⟨0xb00014, [(8, 0x10000)], .rw, 0x3f⟩,
  ⟨0xb00020, [(8, 0x10000), (8, 0x8)], .rw, 0xffffffff⟩,
  ⟨0xb00024, [(8, 0x10000), (8, 0x8)], .ro, 0xffffffff⟩,
  ⟨0xb00080, [(8, 0x10000), (32, 0x4)], .rw, 0x3f⟩,
  ⟨0xb00100, [(8, 0x10000)], .wo, 0x8000001f⟩]
def famClu1 : List RegFam := [
  ⟨0xb00104, [(8, 0x10000)], .rw, 0xff⟩,
  ⟨0xb00108, [(8, 0x10000)], .ro, 0xffffffff⟩,
  ⟨0xb00200, [(8, 0x10000), (2, 0x40)], .rw, 0xff03ff⟩,
  ⟨0xb00204, [(8, 0x10000), (2, 0x40)], .rw, 0xffff⟩,
  ⟨0xb00208, [(8, 0x10000), (2, 0x40)], .ro, 0xffffffff⟩,
  ⟨0xb0020c, [(8, 0x10000), (2, 0x40)], .wo, 0x3⟩,
  ⟨0xb00210, [(8, 0x10000), (2, 0x40)], .ro, 0xffffffff⟩,
  ⟨0xb00214, [(8, 0x10000), (2, 0x40)], .ro, 0xffffffff⟩,
  ⟨0xb00218, [(8, 0x10000), (2, 0x40)], .ro, 0xffffffff⟩,
  ⟨0xb0021c, [(8, 0x10000), (2, 0x40)], .rw, 0xffff⟩,
  ⟨0xb00220, [(8, 0x10000), (2, 0x40)], .ro, 0xffffffff⟩]
/-- The register families of the window at 0xb00000. -/
def famClu : List RegFam := famClu0 ++ famClu1
def famSma0 : List RegFam := [
  ⟨0xc00000, [], .ro, 0xffffffff⟩,
  ⟨0xc00004, [], .ro, 0xffffffff⟩,
  ⟨0xc00008, [], .ro, 0xffffffff⟩,
  ⟨0xc00010, [], .w1c, 0xf⟩,
  ⟨0xc00014, [], .rw, 0xf⟩,
  ⟨0xc00020, [], .ro, 0xffffffff⟩,
  ⟨0xc00100, [(16, 0x10)], .ro, 0xffffffff⟩,
  ⟨0xc00104, [(16, 0x10)], .ro, 0xffffffff⟩,
  ⟨0xc00108, [(16, 0x10)], .ro, 0xffffffff⟩,
  ⟨0xc0010c, [(16, 0x10)], .wo, 0x1⟩,
  ⟨0xc00200, [(4, 0x10)], .ro, 0xffffffff⟩,
  ⟨0xc00204, [(4, 0x10)], .ro, 0xffffffff⟩,
  ⟨0xc00208, [(4, 0x10)], .ro, 0xffffffff⟩,
  ⟨0xc0020c, [(4, 0x10)], .wo, 0x1⟩,
  ⟨0xc01000, [(64, 0x40), (8, 0x8)], .rw, 0x1fff000⟩,
  ⟨0xc01004, [(64, 0x40), (8, 0x8)], .rw, 0xe0003fff⟩]
/-- The register families of the window at 0xc00000. -/
def famSma : List RegFam := famSma0
def famVf0 : List RegFam := [
  ⟨0x100000000, [(64, 0x40000)], .ro, 0xffffffff⟩,
  ⟨0x100000004, [(64, 0x40000)], .ro, 0xffffffff⟩,
  ⟨0x100000008, [(64, 0x40000)], .rw, 0xff⟩,
  ⟨0x10000000c, [(64, 0x40000)], .rw, 0x1fff000⟩,
  ⟨0x100000010, [(64, 0x40000)], .ro, 0xffffffff⟩,
  ⟨0x100000014, [(64, 0x40000)], .ro, 0xffffffff⟩,
  ⟨0x100000018, [(64, 0x40000)], .w1c, 0x3f⟩,
  ⟨0x10000001c, [(64, 0x40000)], .rw, 0x3f⟩,
  ⟨0x100000020, [(64, 0x40000)], .ro, 0xffffffff⟩,
  ⟨0x100000024, [(64, 0x40000)], .ro, 0xffffffff⟩,
  ⟨0x100000028, [(64, 0x40000)], .ro, 0xffffffff⟩,
  ⟨0x100000030, [(64, 0x40000)], .ro, 0xffffffff⟩,
  ⟨0x100000100, [(64, 0x40000), (16, 0x20)], .rw, 0xfffff000⟩,
  ⟨0x100000104, [(64, 0x40000), (16, 0x20)], .rw, 0xffffffff⟩,
  ⟨0x100000108, [(64, 0x40000), (16, 0x20)], .rw, 0xfffff000⟩,
  ⟨0x10000010c, [(64, 0x40000), (16, 0x20)], .rw, 0xffffffff⟩,
  ⟨0x100000110, [(64, 0x40000), (16, 0x20)], .rw, 0xff⟩,
  ⟨0x100000114, [(64, 0x40000), (16, 0x20)], .rw, 0x1⟩,
  ⟨0x100000118, [(64, 0x40000), (16, 0x20)], .ro, 0xffffffff⟩,
  ⟨0x100001000, [(64, 0x40000), (128, 0x4)], .ro, 0xffffffff⟩,
  ⟨0x100001200, [(64, 0x40000), (128, 0x4)], .ro, 0xffffffff⟩,
  ⟨0x100002000, [(64, 0x40000)], .wo, 0x1⟩,
  ⟨0x100002004, [(64, 0x40000)], .wo, 0x1⟩,
  ⟨0x100002100, [(64, 0x40000), (16, 0x8)], .wo, 0xfff⟩,
  ⟨0x100002104, [(64, 0x40000), (16, 0x8)], .wo, 0xfff⟩,
  ⟨0x100000400, [(64, 0x40000)], .ro, 0xffffffff⟩,
  ⟨0x100000404, [(64, 0x40000)], .wo, 0x7⟩,
  ⟨0x100000408, [(64, 0x40000)], .ro, 0xffffffff⟩,
  ⟨0x10000040c, [(64, 0x40000)], .rw, 0x1⟩,
  ⟨0x100000410, [(64, 0x40000)], .rw, 0xffffffff⟩,
  ⟨0x100000414, [(64, 0x40000)], .wo, 0x1⟩,
  ⟨0x100000418, [(64, 0x40000)], .rw, 0xffffc00⟩,
  ⟨0x10000041c, [(64, 0x40000)], .ro, 0xffffffff⟩,
  ⟨0x100000420, [(64, 0x40000)], .ro, 0xffffffff⟩,
  ⟨0x100000800, [(64, 0x40000), (256, 0x4)], .ro, 0xffffffff⟩,
  ⟨0x100000c00, [(64, 0x40000), (256, 0x4)], .ro, 0xffffffff⟩]
/-- The register families of the window at VF BAR0. -/
def famVf : List RegFam := famVf0
def famHif0 : List RegFam := [
  ⟨0xd00000, [], .ro, 0xffffffff⟩,
  ⟨0xd00004, [], .w1c, 0x1ff⟩,
  ⟨0xd00008, [], .rw, 0x1ff⟩,
  ⟨0xd00010, [(2, 0x4)], .ro, 0xffffffff⟩,
  ⟨0xd00018, [(2, 0x4)], .w1c, 0xffffffff⟩,
  ⟨0xd00020, [(2, 0x4)], .w1c, 0xffffffff⟩,
  ⟨0xd00028, [(2, 0x4)], .w1c, 0xffffffff⟩,
  ⟨0xd00030, [], .ro, 0xffffffff⟩,
  ⟨0xd00034, [], .ro, 0xffffffff⟩,
  ⟨0xd00040, [], .wo, 0x803f3fff⟩,
  ⟨0xd00044, [], .ro, 0xffffffff⟩,
  ⟨0xd00048, [], .wo, 0x3⟩,
  ⟨0xd00100, [(64, 0x4)], .ro, 0xffffffff⟩,
  ⟨0xd00200, [(64, 0x4)], .ro, 0xffffffff⟩,
  ⟨0xd00400, [(256, 0x4)], .rw, 0x3f3f3f3f⟩,
  ⟨0xd00800, [(32, 0x4)], .rw, 0x3f3f3f3f⟩,
  ⟨0xd00880, [(16, 0x4)], .rw, 0x3f3f3f3f⟩,
  ⟨0xd00900, [], .wo, 0x8000013f⟩,
  ⟨0xd00904, [], .ro, 0xffffffff⟩,
  ⟨0xd00a00, [(16, 0x20)], .rw, 0xfffff000⟩,
  ⟨0xd00a04, [(16, 0x20)], .rw, 0xffffffff⟩,
  ⟨0xd00a08, [(16, 0x20)], .rw, 0xfffff000⟩,
  ⟨0xd00a0c, [(16, 0x20)], .rw, 0xffffffff⟩,
  ⟨0xd00a10, [(16, 0x20)], .rw, 0xff⟩,
  ⟨0xd00a14, [(16, 0x20)], .rw, 0x1⟩,
  ⟨0xd00a18, [(16, 0x20)], .ro, 0xffffffff⟩,
  ⟨0xd00c00, [(16, 0x8)], .wo, 0xfff⟩,
  ⟨0xd00c04, [(16, 0x8)], .wo, 0xfff⟩,
  ⟨0xd10800, [(63, 0x800), (128, 0x4)], .ro, 0xffffffff⟩,
  ⟨0xd10a00, [(63, 0x800), (128, 0x4)], .rw, 0xffffffff⟩,
  ⟨0xd10c00, [(63, 0x800)], .ro, 0xffffffff⟩,
  ⟨0xd10c04, [(63, 0x800)], .wo, 0x3⟩]
/-- The register families of the window at 0xd00000. -/
def famHif : List RegFam := famHif0
def famPlu0 : List RegFam := [
  ⟨0xe00000, [], .rwp, 0x7⟩,
  ⟨0xe00004, [], .rwp, 0xff03ff⟩,
  ⟨0xe00008, [], .rwp, 0x7ff⟩,
  ⟨0xe0000c, [], .rwp, 0x3fff⟩,
  ⟨0xe00010, [], .rwp, 0x7fffffff⟩,
  ⟨0xe00014, [], .ro, 0xffffffff⟩,
  ⟨0xe00018, [], .rwp, 0xffffffff⟩,
  ⟨0xe0001c, [], .ro, 0xffffffff⟩,
  ⟨0xe00020, [], .wo, 0x80000007⟩,
  ⟨0xe00024, [], .ro, 0xffffffff⟩,
  ⟨0xe00028, [], .ro, 0xffffffff⟩,
  ⟨0xe00030, [], .rwp, 0xfffffffe⟩,
  ⟨0xe00034, [], .rwp, 0xffffffff⟩,
  ⟨0xe00040, [(32, 0x4)], .rwp, 0xffffffff⟩,
  ⟨0xe000c0, [(4, 0x4)], .rwp, 0xffffffff⟩,
  ⟨0xe00100, [], .ro, 0xffffffff⟩,
  ⟨0xe00104, [], .ro, 0xffffffff⟩,
  ⟨0xe00108, [], .ro, 0xffffffff⟩,
  ⟨0xe0010c, [], .ro, 0xffffffff⟩,
  ⟨0xe00110, [], .ro, 0xffffffff⟩,
  ⟨0xe00114, [], .ro, 0xffffffff⟩,
  ⟨0xe00118, [], .ro, 0xffffffff⟩,
  ⟨0xe0011c, [], .ro, 0xffffffff⟩,
  ⟨0xe00120, [], .ro, 0xffffffff⟩,
  ⟨0xe00124, [], .ro, 0xffffffff⟩,
  ⟨0xe00128, [], .ro, 0xffffffff⟩,
  ⟨0xe0012c, [], .ro, 0xffffffff⟩,
  ⟨0xe00130, [], .w1c, 0x3ff⟩,
  ⟨0xe00134, [], .rw, 0x3ff⟩,
  ⟨0xe00140, [], .ro, 0xffffffff⟩,
  ⟨0xe00144, [], .ro, 0xffffffff⟩]
/-- The register families of the window at 0xe00000. -/
def famPlu : List RegFam := famPlu0
def famKs0 : List RegFam := [
  ⟨0xf00000, [], .ro, 0xffffffff⟩,
  ⟨0xf00004, [], .wo, 0x80003fff⟩,
  ⟨0xf00008, [], .rw, 0x7ff⟩,
  ⟨0xf0000c, [], .rw, 0x3f⟩,
  ⟨0xf00010, [], .rw, 0xffffffff⟩,
  ⟨0xf00014, [], .rw, 0xffffff⟩,
  ⟨0xf00018, [], .ro, 0xffffffff⟩,
  ⟨0xf0001c, [], .rw, 0x3ff⟩,
  ⟨0xf00020, [], .w1c, 0x1f⟩,
  ⟨0xf00024, [], .rw, 0x1f⟩,
  ⟨0xf00028, [], .ros, 0x7f⟩,
  ⟨0xf0002c, [], .ro, 0xffffffff⟩,
  ⟨0xf00030, [], .ro, 0xffffffff⟩,
  ⟨0xf00034, [], .ro, 0xffffffff⟩,
  ⟨0xf00038, [], .ro, 0xffffffff⟩,
  ⟨0xf00040, [], .rw, 0x3ff⟩,
  ⟨0xf00044, [], .ro, 0xffffffff⟩,
  ⟨0xf00048, [], .ro, 0xffffffff⟩,
  ⟨0xf0004c, [], .ro, 0xffffffff⟩,
  ⟨0xf00050, [], .ro, 0xffffffff⟩,
  ⟨0xf00054, [], .ro, 0xffffffff⟩,
  ⟨0xf00060, [], .rw, 0xfff7⟩,
  ⟨0xf00064, [], .wo, 0x80000003⟩,
  ⟨0xf00068, [], .rw, 0x3fffff⟩,
  ⟨0xf0006c, [], .rw, 0xffffffff⟩,
  ⟨0xf00070, [], .rw, 0xffffffff⟩,
  ⟨0xf00074, [], .ro, 0xffffffff⟩,
  ⟨0xf00200, [(128, 0x4)], .rw, 0xffffffff⟩,
  ⟨0xf00400, [(256, 0x4)], .rw, 0x3f3f3f3f⟩]
/-- The register families of the window at 0xf00000. -/
def famKs : List RegFam := famKs0
def famPan0 : List RegFam := [
  ⟨0x1000000, [], .ro, 0xffffffff⟩,
  ⟨0x1000004, [], .rwp, 0x1⟩,
  ⟨0x1000008, [], .rwp, 0xffff⟩,
  ⟨0x1000010, [], .ro, 0xffffffff⟩,
  ⟨0x1000014, [], .ro, 0xffffffff⟩,
  ⟨0x1000018, [], .ro, 0xffffffff⟩,
  ⟨0x100001c, [], .ro, 0xffffffff⟩,
  ⟨0x1000020, [], .rw, 0x3ffffff⟩,
  ⟨0x1000024, [], .ro, 0xffffffff⟩,
  ⟨0x1000028, [], .ro, 0xffffffff⟩,
  ⟨0x1000030, [], .ro, 0xffffffff⟩,
  ⟨0x1000034, [], .ro, 0xffffffff⟩,
  ⟨0x1000040, [], .w1c, 0x1f⟩,
  ⟨0x1000044, [], .rw, 0x1f⟩]
/-- The register families of the window at 0x1000000. -/
def famPan : List RegFam := famPan0
def famLog0 : List RegFam := [
  ⟨0x1100000, [], .ro, 0xffffffff⟩,
  ⟨0x1100004, [], .ro, 0xffffffff⟩,
  ⟨0x1100008, [], .ro, 0xffffffff⟩,
  ⟨0x110000c, [], .ro, 0xffffffff⟩,
  ⟨0x1100010, [], .ro, 0xffffffff⟩,
  ⟨0x1100014, [], .ro, 0xffffffff⟩,
  ⟨0x1100018, [], .wo, 0x7⟩,
  ⟨0x110001c, [], .ro, 0xffffffff⟩,
  ⟨0x1100020, [], .rw, 0x1⟩,
  ⟨0x1100024, [], .ro, 0xffffffff⟩,
  ⟨0x1100030, [], .w1c, 0x3f⟩,
  ⟨0x1100034, [], .rw, 0x3f⟩,
  ⟨0x1100040, [], .rw, 0xffffffff⟩,
  ⟨0x1100044, [], .wo, 0x1⟩,
  ⟨0x1100050, [], .rw, 0xfff⟩,
  ⟨0x1100800, [(256, 0x4)], .ro, 0xffffffff⟩,
  ⟨0x1110000, [(16384, 0x4)], .ro, 0xffffffff⟩]
/-- The register families of the window at 0x1100000. -/
def famLog : List RegFam := famLog0
def famArc0 : List RegFam := [
  ⟨0x1200000, [], .rwp, 0x3⟩,
  ⟨0x1200004, [], .ro, 0xffffffff⟩,
  ⟨0x1200008, [], .ro, 0xffffffff⟩,
  ⟨0x120000c, [], .ro, 0xffffffff⟩,
  ⟨0x1200010, [], .ro, 0xffffffff⟩,
  ⟨0x1200014, [], .ro, 0xffffffff⟩,
  ⟨0x1200018, [], .ro, 0xffffffff⟩,
  ⟨0x120001c, [], .ro, 0xffffffff⟩,
  ⟨0x1200020, [], .ro, 0xffffffff⟩,
  ⟨0x1200024, [], .ro, 0xffffffff⟩,
  ⟨0x1200028, [], .ro, 0xffffffff⟩,
  ⟨0x120002c, [], .ro, 0xffffffff⟩,
  ⟨0x1200030, [], .ro, 0xffffffff⟩,
  ⟨0x1200034, [], .ro, 0xffffffff⟩,
  ⟨0x1200038, [], .ro, 0xffffffff⟩,
  ⟨0x1200040, [], .rw, 0xffffffff⟩,
  ⟨0x1200044, [], .rw, 0x1⟩,
  ⟨0x1200048, [], .rw, 0xffff⟩,
  ⟨0x120004c, [], .rw, 0xffffffff⟩,
  ⟨0x1200050, [], .rw, 0xffffffff⟩,
  ⟨0x1200054, [], .wo, 0xf⟩,
  ⟨0x1200058, [], .ro, 0xffffffff⟩,
  ⟨0x1200060, [], .wo, 0x80000007⟩,
  ⟨0x1200064, [], .ro, 0xffffffff⟩,
  ⟨0x1200070, [], .w1c, 0x3f⟩,
  ⟨0x1200074, [], .rw, 0x3f⟩,
  ⟨0x1200080, [(4, 0x10)], .ro, 0xffffffff⟩,
  ⟨0x1200084, [(4, 0x10)], .ro, 0xffffffff⟩,
  ⟨0x1200088, [(4, 0x10)], .ro, 0xffffffff⟩,
  ⟨0x120008c, [(4, 0x10)], .ro, 0xffffffff⟩]
/-- The register families of the window at 0x1200000. -/
def famArc : List RegFam := famArc0
def famFio0 : List RegFam := [
  ⟨0x1300000, [], .rwp, 0x1⟩,
  ⟨0x1300004, [], .ro, 0xffffffff⟩,
  ⟨0x1300008, [], .ro, 0xffffffff⟩,
  ⟨0x1300010, [], .w1c, 0x3ff⟩,
  ⟨0x1300014, [], .rw, 0x3ff⟩,
  ⟨0x1300020, [], .ro, 0xffffffff⟩,
  ⟨0x1300024, [], .ro, 0xffffffff⟩,
  ⟨0x1300028, [], .ro, 0xffffffff⟩,
  ⟨0x1300030, [], .wo, 0x1⟩,
  ⟨0x1300034, [], .ro, 0xffffffff⟩,
  ⟨0x1300038, [], .ro, 0xffffffff⟩,
  ⟨0x130003c, [], .ro, 0xffffffff⟩,
  ⟨0x1300040, [], .ro, 0xffffffff⟩,
  ⟨0x1300080, [(4, 0x4)], .rw, 0x3f3f3f3f⟩,
  ⟨0x1300090, [], .ro, 0xffffffff⟩,
  ⟨0x1300094, [], .ro, 0xffffffff⟩,
  ⟨0x1300098, [], .ro, 0xffffffff⟩,
  ⟨0x1300100, [(64, 0x4)], .rw, 0xffffffff⟩,
  ⟨0x1300200, [(32, 0x4)], .rwp, 0x7ffffff⟩,
  ⟨0x1300300, [(16, 0x4)], .rwp, 0x7ff⟩,
  ⟨0x1300400, [(16, 0x10)], .ro, 0xffffffff⟩,
  ⟨0x1300404, [(16, 0x10)], .w1c, 0x3f⟩,
  ⟨0x1300408, [(16, 0x10)], .wo, 0x1⟩,
  ⟨0x130040c, [(16, 0x10)], .ro, 0xffffffff⟩]
/-- The register families of the window at 0x1300000. -/
def famFio : List RegFam := famFio0
def famHc0 : List RegFam := [
  ⟨0x100000, [], .rwp, 0x1⟩,
  ⟨0x100004, [], .ro, 0xffffffff⟩,
  ⟨0x100008, [], .ro, 0xffffffff⟩,
  ⟨0x10000c, [], .ros, 0x7⟩,
  ⟨0x100010, [], .ro, 0xffffffff⟩,
  ⟨0x100014, [(3, 0x4)], .ro, 0xffffffff⟩,
  ⟨0x100020, [], .ro, 0xffffffff⟩,
  ⟨0x100024, [], .ro, 0xffffffff⟩,
  ⟨0x100028, [], .ro, 0xffffffff⟩,
  ⟨0x100030, [], .wo, 0x80017f0f⟩,
  ⟨0x100034, [], .ro, 0xffffffff⟩,
  ⟨0x100040, [], .w1c, 0x3f⟩,
  ⟨0x100044, [], .rw, 0x3f⟩,
  ⟨0x100050, [], .rw, 0xfffff000⟩,
  ⟨0x100054, [], .rw, 0xffffffff⟩,
  ⟨0x100058, [], .rw, 0x10f⟩,
  ⟨0x10005c, [], .ro, 0xffffffff⟩,
  ⟨0x100060, [], .rw, 0xfff⟩,
  ⟨0x100064, [], .ro, 0xffffffff⟩,
  ⟨0x100080, [(24, 0x4)], .ro, 0xffffffff⟩]
/-- The register families of the window at 0x100000. -/
def famHc : List RegFam := famHc0
def famGlb0 : List RegFam := [
  ⟨0x20, [], .ro, 0xffffffff⟩,
  ⟨0x40, [(8, 0x4)], .rwp, 0xffffffff⟩,
  ⟨0x0, [(3, 0x4)], .ro, 0xffffffff⟩,
  ⟨0xc, [(3, 0x4)], .ro, 0xffffffff⟩,
  ⟨0x18, [], .ro, 0xffffffff⟩,
  ⟨0x1c, [], .ro, 0xffffffff⟩]
/-- The register families of the window at 0x0. -/
def famGlb : List RegFam := famGlb0

/-- The families of the window an offset lies in. -/
def famsOf (off : Nat) : List RegFam :=
  if 0x100000000 ≤ off then famVf
  else match off / 0x100000 with
  | 0 => famGlb
  | 1 => famHc
  | 2 => famTime
  | 3 => famSwc
  | 4 => famSwcPort
  | 5 => famCol
  | 6 => famLoom
  | 7 => famHdl
  | 8 => famTru
  | 9 => famArr
  | 10 => famCmt
  | 11 => famClu
  | 12 => famSma
  | 13 => famHif
  | 14 => famPlu
  | 15 => famKs
  | 16 => famPan
  | 17 => famLog
  | 18 => famArc
  | 19 => famFio
  | _ => []

/-- The register at an offset; none where the offset is reserved (R10). -/
def regAt (off : Nat) : Option RegFam := (famsOf off).find? (fun f => inDims f.base f.dims off)

/-- Registers that do not read 0 right after reset: the Reset column, the delivered values of R312 for the RWP
registers, and the identity words (R363; log entry 4). -/
def resetTab : List (Nat × List (Nat × Nat) × Nat) := [
  (0x200000, [], 0x41),
  (0x200004, [], 0x100300),
  (0x200008, [], 0x8080),
  (0x20000c, [], 0x1),
  (0x200010, [], 0xf800),
  (0x200034, [], 0x1e),
  (0x200050, [], 0x25),
  (0x200054, [], 0xc9),
  (0x200058, [], 0x5),
  (0x300000, [], 0x3),
  (0x300004, [], 0x12c),
  (0x300008, [], 0x6419064),
  (0x30000c, [], 0x19064),
  (0x300010, [], 0x24080c01),
  (0x300018, [], 0x20000),
  (0x30001c, [], 0x40000),
  (0x300020, [], 0x924688),
  (0x300024, [], 0x8208208),
  (0x400000, [(144, 0x1000)], 0x54),
  (0x400008, [(144, 0x1000)], 0x3c0a0000),
  (0x400010, [(144, 0x1000)], 0x1001),
  (0x500000, [], 0x3),
  (0x500004, [], 0x190),
  (0x600000, [], 0x115),
  (0x600008, [], 0xfa),
  (0x61000c, [(512, 0x40)], 0x204),
  (0x800000, [], 0x1),
  (0x800004, [], 0x640014),
  (0x900004, [(8, 0x10000)], 0xf8),
  (0x900008, [(8, 0x10000)], 0x76543210),
  (0xa00000, [], 0x10),
  (0xc00000, [], 0xf0),
  (0xc00208, [(4, 0x10)], 0x1),
  (0xe00000, [], 0x5),
  (0xe00004, [], 0x140030),
  (0xe00008, [], 0x40),
  (0xe0000c, [], 0xa8),
  (0xe00014, [], 0x1),
  (0xf00000, [], 0x2),
  (0x1000000, [], 0x200),
  (0x1000008, [], 0x475),
  (0x1200000, [], 0x3),
  (0x1300000, [], 0x1),
  (0x100000, [], 0x1),
  (0x100024, [], 0xf),
  (0x0, [], 0x2d4d4e50),
  (0x4, [], 0x34343139),
  (0x8, [], 0x412d),
  (0xc, [], 0x30303030),
  (0x10, [], 0x30303030),
  (0x14, [], 0x30303030),
  (0x18, [], 0x2003142)]

/-- What a register that nothing has written reads as: its value right after reset. -/
def resetWord (off : Nat) : Word :=
  match resetTab.find? (fun e => inDims e.1 e.2.1 off) with
  | some e => W e.2.2
  | none => 0

end Sys2Proof.Machine
end

