-- ==== Sys2Proof/Machine/Ops.lean ====
section
/-!
DEFINITION. The named operations over the state that every meaning uses: registers, interrupt words, free values,
memories, the Pantry (R308 to R312), and staging a module log record (R313 to R317, R378).
-/
namespace Sys2Proof.Machine

/-! ## Registers -/

/-- The stored word of a register. -/
def rd (s : State) (off : Nat) : Word :=
  match s.regs.find? (fun e => e.1 == off) with
  | some e => e.2
  | none => resetWord off

/-- Store a word in the register table, keeping its canonical form. -/
def wr (s : State) (off : Nat) (v : Word) : State :=
  { s with regs := Tab.put (resetWord off) s.regs off v }

/-- A register's field as a number. -/
def rf (s : State) (off hi lo : Nat) : Nat := fld (rd s off) hi lo

/-- A register's bit. -/
def rb (s : State) (off i : Nat) : Bool := bitOf (rd s off) i

/-- Replace a field of a register. -/
def wf (s : State) (off hi lo x : Nat) : State := wr s off (setFld (rd s off) hi lo x)

/-- Set or clear a bit of a register. -/
def wb (s : State) (off i : Nat) (b : Bool) : State := wr s off (putBit (rd s off) i b)

/-- Add to a 32-bit counter register, wrapping. -/
def bump (s : State) (off : Nat) (n : Nat := 1) : State := wr s off (rd s off + W n)

/-- Add to a 32-bit counter register, saturating. -/
def bumpSat (s : State) (off : Nat) : State :=
  if rd s off = 0xFFFFFFFF then s else wr s off (rd s off + 1)

/-- A 64-bit value held in a LO, HI register pair. -/
def rd64 (s : State) (lo hi : Nat) : Nat := (rd s hi).toNat * 2 ^ 32 + (rd s lo).toNat

/-- Store a value in a LO, HI register pair. -/
def wr64 (s : State) (lo hi : Nat) (n : Nat) : State := wr (wr s lo (W n)) hi (W (n / 2 ^ 32))

/-! ## Instants -/

/-- Advance the module's clock to an instant; an instant in the past leaves it. Operating time runs with it (R311). -/
def toInstant (s : State) (tm : Instant) : State :=
  { s with now := max s.now tm, op := s.op + (tm - s.now) }

/-- Seconds of the module's time. -/
def secOf (t : Instant) : Nat := t / second
/-- [31:2] nanoseconds, [1:0] quarter nanoseconds of the second, as the TIME registers show them (R51). -/
def nsWord (t : Instant) : Word := W ((t % second) / 36)

/-! ## What leaves the part -/

def emit (s : State) (o : Out) : State := { s with out := o :: s.out }

/-! ## Free values (log entry 2) -/

/-- The next free word, and the state that has drawn it. -/
def drawWord (s : State) : Word × State := (Config.freeWord s.freeCtr, { s with freeCtr := s.freeCtr + 1 })

/-- A free number of at most `m`, and the state that has drawn it. -/
def drawLe (s : State) (m : Nat) : Nat × State :=
  ((Config.freeWord s.freeCtr).toNat % (m + 1), { s with freeCtr := s.freeCtr + 1 })

/-- A free truth value. -/
def drawBool (s : State) : Bool × State := ((Config.freeWord s.freeCtr).getLsbD 0, { s with freeCtr := s.freeCtr + 1 })

/-! ## Interrupts (R256, R257) -/

/-- PF vector of the block an IRQ register belongs to: the nth block of the address map (R257). -/
def vecOf (irq : Nat) : Nat := let w := irq / 0x100000; if w < 4 then w else w - 1

/-- Send an MSI-X message to a function. -/
def msix (s : State) (fn : Fin 64) (vec : Nat) : State := emit s (.msix fn vec)

/-- Set a bit of a block's IRQ register; its PF vector fires when the bit is enabled and was not set. -/
def raise (s : State) (irq bit : Nat) : State :=
  let s' := wb s irq bit true
  if rb s (irq + 4) bit && !rb s irq bit then msix s' 0 (vecOf irq) else s'

/-- Set a bit of a VF's IRQ register; bits 0 to 3 fire vectors 0 to 3, the others vector 4 (R256). -/
def raiseVf (s : State) (v : Fin 64) (bit : Nat) : State :=
  let s' := wb s (Reg.vfIrq v) bit true
  if rb s (Reg.vfIrqen v) bit && !rb s (Reg.vfIrq v) bit then msix s' v (min bit 4) else s'

/-! ## Module state (R341, R342) -/

/-- HC_STATE.state: 0 Booting, 1 Running, 2 Power-fail, 3 Fault-halt, 4 Thermal hold. -/
def hcSt (s : State) : Nat := rf s Reg.hcState 2 0
/-- The power-fail sequence runs, or a thermal hold (R351). -/
def failing (s : State) : Bool := hcSt s == 2 || hcSt s == 4
/-- A power-fail warning is in force: the power-fail sequence runs, or the warning came in Fault-halt (R341, R351). -/
def warned (s : State) : Bool := failing s || (hcSt s == 3 && !s.hc.mainGood)
/-- What the datapath does unless the module is in Fault-halt: transmitters idle, nothing dispatched, no release (R342). -/
def live (s : State) (f : State → State) : State := if hcSt s = 3 then s else f s

/-! ## Byte memories -/

/-- One byte of a memory whose unlisted bytes read 0. -/
def peek (m : List Host.Cell) (a : Nat) : Byte := Tab.get 0 m a

/-- Write one byte, keeping the canonical form. -/
def poke (m : List Host.Cell) (a : Nat) (b : Byte) : List Host.Cell := Tab.put 0 m a b

/-- `n` bytes from an address, lowest first. -/
def peeks (m : List Host.Cell) (a : Nat) : Nat → List Byte
  | 0 => []
  | n + 1 => peek m a :: peeks m (a + 1) n

/-- Write bytes from an address. -/
def pokes (m : List Host.Cell) (a : Nat) : List Byte → List Host.Cell
  | [] => m
  | b :: bs => pokes (poke m a b) (a + 1) bs

/-- The canonical form of a byte memory. -/
def Memory.wf (m : List Host.Cell) : Bool := Tab.wf (fun _ => (0 : Byte)) m

/-- A number from bytes, little-endian (R115). -/
def leNat : List Byte → Nat
  | [] => 0
  | b :: bs => b.toNat + 256 * leNat bs

/-- The `n` low bytes of a number, little-endian. -/
def toLe : Nat → Nat → List Byte
  | 0, _ => []
  | n + 1, x => BitVec.ofNat 8 x :: toLe n (x / 256)

/-- A number from octets, most significant first (network order). -/
def beNat (l : List Byte) : Nat := l.foldl (fun a b => a * 256 + b.toNat) 0

/-- The `n` low octets of a number, most significant first. -/
def toBe (n x : Nat) : List Byte := (toLe n x).reverse

/-- Replace bytes of a list from an index. -/
def overlay (l : List Byte) (i : Nat) (bs : List Byte) : List Byte := l.take i ++ bs ++ l.drop (i + bs.length)

/-! ## State Memory (R114, R198, R232) -/

/-- Size of State Memory: 32 MiB. -/
def smSize : Nat := 0x2000000

/-- One byte of the committed State Memory. -/
def smPeek (s : State) (a : Nat) : Byte := peek s.mem a

/-- `n` bytes of the committed State Memory. -/
def smRead (s : State) (a n : Nat) : List Byte := peeks s.mem a n

/-- A little-endian word of the committed State Memory. -/
def smWord (s : State) (a : Nat) : Word := W (leNat (smRead s a 4))

/-- Change committed bytes: only swaps and the checkpoint restore do (R118). -/
def smWrite (s : State) (a : Nat) (bs : List Byte) : State := { s with mem := pokes s.mem a bs }

/-! ## Sparse parts of the state -/

def getPort (s : State) (p : Fin 144) : Port := Tab.get .reset s.port p
def setPort (s : State) (p : Fin 144) (x : Port) : State := { s with port := Tab.put .reset s.port p x }
def modPort (s : State) (p : Fin 144) (f : Port → Port) : State := setPort s p (f (getPort s p))
def getCore (s : State) (l : Fin 64) : Core := Tab.get .reset s.core l
def setCore (s : State) (l : Fin 64) (x : Core) : State := { s with core := Tab.put .reset s.core l x }
def modCore (s : State) (l : Fin 64) (f : Core → Core) : State := setCore s l (f (getCore s l))
def getTen (s : State) (t : Fin 64) : Tenant := Tab.get .reset s.ten t
def setTen (s : State) (t : Fin 64) (x : Tenant) : State := { s with ten := Tab.put .reset s.ten t x }
def modTen (s : State) (t : Fin 64) (f : Tenant → Tenant) : State := setTen s t (f (getTen s t))
def getWarp (s : State) (w : Fin 512) : WarpSt := Tab.get .reset s.loom.warp w
def setWarp (s : State) (w : Fin 512) (x : WarpSt) : State :=
  { s with loom := { s.loom with warp := Tab.put .reset s.loom.warp w x } }
def modWarp (s : State) (w : Fin 512) (f : WarpSt → WarpSt) : State := setWarp s w (f (getWarp s w))
def getSub (s : State) (g : Fin 2048) : GooseSub := Tab.get .reset s.sw.sub g
def setSub (s : State) (g : Fin 2048) (x : GooseSub) : State :=
  { s with sw := { s.sw with sub := Tab.put .reset s.sw.sub g x } }

/-- Apply an update for every index below `n`, in ascending order. -/
def each {σ : Type} (n : Nat) (f : Fin n → σ → σ) (s : σ) : σ := (List.finRange n).foldl (fun s i => f i s) s

/-! ## Queues at the arbiters (R232, R234, R240, R242) -/

def getArb (s : State) (k : Nat) : Arb := Tab.get .reset s.arb k
def modArb (s : State) (k : Nat) (f : Arb → Arb) : State := { s with arb := Tab.put .reset s.arb k (f (getArb s k)) }

/-- Main-clock cycle of the present instant. -/
def cycleOf (s : State) : Nat := s.now / mainCycle

/-- Bank of a State Memory offset (R232). -/
def bankOf (off : Nat) : Nat := off / 64 % 16

/-- Requests of one queue: of one core of a cluster port, of any other port. -/
def sameQ (ddr : Bool) (a b : ArbReq) : Bool := a.port == b.port && (ddr || 8 ≤ a.port || a.core == b.core)

/-- Requests a queue holds at the arbiter (R234, R240, R242); the others are held in the requester. -/
def depth (ddr : Bool) (p : Nat) : Nat :=
  if ddr then (if p = 2 then 8 else if p = 4 ∨ p = 5 then 4 else 1) else if 9 ≤ p ∧ p ≤ 12 then 4 else 1

/-- A request reaches an arbiter: 0 to 15 a bank, 16 + ch a DDR5 channel. One that finds its queue full waits in its requester. -/
def request (s : State) (k : Nat) (r : ArbReq) : State :=
  modArb s k (fun a =>
    let ddr := decide (16 ≤ k)
    if (a.reqs.filter (sameQ ddr r)).length < depth ddr r.port then { a with reqs := a.reqs ++ [r] } else { a with held := a.held ++ [r] })

/-- A request of a unit that is not a core, arriving now. -/
def ask (s : State) (k port beats line : Nat) : State := request s k ⟨port, 0, cycleOf s, beats, 0, 0, line⟩

/-- Offset of the line with a number in a bank, and the lines of a list that lie in a bank (R232). -/
def inBank (b : Nat) (lines : List Nat) : List Nat := lines.filter (fun a => bankOf a == b)

/-- A transfer of 64-byte lines of State Memory: one request per bank it touches, two beats a line. -/
def askBanks (s : State) (port : Nat) (lines : List Nat) : State :=
  (List.range 16).foldl (fun s b => match inBank b lines with | [] => s | a :: l => ask s b port (2 * (l.length + 1)) a) s

/-- 64-byte lines of a range. -/
def linesOf (a n : Nat) : List Nat := (List.range ((a + n + 63) / 64 - a / 64)).map (fun i => (a / 64 + i) * 64)

/-- A DDR5 request of a unit, on the channel of its offset. -/
def askDdr (s : State) (port accesses off : Nat) : State :=
  let ch := Config.ddrChannel off % 4
  if accesses = 0 ∨ !rb s Reg.hcDdr ch then s else ask s (16 + ch) port accesses off

/-- A DDR5 request for data whose place in the channels the spec does not give (log entry 2): on one of the channels available. -/
def askFree (s : State) (port core accesses : Nat) : State :=
  let l := (List.range 4).filter (fun ch => rb s Reg.hcDdr ch)
  if accesses = 0 ∨ l.isEmpty then s
  else
    let (i, s) := drawLe s (l.length - 1)
    request s (16 + l.getD i 0) ⟨port, core, cycleOf s, accesses, 0, 0, 0⟩

/-- A request of the tick array for a spare's code or an image (R242). -/
def askTick (s : State) (accesses : Nat) : State := askFree s 2 64 accesses

/-- DDR5 requests for a stretch of 64-byte accesses: one per channel it touches. -/
def askSpread (s : State) (port off n : Nat) : State :=
  let l := (linesOf off n).map (fun a => (Config.ddrChannel a % 4, a))
  (List.range 4).foldl (fun s ch => match l.filter (fun e => e.1 == ch) with
    | [] => s
    | e :: r => askDdr s port (r.length + 1) e.2) s

/-! ## Tenant states (R187, R211) -/

/-- CMT_T_STATE.state: 0 Empty, 1 Stopped, 2 Starting, 3 Running, 4 Test, 5 Faulted, 6 Fenced. -/
def tState (s : State) (t : Fin 64) : Nat := rf s (Reg.cmtTState t) 2 0

/-- Running or Test. -/
def tActive (s : State) (t : Fin 64) : Bool := tState s t == 3 || tState s t == 4

/-- Every tenant is Empty or Stopped. -/
def allIdle (s : State) : Bool := (List.finRange 64).all (fun t => tState s t ≤ 1)

/-! ## Tick rate (R45, R55) -/

/-- The tick rate in force, in Hz. -/
def rateHz (s : State) : Nat :=
  match rf s Reg.timeTickcfg 1 0 with | 0 => 4000 | 1 => 4800 | 2 => 9600 | _ => 14400

/-- The tick period: a whole number of clock units at every rate. -/
def period (s : State) : Instant := second / rateHz s

/-! ## The Pantry (R308 to R312) -/

/-- Milliseconds of operating time. -/
def opMs (s : State) : Nat := s.op / msec
/-- Whole hours of operating time. -/
def opHours (s : State) : Nat := s.op / (3600 * second)

def getPan (s : State) (k : Nat) : PanWord := Tab.get .reset s.rec'.pan k
def setPan (s : State) (k : Nat) (x : PanWord) : State :=
  { s with rec' := { s.rec' with pan := Tab.put .reset s.rec'.pan k x } }

/-- Key of the Pantry word with a word number outside the register region (R308). -/
def panKey (w : Nat) : Nat := 0x400000000 + w

/-! ## The module log (R313 to R317, R378) -/

/-- The flush reads the staged records through port 12 (R234, R240): one line a record of the ring of 1024, by sequence number. -/
def askFlush (s : State) : State :=
  (List.range 16).foldl (fun s b => match s.rec'.ring.filter (fun r => r.seq % 16 == b) with
    | [] => s
    | r :: l => ask s b 12 (2 * (l.length + 1)) (r.seq % 1024 * 64)) s

/-- Start writing the pending records to log memory, unless a freeze holds them or a flush is running (R315, R319). -/
def startFlush (s : State) (force : Bool) : State :=
  if s.rec'.flushing.isSome || (rb s Reg.logStatus 17 && !force) || s.rec'.ring.isEmpty then s
  else wb (askFlush { s with rec' := { s.rec' with flushing := some s.rec'.ring.length } }) Reg.logStatus 20 true

/-- Start a flush where R315 asks for one: 64 records pending or one of severity 3 and up, unless frozen; 960 pending records and the
power-fail sequence override every freeze (R319). -/
def flushDue (s : State) : State :=
  if failing s ∨ 960 ≤ s.rec'.ring.length then startFlush s true
  else if 64 ≤ s.rec'.ring.length ∨ s.rec'.clearStep = 1 ∨ s.rec'.ring.any (fun r => 3 ≤ r.severity) then startFlush s false else s

/-- The UTC stamp of R313: present while time_valid, PTP time minus TIME_UTCOFS. -/
def utcStamp (s : State) : Option (Nat × Nat) :=
  if rb s Reg.timeState 6 then
    let ofs : Int := (BitVec.ofNat 16 (rf s Reg.timeUtcofs 15 0)).toInt
    some (((secOf s.now : Int) - ofs).toNat % 2 ^ 48, (s.now % second) / nsec)
  else none

/-- Stage a log record (R314, R315, R317): source, severity, class, detail, the source's IRQ register as data word 0 and up
to six identifiers. -/
def logRec (s : State) (irq : Nat) (severity cls detail : Nat) (ids : List Nat) : State :=
  if rb s Reg.logStatus 16 then
    raise (bump s Reg.panLogLost) Reg.logIrq 4
  else if 1024 ≤ s.rec'.ring.length then
    raise (bump s Reg.logDropped) Reg.logIrq 5
  else
    let seq := max 1 (rd s Reg.logNext).toNat
    let r : LogRec :=
      { seq := seq, hours := if s.rec'.opUnread then 0 else opHours s % 2 ^ 24,
        ms := if s.rec'.opUnread then 0 else (s.op % (3600 * second)) / msec, noOptime := s.rec'.opUnread, utc := utcStamp s, severity := severity,
        pcc := rf s Reg.panPwrcyc 23 0, source := vecOf irq, cls := cls, detail := detail,
        data := (rd s irq :: (ids.map W) ++ [0, 0, 0, 0, 0, 0]).take 7 }
    let s := { s with rec' := { s.rec' with ring := s.rec'.ring ++ [r] } }
    let s := wr s Reg.logNext (if W (seq + 1) = 0 then 1 else W (seq + 1))
    let s := wf s Reg.logStatus 10 0 s.rec'.ring.length
    flushDue (if 3 ≤ severity then raise s Reg.logIrq 1 else s)

/-- CRC-32 of the IEEE 802.3 polynomial (R313, R316). -/
def crcByte : Nat → Word → Word
  | 0, c => c
  | n + 1, c => crcByte n (if c.getLsbD 0 then (c >>> 1) ^^^ 0xEDB88320 else c >>> 1)
def crc32 (l : List Byte) : Word :=
  ~~~ (l.foldl (fun c b => crcByte 8 (c ^^^ b.setWidth 32)) 0xFFFFFFFF)

/-- The 64 bytes of a log record (R313). -/
def LogRec.bytes (r : LogRec) : List Byte :=
  let u := r.utc.getD (0, 0)
  let body := toLe 4 r.seq ++ toLe 4 r.hours ++ toLe 4 (r.ms + b2n r.noOptime * 2 ^ 22 + (b2n r.utc.isSome) * 2 ^ 23 + r.severity * 2 ^ 24)
    ++ toLe 4 r.pcc ++ toLe 2 r.source ++ toLe 2 (r.cls * 4096 + r.detail) ++ toLe 6 u.1 ++ toLe 2 0 ++ toLe 4 u.2
    ++ (r.data.map (fun w => toLe 4 w.toNat)).flatten
  body ++ toLe 4 (crc32 body).toNat

/-- Account a write of the Pantry word with a key (R12, R309, R310): wear and the hourly limit. DESIGN CHOICE (log entry 35): a word
that is no register has no offset for PAN_HOT. -/
def persist (s : State) (off : Nat) : State :=
  let w := getPan s off
  let h := opHours s
  let n := if w.hour = h then w.hourWrites + 1 else 1
  let hot := if w.hour = h then w.hot else false
  let tooMany := rf s Reg.panRatecfg 15 0 < n
  let s := setPan s off { w with wear := w.wear + 1, phys := w.phys + 1, hour := h, hourWrites := n, hot := hot || tooMany }
  if tooMany then
    let s := if off < panKey 0 then wr s Reg.panHot (W (off % 2 ^ 26) ||| oneBit 31) else s
    let s := raise s Reg.panIrq 0
    if hot then s else logRec s Reg.panIrq 2 1 0 [off]
  else s

/-- Account a write of a Pantry word that the module itself keeps, by its number (R308, R309, R311). -/
def persistWord (s : State) (w : Nat) : State := persist s (panKey w)

/-- Store an RWP register: the word and its Pantry accounting. -/
def wrp (s : State) (off : Nat) (v : Word) : State := persist (wr s off v) off

/-! ## The gate and what it mutes (R275) -/

/-- The redundancy gate is open: PLU_STATUS.gate. -/
def gateOpen (s : State) : Bool := rb s Reg.pluStatus 3
/-- The publication is gated (PLU_GATE_GPUB, PLU_GATE_SPUB). -/
def pubGated (s : State) (p : Nat) : Bool :=
  if p < 1024 then rb s (Reg.pluGateGpub (p / 32)) (p % 32) else rb s (Reg.pluGateSpub ((p - 1024) / 32)) (p % 32)
/-- The publication may not be transmitted now. -/
def pubMuted (s : State) (p : Nat) : Bool := pubGated s p && !gateOpen s

/-- The next state, as an outcome. -/
abbrev ok (s : State) : Host.Outcome State Fault Refusal := .next s

end Sys2Proof.Machine
end

