-- ==== Sys2Proof/Machine/Flags.lean ====
section
/-!
DEFINITION. Wormin number formats, rounding, saturation and the sticky flags they set (R112, R120 to R124), and the angle
functions of ATAN2 and the sine generator (R124, R136, R228).
-/
namespace Sys2Proof.Machine

/-! ## Sticky flags (R112) -/

def fsSat : Word := 1
def fsOva : Word := 2
def fsDz : Word := 4
def fsIov : Word := 8
def fsNv : Word := 0x10
def fsFdz : Word := 0x20
def fsOf : Word := 0x40
def fsUf : Word := 0x80
def fsNx : Word := 0x100
def fsClus : Word := 0x200

/-! ## Operand forms (R120) -/

/-- Signed value of bits [15:0]. -/
def q15 (w : Word) : Int := (w.setWidth 16).toInt
/-- Signed value of bits [31:0]. -/
def q31 (w : Word) : Int := w.toInt
/-- A signed integer result, wrapping modulo 2^32. -/
def wi (x : Int) : Word := BitVec.ofInt 32 x
/-- An accumulator's bits. -/
def ai (x : Int) : BitVec 40 := BitVec.ofInt 40 x
/-- A field sign-extended to 32 bits (R127). -/
def sx {n : Nat} (v : BitVec n) : Word := v.signExtend 32
/-- A field zero-extended to 32 bits. -/
def zx {n : Nat} (v : BitVec n) : Word := v.setWidth 32

/-! ## Rounding and saturation (R122 to R124) -/

/-- x / 2^k rounded to nearest, ties to even. -/
def rne (x : Int) (k : Nat) : Int :=
  let m : Int := 2 ^ k
  let q := x.fdiv m
  let r := x.fmod m
  if m < 2 * r then q + 1 else if 2 * r = m then q + q.fmod 2 else q

/-- Clamp to a range; the flag is set when the value was clamped. -/
def clampTo (lo hi : Int) (fl : Word) (x : Int) : Int × Word :=
  if x < lo then (lo, fl) else if hi < x then (hi, fl) else (x, 0)

def satq15 (x : Int) : Int × Word := clampTo (-32768) 32767 fsSat x
def satq31 (x : Int) : Int × Word := clampTo (-2147483648) 2147483647 fsSat x
def sata (x : Int) : Int × Word := clampTo (-549755813888) 549755813887 fsOva x

/-! ## Angles -/

/-- atan(2^-i) divided by pi, in units of 2^-40. -/
def atanTab : List Int :=
  [274877906944, 162269903676, 85738960574, 43522435132, 21845673501, 10933486258, 5468077240, 2734205476, 1367123598,
   683564406, 341782529, 170891305, 85445658, 42722830, 21361415, 10680707, 5340354, 2670177,
   1335088, 667544, 333772, 166886, 83443, 41722, 20861, 10430, 5215,
   2608, 1304, 652, 326, 163, 81, 41]

/-- Vectoring: the angle of (x, y), x positive, divided by pi in units of 2^-40. -/
def cordicAngle : List Int → Nat → Int → Int → Int → Int
  | [], _, _, _, z => z
  | t :: ts, i, x, y, z =>
    if 0 ≤ y then cordicAngle ts (i + 1) (x + y.fdiv (2 ^ i)) (y - x.fdiv (2 ^ i)) (z + t)
    else cordicAngle ts (i + 1) (x - y.fdiv (2 ^ i)) (y + x.fdiv (2 ^ i)) (z - t)

/-- Rotation of (x, y) by z: the sine of the angle. -/
def cordicSin : List Int → Nat → Int → Int → Int → Int
  | [], _, _, y, _ => y
  | t :: ts, i, x, y, z =>
    if 0 ≤ z then cordicSin ts (i + 1) (x - y.fdiv (2 ^ i)) (y + x.fdiv (2 ^ i)) (z - t)
    else cordicSin ts (i + 1) (x + y.fdiv (2 ^ i)) (y - x.fdiv (2 ^ i)) (z + t)

/-- An error of at most 2 LSB, from a free value. -/
def err2 (w : Word) : Int := (w.toNat % 5 : Nat) - (2 : Int)

/-- The angle of (x, y) divided by pi in Q15 (R124, R136): the nearest value plus a free error that leaves it within 2 LSB of the
angle; the two rows of the boundary table are exact. -/
def atan2 (y x : Int) : Word :=
  if y = 0 ∧ x = 0 then 0
  else if y = 0 ∧ x < 0 then 0xFFFF8000
  else
    let ang (x y : Int) : Int := cordicAngle atanTab 0 (x * 2 ^ 40) (y * 2 ^ 40) 0
    let a : Int := if 0 < x then ang x y
      else if 0 < y then 2 ^ 39 + ang y (-x)
      else -(2 ^ 39) - ang (-y) (-x)
    let r := rne a 25 + err2 (Config.atan2Err (BitVec.ofInt 16 y) (BitVec.ofInt 16 x))
    sx (BitVec.ofInt 16 (if (r * 2 ^ 25 - a).natAbs ≤ 2 ^ 26 then r else rne a 25))

/-- A times the sine of phase / 2^32 of a turn, within 2 LSB (R228). -/
def sineOf (A : Int) (phase : Nat) : Int :=
  let z : Int := (phase % 2 ^ 32 * 2 ^ 9 : Nat)
  -- fold into a quarter turn on either side of 0; half a turn is 2^40
  let z := if z < 2 ^ 39 then z else if z < 3 * 2 ^ 39 then 2 ^ 40 - z else z - 2 ^ 41
  let s := cordicSin atanTab 0 667681663043 0 z
  rne (A * s) 40 + err2 (Config.sineErr (W phase))

/-! ## Geometric sweeps (R228) -/

/-- The fraction bits of a base-2 logarithm, of a mantissa in units of 2^-60. -/
def logBits : Nat → Nat → Nat → Nat
  | 0, _, acc => acc
  | n + 1, m, acc =>
    let q := m * m / 2 ^ 60
    if 2 ^ 61 ≤ q then logBits n (q / 2) (2 * acc + 1) else logBits n q (2 * acc)

/-- log2 of a positive number, in units of 2^-40. -/
def log2Fix (n : Nat) : Nat := n.log2 * 2 ^ 40 + logBits 40 (n * 2 ^ 60 / 2 ^ n.log2) 0

/-- 2^(2^-i) for i from 1 to 40, in units of 2^-60. -/
def expTab : List Nat :=
  [1630477228166597777, 1371062456318104878, 1257269815929830109, 1203965700457697123, 1178167198179750971,
   1165475996665667822, 1159181754367685998, 1156047391917129430, 1154483390303177194, 1153702183144312517,
   1153311777820267002, 1153116624702523244, 1153019060527275927, 1152970281535252809, 1152945892813103188,
   1152933698645489088, 1152927601610046619, 1152924553104416455, 1152923028854624131, 1152922266730483658,
   1152921885668602343, 1152921695137708916, 1152921599872274010, 1152921552239559509, 1152921528423202997,
   1152921516515024925, 1152921510560935935, 1152921507583891452, 1152921506095369213, 1152921505351108094,
   1152921504978977535, 1152921504792912256, 1152921504699879616, 1152921504653363296, 1152921504630105136,
   1152921504618476056, 1152921504612661516, 1152921504609754246, 1152921504608300611, 1152921504607573793]

/-- 2 to a power in units of 2^-40; the value in units of 2^-32. -/
def exp2Fix (e : Nat) : Nat :=
  let m := (expTab.zipIdx.filter (fun x => e.testBit (39 - x.2))).foldl (fun m x => m * x.1 / 2 ^ 60) (2 ^ 60)
  m * 2 ^ (e / 2 ^ 40) / 2 ^ 28

/-- The phase increment of a sweep at evaluation k of `dur`, rising geometrically from f0 to f1, in units of 2^-32 of a phase step:
a free error within 2^-20 of it (log entry 2). -/
def sweepInc (f0 f1 dur k : Nat) : Nat :=
  let a0 := log2Fix f0
  let a1 := log2Fix f1
  let k := min k (dur - 1)
  let v := exp2Fix ((a0 * (dur - 1 - k) + a1 * k) / (dur - 1))
  let m := v / 2 ^ 20
  v - m + (Config.sweepErr f0 f1 dur k).toNat % (2 * m + 1)

end Sys2Proof.Machine
end

