-- ==== Sys2Proof/Machine/Float.lean ====
section
/-!
DEFINITION. FP32 arithmetic (R125, R140): IEEE 754 binary32, round to nearest even, subnormals in full, the canonical quiet
NaN for every invalid operation. Each function answers the result and the fs bits it sets.
-/
namespace Sys2Proof.Machine

/-- A binary32 value taken apart: NaN (signalling or not), infinity, or a finite value m × 2^e. -/
inductive Fp where
  | nan (signalling : Bool)
  | inf (neg : Bool)
  | fin (neg : Bool) (m : Nat) (e : Int)
deriving DecidableEq, Repr

def canonNan : Word := 0x7FC00000
def infWord (neg : Bool) : Word := if neg then 0xFF800000 else 0x7F800000
def zeroWord (neg : Bool) : Word := if neg then 0x80000000 else 0

/-- Take a word apart. -/
def unpack (w : Word) : Fp :=
  let neg := w.getLsbD 31
  let ex := fld w 30 23
  let fr := fld w 22 0
  if ex = 255 then (if fr = 0 then .inf neg else .nan (!(w.getLsbD 22)))
  else if ex = 0 then .fin neg fr (-149)
  else .fin neg (fr + 2 ^ 23) ((ex : Int) - 150)

/-- Bits of a number. -/
def bitLen (n : Nat) : Nat := if n = 0 then 0 else Nat.log2 n + 1

/-- Whether m × 2^e (and a little more when `sticky`), rounded to 24 bits with an unbounded exponent, lies below the least
normal number. -/
def tinyRounded (m : Nat) (e : Int) (sticky : Bool) : Bool :=
  let L := bitLen m
  if -125 ≤ e + L then false
  else if e + L ≤ -127 ∨ L ≤ 24 then true
  else
    let q := m / 2 ^ (L - 24)
    let r := m % 2 ^ (L - 24)
    let half := 2 ^ (L - 24) / 2
    !(q = 2 ^ 24 - 1 ∧ (half ≤ r ∧ (half < r ∨ sticky ∨ q % 2 = 1)))

/-- m × 2^e, and a little more when `sticky`, rounded to binary32. Overflow, underflow (tiny and inexact) and inexact are
flagged; whether tininess is judged before or after rounding is a free choice of the implementation (log entry 10). -/
def roundF (neg : Bool) (m : Nat) (e : Int) (sticky : Bool) : Word × Word :=
  if m = 0 ∧ !sticky then (zeroWord neg, 0)
  else
    let E : Int := max (e + bitLen m - 24) (-149)
    let sh := (E - e).toNat
    let m' := if E < e then m * 2 ^ (e - E).toNat else m
    let q := m' / 2 ^ sh
    let r := m' % 2 ^ sh
    let half := 2 ^ sh / 2
    let inexact := r ≠ 0 ∨ sticky
    let up := (sh ≠ 0 ∧ (half < r ∨ (r = half ∧ (sticky ∨ q % 2 = 1))))
    let q' := if up then q + 1 else q
    let (q2, E2) := if q' = 2 ^ 24 then (2 ^ 23, E + 1) else (q', E)
    let tinyBefore := decide (q < 2 ^ 23)
    let nx : Word := if inexact then fsNx else 0
    if 2 ^ 23 ≤ q2 ∧ 127 < E2 + 23 then (infWord neg, fsOf ||| fsNx)
    else
      let uf : Word := if inexact ∧ (if Config.tinyAfterRounding then tinyRounded m e sticky else tinyBefore) then fsUf else 0
      let body := if q2 < 2 ^ 23 then q2 else (E2 + 150).toNat * 2 ^ 23 + (q2 - 2 ^ 23)
      (zeroWord neg ||| W body, nx ||| uf)

/-- A signed exact value x × 2^e rounded; a zero sum carries the given sign. -/
def roundS (x : Int) (e : Int) (zeroNeg : Bool) : Word × Word :=
  if x = 0 then (zeroWord zeroNeg, 0) else roundF (decide (x < 0)) x.natAbs e false

def isNan (a : Fp) : Bool := match a with | .nan _ => true | _ => false
def isSnan (a : Fp) : Bool := match a with | .nan s => s | _ => false
def fpNeg (a : Fp) : Bool := match a with | .nan _ => false | .inf n => n | .fin n _ _ => n

/-- The answer to a NaN operand: canonical NaN; a signalling NaN is an invalid operation. -/
def nanAns (l : List Fp) : Word × Word := (canonNan, if l.any isSnan then fsNv else 0)
/-- An invalid operation. -/
def invalid : Word × Word := (canonNan, fsNv)

def sInt (neg : Bool) (m : Nat) : Int := if neg then -(m : Int) else m

def fpAdd (a b : Fp) : Word × Word :=
  if isNan a || isNan b then nanAns [a, b]
  else match a, b with
  | .inf n, .inf k => if n = k then (infWord n, 0) else invalid
  | .inf n, _ => (infWord n, 0)
  | _, .inf n => (infWord n, 0)
  | .fin n m e, .fin k j f =>
    let lo := min e f
    let x := sInt n m * 2 ^ (e - lo).toNat + sInt k j * 2 ^ (f - lo).toNat
    roundS x lo (n && k)
  | _, _ => invalid

def flipSign (w : Word) : Word := w ^^^ 0x80000000

def fadd (a b : Word) : Word × Word := fpAdd (unpack a) (unpack b)
def fsub (a b : Word) : Word × Word :=
  if isNan (unpack b) then nanAns [unpack a, unpack b] else fpAdd (unpack a) (unpack (flipSign b))

def fmul (a b : Word) : Word × Word :=
  let x := unpack a
  let y := unpack b
  let neg := fpNeg x != fpNeg y
  if isNan x || isNan y then nanAns [x, y]
  else match x, y with
  | .fin _ m e, .fin _ j f => if m * j = 0 then (zeroWord neg, 0) else roundF neg (m * j) (e + f) false
  | .fin _ 0 _, _ => invalid
  | _, .fin _ 0 _ => invalid
  | _, _ => (infWord neg, 0)

def fdiv (a b : Word) : Word × Word :=
  let x := unpack a
  let y := unpack b
  let neg := fpNeg x != fpNeg y
  if isNan x || isNan y then nanAns [x, y]
  else match x, y with
  | .inf _, .inf _ => invalid
  | .inf _, _ => (infWord neg, 0)
  | _, .inf _ => (zeroWord neg, 0)
  | .fin _ m e, .fin _ j f =>
    if j = 0 then (if m = 0 then invalid else (infWord neg, fsFdz))
    else if m = 0 then (zeroWord neg, 0)
    else
      let n := m * 2 ^ 60
      roundF neg (n / j) (e - 60 - f) (n % j ≠ 0)
  | _, _ => invalid

/-- Integer square root by bits, from the given bit downward. -/
def isqrtBits : Nat → Nat → Nat → Nat
  | 0, _, acc => acc
  | k + 1, n, acc => let t := acc + 2 ^ k; isqrtBits k n (if t * t ≤ n then t else acc)

def fsqrt (a : Word) : Word × Word :=
  match unpack a with
  | .nan s => (canonNan, if s then fsNv else 0)
  | .inf n => if n then invalid else (infWord false, 0)
  | .fin n m e =>
    if m = 0 then (zeroWord n, 0)
    else if n then invalid
    else
      -- make the exponent even and keep 40 extra bits of the root
      let (m, e) := if e.fmod 2 = 0 then (m, e) else (2 * m, e - 1)
      let big := m * 2 ^ 80
      let r := isqrtBits 60 big 0
      roundF false r (e / 2 - 40) (r * r ≠ big)

/-- Order of two non-NaN values: true when a < b, with -0 < +0 when `zeros`. -/
def fpLt (zeros : Bool) (a b : Fp) : Bool :=
  match a, b with
  | .inf n, .inf k => n && !k
  | .inf n, _ => n
  | _, .inf k => !k
  | .fin n m e, .fin k j f =>
    let lo := min e f
    let x := sInt n m * 2 ^ (e - lo).toNat
    let y := sInt k j * 2 ^ (f - lo).toNat
    decide (x < y) || (zeros && x == 0 && y == 0 && n && !k)
  | _, _ => false

def fminmax (mx : Bool) (a b : Word) : Word × Word :=
  let x := unpack a
  let y := unpack b
  let fl : Word := if isSnan x || isSnan y then fsNv else 0
  if isNan x && isNan y then (canonNan, fl)
  else if isNan x then (b, fl)
  else if isNan y then (a, fl)
  else if fpLt true y x != mx then (b, fl) else (a, fl)

/-- Fused multiply-add, rounded once. -/
def fmac (a b c : Word) : Word × Word :=
  let x := unpack a
  let y := unpack b
  let z := unpack c
  let neg := fpNeg x != fpNeg y
  let badProd := match x, y with
    | .inf _, .fin _ 0 _ => true
    | .fin _ 0 _, .inf _ => true
    | _, _ => false
  if badProd then invalid
  else if isNan x || isNan y || isNan z then nanAns [x, y, z]
  else match x, y, z with
  | .fin n m e, .fin k j f, .fin h i g =>
    let p := sInt (n != k) (m * j)
    let pe := e + f
    let lo := min pe g
    roundS (p * 2 ^ (pe - lo).toNat + sInt h i * 2 ^ (g - lo).toNat) lo ((n != k) && h)
  | .fin _ _ _, .fin _ _ _, .inf h => (infWord h, 0)
  | _, _, .inf h => if h = neg then (infWord h, 0) else invalid
  | _, _, _ => (infWord neg, 0)

/-- FCEQ, FCLT, FCLE, FCUN: the comparison and the flags. -/
def fceq (a b : Word) : Bool × Word :=
  let x := unpack a
  let y := unpack b
  (!isNan x && !isNan y && !fpLt false x y && !fpLt false y x, if isSnan x || isSnan y then fsNv else 0)
def fclt (a b : Word) : Bool × Word :=
  let x := unpack a
  let y := unpack b
  if isNan x || isNan y then (false, fsNv) else (fpLt false x y, 0)
def fcle (a b : Word) : Bool × Word :=
  let x := unpack a
  let y := unpack b
  if isNan x || isNan y then (false, fsNv) else (!fpLt false y x, 0)
def fcun (a b : Word) : Bool × Word :=
  let x := unpack a
  let y := unpack b
  (isNan x || isNan y, if isSnan x || isSnan y then fsNv else 0)

/-- Conversion of FP32 × 2^k to an integer in a range (R125): rounding or truncating, saturating; a NaN converts to 0. -/
def fToInt (k : Nat) (lo hi : Int) (trunc : Bool) (a : Word) : Int × Word :=
  match unpack a with
  | .nan _ => (0, fsNv)
  | .inf n => (if n then lo else hi, fsNv)
  | .fin n m e =>
    let e := e + k
    let x : Int :=
      if 0 ≤ e then sInt n m * 2 ^ e.toNat
      else if trunc then sInt n (m / 2 ^ (-e).toNat)
      else rne (sInt n m) (-e).toNat
    let exact := decide (0 ≤ e) || m % 2 ^ (-e).toNat == 0
    if x < lo then (lo, fsNv) else if hi < x then (hi, fsNv) else (x, if exact then 0 else fsNx)

/-- Conversion of an integer × 2^-k to FP32. -/
def fOfInt (k : Nat) (x : Int) : Word × Word := roundS x (-(k : Int)) false

end Sys2Proof.Machine
end

