-- ==== Sys2Proof/Machine/Time.lean ====
section
/-!
DEFINITION. The Time Unit (chapter 02): clock states, offset correction, reference inputs, the timing edge ring and the TIME
registers with a row of their own. Tick edges themselves are in Machine/Tick.lean.
-/
namespace Sys2Proof.Machine

def modTime (s : State) (f : TimeUnit → TimeUnit) : State := { s with time := f s.time }

/-- TIME_STATE.state: 0 Free-run, 1 Acquiring, 2 Locked, 3 Holdover, 4 Re-locking (R56). -/
def clkState (s : State) : Nat := rf s Reg.timeState 2 0
/-- TIME_CTRL.role (R33, R53). -/
def clkRole (s : State) : Nat := rf s Reg.timeCtrl 3 1

/-- The base MAC address (R2, R363) plus an offset (R3). -/
def macOf (s : State) (n : Nat) : BitVec 48 :=
  BitVec.ofNat 48 (rf s Reg.glbIssue 31 16 * 2 ^ 32 + (rd s Reg.glbMacLo).toNat + n)

/-- The module's clockIdentity: the EUI-64 of base + 144 with 0xFF, 0xFE after the third octet (R32). -/
def clockId (s : State) : BitVec 64 :=
  let m := (macOf s 144).toNat
  BitVec.ofNat 64 (m / 2 ^ 24 * 2 ^ 40 + 0xFFFE * 2 ^ 24 + m % 2 ^ 24)

/-- clockClass and clockAccuracy as the module announces them (R41). DESIGN CHOICE (log entry 37): in role 0, Locked with no
master known, they are those of Free-run; no command reaches that combination. -/
def clkQuality (s : State) : Nat × Nat :=
  let r := clkRole s
  if r = 1 then (255, 0xFE)
  else match clkState s with
    | 2 => if r = 2 || r = 3 then (6, 0x21) else match s.time.best with | some (a, _) => (a.cls, a.acc) | none => (248, 0xFE)
    | 3 => if s.time.holdOk then (7, 0x22) else (52, 0x2F)
    | 4 => (52, 0x2F)
    | _ => (248, 0xFE)

/-- The module's own data set in the best master comparison (R33). DESIGN CHOICE (log entry 37): its offsetScaledLogVariance is
0xFFFF and its sender identity 0, and a boundary clock Locked to a master compares as in Free-run, since the master's quality
is not its own. -/
def ownAnnounce (s : State) : Announce :=
  let q := if clkRole s = 0 ∧ clkState s = 2 then (248, 0xFE) else clkQuality s
  { domain := rf s Reg.timePrio 23 16, prio1 := rf s Reg.timePrio 7 0, cls := q.1, acc := q.2, variance := 0xFFFF,
    prio2 := rf s Reg.timePrio 15 8, gm := clockId s, steps := 0, sender := 0 }

/-- The data-set comparison of the best master clock algorithm (IEEE 1588-2019, by the fields R33 names): whether `a` is
better than `b`. -/
def betterMaster (a b : Announce) : Bool :=
  let ka := [a.prio1, a.cls, a.acc, a.variance, a.prio2, a.gm.toNat, a.steps, a.sender.toNat]
  let kb := [b.prio1, b.cls, b.acc, b.variance, b.prio2, b.gm.toNat, b.steps, b.sender.toNat]
  let rec lt : List Nat → List Nat → Bool
    | x :: xs, y :: ys => x < y || (x == y && lt xs ys)
    | _, _ => false
  lt ka kb

/-- The best data set heard, with its port (R33). -/
def bestHeard (s : State) : Option (Announce × Fin 144) :=
  (List.finRange 144).foldl (fun (b : Option (Announce × Fin 144)) (p : Fin 144) => match Tab.get none s.time.heard p, b with
    | none, _ => b
    | some (a, _), none => some (a, p)
    | some (a, _), some (m, _) => if betterMaster a m then some (a, p) else b) none

/-- What a port is in the best master clock algorithm (R33). -/
inductive PtpRole where
  | master | slave | passive
deriving DecidableEq, Repr

/-- sourcePortIdentity of a port: the clockIdentity and PTP port n + 1 (R32). -/
def portIdentity (s : State) (p : Fin 144) : BitVec 80 := BitVec.ofNat 80 ((clockId s).toNat * 2 ^ 16 + p + 1)

/-- Whether the best master the module follows is better by topology than the one a port hears (IEEE 1588-2019, data-set
comparison part 2): the same grandmaster by an equal way, or by a way longer by one whose sender's identity is below that of the
receiving port. -/
def betterByTopology (best heard : Announce) (receiver : BitVec 80) : Bool :=
  best.gm == heard.gm && (decide (heard.steps ≤ best.steps) || (heard.steps == best.steps + 1 && decide (heard.sender < receiver)))

/-- The state of a port (R33): in roles 0 and 1 the port of the best master is slave; a slave-only clock has no master port;
elsewhere a port is passive where the best master it hears beats the module's own data set, or where the master followed is
better than it by topology alone. -/
def ptpRole (s : State) (p : Fin 144) : PtpRole :=
  match s.time.best, Tab.get none s.time.heard p with
  | some (b, q), h =>
    if q = p then .slave else if clkRole s = 1 then .passive
    else match h with
      | some (a, _) => if betterByTopology b a (portIdentity s p) then .passive else .master
      | none => .master
  | none, h =>
    if clkRole s = 1 then .passive
    else match h with
      | some (a, _) => if betterMaster a (ownAnnounce s) then .passive else .master
      | none => .master

/-- Whether the module is the grandmaster of its domain (R33, R56): no master is followed, and none heard is better. -/
def isGm (s : State) : Bool :=
  rb s Reg.timeCtrl 0 && clkRole s != 1 && s.time.best.isNone &&
    (match bestHeard s with | none => true | some (a, _) => betterMaster (ownAnnounce s) a)

/-- Bring TIME_STATE, TIME_FREQ and TIME_OFFSET's companions in line with the clock (R41, R56). -/
def refreshClock (s : State) : State :=
  let q := clkQuality s
  let s := wb (wb (wb s Reg.timeState 3 s.time.step.isSome) Reg.timeState 4 (s.time.slewAdj != 0))
    Reg.timeState 5 (clkState s == 3 && s.time.holdOk)
  let s := wf (wf s Reg.timeState 15 8 q.1) Reg.timeState 23 16 q.2
  let s := wb s Reg.timeState 24 (isGm s)
  wr s Reg.timeFreq (BitVec.ofInt 32 (s.time.rate + s.time.slewAdj))

/-- Report a grandmaster identity in TIME_GMID; a change sets gm_chg and is logged (R57, R378). -/
def setGm (s : State) (gm : BitVec 64) : State :=
  if rd64 s Reg.timeGmidLo Reg.timeGmidHi = gm.toNat then s
  else
    let s := raise (wr64 s Reg.timeGmidLo Reg.timeGmidHi gm.toNat) Reg.timeIrq 2
    logRec s Reg.timeIrq 1 0 (clkState s) [gm.toNat / 2 ^ 32, gm.toNat % 2 ^ 32]

/-- Mean of a list of integers, rounded to the nearest. DESIGN CHOICE (log entry 37): a tie rounds up. -/
def meanInt (l : List Int) : Int :=
  match l with
  | [] => 0
  | _ => let n : Int := l.length; (2 * l.foldl (· + ·) 0 + n).fdiv (2 * n)

/-- Stop any slew and cancel any pending step (R37, R38, R44). -/
def stopCorrecting (s : State) : State := modTime s (fun t => { t with step := none, slewAdj := 0 })

/-- Enter a clock state (R37): the actions of the state table's entry, interrupt and log record (R57, R378). DESIGN CHOICE (log
entry 37): only a Holdover entered from Locked itself can be in specification, not one entered from Re-locking; a step that
TIME_SET asked for and that still waits as the clock enters Locked is cancelled, since no step is made while Locked. -/
def enterClock (s : State) (new : Nat) : State :=
  let old := clkState s
  if old = new then refreshClock s
  else
    let s := if old = 2 then modTime s (fun t => { t with lockedFor := s.op - t.lockedSince }) else s
    let s := match new with
      | 0 => stopCorrecting s
      | 1 => modTime s (fun t => { t with filt := [], lockRun := 0 })
      | 2 => wb (modTime s (fun t => { t with lockedSince := s.op, overRun := 0, step := none })) Reg.timeState 6 true
      | 3 =>
        let s := stopCorrecting s
        let frozen := if old = 2 && !s.time.rateHist.isEmpty then meanInt s.time.rateHist else s.time.rate
        let spec := old == 2 && decide (24 * 3600 * second ≤ s.op - max s.time.lockedSince (s.hc.bootAt + 600 * second))
        modTime s (fun t => { t with holdSince := s.op, holdOk := spec, rate := frozen })
      | _ => modTime s (fun t => { t with filt := [], lockRun := 0 })
    let s := raise (wf s Reg.timeState 2 0 new) Reg.timeIrq 0
    refreshClock (logRec s Reg.timeIrq (if new = 3 ∨ new = 0 then 2 else 1) 0 new [old])

/-- Slew an offset (R40, first case): the rate is adjusted by at most 50 ppm towards it; the amount within the bound is free
(log entry 2). -/
def slew (s : State) (delta : Int) : State :=
  if delta = 0 then modTime s (fun t => { t with slewAdj := 0 })
  else
    let (x, s) := drawLe s 799999
    modTime s (fun t => { t with slewAdj := if 0 < delta then (x : Int) + 1 else -((x : Int) + 1) })

/-- Split an offset Δ into k × T + ρ with −T/2 < ρ ≤ T/2 (R40). -/
def splitStep (T delta : Int) : Int × Int :=
  let k := -((T - 2 * delta).fdiv (2 * T))
  (k, delta - k * T)

/-- Correct an offset under R40: slew within 1 ms, and in Locked whatever the offset; otherwise a pending step. `top`: wait for
the top of a second. -/
def correct (s : State) (delta : Int) (top : Bool) : State :=
  if delta.natAbs ≤ 4000000 ∨ clkState s = 2 then slew (modTime s (fun t => { t with step := none })) delta
  else
    let (k, rho) := splitStep (period s) (delta * 36)
    modTime s (fun t => { t with step := some ⟨k, rho, top⟩, slewAdj := 0 })

/-- A step that TIME_SET asked for waits for the top of second (R44). -/
def setWaits (s : State) : Bool := match s.time.step with | some x => x.top | none => false

/-- One measured offset, in quarter ns (R37): filter, correct, lock, re-lock. A step that TIME_SET asked for stays pending.
DESIGN CHOICE (log entry 37): TIME_OFFSET shows the filtered offset in ns truncated toward zero. -/
def measureOffset (s : State) (delta : Int) : State :=
  let st := clkState s
  if st = 0 ∨ st = 3 then s
  else
    let filt := (delta :: s.time.filt).take 8
    let m := meanInt filt
    let ns := m.tdiv 4
    let lim : Int := 2 ^ 31 - 1
    let s := wr (modTime s (fun t => { t with filt := filt, rateHist := (t.rate :: t.rateHist).take 64 }))
      Reg.timeOffset (BitVec.ofInt 32 (max (-lim) (min lim ns)))
    if st = 2 then
      let runs := if 4000 < m.natAbs then s.time.overRun + 1 else 0
      let s := modTime s (fun t => { t with overRun := runs })
      if 4 ≤ runs then enterClock s 4 else refreshClock (correct s m false)
    else
      let run := if m.natAbs ≤ 400 then s.time.lockRun + 1 else 0
      let s := modTime s (fun t => { t with lockRun := run })
      let s := if setWaits s then s else correct s m false
      if 16 ≤ run then enterClock s 2 else refreshClock s

/-- A gap in the source's messages, frames or edges: every run of consecutive ones starts again (R37). -/
def sourceGap (s : State) : State := modTime s (fun t => { t with qual := 0, lockRun := 0, overRun := 0 })

/-- An Announce gap of the master (R37): the run that qualifies it starts again. -/
def announceGap (s : State) : State := modTime s (fun t => { t with qual := 0 })

/-- Whether operating time has reached an instant later than `since` by a duration. -/
def passed (s : State) (since : Option Instant) (d : Instant) : Bool := match since with | some x => x + d ≤ s.op | none => false

/-- 2 to the power of a signed 4-bit logInterval, in seconds (R54). -/
def logInterval (x : Nat) : Instant := second * 2 ^ ((x + 8) % 16) / 256

/-- Whether the master's next Announce is overdue: none on its port within two Announce intervals (R37; the tolerance is a DESIGN
CHOICE of log entry 37). -/
def announceOverdue (s : State) : Bool :=
  match s.time.best with
  | some (_, q) => match Tab.get none s.time.heard q with
    | some (_, t) => passed s (some t) (2 * logInterval (rf s Reg.timePtpcfg 7 4))
    | none => false
  | none => false

/-- The source has become qualified (R37). -/
def sourceQualified (s : State) : State :=
  match clkState s with
  | 0 => enterClock s 1
  | 3 => enterClock s 4
  | _ => s

/-- The source is lost (R37, R44). -/
def sourceLost (s : State) : State :=
  let s := modTime s (fun t => { t with qual := 0 })
  match clkState s with
  | 1 => enterClock (stopCorrecting s) 0
  | 2 => enterClock s 3
  | 4 => enterClock (stopCorrecting s) 3
  | _ => s

/-! ## Messages -/

/-- Count a PTP message of another domain (R31). -/
def countForeign (s : State) : State := bump s Reg.timeForeign

/-- Run the best master clock algorithm over what the ports hear (R33, R37, R38). A boundary clock follows the best data set
heard where it beats its own, a slave-only clock the best one, a clock with a reference input none. A change to another
grandmaster passes through Holdover from every state that has a source; a clock left without a master has lost its source. -/
def selectMaster (s : State) : State :=
  let new := if !rb s Reg.timeCtrl 0 then none else match clkRole s with
    | 0 => (bestHeard s).filter (fun b => betterMaster b.1 (ownAnnounce s))
    | 1 => bestHeard s
    | _ => none
  let old := s.time.best
  let s := modTime s (fun t => { t with best := new })
  let s := match old, new with
    | some _, none => sourceLost s
    | some (a, _), some (b, _) =>
      if a.gm = b.gm then s
      else
        let s := modTime (sourceGap s) (fun t => { t with syncAt := none })
        let st := clkState s
        if st = 1 ∨ st = 2 ∨ st = 4 then enterClock s 3 else s
    | none, some _ => modTime (sourceGap s) (fun t => { t with syncAt := none })
    | none, none => s
  let s := match new with
    | some (b, _) => setGm s b.gm
    | none => if isGm s then setGm s (clockId s) else s
  refreshClock s

/-- A received Announce of the configured domain (R33, R37, R38): the port keeps the best data set it hears, a new one of the
same sender replacing the old, and the best master algorithm runs. An Announce missed by the master ends the run that
qualifies it. A message of another domain is counted as its frame is received (R31). -/
def doAnnounceReceive (p : Fin 144) (m : Announce) (tm : Instant) (s : State) : State :=
  let s := toInstant s tm
  if !rb s Reg.timeCtrl 0 || m.domain != rf s Reg.timePrio 23 16 then s
  else
    let keep := match Tab.get none s.time.heard p with
      | none => true
      | some (a, _) => a.sender == m.sender || betterMaster m a
    if !keep then s
    else
      let s := if (s.time.best.map (·.2)) = some p ∧ announceOverdue s then announceGap s else s
      selectMaster (modTime s (fun t => { t with heard := Tab.put none t.heard p (some (m, s.op)) }))

/-- A reading of a qualified or qualifying source (R37): the run grows, the `need`-th of it qualifies a source in Free-run or
Holdover, and then each offset is measured. -/
def sourceReading (s : State) (need : Nat) (offset : Int) : State :=
  let s := modTime s (fun t => { t with qual := t.qual + 1 })
  if (clkState s = 0 ∨ clkState s = 3) ∧ s.time.qual < need then s else measureOffset (sourceQualified s) offset

/-- One Sync interval from the master (R37, R40): qualification without a gap of Syncs or Announces, then the measured offset. -/
def doSyncReceive (p : Fin 144) (gm : BitVec 64) (offset : Int) (tm : Instant) (s : State) : State :=
  let s := toInstant s tm
  if !rb s Reg.timeCtrl 0 || (clkRole s != 0 && clkRole s != 1) then s
  else match s.time.best with
    | none => s
    | some (b, q) =>
      if q ≠ p ∨ b.gm ≠ gm then s
      else
        let s := if passed s s.time.syncAt (2 * logInterval (rf s Reg.timePtpcfg 3 0)) then sourceGap s else s
        let s := if announceOverdue s then announceGap s else s
        let s := modTime s (fun t => { t with syncAt := some s.op })
        sourceReading s (rf s Reg.timePtpcfg 23 16) offset

/-- A peer-delay exchange of a port (R30). -/
def doPdelayReceive (p : Fin 144) (delay : Nat) (tm : Instant) (s : State) : State :=
  modTime (toInstant s tm) (fun t => { t with linkDelay := Tab.put 0 t.linkDelay p delay })

/-- No Announce on a port within the timeout of TIME_PTPCFG (R37, R44): the port forgets what it heard, and the best master
algorithm runs. -/
def doAnnounceTimeout (p : Fin 144) (tm : Instant) (s : State) : State :=
  let s := toInstant s tm
  match Tab.get none s.time.heard p with
  | none => s
  | some (_, t) =>
    if passed s (some t) (rf s Reg.timePtpcfg 11 8 * logInterval (rf s Reg.timePtpcfg 7 4)) then
      selectMaster (modTime s (fun t => { t with heard := Tab.put none t.heard p none }))
    else s

/-- A reference input absent for 2 s (R37, R57): its present bit clears; in the role that uses it the source is lost. -/
def doReferenceLost (irig : Bool) (tm : Instant) (s : State) : State :=
  let s := toInstant s tm
  let last := if irig then s.time.irigAt else s.time.edgeAt
  if last.isSome && !passed s last (2 * second) then s
  else
    let s := if irig then wb (wb s Reg.timeRefstat 1 false) Reg.timeRefstat 2 false else wb s Reg.timeRefstat 0 false
    if clkRole s = (if irig then 2 else 3) then sourceLost (raise s Reg.timeIrq 4) else s

/-! ## Reference inputs and the edge ring (R47, R48, R50) -/

/-- Enter an edge in the 64-entry ring (R50). -/
def pushEdge (s : State) (e : TimeEdge) : State :=
  if 64 ≤ s.time.ring.length then raise (wb s Reg.timeEdgeInfo 31 true) Reg.timeIrq 3
  else
    let wasEmpty := s.time.ring.isEmpty
    let s := modTime s (fun t => { t with ring := t.ring ++ [e] })
    if wasEmpty then raise s Reg.timeIrq 5 else s

/-- The offset of the module's time behind a reference second, in quarter ns: nearest whole second of the edge's stamp. -/
def refOffset (stamp : Instant) : Int :=
  let r := stamp % second
  if 2 * r ≤ second then -((r / 36 : Nat) : Int) else (((second - r) / 36 : Nat) : Int)

/-- A 1PPS input edge (R47): the edge that TIME_REFIN.pps_pol selects is stamped and entered in the ring, and in role 3, after
a TIME_SET, it is measured. -/
def doPpsInEdge (rising : Bool) (tm : Instant) (s : State) : State :=
  let s := toInstant s tm
  if !rb s Reg.timeRefin 0 || rising == rb s Reg.timeRefin 1 then s
  else
    let stamp := s.now - nsec * rf s Reg.timeRefdly 15 0
    let s := pushEdge (wb s Reg.timeRefstat 0 true) ⟨stamp, false⟩
    let gap := passed s s.time.edgeAt (2 * second)
    let s := modTime s (fun t => { t with edgeAt := some s.op })
    if clkRole s ≠ 3 || !rb s Reg.timeCtrl 0 || !s.time.timeSet then s
    else sourceReading (if gap then sourceGap s else s) 4 (refOffset stamp)

/-- The UTC offset in force: of the IRIG-B extension in role 2, else TIME_UTCOFS, with leap59 and leap61 (R47, R51). -/
def utcOffset (s : State) : Int × Bool × Bool :=
  let o : Int := (BitVec.ofNat 16 (rf s Reg.timeUtcofs 15 0)).toInt
  match s.time.irigUtc with
  | some (x, w) => if clkRole s = 2 then (x, w == some false, w == some true) else (o, rb s Reg.timeUtcofs 16, rb s Reg.timeUtcofs 17)
  | none => (o, rb s Reg.timeUtcofs 16, rb s Reg.timeUtcofs 17)

/-- An IRIG-B frame (R47, R48): the on-time marker is stamped; in role 2 it qualifies or measures the source. DESIGN CHOICE (log
entry 37): a frame that does not qualify ends the run and is not measured; it is not by itself a loss of the source. -/
def doIrigBFrame (m : IrigFrame) (tm : Instant) (s : State) : State :=
  let s := toInstant s tm
  if !rb s Reg.timeRefin 2 then s
  else
    let stamp := s.now - nsec * rf s Reg.timeRefdly 31 16
    let s := pushEdge (wf (wb s Reg.timeRefstat 1 true) Reg.timeRefstat 7 4 m.quality.toNat) ⟨stamp, true⟩
    let gap := passed s s.time.irigAt (2 * second)
    let s := modTime s (fun t => { t with irigAt := some s.op, irigUtc := if m.ok then m.ext.map (fun x => (x, m.leap)) else t.irigUtc })
    if clkRole s ≠ 2 || !rb s Reg.timeCtrl 0 then s
    else if !m.ok || 4 < m.quality.toNat then
      -- a time-quality code above 1 µs (IEEE C37.118.1 code 5 and up), or an undecodable frame: not qualified
      sourceGap (wb s Reg.timeRefstat 2 false)
    else
      let src : Int := ((m.utcSec : Int) + (utcOffset s).1) * (second : Int)
      let s := sourceReading (if gap then sourceGap s else s) 4 ((src - (stamp : Int)).tdiv 36)
      wb s Reg.timeRefstat 2 (decide (4 ≤ s.time.qual))

/-- The slew has reached zero offset (R40). -/
def doSlewDone (tm : Instant) (s : State) : State :=
  refreshClock (modTime (toInstant s tm) (fun t => { t with slewAdj := 0 }))

/-- Holdover has lasted TIME_HOLDCFG.minutes (R39, R41). -/
def doHoldoverSpecExpiry (tm : Instant) (s : State) : State :=
  let s := toInstant s tm
  if clkState s = 3 && passed s (some s.time.holdSince) (rf s Reg.timeHoldcfg 7 0 * (60 * second)) then
    refreshClock (modTime s (fun t => { t with holdOk := false }))
  else s

/-- TIME_HOLDSTAT (R51): seconds in the current Holdover and hours Locked, both saturating. DESIGN CHOICE (log entry 37): outside
Locked the hours are those of the last spell in Locked. -/
def holdStat (s : State) : Word :=
  let sec := if clkState s = 3 then (s.op - s.time.holdSince) / second else 0
  let locked := if clkState s = 2 then s.op - s.time.lockedSince else s.time.lockedFor
  W (min 0xFFFF sec + 2 ^ 16 * min 0xFFFF (locked / (3600 * second)))

/-! ## 1PPS out (R49) -/

/-- The next top of a second of the module's clock, the present instant if it is one. -/
def nextSecond (s : State) : Instant := (s.now + (second - 1)) / second * second

/-- At the top of the second the output asserts, in every clock state, until a power-fail warning. -/
def doPpsOut (s : State) : State :=
  if rb s Reg.timePpsout 0 && !warned s then
    let s := toInstant s (nextSecond s)
    modTime s (fun t => { t with pps := true, ppsAt := s.op })
  else s

/-- TIME_PPSOUT.width ms later it ends. -/
def doPpsOutEnd (s : State) : State :=
  if s.time.pps then
    modTime (toInstant s (s.now + (s.time.ppsAt + rf s Reg.timePpsout 9 1 * msec - s.op))) (fun t => { t with pps := false })
  else s

/-! ## Registers with a row of their own -/

/-- TIME_CTRL (R53): a reserved role or profile leaves that field; en := 0 sends the clock to Free-run (R37) and ends what
the ports heard. DESIGN CHOICE (log entry 37): a change of role loses the source of the old role. -/
def doTimeCtrlWrite (v : Word) (s : State) : State :=
  let old := rd s Reg.timeCtrl
  let role := if 4 ≤ fld v 3 1 then fld old 3 1 else fld v 3 1
  let prof := if fld v 5 4 = 3 then fld old 5 4 else fld v 5 4
  let new := putBit (setFld (setFld (putBit 0 0 (bitOf v 0)) 3 1 role) 5 4 prof) 6 (bitOf v 6)
  let s := wrp s Reg.timeCtrl new
  if !bitOf new 0 then
    refreshClock (enterClock (wb (modTime (stopCorrecting s) (fun t => { t with qual := 0, best := none, heard := [] })) Reg.timeRefstat 2 false) 0)
  else if role ≠ fld old 3 1 then selectMaster (sourceLost (wb (modTime s (fun t => { t with best := none })) Reg.timeRefstat 2 false))
  else selectMaster s

/-- TIME_PRIO (R33, R51): the module's own data set and its domain change. -/
def doTimePrioWrite (v : Word) (s : State) : State :=
  let s' := wrp s Reg.timePrio (v &&& 0xFFFFFF)
  if rf s Reg.timePrio 23 16 = fld v 23 16 then selectMaster s'
  else selectMaster (modTime s' (fun t => { t with heard := [] }))

/-- TIME_PTPCFG (R54): range-checked whole. -/
def doTimePtpcfgWrite (v : Word) (s : State) : State :=
  let sg (n w : Nat) : Int := (BitVec.ofNat w n).toInt
  let okR := -4 ≤ sg (fld v 3 0) 4 && sg (fld v 3 0) 4 ≤ 1 && -3 ≤ sg (fld v 7 4) 4 && sg (fld v 7 4) 4 ≤ 4
    && 2 ≤ fld v 11 8 && -4 ≤ sg (fld v 15 12) 4 && sg (fld v 15 12) 4 ≤ 5 && 4 ≤ fld v 23 16 && fld v 23 16 ≤ 64
  if okR then wrp s Reg.timePtpcfg (v &&& 0xFFFFFF) else raise s Reg.timeIrq 6

/-- TIME_TICKCFG (R46, R55): accepted only with every tenant Empty or Stopped and playback off; it waits for the top of
second. A read keeps returning the rate in force. -/
def doTimeTickcfgWrite (v : Word) (s : State) : State :=
  if allIdle s && rf s Reg.loomPbStatus 1 0 == 0 then
    let r := fld v 1 0
    let s := persist (wb s Reg.timeTickcfg 9 false) Reg.timeTickcfg
    wb (modTime s (fun t => { t with ratePend := some r })) Reg.timeTickcfg 8 true
  else wb s Reg.timeTickcfg 9 true

/-- TIME_LATCH (R52): writing 1 captures time and tick number. -/
def doTimeLatch (v : Word) (tm : Instant) (s : State) : State :=
  let s := toInstant s tm
  if v = 1 then
    let sec := secOf s.now
    let s := wr (wr (wr s Reg.timeSecHi (W (sec / 2 ^ 32 % 2 ^ 16))) Reg.timeSecLo (W sec)) Reg.timeNs (nsWord s.now)
    wr (wr s Reg.timeTickHi (W (s.time.tick / 2 ^ 32 % 2 ^ 16))) Reg.timeTickLo (W s.time.tick)
  else s

/-- TIME_SET_GO (R44, R51): the seconds to set apply at the next top of second, as a step or a slew under R40; accepted only
in Free-run or in role 3. -/
def doTimeSetGo (v : Word) (tm : Instant) (s : State) : State :=
  let s := toInstant s tm
  if v ≠ 1 then s
  else if clkState s = 0 ∨ clkRole s = 3 then
    let target : Nat := (rf s Reg.timeSetSecHi 15 0 * 2 ^ 32 + (rd s Reg.timeSetSecLo).toNat) * second
    let top := (secOf s.now + 1) * second
    let s := wb (wb s Reg.timeState 7 false) Reg.timeState 6 true
    refreshClock (correct (modTime s (fun t => { t with timeSet := true, qual := if clkRole s = 3 then 0 else t.qual })) (((target : Int) - (top : Int)).tdiv 36) true)
  else wb s Reg.timeState 7 true

/-- TIME_EDGE_POP (R50, R51): writing 1 moves the oldest edge to the edge registers. -/
def doTimeEdgePop (v : Word) (s : State) : State :=
  if v ≠ 1 then s
  else match s.time.ring with
    | [] => wb (wf s Reg.timeEdgeInfo 22 17 0) Reg.timeEdgeInfo 30 false
    | e :: r =>
      let s := modTime s (fun t => { t with ring := r })
      let sec := secOf e.stamp
      let s := wr (wr s Reg.timeEdgeSec (W sec)) Reg.timeEdgeNs (nsWord e.stamp)
      let info := setFld (setFld (setFld (putBit (rd s Reg.timeEdgeInfo) 30 true) 15 0 (sec / 2 ^ 32)) 16 16 (b2n e.irig)) 22 17 r.length
      wr s Reg.timeEdgeInfo info

/-! ## Meanings -/

def execAnnounceReceive (p : Fin 144) (m : Announce) (tm : Instant) (s : State) := ok (doAnnounceReceive p m tm s)
def execSyncReceive (p : Fin 144) (gm : BitVec 64) (offset : Int) (tm : Instant) (s : State) := ok (doSyncReceive p gm offset tm s)
def execPdelayReceive (p : Fin 144) (delay : Nat) (tm : Instant) (s : State) := ok (doPdelayReceive p delay tm s)
def execAnnounceTimeout (e : PortTime) (s : State) := ok (doAnnounceTimeout e.port e.tm s)
def execReferenceLost (e : RefTime) (s : State) := ok (doReferenceLost e.irig e.tm s)
def execPpsInEdge (e : PpsEdge) (s : State) := ok (doPpsInEdge e.rising e.tm s)
def execIrigBFrame (m : IrigFrame) (tm : Instant) (s : State) := ok (doIrigBFrame m tm s)
def execSlewDone (tm : Instant) (s : State) := ok (doSlewDone tm s)
def execHoldoverSpecExpiry (tm : Instant) (s : State) := ok (doHoldoverSpecExpiry tm s)
def execPpsOut (s : State) := ok (doPpsOut s)
def execPpsOutEnd (s : State) := ok (doPpsOutEnd s)
def execTimeCtrlWrite (v : Word) (s : State) := ok (live s (doTimeCtrlWrite v))
def execTimePtpcfgWrite (v : Word) (s : State) := ok (live s (doTimePtpcfgWrite v))
def execTimeTickcfgWrite (v : Word) (s : State) := ok (live s (doTimeTickcfgWrite v))
def execTimeLatch (v : Word) (tm : Instant) (s : State) := ok (live s (doTimeLatch v tm))
def execTimeSetGo (v : Word) (tm : Instant) (s : State) := ok (live s (doTimeSetGo v tm))
def execTimeEdgePop (v : Word) (s : State) := ok (live s (doTimeEdgePop v))

/-- The path-delay calibration of a port completes (R35): its timestamps are accurate to ±4 ns from then on. -/
def execTimestampCalibration (p : Fin 144) (s : State) :=
  ok (modTime s (fun t => { t with calibrated := if t.calibrated.contains p.val then t.calibrated else p.val :: t.calibrated }))

/-- The ageing model learned in Locked is persisted every 24 h of operating time (R311). -/
def doOcxoAgeingUpdate (model : Word) (s : State) : State :=
  if clkState s ≠ 2 ∨ s.op < s.rec'.ageAt + 24 * 3600 * second then s
  else persistWord { s with rec' := { s.rec' with panAgeing := model, ageAt := s.op } } 4098

def execOcxoAgeingUpdate (model : Word) (s : State) := ok (doOcxoAgeingUpdate model s)

end Sys2Proof.Machine
end

