-- ==== Sys2Proof/Machine/KeyStore.lean ====
section
/-!
DEFINITION. The Key Store (chapter 13): slots, commands, bindings, provisioning, tamper and zeroisation. A command takes its
effect when it is written and posts its status when it completes (KS_COMMAND_DONE).
-/
namespace Sys2Proof.Machine

/-! ## Slots (R288 to R291) -/

def ksSlot (s : State) (i : Nat) : KeySlot := Tab.get .reset s.ks.slot i
def modKs (s : State) (f : KeyStore → KeyStore) : State := { s with ks := f s.ks }
def setKsSlot (s : State) (i : Nat) (x : KeySlot) : State := modKs s (fun k => { k with slot := Tab.put .reset k.slot i x })

/-- Type and use combinations the table of R289 accepts. -/
def typeUseOk (typ use : Nat) : Bool :=
  match typ with
  | 1 | 2 => use ≤ 2
  | 3 => use ≤ 1
  | 4 => use == 3
  | 5 | 7 => use == 0 || use == 3
  | 6 | 8 => use == 1
  | _ => false

/-- Octets of a value of a type: a public point is held as X ‖ Y. -/
def keyLen (typ : Nat) : Nat :=
  match typ with | 1 => 16 | 2 | 3 | 4 | 5 => 32 | 7 => 48 | 6 => 64 | 8 => 96 | _ => 0

def isEc (typ : Nat) : Bool := 5 ≤ typ && typ ≤ 8

/-- The public point of an elliptic-curve value. -/
def pointOf (k : KeyVal) : List Byte := if k.typ = 5 ∨ k.typ = 7 then Config.ecPublic k.val else k.val

/-- The 24-bit check value of a slot value (R291). -/
def checkOf (k : KeyVal) : Nat :=
  beNat ((if k.typ ≤ 2 then Config.aesZero k.val
    else if k.typ ≤ 4 then Config.hmacSha256 k.val []
    else Config.sha256 (0x04 :: pointOf k)).take 3) % 2 ^ 24

/-- Slots holding an elliptic-curve key, active and shadow values both counted (R288), leaving out one slot's shadow. -/
def ecCount (s : State) (skip : Nat) : Nat :=
  s.ks.slot.foldl (fun n e =>
    n + b2n (match e.2.active with | some k => isEc k.typ | none => false)
      + b2n (match e.2.shadow with | some k => isEc k.typ && e.1 != skip | none => false)) 0

/-- KS_SLOTS. -/
def showSlots (s : State) : State :=
  wr s Reg.ksSlots (W (s.ks.slot.length % 1024 + (ecCount s 1024 % 128) * 2 ^ 16))

/-- Whether a slot's value is the parent of another slot's value. -/
def hasChildren (s : State) (i : Nat) : Bool :=
  s.ks.slot.any (fun e => (match e.2.active with | some k => k.parent == some i | none => false) ||
    (match e.2.shadow with | some k => k.parent == some i | none => false))

/-- A frame goes out with a zero tag or is discarded for lack of a key (R305, R307). -/
def noKey (s : State) : State := raise (bump s Reg.ksNokey) Reg.ksIrq 3

/-! ## Bindings (R296 to R298) -/

def bindKey (kind obj : Nat) : Nat := kind * 65536 + obj
def binding (s : State) (kind obj : Nat) : KeyBinding := Tab.get .none s.ks.bind (bindKey kind obj)
def KeyBinding.slotA (b : KeyBinding) : Nat := fld b.slots 9 0
def KeyBinding.slotB (b : KeyBinding) : Nat := fld b.slots 19 10
def KeyBinding.activeB (b : KeyBinding) : Bool := bitOf b.slots 20
def KeyBinding.valid (b : KeyBinding) : Bool := bitOf b.slots 21

/-- Whether a slot appears in a valid binding (R294). -/
def bound (s : State) (i : Nat) : Bool :=
  s.ks.bind.any (fun e => e.2.valid && i != 0 && (e.2.slotA == i || e.2.slotB == i))

/-- The owner byte of an ownership table word: four objects to a word (R261, R301). -/
def ownByte (s : State) (reg : Nat → Nat) (i : Nat) : Nat := rf s (reg (i / 4)) (8 * (i % 4) + 5) (8 * (i % 4))

/-- Owner of the object of a binding. -/
def bindOwner (s : State) (kind obj : Nat) : Nat :=
  match kind with
  | 0 => ownByte s Reg.hifOwnGpub obj
  | 1 => ownByte s Reg.hifOwnSpub obj
  | 2 => Tab.get 0 s.hif.subOwner obj
  | 3 => rf s (Reg.loomWCfg obj) 21 16
  | _ => 0

/-- Objects of a kind (R296, R297 reason 5). -/
def bindRange (kind : Nat) : Nat :=
  match kind with | 0 => 1024 | 1 => 128 | 2 => 2048 | 3 => 512 | 4 => 2298 | _ => 0

/-- Use a binding of a kind and object needs: encrypt-only 0, decrypt-only 1. -/
def bindUse (kind obj : Nat) : Nat :=
  match kind with | 0 | 1 => 0 | 2 | 3 => 1 | _ => if obj % 16 < 2 then 0 else 1

/-- Whether KS_STATUS.keyless is set. -/
def keyless (s : State) : Bool := rb s Reg.ksStatus 1

/-- Why a binding write is refused (R297); 0 when it is not. -/
def bindReason (s : State) (kind obj : Nat) (b : KeyBinding) : Nat :=
  let named := [b.slotA, b.slotB].filter (· != 0)
  let must := if kind ≤ 1 then (if b.activeB then b.slotB else b.slotA) else if kind = 4 then b.slotA else max b.slotA b.slotB
  let okUse (i : Nat) : Bool := match (ksSlot s i).active with
    | some k => k.use == bindUse kind obj && (kind == 4 || k.typ ≤ 2)
    | none => false
  let xpn := rf s (Reg.swcPMacsec (obj / 16)) 2 2 == 1
  if bindRange kind ≤ obj ∨ (kind = 4 ∧ 10 ≤ obj % 16) then 5
  else if keyless s then 6
  else if named.any (fun i => !okUse i) ∨ (b.valid ∧ must = 0) then 1
  else if kind = 4 ∧ (named.any (fun i => match (ksSlot s i).active with | some k => 2 < k.typ | none => true)
      ∨ b.slotB ≠ 0 ∨ b.kidB ≠ 0 ∨ (b.kidA ≠ 0 ∧ !xpn)) then 2
  else if named.any (fun i => ownByte s Reg.ksOwn i != 0 && ownByte s Reg.ksOwn i != bindOwner s kind obj) then 3
  else if b.slotA ≠ 0 ∧ b.slotB ≠ 0 ∧ b.kidA = b.kidB then 4
  else 0

/-- KS_DATA as octets. -/
def ksBytes (s : State) (n : Nat) : List Byte :=
  (((List.range 128).map (fun i => toLe 4 (rd s (Reg.ksData i)).toNat)).flatten).take n

/-- Write octets to KS_DATA from octet 0. -/
def ksPut (s : State) (bs : List Byte) : State :=
  let full := bs ++ (ksBytes s 512).drop bs.length
  (List.range 128).foldl (fun s i => wr s (Reg.ksData i) (W (leNat ((full.drop (4 * i)).take 4)))) s

/-- Note a change of the configuration record's content (R264): it is written within 100 ms. -/
def cfgDirty (s : State) : State := wb s Reg.hifStatus 16 true

/-- The binding registers' kind and object. -/
def bIdx (s : State) : Nat × Nat := (rf s Reg.ksBIdx 2 0, rf s Reg.ksBIdx 15 4)

def doBindingRead (s : State) : State :=
  let (k, o) := bIdx s
  let b := binding s k o
  wr (wr (wr s Reg.ksBSlots b.slots) Reg.ksBKida b.kidA) Reg.ksBKidb b.kidB

def doBindingWrite (s : State) : State :=
  let (k, o) := bIdx s
  let b : KeyBinding := ⟨rd s Reg.ksBSlots &&& 0x3FFFFF, rd s Reg.ksBKida, rd s Reg.ksBKidb, if k = 4 then ksBytes s 12 else []⟩
  match bindReason s k o b with
  | 0 => cfgDirty (wf (modKs s (fun ks => { ks with
      bind := Tab.put .none ks.bind (bindKey k o) b, lastBind := some (s.op, bindKey k o, binding s k o) })) Reg.ksBStat 5 1 0)
  | r => raise (wf s Reg.ksBStat 5 1 (1 + 2 * r)) Reg.ksIrq 2

def doBindingClear (s : State) : State :=
  let (k, o) := bIdx s
  cfgDirty (modKs s (fun ks => { ks with bind := Tab.put .none ks.bind (bindKey k o) .none }))

/-- The value a publishing binding tags with (R298): its key identifier and key, or none when the slot is empty. -/
def pubKey (s : State) (kind obj : Nat) : Option (Word × Option (List Byte)) :=
  let b := binding s kind obj
  if b.valid then
    let i := if b.activeB then b.slotB else b.slotA
    some (if b.activeB then b.kidB else b.kidA, (ksSlot s i).active.map (·.val))
  else none

/-- Whether a received frame's tag verifies under a subscribing binding (R298, R305): the slot whose key identifier equals
the frame's decides, and another MAC algorithm than AES-GMAC fails. -/
def tagOk (s : State) (kind obj : Nat) (t : Option SecTag) : Bool :=
  let b := binding s kind obj
  if !b.valid then true
  else if keyless s then false
  else match t with
    | none => false
    | some t => t.correct && t.alg == .gmac && ((b.slotA != 0 && b.kidA == t.keyId && (ksSlot s b.slotA).active.isSome) ||
        (b.slotB != 0 && b.kidB == t.keyId && (ksSlot s b.slotB).active.isSome))

/-! ## Slot owners (R301) -/

/-- Whether an owner may give up or take an object: Empty or Stopped (R261). Owner 0 is the manager. -/
def ownerFree (s : State) (t : Nat) (fencedToo : Bool := false) : Bool :=
  t == 0 || (match tState s (Fin.ofNat 64 t) with | 0 | 1 => true | 6 => fencedToo | _ => false)

/-- The four owner bytes of an ownership word: whether the change of a byte is allowed. -/
def ownWordOk (s : State) (old v : Word) (fencedToo : Bool) : Bool :=
  (List.range 4).all (fun j =>
    let a := fld old (8 * j + 5) (8 * j); let b := fld v (8 * j + 5) (8 * j)
    a == b || (ownerFree s a fencedToo && ownerFree s b fencedToo))

/-- KS_OWN (R301): the rule of R261, and no slot may change while it appears in a valid binding whose object has a
different owner. An accepted change takes effect at the next swap. -/
def doKsOwnWrite (i : Fin 256) (v : Word) (s : State) : State :=
  let v := v &&& (if i.val = 0 then 0x3F3F3F00 else 0x3F3F3F3F)
  let old := rd s (Reg.ksOwn i)
  let clash := (List.range 4).any (fun j =>
    let slot := 4 * i.val + j; let new := fld v (8 * j + 5) (8 * j)
    fld old (8 * j + 5) (8 * j) != new && s.ks.bind.any (fun e =>
      e.2.valid && slot != 0 && (e.2.slotA == slot || e.2.slotB == slot) && bindOwner s (e.1 / 65536) (e.1 % 65536) != new))
  if !ownWordOk s old v false || clash then raise s Reg.hifIrq 6
  else cfgDirty { s with cmt := { s.cmt with waiting := s.cmt.waiting ++ [(Reg.ksOwn i, v)] } }

/-! ## Derivation (R293) -/

/-- The SP 800-108 counter-mode KDF of R293 with 32-octet blocks, `L` bits. -/
def kdf (kin label : List Byte) (L : Nat) : List Byte :=
  let n := (L + 255) / 256
  (((List.range n).map (fun i => Config.hmacSha256 kin (toBe 4 (i + 1) ++ label ++ [0] ++ toBe 4 L))).flatten).take (L / 8)

/-- The storage key of the key record (R295): derived from the root with the label "KS store". -/
def storeKey (root : List Byte) : List Byte := kdf root [0x4B, 0x53, 0x20, 0x73, 0x74, 0x6F, 0x72, 0x65] 256

/-- Key derivation input of a parent value: the shared x-coordinate for an ECDH parent. -/
def kdfIn (p : KeyVal) (peer : List Byte) : List Byte := if p.typ = 4 then p.val else Config.ecdh p.val peer

/-- A derived value computed from its parent. -/
def deriveFrom (p k : KeyVal) : KeyVal :=
  { k with val := kdf (kdfIn p k.peer) k.label (8 * keyLen k.typ), depth := p.depth + 1 }

/-- Recompute every derived value from its parent's active value; a shadow whose value this changes is no longer verified. -/
def rederiveOnce (s : State) : State :=
  let fix (o : Option KeyVal) : Option KeyVal := o.map (fun k =>
    match k.parent with
    | some p => match (ksSlot s p).active with | some pv => deriveFrom pv k | none => k
    | none => k)
  modKs s (fun ks => { ks with slot := ks.slot.map (fun e => (e.1, { e.2 with
    active := fix e.2.active, shadow := fix e.2.shadow, verified := e.2.verified && fix e.2.shadow == e.2.shadow })) })

/-- The slots whose value, active or shadow, one of the slots of a list is the parent of. -/
def childrenOf (s : State) (l : List Nat) : List Nat :=
  (s.ks.slot.filter (fun e =>
    (match e.2.active with | some k => (match k.parent with | some p => l.contains p | none => false) | none => false) ||
    (match e.2.shadow with | some k => (match k.parent with | some p => l.contains p | none => false) | none => false))).map (·.1)

/-- The levels of a slot's tree below it, the slot itself first; at most `n` of them. -/
def levels (s : State) : Nat → List Nat → List (List Nat)
  | 0, _ => []
  | n + 1, l => if l.isEmpty then [] else l :: levels s n (childrenOf s l)

/-- A DERIVE of `slot` from `parent` would make a ninth level: the parent's depth and the levels from the slot down exceed 8, or the
parent stands below the slot (log entry 42). -/
def tooDeep (s : State) (slot parent depth : Nat) : Bool :=
  let ls := levels s 9 [slot]
  decide (8 < depth + ls.length) || ls.any (fun l => l.contains parent)

/-- A tree is at most 8 levels deep: eight rounds settle every descendant. -/
def rederive (s : State) : State := Nat.rec s (fun _ s => rederiveOnce s) 8

/-- Fresh octets of the true random number generator. -/
def trng (s : State) (n : Nat) : List Byte × State :=
  ((List.range n).map (fun i => Config.trngByte (s.freeCtr + i)), { s with freeCtr := s.freeCtr + n })

/-! ## Commands (R300) -/

/-- What a command's work answers. -/
structure KsAns where
  status : Nat
  check : Option Nat
  out : Option (List Byte)
  st : State
  prov : Bool := false

def ksNo (s : State) (n : Nat) : KsAns := ⟨n, none, none, s, false⟩
def ksYes (s : State) : KsAns := ⟨0, none, none, s, false⟩

/-- Run a command (R300): busy and keyless first, then its work; the answer is posted at completion. -/
def ksRun (s : State) (needsKey : Bool) (work : State → KsAns) : State :=
  if rb s Reg.ksStatus 0 then wf s Reg.ksRes 3 0 1
  else
    let a := if needsKey && keyless s then ksNo s 7 else work s
    let s' := modKs a.st (fun k => { k with run := some ⟨a.status, a.check, a.out, s.ks.owner, rd s Reg.ksOwnerkey, a.prov⟩ })
    showSlots (wb s' Reg.ksStatus 0 true)

/-- Whether a command may write a slot: 0, 1 and 2 are not open to commands (R288). -/
def slotOpen (i : Nat) : Bool := 3 ≤ i

/-- KS_ATTR's type and use. -/
def attr (s : State) : Nat × Nat := (rf s Reg.ksAttr 3 0, rf s Reg.ksAttr 5 4)

/-- Place a value in a slot's shadow (R292, R294): refused for a type or use other than the active value's, for a 65th
elliptic-curve value, and reported with status 4 when KS_CHECK does not match. -/
def placeShadow (s : State) (slot : Nat) (k : KeyVal) : KsAns :=
  let x := ksSlot s slot
  if (match x.active with | some a => a.typ != k.typ || a.use != k.use | none => false) then ksNo s 3
  else if isEc k.typ && 64 ≤ ecCount s slot then ksNo s 6
  else
    let c := checkOf k
    let good := c == rf s Reg.ksCheck 23 0
    ⟨if good || k.gen then 0 else 4, some c, none, setKsSlot s slot { x with shadow := some k, verified := good }, false⟩

def doKsGen (slot : Fin 1024) (s : State) : State := ksRun s true (fun s =>
  let (typ, use) := attr s
  if !slotOpen slot then ksNo s 2
  else if !typeUseOk typ use || typ == 6 || typ == 8 then ksNo s 3
  else
    let (v, s) := trng s (keyLen typ)
    let a := placeShadow s slot ⟨typ, use, v, rd s Reg.ksKeyid, none, [], [], 0, true⟩
    { a with st := if a.status = 0 then wb a.st Reg.ksStatus 3 true else a.st })

def doKsUnwrap (slot : Fin 1024) (s : State) : State := ksRun s true (fun s =>
  let (typ, use) := attr s
  let aux := rf s Reg.ksArg 9 0
  if !slotOpen slot then ksNo s 2
  else if !typeUseOk typ use || typ == 6 || typ == 8 then ksNo s 3
  else match (ksSlot s aux).active with
    | none => ksNo s 2
    | some w =>
      if w.use ≠ 2 ∨ aux = 0 then ksNo s 3
      else match Config.keyUnwrap w.val (ksBytes s (rf s Reg.ksDlen 9 0)) with
        | none => ksNo s 8
        | some v =>
          if v.length ≠ keyLen typ then ksNo s 8
          else placeShadow s slot ⟨typ, use, v, rd s Reg.ksKeyid, none, [], [], 0, false⟩)

def doKsPubimp (slot : Fin 1024) (s : State) : State := ksRun s true (fun s =>
  let (typ, use) := attr s
  if !slotOpen slot then ksNo s 2
  else if !typeUseOk typ use || (typ != 6 && typ != 8) then ksNo s 3
  else
    let pt := ksBytes s (rf s Reg.ksDlen 9 0)
    if pt.length ≠ keyLen typ ∨ !Config.ecOnCurve pt then ksNo s 8
    else placeShadow s slot ⟨typ, use, pt, rd s Reg.ksKeyid, none, [], [], 0, false⟩)

def doKsDerive (slot : Fin 1024) (s : State) : State := ksRun s true (fun s =>
  let (typ, use) := attr s
  let aux := rf s Reg.ksArg 9 0
  if !slotOpen slot then ksNo s 2
  else if !typeUseOk typ use || 4 < typ then ksNo s 3
  else match (ksSlot s aux).active with
    | none => ksNo s 2
    | some p =>
      if aux = 0 then ksNo s 2
      else if p.use ≠ 3 then ksNo s 3
      else
        let data := ksBytes s (rf s Reg.ksDlen 9 0)
        let np := if p.typ = 4 then 0 else keyLen (p.typ + 1)
        let label := data.take (data.length - np)
        let peer := data.drop (data.length - np)
        if label.length = 0 ∨ 48 < label.length ∨ (p.typ ≠ 4 ∧ !Config.ecOnCurve peer) then ksNo s 8
        else if tooDeep s slot aux p.depth then ksNo s 6
        else placeShadow s slot (deriveFrom p ⟨typ, use, [], rd s Reg.ksKeyid, some aux, label, peer, 0, false⟩))

/-- SWAP (R294): only a verified shadow; a value made by GEN is verified against KS_CHECK as written before this command
(log entry 14). A swap that would make a ninth level is refused too (R293; log entry 42). Descendants take their new values in the same step. -/
def doKsSwap (slot : Fin 1024) (s : State) : State := ksRun s true (fun s =>
  let x := ksSlot s slot
  if !slotOpen slot then ksNo s 2
  else match x.shadow with
    | none => ksNo s 4
    | some k =>
      if !(x.verified || (k.gen && checkOf k == rf s Reg.ksCheck 23 0)) then ksNo s 4
      else if k.parent.any (fun p => tooDeep s slot p ((ksSlot s p).active.elim 0 (·.depth))) then ksNo s 6
      else
        let s := rederive (setKsSlot s slot ⟨some k, none, false⟩)
        ⟨0, some (checkOf k), none, wb s Reg.ksStatus 3 true, false⟩)

def doKsDiscard (slot : Fin 1024) (s : State) : State := ksRun s true (fun s =>
  if !slotOpen slot then ksNo s 2
  else ksYes (setKsSlot s slot { ksSlot s slot with shadow := none, verified := false }))

/-- ERASE (R294): both values go, and the record with its owner (R288; log entry 42). -/
def doKsErase (slot : Fin 1024) (s : State) : State := ksRun s true (fun s =>
  if !slotOpen slot then ksNo s 2
  else if hasChildren s slot || bound s slot then ksNo s 5
  else ksYes (wb (cfgDirty (wf (setKsSlot s slot .reset) (Reg.ksOwn (slot / 4)) (8 * (slot % 4) + 5) (8 * (slot % 4)) 0)) Reg.ksStatus 3 true))

/-- The owner key kept for a slot, if KS_OWNERKEY names it. -/
def ownerOf (s : State) (slot : Nat) : Option OwnerKey := (s.ks.owner.find? (fun e => e.2.slot == slot)).map (·.2)

def doKsReadpub (slot : Fin 1024) (s : State) : State := ksRun s ((ownerOf s slot).isNone) (fun s =>
  match (ksSlot s slot).active, ownerOf s slot with
  | some k, _ => if isEc k.typ then ⟨0, some (checkOf k), some (pointOf k), s, false⟩ else ksNo s 3
  | none, some o => ⟨0, none, some o.point, s, false⟩
  | none, none => ksNo s 2)

/-- A slot's active value for an operation, or the status that refuses it: empty or slot 0, then type and use. -/
def useSlot (s : State) (slot : Nat) (okTyp : Nat → Bool) (use : Nat) : Except Nat KeyVal :=
  if slot = 0 then .error 2
  else match (ksSlot s slot).active with
    | none => .error 2
    | some k => if okTyp k.typ && k.use == use then .ok k else .error 3

def doKsSign (slot : Fin 1024) (s : State) : State := ksRun s true (fun s =>
  match useSlot s slot (fun t => t == 5 || t == 7) 0 with
  | .error n => ksNo s n
  | .ok k =>
    let d := ksBytes s (rf s Reg.ksDlen 9 0)
    if d.length ≠ 32 ∧ d.length ≠ 48 then ksNo s 8
    else ⟨0, none, some ((Config.ecSign k.val d s.freeCtr).take (2 * keyLen k.typ)), { s with freeCtr := s.freeCtr + 1 }, false⟩)

def doKsVerify (slot : Fin 1024) (s : State) : State := ksRun s true (fun s =>
  match useSlot s slot (fun t => t == 6 || t == 8) 1 with
  | .error n => ksNo s n
  | .ok k =>
    let d := ksBytes s (rf s Reg.ksDlen 9 0)
    let n := d.length - keyLen k.typ
    if n ≠ 32 ∧ n ≠ 48 then ksNo s 8
    else ksNo s (if Config.ecVerify k.val (d.take n) (d.drop n) then 0 else 9))

def doKsHmac (slot : Fin 1024) (s : State) : State := ksRun s true (fun s =>
  match useSlot s slot (· == 3) 0 with
  | .error n => ksNo s n
  | .ok k =>
    let n := rf s Reg.ksDlen 9 0
    if 480 < n then ksNo s 8 else ⟨0, none, some ((Config.hmacSha256 k.val (ksBytes s n)).take 32), s, false⟩)

def doKsHmacv (slot : Fin 1024) (s : State) : State := ksRun s true (fun s =>
  match useSlot s slot (· == 3) 1 with
  | .error n => ksNo s n
  | .ok k =>
    let n := rf s Reg.ksDlen 9 0
    let d := ksBytes s n
    if n < 32 ∨ 512 < n then ksNo s 8
    else ksNo s (if (Config.hmacSha256 k.val (d.take (n - 32))).take 32 = d.drop (n - 32) then 0 else 9))

/-- OWNER (R299): the shadow of the named slot, P-384 public and decrypt-only, becomes the owner key of a kind, under the
signature of the current owner key of that kind where one exists. -/
def doKsOwner (slot : Fin 1024) (s : State) : State := ksRun s true (fun s =>
  let kind := rf s Reg.ksArg 10 10
  if !slotOpen slot then ksNo s 2
  else match (ksSlot s slot).shadow with
    | none => ksNo s 2
    | some k =>
      if k.typ ≠ 8 ∨ k.use ≠ 1 then ksNo s 3
      else
        let digest := Config.sha384 (k.val ++ [BitVec.ofNat 8 kind] ++ toLe 4 k.kid.toNat)
        let good := match s.ks.owner.find? (fun e => e.1 == kind) with
          | none => true
          | some e => Config.ecVerify e.2.point digest (ksBytes s (rf s Reg.ksDlen 9 0))
        if !good then ksNo s 9
        else
          let s := setKsSlot s slot ⟨some k, none, false⟩
          let s := modKs s (fun ks => { ks with owner := (kind, ⟨slot, k.kid, k.val⟩) :: ks.owner.filter (fun e => e.1 != kind) })
          ksYes (wb (persistWord (wf s Reg.ksOwnerkey (16 * kind + 9) (16 * kind) slot) (4432 + 32 * kind)) Reg.ksStatus 3 true))

/-! ## Provisioning (R306) -/

def doProvArm (tm : Instant) (s : State) : State :=
  ksRun (toInstant s tm) false (fun s => ksYes (wb (modKs s (fun k => { k with armAt := some s.op })) Reg.ksStatus 4 true))

def disarm (s : State) : State := wb (modKs s (fun k => { k with armAt := none })) Reg.ksStatus 4 false

/-- The steps of provisioning (R306). -/
def provision (s : State) : State :=
  let (root, s) := trng s 32
  let (k1, s) := trng s 48
  let (k2, s) := trng s 48
  let s := modKs s (fun k => { k with root := some root, storageKey := some (storeKey root), record := none, bind := [], slot := [], tamperRec := 0 })
  let s := setKsSlot s 1 ⟨some ⟨7, 0, k1, 0, none, [], [], 0, false⟩, none, false⟩
  let s := setKsSlot s 2 ⟨some ⟨7, 3, k2, 0, none, [], [], 0, false⟩, none, false⟩
  let s := s.ks.owner.foldl (fun s e => setKsSlot s e.2.slot ⟨some ⟨8, 1, e.2.point, e.2.kid, none, [], [], 0, false⟩, none, false⟩) s
  let s := wb (wb (wr (persistWord s 4368) Reg.ksTamper 0) Reg.ksStatus 2 false) Reg.ksStatus 1 false
  let s := wb (cfgDirty s) Reg.ksStatus 3 true
  logRec (showSlots s) Reg.ksIrq 5 2 0xFF []

/-- PROV_CONFIRM: provisioning happens when the command completes; a trip before then aborts it (R304). -/
def doProvConfirm (tm : Instant) (s : State) : State :=
  let s := toInstant s tm
  ksRun s false (fun s =>
    let armed := match s.ks.armAt with | some a => decide (s.op < a + second) | none => false
    if !keyless s || rf s Reg.ksStatus 12 8 != 0 || !armed then ksNo s 12 else { ksYes (disarm s) with prov := true })

/-- An arm lapses 1 s after PROV_ARM. -/
def doProvArmExpiry (tm : Instant) (s : State) : State :=
  let s := toInstant s tm
  match s.ks.armAt with
  | some a => if a + second ≤ s.op then disarm s else s
  | none => s

/-- A command completes (R300): status, check value and output octets are posted. -/
def doKsCommandDone (s : State) : State :=
  match s.ks.run with
  | none => s
  | some r =>
    let s := modKs s (fun k => { k with run := none })
    let s := if r.prov then provision s else s
    let s := wf (wb s Reg.ksStatus 0 false) Reg.ksRes 3 0 r.status
    let s := match r.check with | some c => wf s Reg.ksRes 31 8 c | none => wf s Reg.ksRes 31 8 0
    let s := match r.out with | some bs => wf (ksPut s bs) Reg.ksDlen 9 0 bs.length | none => s
    raise s Reg.ksIrq 0

/-- The key record is written under the storage key (R295): every slot but the derived ones, active values only. -/
def doKeyRecordSaved (s : State) : State :=
  match rb s Reg.ksStatus 3, s.ks.storageKey with
  | true, some key =>
    let keep := s.ks.slot.filterMap (fun e => match e.2.active with
      | some k => some (e.1, (⟨some (if k.parent.isSome then { k with val := [] } else k), none, false⟩ : KeySlot))
      | none => none)
    raise (wb (modKs s (fun k => { k with record := some ⟨key, keep⟩ })) Reg.ksStatus 3 false) Reg.ksIrq 4
  | _, _ => s

/-- The key store unlocks under its root (R306): the record opens under the storage key it was written with. -/
def unlockKeys (s : State) (root : List Byte) : State :=
  let key := storeKey root
  modKs s (fun k => { k with
    storageKey := some key, slot := match k.record with | some r => if r.under = key then r.slots else [] | none => [] })

/-! ## Tamper (R302 to R304) -/

/-- Zeroisation (R303): every slot value, the root, the storage key and KS_DATA are cleared; a command in progress aborts with status 10, and
whatever it changed of the owner region is put back, and so is the binding that a write of this instant replaced (R304). -/
def zeroise (s : State) : State :=
  let s := match s.ks.run with
    | none => s
    | some r =>
      let s := modKs s (fun k => { k with owner := r.undoOwner, run := none })
      let s := wr (wr s Reg.ksOwnerkey r.undoOwnerKey) Reg.ksRes 10
      raise (wr (wb s Reg.ksStatus 0 false) Reg.ksDlen 0) Reg.ksIrq 0
  let s := match s.ks.lastBind with
    | some (t, k, b) => if t = s.op then modKs s (fun ks => { ks with bind := Tab.put .none ks.bind k b, lastBind := none }) else s
    | none => s
  let s := modKs s (fun k => { k with slot := [], root := none, storageKey := none })
  let s := (List.range 128).foldl (fun s i => wr s (Reg.ksData i) 0) s
  showSlots (wb (wb s Reg.ksStatus 1 true) Reg.ksStatus 3 false)

/-- The log record of a trip, written once the log can be (R303): at once while main power is on. -/
def tamperLog (s : State) : State :=
  if s.hc.mainOn && 5 ≤ s.hc.stage then
    logRec (modKs s (fun k => { k with logDue := false })) Reg.ksIrq 5 2 1 [(rd s Reg.ksTamper).toNat]
  else modKs s (fun k => { k with logDue := true })

/-- A trip of a source (R302, R303), with KS_TAMPER's bit that says when, 7 none. Tags of frames in progress fail (R304). -/
def tamper (s : State) (src : Fin 5) (place : Nat) : State :=
  let s := wb (wb (zeroise s) Reg.ksStatus (8 + src) true) Reg.ksTamper src true
  let s := if place < 7 then wb s Reg.ksTamper place true else s
  let s := if src.val = 0 then modKs s (fun k => { k with lidOpen := true }) else s
  let s := { s with sw := { s.sw with checks := s.sw.checks.map (fun c => { c with ok := false }) } }
  let s := modKs s (fun k => { k with tripAt := s.op, tamperRec := k.tamperRec ||| rd s Reg.ksTamper })
  let s := bump (wb s Reg.ksStatus 2 true) Reg.ksZcnt
  tamperLog (raise (persistWord (persistWord s 4352) 4100) Reg.ksIrq 1)

/-- A tamper source trips while the module runs, during start-up or on standby power. The voltage monitor does not act on a supply that
falls after the power-fail warning, while main power is still on. -/
def doTamperTrip (src : Fin 5) (s : State) : State :=
  if src.val = 2 ∧ s.hc.mainOn ∧ !s.hc.mainGood then s
  else tamper s src (if !s.hc.mainOn then 5 else if s.hc.stage < 5 then 6 else 7)

/-- A tripped source returns to normal (R302). -/
def doTamperSourceCleared (src : Fin 5) (s : State) : State :=
  let s := if src.val = 0 then modKs s (fun k => { k with lidOpen := false }) else s
  wb s Reg.ksStatus (8 + src) false

/-! ## Meanings -/

def execKsGen (slot : Fin 1024) (s : State) := ok (live s (doKsGen slot))
def execKsUnwrap (slot : Fin 1024) (s : State) := ok (live s (doKsUnwrap slot))
def execKsPubimp (slot : Fin 1024) (s : State) := ok (live s (doKsPubimp slot))
def execKsDerive (slot : Fin 1024) (s : State) := ok (live s (doKsDerive slot))
def execKsSwap (slot : Fin 1024) (s : State) := ok (live s (doKsSwap slot))
def execKsDiscard (slot : Fin 1024) (s : State) := ok (live s (doKsDiscard slot))
def execKsErase (slot : Fin 1024) (s : State) := ok (live s (doKsErase slot))
def execKsReadpub (slot : Fin 1024) (s : State) := ok (live s (doKsReadpub slot))
def execKsSign (slot : Fin 1024) (s : State) := ok (live s (doKsSign slot))
def execKsVerify (slot : Fin 1024) (s : State) := ok (live s (doKsVerify slot))
def execKsHmac (slot : Fin 1024) (s : State) := ok (live s (doKsHmac slot))
def execKsHmacv (slot : Fin 1024) (s : State) := ok (live s (doKsHmacv slot))
def execKsOwner (slot : Fin 1024) (s : State) := ok (live s (doKsOwner slot))
def execProvArm (tm : Instant) (s : State) := ok (live s (doProvArm tm))
def execProvConfirm (tm : Instant) (s : State) := ok (live s (doProvConfirm tm))
def execProvArmExpiry (tm : Instant) (s : State) := ok (doProvArmExpiry tm s)
def execKsCommandDone (s : State) := ok (doKsCommandDone s)
def execKsBindingRead (s : State) := ok (live s doBindingRead)
def execKsBindingWrite (s : State) := ok (live s doBindingWrite)
def execKsBindingClear (s : State) := ok (live s doBindingClear)
def execKsOwnWrite (i : Fin 256) (v : Word) (s : State) := ok (live s (doKsOwnWrite i v))
def execKeyRecordSaved (s : State) := ok (doKeyRecordSaved s)
def execTamperTrip (src : Fin 5) (s : State) := ok (doTamperTrip src s)
def execTamperSourceCleared (src : Fin 5) (s : State) := ok (doTamperSourceCleared src s)

end Sys2Proof.Machine
end

