-- ==== Sys2Proof/Machine/Fio.lean ====
section
/-!
DEFINITION. The Field I/O Unit (chapter 15): binary inputs with debouncing and chatter blocking, the edge ring, and the breaker
command channels with anti-pump, output faults, supply classes and supervision.
-/
namespace Sys2Proof.Machine

/-! ## Binary inputs (R329 to R332) -/

def getIn (s : State) (i : Fin 32) : FioIn := Tab.get .reset s.fio.inp i
def modIn (s : State) (i : Fin 32) (f : FioIn → FioIn) : State :=
  { s with fio := { s.fio with inp := Tab.put .reset s.fio.inp i (f (getIn s i)) } }

def biOn (s : State) (i : Fin 32) : Bool := rb s Reg.fioCtrl 0 && rb s (Reg.fioBiCfg i) 0

/-- The accepted state of an input; a disabled input reads 0. -/
def biState (s : State) (i : Fin 32) : Bool := biOn s i && (getIn s i).acc

/-- The state a raw level stands for (R329). -/
def biLevel (s : State) (i : Fin 32) (raw : Bool) : Bool := raw != rb s (Reg.fioBiCfg i) 1

/-- Enter an edge (R331): a full ring drops it. -/
def pushBi (s : State) (e : FioEdge) : State :=
  if 1024 ≤ s.fio.edges.length then raise (wb s Reg.fioEdgeInfo 31 true) Reg.fioIrq 1
  else raise { s with fio := { s.fio with edges := s.fio.edges ++ [e] } } Reg.fioIrq 0

/-- A stamp with the 8 ns resolution of R329. -/
def stamp8 (t : Instant) : Instant := t / (8 * nsec) * (8 * nsec)

def edgeOf (s : State) (i : Fin 32) (stamp : Instant) (level blocked : Bool) : FioEdge :=
  ⟨stamp8 stamp, i, level, blocked, rb s Reg.timeState 6⟩

def showChatter (s : State) (i : Fin 32) (b : Bool) : State :=
  logRec (raise (wb (modIn s i (fun x => { x with blocked := b })) Reg.fioBiChatter i b) Reg.fioIrq 2) Reg.fioIrq 1 1 2 [i, b2n b]

/-- An instant in the main-clock cycle of the present one. -/
def thisCycle (s : State) (a : Option Instant) : Bool := a.any (fun t => t / mainCycle == s.op / mainCycle)

/-- Accept a change of state, stamped with the raw transition that began the stable period. -/
def acceptChange (s : State) (i : Fin 32) (level : Bool) : State :=
  let x := getIn s i
  let win := rf s (Reg.fioBiCfg i) 18 11 * 10 * msec
  let again := thisCycle s x.accAt
  let s := modIn s i (fun x => { x with
    acc := level, changed := true, recent := (s.op :: x.recent).filter (fun t => s.op < t + win), accAt := some s.op
    accOld := if again then x.accOld else x.acc, changedOld := if again then x.changedOld else x.changed })
  pushBi s (edgeOf s i x.stamp level false)

/-- The accepted state and the change bit of an input as they stood before the cycle of a tick edge at this instant (R332; a cycle is
a main-clock cycle of the operating time, log entry 43). -/
def biBefore (s : State) (i : Fin 32) : Bool :=
  let x := getIn s i
  biOn s i && (if thisCycle s x.accAt then x.accOld else x.acc)
def changedBefore (s : State) (i : Fin 32) : Bool :=
  let x := getIn s i
  if thisCycle s x.accAt then x.changedOld else x.changed

/-- A blocked raw change enters the ring once its level has lasted 1 µs (R329, R330; log entry 43). -/
def enterRaw (s : State) (i : Fin 32) : State :=
  let x := getIn s i
  if x.rawDue && decide (x.rawAt + usec ≤ s.op) then
    let s := modIn s i (fun y => { y with rawDue := false })
    if biOn s i && x.blocked then pushBi s (edgeOf s i x.stamp x.raw true) else s
  else s

/-- A raw transition (R329, R330): a level that ends within 1 µs leaves no trace. -/
def doBiTransition (i : Fin 32) (level : Bool) (tm : Instant) (s : State) : State :=
  let s := enterRaw (toInstant s tm) i
  let x := getIn s i
  match x.before with
  | some (l, t, st) =>
    if l = level ∧ s.op < x.rawAt + usec then
      modIn s i (fun x => { x with raw := l, rawAt := t, stamp := st, before := none, rawDue := false })
    else rawEdge s x
  | none => rawEdge s x
where
  rawEdge (s : State) (x : FioIn) : State :=
    modIn s i (fun y => { y with
      raw := level, rawAt := s.op, stamp := s.now, before := some (x.raw, x.rawAt, x.stamp), rawDue := biOn s i && x.blocked })

/-- The raw input has held its level for the debounce time, or 1 µs (R329); more than chatter_n changes within the window
block the input (R330). -/
def doDebounceExpiry (i : Fin 32) (tm : Instant) (s : State) : State :=
  let s := enterRaw (toInstant s tm) i
  let x := getIn s i
  let level := biLevel s i x.raw
  if !biOn s i || x.blocked || level == x.acc || s.op < x.rawAt + max (rf s (Reg.fioBiCfg i) 6 2 * msec) usec then s
  else
    let s := acceptChange s i level
    let n := rf s (Reg.fioBiCfg i) 10 7
    if 0 < n ∧ n < (getIn s i).recent.length then showChatter s i true else s

def doChatterRelease (i : Fin 32) (tm : Instant) (s : State) : State :=
  let s := enterRaw (toInstant s tm) i
  let x := getIn s i
  if !x.blocked || s.op < x.rawAt + rf s (Reg.fioBiCfg i) 26 19 * 100 * msec then s
  else
    let s := showChatter (modIn s i (fun x => { x with recent := [] })) i false
    let level := biLevel s i x.raw
    if level == x.acc then s else acceptChange s i level

/-- An input after a write of its configuration or of FIO_CTRL (log entry 43): one that is no longer enabled has no accepted state and
no block; one that becomes enabled starts its stable period. -/
def biSettle (was : Bool) (s : State) (i : Fin 32) : State :=
  if was == biOn s i then s
  else if was then
    let s := if (getIn s i).blocked then showChatter s i false else s
    modIn s i (fun x => { x with acc := false, recent := [], rawDue := false })
  else modIn s i (fun x => { x with rawAt := s.op, stamp := s.now, before := none, rawDue := false })

/-- Do a register write, and let every input follow it. -/
def withInputs (f : State → State) (s : State) : State := each 32 (fun i t => biSettle (biOn s i) t i) (f s)

/-- FIO_EDGE_POP (R331). -/
def doFioEdgePop (s : State) : State :=
  match s.fio.edges with
  | [] => wb s Reg.fioEdgeInfo 30 false
  | e :: es =>
    let s := { s with fio := { s.fio with edges := es } }
    let s := wr (wr s Reg.fioEdgeSec (W (secOf e.stamp))) Reg.fioEdgeSecHi (W (secOf e.stamp / 2 ^ 32 % 2 ^ 16))
    let s := wr s Reg.fioEdgeNs (W (e.stamp % second / nsec))
    let keep := rd s Reg.fioEdgeInfo &&& oneBit 31
    wr s Reg.fioEdgeInfo (keep ||| W (e.input + 32 * b2n e.level + 64 * b2n e.blocked + 128 * b2n e.timeValid +
      256 * es.length + 2 ^ 30))

/-- FIO_BI_GRANT (R332): accepted while the tenant is Empty or Stopped; in force from the next swap. -/
def doFioBiGrantWrite (t : Fin 64) (v : Word) (s : State) : State :=
  if t.val = 0 then s
  else if ownerFree s t then cfgDirty { s with cmt := { s.cmt with waiting := s.cmt.waiting ++ [(Reg.fioBiGrant t, v)] } }
  else raise s Reg.fioIrq 8

/-- FIO_BC_OWN (R333) under the rule of R261. -/
def doBcOwnWrite (i : Fin 4) (v : Word) (s : State) : State :=
  let v := v &&& 0x3F3F3F3F
  if ownWordOk s (rd s (Reg.fioBcOwn i)) v false then
    cfgDirty { s with cmt := { s.cmt with waiting := s.cmt.waiting ++ [(Reg.fioBcOwn i, v)] } }
  else raise s Reg.fioIrq 8

/-! ## Breaker command channels (R333 to R339) -/

def getCh (s : State) (k : Fin 16) : FioCh := Tab.get .reset s.fio.ch k
def modCh (s : State) (k : Fin 16) (f : FioCh → FioCh) : State :=
  { s with fio := { s.fio with ch := Tab.put .reset s.fio.ch k (f (getCh s k)) } }
def getOut (s : State) (k : Fin 16) (o : BcOut) : FioDrive :=
  match o with | .trip => (getCh s k).trip | .close => (getCh s k).close
def modOut (s : State) (k : Fin 16) (o : BcOut) (f : FioDrive → FioDrive) : State :=
  modCh s k (fun c => match o with | .trip => { c with trip := f c.trip } | .close => { c with close := f c.close })

def oIdx (o : BcOut) : Nat := match o with | .trip => 0 | .close => 1
def bcOwner (s : State) (k : Fin 16) : Nat := ownByte s Reg.fioBcOwn k
/-- The committed level of an output (FIO_OUT_CMD). -/
def committed (s : State) (k : Fin 16) (o : BcOut) : Bool := rb s Reg.fioOutCmd (2 * k + oIdx o)
/-- The TRIPBC latch of a channel. -/
def tripLatch (s : State) (k : Fin 16) : Bool := rb s Reg.fioTripbc k
def inhibit (s : State) (k : Fin 16) : Bool := rb s (Reg.fioBcStatus k) 8
/-- The field supply group of a channel is good (R337). -/
def supplyGood (s : State) (k : Fin 16) : Bool := rb s Reg.fioStatus (k / 4)

/-- Outputs of the channel are not held off (R333, R336, FIO_CTRL.en). -/
def bcOn (s : State) (k : Fin 16) : Bool :=
  rb s Reg.fioCtrl 0 && rb s (Reg.fioBcCfg k) 0 && bcOwner s k != 0 && !rb s Reg.fioStatus 16

/-- The owner is in Test, or the levels the outputs follow are those of its Test commits, up to the next swap (R191). -/
def ownerTest (s : State) (k : Fin 16) : Bool :=
  let t : Fin 64 := Fin.ofNat 64 (bcOwner s k)
  tState s t == 4 || (getTen s t).inTest || (getTen s t).heldTest

/-- The TRIP command (R334). -/
def tripCmd (s : State) (k : Fin 16) : Bool := !ownerTest s k && (committed s k .trip || tripLatch s k)

/-- The CLOSE command (R335). -/
def closeCmd (s : State) (k : Fin 16) : Bool :=
  !ownerTest s k && committed s k .close && gateOpen s && !tripCmd s k && !inhibit s k

/-- The command an output follows: a channel that is held off follows none (R333). -/
def outCmd (s : State) (k : Fin 16) (o : BcOut) : Bool := bcOn s k && match o with | .trip => tripCmd s k | .close => closeCmd s k

def OutState.code : OutState → Nat
  | .off => 0 | .on => 1 | .limit => 2 | .retry => 3 | .latched => 4

/-- Put an output in a state, with FIO_BC_STATUS and FIO_OUT_PIN in line. A switch that is off carries no load current; one that turns
on from there carries less than 5 mA until its current is reported. A supervision pulse ends. -/
def setOut (s : State) (k : Fin 16) (o : BcOut) (st : OutState) : State :=
  let low := if st = .on ∧ (getOut s k o).st ≠ .limit then some s.op else none
  let s := modOut s k o (fun x => { x with st := st, pulse := false, since := s.op, lowAt := low })
  let s := wf s (Reg.fioBcStatus k) (4 * oIdx o + 2) (4 * oIdx o) st.code
  let s := if st = .on ∨ st = .limit then s else wf s (Reg.fioBcStatus k) (16 + 8 * oIdx o + 7) (16 + 8 * oIdx o) 0
  wb s Reg.fioOutPin (2 * k + oIdx o) (st == .on || st == .limit)

/-- A completed operation of an output (FIO_BC_OPS), and attempts cleared. -/
def endOp (s : State) (k : Fin 16) (o : BcOut) : State :=
  let n := rf s (Reg.fioBcOps k) (16 * oIdx o + 15) (16 * oIdx o)
  modOut (wf s (Reg.fioBcOps k) (16 * oIdx o + 15) (16 * oIdx o) (n + 1)) k o (fun x => { x with attempts := 0 })

def clearAttempts (s : State) (k : Fin 16) (o : BcOut) : State := modOut s k o (fun x => { x with attempts := 0 })

/-- Whether the minimum TRIP duration has been met (R334). -/
def minMet (s : State) (k : Fin 16) (o : BcOut) : Bool :=
  match o with
  | .close => true
  | .trip => decide ((getOut s k o).onAt + rf s (Reg.fioBcCfg k) 10 3 * msec ≤ s.op)

/-- The output state machine of R336, driven by its command. -/
def outStep (s : State) (k : Fin 16) (o : BcOut) : State :=
  let cmd := outCmd s k o
  let x := getOut s k o
  match x.st with
  | .off =>
    if !cmd then modOut s k o (fun x => { x with refused := false, attempts := 0 })
    else if supplyGood s k then modOut (setOut s k o .on) k o (fun x => { x with onAt := s.op, refused := false })
    else if x.refused then s
    else
      let s := raise (wb (modOut s k o (fun x => { x with refused := true })) (Reg.fioBcFault k) 5 true) Reg.fioIrq 7
      logRec s Reg.fioIrq 3 1 7 [k, oIdx o]
  | .on | .limit => if !cmd && minMet s k o then endOp (setOut s k o .off) k o else s
  | .retry | .latched => if cmd then s else clearAttempts (setOut s k o .off) k o

/-- Anti-pump (R335): TRIP commanded while CLOSE is committed sets the close inhibit. -/
def antiPump (s : State) (k : Fin 16) : State :=
  if tripCmd s k && committed s k .close && !inhibit s k then
    let s := wb (wb s (Reg.fioBcStatus k) 8 true) (Reg.fioBcFault k) 0 true
    logRec (raise s Reg.fioIrq 3) Reg.fioIrq 2 1 3 [k]
  else s

/-- Bring a channel's outputs in line with its commands; CLOSE turns off in the cycle in which TRIP turns on. -/
def evalCh (s : State) (k : Fin 16) : State := outStep (outStep (antiPump s k) k .close) k .trip

def evalAll (s : State) : State := each 16 (fun k s => evalCh s k) s

/-- A TRIPBC request (R16, R178, R334): sets the latch, unless power-fail holds the outputs off (R339). -/
def tripBc (s : State) (k : Fin 16) : State :=
  if rb s Reg.fioStatus 16 then s
  else evalCh (modCh (wb s Reg.fioTripbc k true) k (fun c => { c with latchAt := some s.op })) k

/-- A committed output level at the swap (R334, R335); a TRIPBC of the same cycle keeps its latch (R178, R339). The outputs follow once
every level of the swap is in place. -/
def commitOut (s : State) (k : Fin 16) (o : BcOut) (level : Bool) : State :=
  let s := wb s Reg.fioOutCmd (2 * k + oIdx o) level
  match o with
  | .trip => if thisCycle s (getCh s k).latchAt then s else wb s Reg.fioTripbc k false
  | .close => s

/-- The 10 ms of the close inhibit run from the swap that leaves the CLOSE level at 0 (R335). -/
def timeClose (s : State) (k : Fin 16) : State :=
  modCh s k (fun c => { c with closeZero := if committed s k .close then none else c.closeZero.orElse (fun _ => some s.op) })

/-- A change of owner at a swap (R333). -/
def bcOwnerChanged (s : State) (k : Fin 16) : State :=
  let s := modCh s k (fun c => { c with latchAt := none })
  let s := wb (wb s Reg.fioTripbc k false) (Reg.fioBcStatus k) 8 false
  let s := wr s (Reg.fioBcFault k) 0
  let fix (s : State) (o : BcOut) : State :=
    match (getOut s k o).st with
    | .retry | .latched => clearAttempts (setOut s k o .off) k o
    | _ => s
  evalCh (fix (fix s .trip) .close) k

/-- Every output off: power-fail, module fault and reset (R336, R342). -/
def fioOff (s : State) : State :=
  let s := wr (wb s Reg.fioStatus 16 true) Reg.fioTripbc 0
  each 16 (fun k s => setOut (setOut s k .trip .off) k .close .off) s

def doInhibitTimer (k : Fin 16) (tm : Instant) (s : State) : State :=
  let s := toInstant s tm
  match (getCh s k).closeZero with
  | some t => if t + 10 * msec ≤ s.op then evalCh (wb s (Reg.fioBcStatus k) 8 false) k else s
  | none => s

def doMinTripExpiry (k : Fin 16) (tm : Instant) (s : State) : State := evalCh (toInstant s tm) k

/-- One open or good judgement of an output (R338). -/
def judge (s : State) (k : Fin 16) (o : BcOut) (isOpen : Bool) : State :=
  let x := getOut s k o
  let s := modOut s k o (fun x => { x with opens := if isOpen then min 3 (x.opens + 1) else 0, goods := if isOpen then 0 else min 3 (x.goods + 1) })
  if isOpen && 2 ≤ x.opens && !rb s (Reg.fioBcStatus k) (9 + oIdx o) then
    let s := wb (wb s (Reg.fioBcStatus k) (9 + oIdx o) true) (Reg.fioBcFault k) (3 + oIdx o) true
    logRec (raise s Reg.fioIrq 5) Reg.fioIrq 2 1 5 [k, oIdx o]
  else if !isOpen && 2 ≤ x.goods then wb s (Reg.fioBcStatus k) (9 + oIdx o) false
  else s

/-- The load current of an output (R336, R338): 300 mA limits it; below 5 mA an On output may be open, and a supervised one found at
5 mA or more is judged good (log entry 43). -/
def doCurrentLimit (k : Fin 16) (o : BcOut) (ma : Nat) (tm : Instant) (s : State) : State :=
  let s := toInstant s tm
  let x := getOut s k o
  if x.st ≠ .on ∧ x.st ≠ .limit then s
  else
    let s := if x.st = .on ∧ 300 ≤ ma then setOut s k o .limit else if x.st = .limit ∧ ma < 300 then setOut s k o .on else s
    let s := modOut s k o (fun y => { y with lowAt := if ma < 5 then x.lowAt.orElse (fun _ => some s.op) else none })
    let s := if rb s (Reg.fioBcCfg k) (1 + oIdx o) && x.st == .on && decide (5 ≤ ma) then judge s k o false else s
    wf s (Reg.fioBcStatus k) (16 + 8 * oIdx o + 7) (16 + 8 * oIdx o) (min 255 (ma / 2))

/-- 2 ms in Limit switch the output off (R336); the fourth time it latches off. A command that has fallen then ends in Off. -/
def doLimitTimeout (k : Fin 16) (o : BcOut) (tm : Instant) (s : State) : State :=
  let s := toInstant s tm
  let x := getOut s k o
  if x.st ≠ .limit ∨ s.op < x.since + 2 * msec then s
  else
    let n := x.attempts + 1
    let s := modOut s k o (fun x => { x with attempts := n })
    if n < 4 then outStep (setOut s k o .retry) k o
    else
      let s := raise (wb (setOut s k o .latched) (Reg.fioBcFault k) (1 + oIdx o) true) Reg.fioIrq 4
      outStep (logRec s Reg.fioIrq 3 1 4 [k, oIdx o]) k o

/-- 50 ms in Retry (R336). -/
def doRetryTimeout (k : Fin 16) (o : BcOut) (tm : Instant) (s : State) : State :=
  let s := toInstant s tm
  let x := getOut s k o
  if x.st = .retry ∧ x.since + 50 * msec ≤ s.op ∧ outCmd s k o ∧ x.attempts < 4 then setOut s k o .on else s

/-- FIO_BC_CMD.clr_latch (R336). -/
def doClrLatch (k : Fin 16) (s : State) : State :=
  let fix (s : State) (o : BcOut) : State :=
    if (getOut s k o).st = .latched then clearAttempts (setOut s k o .off) k o else s
  evalCh (fix (fix s .trip) .close) k

def supplyCode (c : SupplyClass) : Nat := match c with | .good => 0 | .reversed => 4 | .absent => 8 | .overLimit => 12

/-- The class of a supply by its polarity and voltage, in quarters of a volt: good from 18 V to 32 V (R337). -/
def supplyClass (reversed : Bool) (quarterVolts : Nat) : SupplyClass :=
  if reversed then .reversed else if quarterVolts < 72 then .absent else if quarterVolts ≤ 128 then .good else .overLimit

/-- A field supply group's class (R337): a class other than good drives no output of the group, and a command that finds it so is
refused (R336). The voltage decides the class of a supply that is not reversed. -/
def doSupplyChange (g : Fin 4) (cls : SupplyClass) (quarterVolts : Nat) (s : State) : State :=
  let cls := supplyClass (cls == .reversed) quarterVolts
  let same := rb s Reg.fioStatus (supplyCode cls + g)
  let s := [0, 4, 8, 12].foldl (fun s b => wb s Reg.fioStatus (b + g) (b == supplyCode cls)) s
  let s := wf s Reg.fioSupply (8 * g + 7) (8 * g) (if cls = .reversed then 0 else min 255 quarterVolts)
  let s := if same then s else logRec (raise s Reg.fioIrq 6) Reg.fioIrq 3 1 6 [g, supplyCode cls / 4]
  let drop (s : State) (k : Fin 16) (o : BcOut) : State := if (getOut s k o).st = .off ∧ !(getOut s k o).pulse then s else setOut s k o .off
  each 16 (fun k s =>
    if k.val / 4 ≠ g.val then s
    else
      let s := wb s (Reg.fioBcStatus k) 11 (cls != .good)
      evalCh (if cls = .good then s else drop (drop s k .trip) k .close) k) s

/-- A supervised Off output sources 2 mA for 1 ms every 100 ms (R338), while the unit may drive its group. -/
def doSupervisionPulse (k : Fin 16) (o : BcOut) (tm : Instant) (s : State) : State :=
  let s := toInstant s tm
  let x := getOut s k o
  let due := match x.pulseAt with | some t => decide (t + 100 * msec ≤ s.op) | none => true
  if rb s (Reg.fioBcCfg k) (1 + oIdx o) && x.st == .off && due && rb s Reg.fioCtrl 0 && supplyGood s k && !rb s Reg.fioStatus 16 then
    modOut s k o (fun x => { x with pulse := true, pulseAt := some s.op })
  else s

/-- The judgement at the end of a pulse: open when the output's voltage exceeds 12 V. -/
def doSupervisionPulseEnd (k : Fin 16) (o : BcOut) (above : Bool) (tm : Instant) (s : State) : State :=
  let s := toInstant s tm
  let x := getOut s k o
  if x.pulse && (match x.pulseAt with | some t => decide (t + msec ≤ s.op) | none => false) then
    judge (modOut s k o (fun x => { x with pulse := false })) k o above
  else s

/-- The load current of an On output has stayed below 5 mA for 10 ms (R338); the next 10 ms start. -/
def doLowCurrentTimeout (k : Fin 16) (tm : Instant) (o : BcOut) (s : State) : State :=
  let s := toInstant s tm
  let x := getOut s k o
  let low := match x.lowAt with | some t => decide (t + 10 * msec ≤ s.op) | none => false
  if rb s (Reg.fioBcCfg k) (1 + oIdx o) && x.st == .on && low then
    judge (modOut s k o (fun x => { x with lowAt := some s.op })) k o true
  else s

/-! ## Meanings -/

def execBiTransition (i : Fin 32) (level : Bool) (tm : Instant) (s : State) := ok (doBiTransition i level tm s)
def execDebounceExpiry (i : Fin 32) (tm : Instant) (s : State) := ok (doDebounceExpiry i tm s)
def execChatterRelease (i : Fin 32) (tm : Instant) (s : State) := ok (doChatterRelease i tm s)
def execFioEdgePop (s : State) := ok (live s doFioEdgePop)
def execFioBiGrantWrite (t : Fin 64) (v : Word) (s : State) := ok (live s (doFioBiGrantWrite t v))
def execBcOwnWrite (i : Fin 4) (v : Word) (s : State) := ok (live s (doBcOwnWrite i v))
def execInhibitTimer (k : Fin 16) (tm : Instant) (s : State) := ok (doInhibitTimer k tm s)
def execMinTripExpiry (k : Fin 16) (tm : Instant) (s : State) := ok (doMinTripExpiry k tm s)
def execCurrentLimit (k : Fin 16) (o : BcOut) (ma : Nat) (tm : Instant) (s : State) := ok (doCurrentLimit k o ma tm s)
def execLimitTimeout (k : Fin 16) (o : BcOut) (tm : Instant) (s : State) := ok (doLimitTimeout k o tm s)
def execRetryTimeout (k : Fin 16) (o : BcOut) (tm : Instant) (s : State) := ok (doRetryTimeout k o tm s)
def execClrLatch (k : Fin 16) (s : State) := ok (live s (doClrLatch k))
def execSupplyChange (g : Fin 4) (cls : SupplyClass) (quarterVolts : Nat) (s : State) := ok (doSupplyChange g cls quarterVolts s)
def execSupervisionPulse (k : Fin 16) (o : BcOut) (tm : Instant) (s : State) := ok (doSupervisionPulse k o tm s)
def execSupervisionPulseEnd (k : Fin 16) (o : BcOut) (above12V : Bool) (tm : Instant) (s : State) := ok (doSupervisionPulseEnd k o above12V tm s)
def execLowCurrentTimeout (k : Fin 16) (tm : Instant) (o : BcOut) (s : State) := ok (doLowCurrentTimeout k tm o s)

end Sys2Proof.Machine
end

