-- ==== Sys2Proof/Machine/Tenants.lean ====
section
/-!
DEFINITION. Tenants and their cores (R185 to R189): who owns a core, which physical core serves it, a tenant's change of state,
partitions of State Memory (R117, R233), and taking a trap (R131).
-/
namespace Sys2Proof.Machine

/-! ## Cores of a tenant (R185) -/

/-- Owner of a logical core (HIF_OWN_CORE); 0 none. -/
def coreOwner (s : State) (l : Fin 64) : Nat := ownByte s Reg.hifOwnCore l
/-- The tenant's logical cores, ascending. -/
def coresOf (s : State) (t : Nat) : List (Fin 64) := (List.finRange 64).filter (fun l => t != 0 && coreOwner s l == t)
/-- A core's index within its tenant. -/
def coreIdx (s : State) (t : Nat) (l : Fin 64) : Nat := ((coresOf s t).filter (fun k => k.val < l.val)).length
/-- The physical core serving a logical core (ARR_C_MAP); 15 unserved. -/
def physOf (s : State) (l : Fin 64) : Nat := rf s (Reg.arrCMap (l / 8)) (4 * (l % 8) + 3) (4 * (l % 8))
/-- A tenant as an index. -/
def ten (t : Nat) : Fin 64 := Fin.ofNat 64 t
/-- The image section of a core. -/
def coreImage (s : State) (l : Fin 64) : Option CoreImage :=
  let t := coreOwner s l
  match (getTen s (ten t)).image with
  | some im => im.cores[coreIdx s t l]?
  | none => none

/-- Length of the program window at the rate and reserve in force, in cycles (R20). -/
def windowCycles (s : State) : Nat := (period s - 3 * usec - s.cmt.reserve * usec) / mainCycle

/-- The watchdog budget of a core: none when it is disabled or does not fit the window (R130). -/
def watchdogOf (s : State) (l : Fin 64) : Option Nat :=
  match coreImage s l with
  | some im => if im.watchdog = 0 ∨ windowCycles s < im.watchdog then none else some im.watchdog
  | none => none

/-! ## Changes of state (R187, R345, R378) -/

def sevOf (st : Nat) : Nat := if st = 5 then 3 else if st = 6 then 2 else 1

/-- Put a tenant in a state: CMT_T_STATE and VF_STATE, vector 2 of its VF, CMT_FAULTED, and its log record. A transition
into or out of Running or Test rewrites the configuration record (R345). -/
def setTState (s : State) (t : Fin 64) (st : Nat) : State :=
  let old := tState s t
  let s := wf (wf s (Reg.cmtTState t) 2 0 st) (Reg.vfState t) 2 0 st
  let s := wb s (if t.val < 32 then Reg.cmtFaulted0 else Reg.cmtFaulted1) (t % 32) (st == 5)
  let s := if st = 5 then raise s Reg.cmtIrq 0 else if st = 6 then raise s Reg.cmtIrq 5 else s
  let s := if old = 3 ∨ old = 4 ∨ st = 3 ∨ st = 4 then cfgDirty s else s
  logRec (raiseVf s t 2) Reg.cmtIrq (sevOf st) 0 st [t]

/-- Trap records are cleared when a tenant enters Stopped (R187, R210): of the physical cores that serve it, and of those that
served it when they trapped and have been replaced since. -/
def clearTraps (s : State) (t : Nat) : State :=
  let zero (c p : Nat) (s : State) : State :=
    wr (wr (wr s (Reg.arrKTrap c p) 0) (Reg.arrKTrappc c p) 0) (Reg.arrKTrapaddr c p) 0
  let s := (coresOf s t).foldl (fun s (l : Fin 64) => zero (l / 8) (physOf s l) s) s
  modTen ((getTen s (ten t)).trapCores.foldl (fun s k => zero (k / 9) (k % 9) s) s) (ten t) (fun x => { x with trapCores := [] })

/-! ## Partitions (R117, R233) -/

/-- Entry j of a function's partition table in force: base, length, read, write; none when it is not valid. -/
def partition (s : State) (t : Fin 64) (j : Nat) : Option (Nat × Nat × Bool × Bool) :=
  let (b, z) := Tab.get (0, 0) s.cmt.part (8 * t + j)
  if bitOf z 31 then some (fld b 24 12 * 4096, fld z 13 0 * 4096, bitOf z 29, bitOf z 30) else none

/-- A byte lies in a partition with the permission. -/
def mayByte (s : State) (t : Fin 64) (write : Bool) (a : Nat) : Bool :=
  (List.range 8).any (fun j => match partition s t j with
    | some (b, len, r, w) => (if write then w else r) && decide (b ≤ a) && decide (a < b + len)
    | none => false)

/-- Every byte of a range lies inside one partition with the permission. -/
def inPartition (s : State) (t : Fin 64) (off n : Nat) (write : Bool) : Bool :=
  (List.range 8).any (fun j => match partition s t j with
    | some (b, len, r, w) => (if write then w else r) && decide (b ≤ off) && decide (off + n ≤ b + len)
    | none => false)

/-- Every byte of a range lies in some partition with the permission: partitions are whole 4 KiB pages (R117). -/
def inPartitions (s : State) (t : Fin 64) (off n : Nat) (write : Bool) : Bool :=
  n == 0 || (List.range ((off + n - 1) / 4096 + 1 - off / 4096)).all (fun i => mayByte s t write ((off / 4096 + i) * 4096))

/-! ## Taking a trap (R131, R132) -/

/-- A core traps: its trap record is filled, every core of the tenant stops within 16 cycles with what it staged discarded, the
tenant enters Faulted at once with its fallback due, and the log records both. Another core of the tenant may still trap in those
cycles, and its record is filled too (R132); when it stops is a free value (log entry 2). -/
def trap (s : State) (l : Fin 64) (cause : Nat) (addr : Word) : State :=
  let c := l.val / 8
  let p := physOf s l
  let t := coreOwner s l
  let s := wr (wr s (Reg.arrKTrap c p) (W cause ||| oneBit 31)) (Reg.arrKTrappc c p) (getCore s l).pc
  let s := if cause = 2 ∨ cause = 3 then wr s (Reg.arrKTrapaddr c p) addr else s
  let s := raise s (Reg.arrCIrq c) 0
  let s := logRec s (Reg.arrCIrq c) 3 1 0 [t, l, cause, (getCore s l).pc.toNat, addr.toNat]
  let (x, s) := drawLe s 16
  let last := (getCore s l).cyc + x
  let halt (k : Core) : Core :=
    let h := match k.haltAt with | some h => min h last | none => last
    { k with entries := [], haltAt := some h, run := if k.run = .running ∧ h < k.cyc then .stopped else k.run }
  let s := (coresOf s t).foldl (fun s k => modCore s k halt) s
  let s := modCore s l (fun k => { k with run := .stopped })
  if t = 0 then s
  else
    let s := modTen s (ten t) (fun x => { x with trapped := true, fallbackDue := true, trapCores := (9 * c + p) :: x.trapCores })
    let s := wf s (Reg.cmtTState t) 10 8 1
    if tActive s (ten t) then setTState s (ten t) 5 else s

/-- Cause 3 where the check has no address: the recorded address is a free value (log entry 2). -/
def trapData (s : State) (l : Fin 64) : State := let (x, s) := drawWord s; trap s l 3 x

/-! ## Transactions (R149, R150) -/

/-- Abort the tenant's transaction of the tick with a cause of R201. -/
def abortTx (s : State) (t cause : Nat) : State := modTen s (ten t) (fun x => { x with abort := some (x.abort.getD cause) })

/-- Whether the tenant's transaction of the tick has been aborted. -/
def aborted (s : State) (t : Nat) : Bool := (getTen s (ten t)).abort.isSome

/-- Entries the tenant may stage in a tick. -/
def reservation (s : State) (t : Nat) : Nat := match (getTen s (ten t)).image with | some im => im.reservation | none => 0

/-- Stage one entry of a core; the entry beyond the reservation stages nothing and aborts the transaction (cause 3). -/
def stage (s : State) (l : Fin 64) (e : Entry) : State :=
  let t := coreOwner s l
  if reservation s t ≤ (getTen s (ten t)).staged then abortTx s t 3
  else modCore (modTen s (ten t) (fun x => { x with staged := x.staged + 1 })) l (fun k => { k with entries := k.entries ++ [e] })

end Sys2Proof.Machine
end

