-- ==== Sys2Proof/Machine/Operands.lean ====
section
/-!
DEFINITION. How an instruction reads its operands, issues and retires (R110 to R116, R126 to R128, R133, R134, R137, R142): on a
tick core with interlocks, cycles and traps; in a Heddle stage with results written after the instruction's stages.
-/
namespace Sys2Proof.Machine

/-! ## Contexts -/

def Ctx.rg (c : Ctx) (i : Nat) : Word := if i = 0 then 0 else Tab.get 0 c.g i
def Ctx.ra (c : Ctx) (i : Nat) : Int := (Tab.get 0 c.a i).toInt
def Ctx.rp (c : Ctx) (i : Nat) : Bool := i == 0 || c.p.getLsbD i

/-- Writes land: g0 and p0 discard theirs (R110); flags are ORed in (R112). -/
def Ctx.apply (c : Ctx) (w : Wr) : Ctx :=
  { g := w.g.foldl (fun t e => if e.1 = 0 then t else Tab.put 0 t e.1 e.2) c.g
    a := w.a.foldl (fun t e => Tab.put 0 t e.1 e.2) c.a
    p := w.p.foldl (fun b e => if e.1 = 0 then b
      else if e.2 then b ||| BitVec.ofNat 8 (2 ^ e.1) else b &&& ~~~ (BitVec.ofNat 8 (2 ^ e.1))) c.p
    fs := c.fs ||| w.fl }

def Wr.none : Wr := ⟨[], [], [], 0⟩
def Wr.reg (d : Nat) (v : Word) (fl : Word := 0) : Wr := ⟨[(d, v)], [], [], fl⟩
def Wr.pred (d : Nat) (v : Bool) (fl : Word := 0) : Wr := ⟨[], [], [(d, v)], fl⟩

/-! ## Issue and retirement on a tick core (R128, R137) -/

/-- Whether an address lies in the core's code region (R114). -/
def inCode (s : State) (l : Fin 64) (a : Nat) : Bool :=
  match coreImage s l with
  | some ci => decide (0x10000 ≤ a) && decide (a < 0x10000 + ci.code.length)
  | none => false

/-- Cycle at which an instruction may issue: the next issue slot, its source registers ready, and for a chained accumulator
operand the cycle after the instruction that writes it. Sources 32 to 35 are accumulators. -/
def issueAt (c : Core) (srcs : List Nat) (chained : Option Nat) : Nat :=
  let t := srcs.foldl (fun t i => if i = 0 then t else max t (Tab.get 0 c.ready i)) c.cyc
  match chained with | some a => max t (Tab.get 0 c.chain a) | none => t

/-- A core halted by a trap of its tenant, when the instruction would issue after its last cycle (R131). -/
def halted (c : Core) (t0 : Nat) : Bool := match c.haltAt with | some h => decide (h < t0) | none => false

/-- The cycle at which a core's watchdog budget has run out (R130): its window opens at cycle 4800. -/
def watchdogEnd (s : State) (l : Fin 64) : Option Nat := (watchdogOf s l).map (4800 + ·)

/-- A running core's watchdog budget has run out: it traps in that cycle, unless a trap of its tenant has halted it before (R130 to
R132). -/
def watchdogTrap (s : State) (l : Fin 64) (w : Nat) : State :=
  let c := getCore s l
  if halted c w then setCore s l { c with run := .stopped } else trap (setCore s l { c with cyc := w }) l 4 0

/-- The cycle of what never happens: the grant of a request that stays masked (R241). -/
def never : Nat := 2 ^ 40

/-- Issue an instruction on a core: it runs only while the core runs, and before its watchdog budget has run out; the fetch is
checked, then the encoding, then the predicate; a false predicate costs its issue cycle. The instruction finds its core at the cycle
in which it issues. -/
def runCore (l : Fin 64) (legal : Bool) (pr : BitVec 3) (srcs : List Nat) (chained : Option Nat) (s : State)
    (go : Nat → Core → State → State) : State :=
  let c := getCore s l
  let t0 := issueAt c srcs chained
  if c.run ≠ .running then s
  else match (watchdogEnd s l).filter (fun w => decide (w ≤ t0)) with
  | some w => watchdogTrap s l w
  | none =>
    if halted c t0 then setCore s l { c with run := .stopped }
    else if never ≤ t0 then s
    else
      let c := { c with cyc := t0 }
      let s := setCore s l c
      if !inCode s l c.pc.toNat then trap s l 3 c.pc
      else if !legal then trap s l 1 0
      else if c.ctx.rp pr.toNat then go t0 c s
      else setCore s l { c with cyc := t0 + 1, pc := c.pc + 4 }

/-- Retire: results become usable at t0 + lat (an accumulator of op 0x10 to its own chain at t0 + 1), the next instruction
issues from t0 + cost, and the pc moves on. -/
def retire (s : State) (l : Fin 64) (t0 cost lat : Nat) (chainW : Bool) (w : Wr) : State :=
  modCore s l (fun c =>
    { c with
      ctx := c.ctx.apply w
      ready := w.a.foldl (fun t e => Tab.put 0 t (32 + e.1) (t0 + lat))
        (w.g.foldl (fun t e => if e.1 = 0 then t else Tab.put 0 t e.1 (t0 + lat)) c.ready)
      chain := w.a.foldl (fun t e => Tab.put 0 t e.1 (if chainW then t0 + 1 else t0 + lat)) c.chain
      cyc := t0 + cost
      pc := c.pc + 4 })

/-! ## A stage of a Heddle unit (R128, R134) -/

def getUnit (s : State) (u : Fin 17) : HUnit := Tab.get .reset s.hdl.unit u
def setUnit (s : State) (u : Fin 17) (x : HUnit) : State := { s with hdl := { s.hdl with unit := Tab.put .reset s.hdl.unit u x } }
def modUnit (s : State) (u : Fin 17) (f : HUnit → HUnit) : State := setUnit s u (f (getUnit s u))

/-- The record in flight with an identifier. -/
def getRec (s : State) (u : Fin 17) (id : Nat) : Option HRec := (getUnit s u).flight.find? (fun r => r.id == id)
def setRec (s : State) (u : Fin 17) (r : HRec) : State :=
  modUnit s u (fun x => { x with flight := x.flight.map (fun y => if y.id == r.id then r else y) })

/-- Results whose instruction has left its last stage are in the context of the stage the record is in. -/
def HRec.settle (r : HRec) : HRec :=
  { r with
    ctx := (r.pend.filter (fun e => e.1 ≤ r.stage)).foldl (fun c e => c.apply e.2) r.ctx
    pend := r.pend.filter (fun e => r.stage < e.1) }

/-- Run a stage on a record: an instruction illegal in a kernel is never in a stage (R135) and past stage 127 there is none,
so neither changes anything. `go` answers what the instruction writes. -/
def runRec (u : Fin 17) (id : Nat) (legal : Bool) (pr : BitVec 3) (lat : Nat) (s : State)
    (go : HRec → State → Wr × State) : State :=
  match getRec s u id with
  | none => s
  | some r =>
    if !legal || 128 ≤ r.stage then s
    else
      let r := r.settle
      let (w, s) := if r.ctx.rp pr.toNat then go r s else (Wr.none, s)
      setRec s u { r with pend := r.pend ++ [(r.stage + lat, w)], stage := r.stage + 1 }

/-! ## Instructions that only compute -/

/-- An instruction that reads and writes registers: legality on a core and in a kernel, predicate, sources, chained
accumulator, latency, whether it blocks, whether it is an op 0x10 write, and its work. -/
structure AluOp where
  legal : Bool
  hed : Bool
  pr : BitVec 3
  srcs : List Nat
  chained : Option Nat
  lat : Nat
  block : Bool
  chainW : Bool
  work : Ctx → Wr

/-- Run it on its executor. -/
def runAlu (x : Who) (o : AluOp) (s : State) : State :=
  match x with
  | .core l => runCore l o.legal o.pr o.srcs o.chained s (fun t0 c s =>
      retire s l t0 (if o.block then o.lat else 1) o.lat o.chainW (o.work c.ctx))
  | .record u id => runRec u id (o.legal && o.hed) o.pr o.lat s (fun r s => (o.work r.ctx, s))

/-- Register fields a kernel may name (R133). -/
def low (l : List (BitVec 5)) : Bool := l.all (fun r => r.toNat < 16)

/-- Format A, g[d] := f(g[s1], g[s2]), with its flags. -/
def opA (f : FmtA) (lat : Nat) (fn : Word → Word → Word × Word) : AluOp :=
  { legal := true, hed := low [f.d, f.s1, f.s2], pr := f.pr, srcs := [f.s1.toNat, f.s2.toNat], chained := none, lat := lat,
    block := false, chainW := false,
    work := fun c => let r := fn (c.rg f.s1.toNat) (c.rg f.s2.toNat); Wr.reg f.d.toNat r.1 r.2 }

/-- Format A with one operand: s2 must be 0. -/
def opA1 (f : FmtA) (lat : Nat) (fn : Word → Word × Word) : AluOp :=
  { opA f lat (fun a _ => fn a) with legal := f.s2 == 0, srcs := [f.s1.toNat] }

/-- Format I, g[d] := f(g[s1]). -/
def opI (f : FmtI) (legal : Bool) (fn : Word → Word) : AluOp :=
  { legal := legal, hed := low [f.d, f.s1], pr := f.pr, srcs := [f.s1.toNat], chained := none, lat := 1, block := false,
    chainW := false, work := fun c => Wr.reg f.d.toNat (fn (c.rg f.s1.toNat)) }

/-- Format A compare into predicate d, 0 to 7 (R138). -/
def opC (f : FmtA) (fn : Word → Word → Bool × Word) : AluOp :=
  { legal := f.d.toNat < 8, hed := low [f.s1, f.s2], pr := f.pr, srcs := [f.s1.toNat, f.s2.toNat], chained := none, lat := 1,
    block := false, chainW := false,
    work := fun c => let r := fn (c.rg f.s1.toNat) (c.rg f.s2.toNat); Wr.pred f.d.toNat r.1 r.2 }

/-- Format A predicate logic: all fields 0 to 7. -/
def opP (f : FmtA) (fn : Bool → Bool → Bool) : AluOp :=
  { legal := f.d.toNat < 8 && f.s1.toNat < 8 && f.s2.toNat < 8, hed := true, pr := f.pr, srcs := [], chained := none, lat := 1,
    block := false, chainW := false, work := fun c => Wr.pred f.d.toNat (fn (c.rp f.s1.toNat) (c.rp f.s2.toNat)) }

/-- Accumulator modes (R127): what is combined with what. -/
def combine (m : BitVec 3) (acc r : Int) : Int :=
  match m.toNat with | 0 => r | 1 => acc + r | 2 => acc - r | _ => -r

/-- Format X of op 0x10: r formed from the context, combined under mode and saturated once (R124). `accIn`: r itself reads the
named accumulator, so no chaining (R137). -/
def opX (f : FmtX) (two : Bool) (lat : Nat) (accIn : Option Nat) (extra hedExtra : Bool) (r : Ctx → Int) : AluOp :=
  let reads := f.mode.toNat == 1 || f.mode.toNat == 2
  let gs := (match accIn with | some k => if k = 4 then [f.s1.toNat] else [] | none => [f.s1.toNat]) ++ (if two then [f.s2.toNat] else [])
  let as := match accIn with | some k => [32 + (if k = 4 then f.acc.toNat else k)] ++ (if reads then [32 + f.acc.toNat] else []) | none => []
  { legal := f.mode.toNat < 4 && (two || f.s2 == 0) && extra, hed := low [f.s1, f.s2] && f.acc.toNat < 2 && hedExtra, pr := f.pr,
    srcs := gs ++ as, chained := if accIn.isNone && reads then some f.acc.toNat else none, lat := lat, block := false, chainW := true,
    work := fun c =>
      let v := sata (combine f.mode (c.ra f.acc.toNat) (r c))
      ⟨[], [(f.acc.toNat, ai v.1)], [], v.2⟩ }

/-- FP32 operation in format A, on tick cores only. -/
def runFp (l : Fin 64) (o : AluOp) (s : State) : State := runAlu (.core l) o s

end Sys2Proof.Machine
end

