-- ==== Sys2Proof/Machine/Alu.lean ====
section
/-!
DEFINITION. Wormin integer, compare, predicate, division and special-register instructions (op 0x00 to 0x0F; R112, R121, R136
to R138).
-/
namespace Sys2Proof.Machine

/-- A result without flags. -/
def pure2 (fn : Word → Word → Word) : Word → Word → Word × Word := fun a b => (fn a b, 0)
def pure1 (fn : Word → Word) : Word → Word × Word := fun a => (fn a, 0)

/-- Signed saturation of an integer instruction (R121). -/
def satI (x : Int) : Word × Word := let r := clampTo (-2147483648) 2147483647 fsIov x; (wi r.1, r.2)
/-- Unsigned saturation. -/
def satU (x : Int) : Word × Word := let r := clampTo 0 4294967295 fsIov x; (wi r.1, r.2)

/-- Leading zeros, counted from bit i − 1 downward. -/
def clzFrom : Nat → Word → Nat
  | 0, _ => 0
  | i + 1, w => if w.getLsbD i then 0 else clzFrom i w + 1
/-- Ones in the low n bits. -/
def popTo : Nat → Word → Nat
  | 0, _ => 0
  | i + 1, w => popTo i w + b2n (w.getLsbD i)

/-- Shift amount: bits [4:0] (R121). -/
def shAmt (w : Word) : Nat := w.toNat % 32

/-- Division and remainder under R121. -/
def divS (a b : Word) : Word × Word :=
  if b = 0 then (if a.toInt < 0 then 0x80000000 else 0x7FFFFFFF, fsDz)
  else if a = 0x80000000 ∧ b = 0xFFFFFFFF then (0x7FFFFFFF, fsIov)
  else (wi (a.toInt.tdiv b.toInt), 0)
def divU (a b : Word) : Word × Word := if b = 0 then (0xFFFFFFFF, fsDz) else (W (a.toNat / b.toNat), 0)
def remS (a b : Word) : Word × Word := if b = 0 then (a, fsDz) else (wi (a.toInt.tmod b.toInt), 0)
def remU (a b : Word) : Word × Word := if b = 0 then (a, fsDz) else (W (a.toNat % b.toNat), 0)

def execAdd (x : Who) (f : FmtA) (s : State) := ok (runAlu x (opA f 1 (pure2 (· + ·))) s)
def execSub (x : Who) (f : FmtA) (s : State) := ok (runAlu x (opA f 1 (pure2 (· - ·))) s)
def execAnd (x : Who) (f : FmtA) (s : State) := ok (runAlu x (opA f 1 (pure2 (· &&& ·))) s)
def execOr (x : Who) (f : FmtA) (s : State) := ok (runAlu x (opA f 1 (pure2 (· ||| ·))) s)
def execXor (x : Who) (f : FmtA) (s : State) := ok (runAlu x (opA f 1 (pure2 (· ^^^ ·))) s)
def execSll (x : Who) (f : FmtA) (s : State) := ok (runAlu x (opA f 1 (pure2 (fun a b => a <<< shAmt b))) s)
def execSrl (x : Who) (f : FmtA) (s : State) := ok (runAlu x (opA f 1 (pure2 (fun a b => a >>> shAmt b))) s)
def execSra (x : Who) (f : FmtA) (s : State) := ok (runAlu x (opA f 1 (pure2 (fun a b => a.sshiftRight (shAmt b)))) s)
def execMin (x : Who) (f : FmtA) (s : State) := ok (runAlu x (opA f 1 (pure2 (fun a b => if b.toInt < a.toInt then b else a))) s)
def execMax (x : Who) (f : FmtA) (s : State) := ok (runAlu x (opA f 1 (pure2 (fun a b => if a.toInt < b.toInt then b else a))) s)
def execMinu (x : Who) (f : FmtA) (s : State) := ok (runAlu x (opA f 1 (pure2 (fun a b => if b < a then b else a))) s)
def execMaxu (x : Who) (f : FmtA) (s : State) := ok (runAlu x (opA f 1 (pure2 (fun a b => if a < b then b else a))) s)
def execAdds (x : Who) (f : FmtA) (s : State) := ok (runAlu x (opA f 1 (fun a b => satI (a.toInt + b.toInt))) s)
def execSubs (x : Who) (f : FmtA) (s : State) := ok (runAlu x (opA f 1 (fun a b => satI (a.toInt - b.toInt))) s)
def execAddus (x : Who) (f : FmtA) (s : State) := ok (runAlu x (opA f 1 (fun a b => satU ((a.toNat : Int) + b.toNat))) s)
def execSubus (x : Who) (f : FmtA) (s : State) := ok (runAlu x (opA f 1 (fun a b => satU ((a.toNat : Int) - b.toNat))) s)
def execMul (x : Who) (f : FmtA) (s : State) := ok (runAlu x (opA f 3 (pure2 (· * ·))) s)
def execMulh (x : Who) (f : FmtA) (s : State) := ok (runAlu x (opA f 3 (pure2 (fun a b => wi ((a.toInt * b.toInt).fdiv (2 ^ 32))))) s)
def execMulhu (x : Who) (f : FmtA) (s : State) := ok (runAlu x (opA f 3 (pure2 (fun a b => W (a.toNat * b.toNat / 2 ^ 32)))) s)
def execAbss (x : Who) (f : FmtA) (s : State) := ok (runAlu x (opA1 f 1 (fun a => satI a.toInt.natAbs)) s)
def execClz (x : Who) (f : FmtA) (s : State) := ok (runAlu x (opA1 f 1 (pure1 (fun a => W (clzFrom 32 a)))) s)
def execPopc (x : Who) (f : FmtA) (s : State) := ok (runAlu x (opA1 f 1 (pure1 (fun a => W (popTo 32 a)))) s)
def execSexb (x : Who) (f : FmtA) (s : State) := ok (runAlu x (opA1 f 1 (pure1 (fun a => (a.setWidth 8).signExtend 32))) s)
def execSexh (x : Who) (f : FmtA) (s : State) := ok (runAlu x (opA1 f 1 (pure1 (fun a => (a.setWidth 16).signExtend 32))) s)
def execZexh (x : Who) (f : FmtA) (s : State) := ok (runAlu x (opA1 f 1 (pure1 (fun a => a &&& 0xFFFF))) s)

def execAddi (x : Who) (f : FmtI) (s : State) := ok (runAlu x (opI f true (fun a => a + sx f.imm)) s)
def execAndi (x : Who) (f : FmtI) (s : State) := ok (runAlu x (opI f true (fun a => a &&& zx f.imm)) s)
def execOri (x : Who) (f : FmtI) (s : State) := ok (runAlu x (opI f true (fun a => a ||| zx f.imm)) s)
def execXori (x : Who) (f : FmtI) (s : State) := ok (runAlu x (opI f true (fun a => a ^^^ zx f.imm)) s)
/-- imm12[11:5] must be 0 in an immediate shift. -/
def shImmOk (f : FmtI) : Bool := f.imm.toNat < 32
def execSlli (x : Who) (f : FmtI) (s : State) := ok (runAlu x (opI f (shImmOk f) (fun a => a <<< f.imm.toNat)) s)
def execSrli (x : Who) (f : FmtI) (s : State) := ok (runAlu x (opI f (shImmOk f) (fun a => a >>> f.imm.toNat)) s)
def execSrai (x : Who) (f : FmtI) (s : State) := ok (runAlu x (opI f (shImmOk f) (fun a => a.sshiftRight f.imm.toNat)) s)

/-- Format U constants. -/
def opU (f : FmtU) (legal : Bool) (readsD : Bool) (fn : Word → Word) : AluOp :=
  { legal := legal, hed := low [f.d], pr := f.pr, srcs := if readsD then [f.d.toNat] else [], chained := none, lat := 1,
    block := false, chainW := false, work := fun c => Wr.reg f.d.toNat (fn (c.rg f.d.toNat)) }
def execLui (x : Who) (f : FmtU) (s : State) := ok (runAlu x (opU f true false (fun _ => zx f.imm <<< 15)) s)
def execLlo (x : Who) (f : FmtU) (s : State) :=
  ok (runAlu x (opU f (f.imm.toNat < 2 ^ 15) true (fun d => (d &&& 0xFFFF8000) ||| zx f.imm)) s)

def execCeq (x : Who) (f : FmtA) (s : State) := ok (runAlu x (opC f (fun a b => (a == b, 0))) s)
def execCne (x : Who) (f : FmtA) (s : State) := ok (runAlu x (opC f (fun a b => (a != b, 0))) s)
def execClt (x : Who) (f : FmtA) (s : State) := ok (runAlu x (opC f (fun a b => (a.slt b, 0))) s)
def execCle (x : Who) (f : FmtA) (s : State) := ok (runAlu x (opC f (fun a b => (a.sle b, 0))) s)
def execCltu (x : Who) (f : FmtA) (s : State) := ok (runAlu x (opC f (fun a b => (a.ult b, 0))) s)
def execCleu (x : Who) (f : FmtA) (s : State) := ok (runAlu x (opC f (fun a b => (a.ule b, 0))) s)
def execCtst (x : Who) (f : FmtA) (s : State) := ok (runAlu x (opC f (fun a b => (a &&& b != 0, 0))) s)

/-- CMPI: d[2:0] the predicate, d[4:3] the condition EQ, NE, LT, GT. -/
def execCmpi (x : Who) (f : FmtI) (s : State) :=
  ok (runAlu x { opI f true id with
    hed := low [f.s1]
    work := fun c =>
      let a := c.rg f.s1.toNat
      let b := sx f.imm
      let v := match f.d.toNat / 8 with | 0 => a == b | 1 => a != b | 2 => a.slt b | _ => b.slt a
      Wr.pred (f.d.toNat % 8) v } s)

def execPand (x : Who) (f : FmtA) (s : State) := ok (runAlu x (opP f (· && ·)) s)
def execPor (x : Who) (f : FmtA) (s : State) := ok (runAlu x (opP f (· || ·)) s)
def execPxor (x : Who) (f : FmtA) (s : State) := ok (runAlu x (opP f (· != ·)) s)
def execPandn (x : Who) (f : FmtA) (s : State) := ok (runAlu x (opP f (fun a b => a && !b)) s)
def execPfrom (x : Who) (f : FmtA) (s : State) :=
  ok (runAlu x { opC f (fun a _ => (a != 0, 0)) with legal := f.d.toNat < 8 && f.s2 == 0, srcs := [f.s1.toNat], hed := low [f.s1] } s)
def execPto (x : Who) (f : FmtA) (s : State) :=
  ok (runAlu x { opA1 f 1 (fun a => (a, 0)) with
    legal := f.s1.toNat < 8 && f.s2 == 0, srcs := [], hed := low [f.d]
    work := fun c => Wr.reg f.d.toNat (W (b2n (c.rp f.s1.toNat))) } s)

/-- Division: 18 cycles, blocking, on tick cores only. -/
def opDiv (f : FmtA) (fn : Word → Word → Word × Word) : AluOp := { opA f 18 fn with block := true }
def execDiv (l : Fin 64) (f : FmtA) (s : State) := ok (runAlu (.core l) (opDiv f divS) s)
def execDivu (l : Fin 64) (f : FmtA) (s : State) := ok (runAlu (.core l) (opDiv f divU) s)
def execRem (l : Fin 64) (f : FmtA) (s : State) := ok (runAlu (.core l) (opDiv f remS) s)
def execRemu (l : Fin 64) (f : FmtA) (s : State) := ok (runAlu (.core l) (opDiv f remU) s)

/-- RDSR: pc, fs, tk, ts for imm12 0 to 3; s1 must be 0. -/
def execRdsr (l : Fin 64) (f : FmtI) (s : State) :=
  ok (runCore l (f.s1 == 0 && f.imm.toNat < 4) f.pr [] none s (fun t0 c s =>
    let v := match f.imm.toNat with | 0 => c.pc | 1 => c.ctx.fs | 2 => W s.time.tick | _ => W t0
    retire s l t0 1 1 false (Wr.reg f.d.toNat v)))

/-- CLRF: d, s1 and imm12[11:10] must be 0. -/
def execClrf (l : Fin 64) (f : FmtI) (s : State) :=
  ok (runCore l (f.d == 0 && f.s1 == 0 && f.imm.toNat < 2 ^ 10) f.pr [] none s (fun t0 _ s =>
    modCore (retire s l t0 1 1 false Wr.none) l (fun c => { c with ctx := { c.ctx with fs := c.ctx.fs &&& ~~~ (zx f.imm) } })))

end Sys2Proof.Machine
end

