-- ==== Sys2Proof/Machine/Arbiter.lean ====
section
/-!
DEFINITION. The State Memory bank arbiters and the DDR5 channel arbiters (chapter 10): requests, the ranking of R235, quotas
(R237), the withdrawal of a lost core's requests (R241), and partition entries (R233).
-/
namespace Sys2Proof.Machine

/-- Generation number of a logical core (ARR_K_STATUS.gen of the physical core that serves it, R203). -/
def coreGen (s : State) (l : Nat) : Nat :=
  let k : Fin 64 := Fin.ofNat 64 l
  rf s (Reg.arrKStatus (l / 8) (physOf s k)) 23 16

/-! ## Ranking (R235 to R237) -/

/-- High-priority ports (R234, R242). -/
def highPort (ddr : Bool) (p : Nat) : Bool := if ddr then p == 0 else p == 8 || p == 9

/-- What a port may use in one window: grants for ports 8 and 9, beats for port 13; on a channel 60 % and 5 % of the 2000
accesses of 10 µs (R237, R242). -/
def quota (ddr : Bool) (p : Nat) : Option Nat :=
  if ddr then (if p = 0 then some 1200 else if p = 6 then some 100 else none)
  else if p = 8 ∨ p = 9 then some 64 else if p = 13 then some 15 else none

/-- A port whose quota counts beats. -/
def inBeats (ddr : Bool) (p : Nat) : Bool := ddr || p == 13

/-- Beats of the next burst of a request (R232, R236): up to 8, and of a port with a quota of beats what is left of it. -/
def burst (ddr : Bool) (a : Arb) (r : ArbReq) : Nat :=
  let n := min 8 r.beats
  match quota ddr r.port with
  | some q => if inBeats ddr r.port then min n (q - Tab.get 0 a.used r.port) else n
  | none => n

/-- What a grant of a request counts against its quota. -/
def cost (ddr : Bool) (a : Arb) (r : ArbReq) : Nat := if inBeats ddr r.port then burst ddr a r else 1

/-- A port that has reached its quota in the window; its requests take no part in ranking. -/
def atQuota (ddr : Bool) (a : Arb) (p : Nat) : Bool := match quota ddr p with | some q => q ≤ Tab.get 0 a.used p | none => false

/-- Age of a request (R235): a high-priority request is stamped at 16; saturating at 1023. -/
def ageOf (ddr : Bool) (now : Nat) (r : ArbReq) : Nat := min 1023 (now - r.stamp + if highPort ddr r.port then 16 else 0)

/-- Whether `a` goes before `b` (R235). -/
def ahead (ddr : Bool) (now : Nat) (a b : ArbReq) : Bool :=
  let x := ageOf ddr now a
  let y := ageOf ddr now b
  y < x || (x == y && ((highPort ddr a.port && !highPort ddr b.port) ||
    (highPort ddr a.port == highPort ddr b.port && a.port < b.port)))

/-- The ranked requests: the head of each queue, not masked by a quota. -/
def ranked (ddr : Bool) (a : Arb) : List ArbReq :=
  (a.reqs.foldl (fun acc r => if acc.any (fun q => sameQ ddr q r) then acc else acc ++ [r]) ([] : List ArbReq)).filter
    (fun r => !atQuota ddr a r.port)

/-- The requests that take part in an arbitration at a cycle: ranked, arrived before it, and not of a port that has already passed
another port's ranked request (R235). -/
def eligible (ddr : Bool) (now : Nat) (a : Arb) : List ArbReq :=
  let l := ranked ddr a
  l.filter (fun r => r.stamp < now && !l.any (fun q => q.port != r.port && q.mask.getLsbD r.port))

/-- The winner of an arbitration. -/
def winner (ddr : Bool) (now : Nat) (a : Arb) : Option ArbReq :=
  (eligible ddr now a).foldl (fun b r => match b with | none => some r | some q => if ahead ddr now r q then some r else b) none

/-- What a winner takes with it: a cluster port's burst carries one beat of each core that takes part (R234). -/
def takes (ddr : Bool) (now : Nat) (a : Arb) (w : ArbReq) : List ArbReq :=
  if ddr || 8 ≤ w.port then [w] else (eligible ddr now a).filter (fun r => r.port == w.port)

/-- The first request of a list equal to `r`, replaced. -/
def replaceReq (r new : ArbReq) : List ArbReq → List ArbReq
  | [] => []
  | q :: l => if q = r then new :: l else q :: replaceReq r new l

/-- A granted request leaves the arbiter, or stays with the bursts still to come, ranked again (R236); the request its requester
has held longest takes its place (R240). -/
def leave (ddr : Bool) (now : Nat) (a : Arb) (r : ArbReq) : Arb :=
  let n := burst ddr a r
  if n < r.beats then { a with reqs := replaceReq r { r with beats := r.beats - n, stamp := now, mask := 0 } a.reqs }
  else
    match a.held.find? (sameQ ddr r) with
    | some h => { a with reqs := a.reqs.erase r ++ [{ h with stamp := now, mask := 0 }], held := a.held.erase h }
    | none => { a with reqs := a.reqs.erase r }

/-- Windows of a quota: 512 cycles of a bank, 10 µs of a channel. -/
def windowOf (ddr : Bool) (now : Nat) : Nat := if ddr then now / 16000 else now / 512

/-- Quotas restart in a new window. -/
def roll (ddr : Bool) (now : Nat) (a : Arb) : Arb :=
  if a.window < windowOf ddr now then { a with window := windowOf ddr now, used := [], wasMasked := false } else a

/-- Main-clock cycles of a beat, and of a 5 ns DDR5 access. -/
def beatCycles (ddr : Bool) : Nat := if ddr then 8 else 1

/-- A port granted enters the pass masks of the other ports' ranked requests (R235): of the head of each queue not at its quota. -/
def passMasks (ddr : Bool) (a : Arb) (p : Nat) : List ArbReq :=
  a.reqs.foldl (fun out q => out ++ [if q.port != p && !atQuota ddr a q.port && !out.any (fun x => sameQ ddr x q)
    then { q with mask := q.mask ||| BitVec.ofNat 16 (2 ^ p) } else q]) []

/-- A grant at a cycle: its port enters the pass masks, the winner and what goes with it leave, its quota counts, and the bank is busy
until the burst's end. -/
def grantAt (ddr : Bool) (now : Nat) (a : Arb) (w : ArbReq) : Arb :=
  let l := takes ddr now a w
  let n := (l.map (burst ddr a)).sum
  let used := if (quota ddr w.port).isSome then Tab.put 0 a.used w.port (Tab.get 0 a.used w.port + cost ddr a w) else a.used
  { l.foldl (leave ddr now) { a with reqs := passMasks ddr a w.port } with
    used := used, busyTo := now + n * beatCycles ddr, busyPort := w.port }

/-- Ports 0 to 7, 13 and 14 of a bank are masked once a power-fail warning has arrived (R241). -/
def shut (s : State) (k : Nat) (r : ArbReq) : Bool := failing s && decide (k < 16) && (r.port < 8 || r.port == 13 || r.port == 14)

/-- The cycle of an arbiter's next arbitration: after the current burst, and after the oldest request has arrived. -/
def nextCycle (a : Arb) (now : Nat) : Nat :=
  match a.reqs with
  | [] => max a.busyTo now
  | r :: l => max (max a.busyTo now) (1 + l.foldl (fun m q => min m q.stamp) r.stamp)

/-- Bytes an item takes in a checkpoint. -/
def itemBytes : CkptItem → Nat
  | .page _ _ => 4096 | .retained _ _ _ => 16388 | .loop _ _ _ => 128 | .pub _ _ => 4 | .slot _ _ => 1 | .tenant _ _ => 8

/-- The items of a list that end within the first `n` bytes. -/
def itemsWithin : Nat → List CkptItem → List CkptItem
  | _, [] => []
  | n, i :: l => if itemBytes i ≤ n then i :: itemsWithin (n - itemBytes i) l else []

/-- A granted outgoing burst of 256 bytes leaves over the pair link (R243), and with it the items it completes. -/
def sendBurst (s : State) : State :=
  match s.plu.sending with
  | none => s
  | some c =>
    let gone := itemsWithin (256 * s.plu.outSent) c.items
    let now := itemsWithin (256 * (s.plu.outSent + 1)) c.items
    (now.drop gone.length).foldl (fun s i => emit s (.page ⟨c.seq, i⟩)) { s with plu := { s.plu with outSent := s.plu.outSent + 1 } }

/-- What the requester learns of a burst (R240): the Commit Unit's lines are written back (R198; the reads of a designated copy, core
1, are counted by their requests); the Pair Link Unit's receive
buffer has been emptied by the burst, whose credits go back to the peer (R243). -/
def completed (s : State) (b : Nat) (w : ArbReq) : State :=
  if w.port = 9 ∧ w.core = 0 then
    let l := (inBank b s.cmt.writeBack).take (min 8 w.beats / 2)
    { s with cmt := { s.cmt with writeBack := s.cmt.writeBack.filter (fun a => !l.contains a) } }
  else if w.port = 10 ∧ w.core = 0 then
    let n := min s.plu.rxBytes (32 * min 8 w.beats)
    if n = 0 then s else emit { s with plu := { s.plu with rxBytes := s.plu.rxBytes - n } } (.credits n)
  else if w.port = 10 ∧ w.core = 1 then sendBurst s
  else s

/-- One arbitration of a bank or channel at its next cycle from `now`; in a window used up, at the next window. Answers the
winner and the cycle. -/
def arbitrate (s : State) (k now : Nat) : Option (ArbReq × Nat) :=
  let ddr := decide (16 ≤ k)
  let a := getArb s k
  let a := { a with reqs := a.reqs.filter (fun r => !shut s k r) }
  let c := nextCycle a now
  match winner ddr c (roll ddr c a) with
  | some w => some (w, c)
  | none =>
    let c' := (windowOf ddr c + 1) * if ddr then 16000 else 512
    (winner ddr c' (roll ddr c' a)).map (fun w => (w, c'))

/-- The registers of a grant: its count, the windows in which a port was masked, the longest wait of a channel. -/
def noteGrant (s : State) (k c : Nat) (w : ArbReq) : State :=
  let ddr := decide (16 ≤ k)
  let a := getArb s k
  let full := atQuota ddr a w.port
  if ddr then
    let ch : Fin 4 := Fin.ofNat 4 k
    wf (bump s (Reg.smaDGrants ch)) (Reg.smaDMaxwait ch) 15 0 (min 0xFFFF (max ((c - w.stamp) * 5 / 8) (rf s (Reg.smaDMaxwait ch) 15 0)))
  else
    let b : Fin 16 := Fin.ofNat 16 k
    let s := bump s (Reg.smaBGrants b)
    if full && !a.wasMasked then bump (modArb s k (fun a => { a with wasMasked := true })) (Reg.smaBMasked b) else s

/-- Corrected beats are counted and reported, with the offset of the last (R244). -/
def corrected (s : State) (n off : Nat) : State :=
  if n = 0 then s else raise (wr (bump s Reg.smaEccCorr n) Reg.smaEccAddr (W (off % 2 ^ 25))) Reg.smaIrq 0

/-- How many beats of a bank's burst were corrected in the transfer, and in which line of a longer one the last lies, are free values
(R244; log entry 2). -/
def eccBeats (s : State) (b : Nat) (w : ArbReq) (beats : Nat) : State :=
  let (n, s) := drawLe s beats
  let (x, s) := drawLe s 32767
  corrected s n (if w.beats = 1 then w.line else 64 * (16 * x + b))

/-- A grant of a bank or channel. -/
def grant (s : State) (k : Nat) (w : ArbReq) (c : Nat) : State :=
  let ddr := decide (16 ≤ k)
  let s := noteGrant (modArb s k (fun a => grantAt ddr c (roll ddr c a) w)) k c w
  if ddr then s else eccBeats (completed s k w) k w ((getArb s k).busyTo - c)

/-- The grants an arbiter makes up to a cycle. -/
def settleArb : Nat → Nat → Nat → State → State
  | 0, _, _, s => s
  | n + 1, k, c, s => match arbitrate s k 0 with
    | some (w, g) => if g ≤ c then settleArb n k c (grant s k w g) else s
    | none => s

/-- Bursts an arbiter still has to grant. -/
def burstsDue (a : Arb) : Nat := ((a.reqs ++ a.held).map (fun r => r.beats / 4 + 1)).sum

/-- An arbiter brought up to a cycle. -/
def upTo (s : State) (k c : Nat) : State := settleArb (burstsDue (getArb s k)) k c s

/-- Every arbiter brought up to the present. -/
def settleAll (s : State) : State := (List.range 20).foldl (fun s k => upTo s k (cycleOf s)) s

/-- A requester has a request at an arbiter, or holds one for it. -/
def waiting (s : State) (k port core : Nat) : Bool :=
  ((getArb s k).reqs ++ (getArb s k).held).any (fun r => r.port == port && r.core == core)

/-- The grants an arbiter makes until the last of a requester's requests. -/
def serveArb : Nat → Nat → Nat → Nat → State → State
  | 0, _, _, _, s => s
  | n + 1, k, port, core, s =>
    if !waiting s k port core then s
    else match arbitrate s k 0 with
      | some (w, g) => serveArb n k port core (grant s k w g)
      | none => s

/-- A requester of the banks is told that its requests have completed (R240): the time is no earlier than the end of the last
burst. -/
def complete (s : State) (port core : Nat) : State :=
  (List.range 16).foldl (fun s k =>
    if waiting s k port core then
      let s := serveArb (burstsDue (getArb s k)) k port core s
      toInstant s ((getArb s k).busyTo * mainCycle)
    else s) s

/-! ## The board (R238, R239) -/

/-- Beats still to transfer ahead of a request arriving at a cycle: of the burst in its data phase, of the requests ranked ahead, and of
those its own requester made before it; and the unmasked high-priority ports with no request at the arbiter and no burst in its data
phase, which may yet pass it. -/
def board (ddr : Bool) (a : Arb) (r : ArbReq) : Nat × Nat :=
  let l := (ranked ddr a).filter (fun q => q.port != r.port && ahead ddr r.stamp q r)
  let own := (a.reqs ++ a.held).filter (sameQ ddr r)
  let busy := (a.busyTo - r.stamp + beatCycles ddr - 1) / beatCycles ddr
  let open' (p : Nat) : Bool :=
    p != r.port && !a.reqs.any (fun q => q.port == p) && !atQuota ddr a p && !(busy != 0 && a.busyPort == p)
  (busy + (l.map (burst ddr a)).sum + (own.map (·.beats)).sum, ((if ddr then [0] else [8, 9]).filter open').length)

/-- The bound of R238, which the turn hint of R239 gives: 0 when no request can be granted ahead. -/
def hintOf (b u : Nat) : Nat := if b = 0 ∧ u = 0 then 0 else min 134 (12 + b + 8 * u + 2)

/-- The wait of R238 that follows when high-priority requests arriving later have put `x` beats ahead, at most 8 a port. -/
def waitOf (b x : Nat) : Nat := if b = 0 ∧ x = 0 then 12 else min 134 (12 + b + x + 2)

/-! ## Commands -/

/-- A bank grants (R235, R236). -/
def doArbiterGrant (b : Fin 16) (s : State) : State :=
  match arbitrate s b (cycleOf s) with
  | some (w, c) => grant s b w c
  | none => s

/-- The next window of 512 cycles opens (R237): the grants made before it count in the old one; quotas restart, ages and pass masks
carry on (R241). -/
def doQuotaWindow (s : State) : State :=
  let c := windowOf false (cycleOf s) * 512 + 512
  let s := toInstant s (c * mainCycle)
  (List.range 16).foldl (fun s k => modArb (upTo s k (c - 1)) k (roll false c)) s

/-- A DDR5 channel grants (R242); a lost channel has no arbiter. -/
def doDdr5Grant (ch : Fin 4) (s : State) : State :=
  if !rb s Reg.hcDdr ch then s
  else match arbitrate s (16 + ch) (cycleOf s) with
    | some (w, c) => grant s (16 + ch) w c
    | none => s

/-- Requests leave their arbiters and their requesters without a grant: those at arbiter k for which `bad k` holds. -/
def dropRequests (s : State) (bad : Nat → ArbReq → Bool) : State :=
  let keep (k : Nat) (l : List ArbReq) : List ArbReq := l.filter (fun r => !bad k r)
  let arb := s.arb.map (fun e => (e.1, { e.2 with reqs := keep e.1 e.2.reqs, held := keep e.1 e.2.held }))
  { s with arb := arb.filter (fun e => e.2 ≠ Arb.reset) }

/-- The requests of a core that is lost leave every ranking (R203, R241). -/
def withdraw (s : State) (l : Nat) : State :=
  dropRequests s (fun k r => r.core == l && (if k < 16 then decide (r.port < 8) else r.port == 2))

/-- A scrub pass is running: some bank still holds its request (R245). -/
def scrubbing (s : State) : Bool := (List.range 16).any (fun b => (getArb s b).reqs.any (fun r => r.port == 13))

/-! ## Pair-link transfers (R243) -/

/-- A request of the Pair Link Unit in its parked queue of a bank (R240); which bank a burst lies in is a free value (log entry 2). -/
def askPair (s : State) (dir beats : Nat) : State :=
  let (b, s) := drawLe s 15
  request s b ⟨10, dir, cycleOf s, beats, 0, 0, 0⟩

/-- An incoming transfer lands in the 256 KiB receive buffer, which the unit's parked queue empties; its credits go back as each
burst is written. -/
def doPairLinkWrite (bytes : Nat) (s : State) : State :=
  if bytes = 0 ∨ 262144 < s.plu.rxBytes + bytes then s
  else askPair { s with plu := { s.plu with rxBytes := s.plu.rxBytes + bytes } } 0 ((bytes + 31) / 32)

/-- Outgoing bursts of 256 bytes a checkpoint takes. -/
def ckptBursts (c : Ckpt) : Nat := ((c.items.map itemBytes).sum + 255) / 256

/-- Lanes of the pair link that are up. -/
def lanesUp (s : State) : Nat := ((List.range 4).filter (fun i => rb s Reg.pluStatus (8 + i))).length

/-- Bursts of a checkpoint that have not had their grant are dropped, and keep no credits. -/
def dropOut (s : State) : State :=
  let stale (r : ArbReq) : Bool := r.port == 10 && r.core == 1
  let back := 32 * (s.arb.map (fun e => ((e.2.reqs ++ e.2.held).filter (fun r => decide (e.1 < 16) && stale r)).foldl (fun n r => n + r.beats) 0)).sum
  let s := dropRequests s (fun k r => decide (k < 16) && stale r)
  { s with plu := { s.plu with credits := min 262144 (s.plu.credits + back), outAsked := 0, outSent := 0 } }

/-- The last lane is down (R281, R282): the checkpoint being sent starts again when a lane is up, and the one arriving is interrupted.
A partner that then says it holds none is sent a full one again (R280). -/
def linkLost (s : State) : State :=
  let s := dropOut s
  { s with plu := { s.plu with coming := [], fullAsked := false } }

/-- The local grants of the outgoing bursts for which the credits are in hand are requested, while a lane is up (R243, R281). Burst j holds a page's lines of
bank j modulo 16 (R232). -/
def askOut (s : State) : State :=
  match s.plu.sending with
  | none => s
  | some c =>
    if lanesUp s = 0 then s else
    let a := s.plu.outAsked
    let n := min (s.plu.credits / 256) (ckptBursts c - a)
    let s := { s with plu := { s.plu with credits := s.plu.credits - 256 * n, outAsked := a + n } }
    (List.range 16).foldl (fun s b =>
      let k := ((List.range n).filter (fun j => (a + j) % 16 == b)).length
      if k = 0 then s else request s b ⟨10, 1, cycleOf s, 8 * k, 0, 0, 0⟩) s

/-- Returned credits. -/
def doCreditReturn (bytes : Nat) (s : State) : State := askOut { s with plu := { s.plu with credits := min 262144 (s.plu.credits + bytes) } }

/-! ## Partition entries (R117, R205, R233) -/

/-- The entry a pair of words stands for: base, length, write. -/
def ptRange (base size : Word) : Nat × Nat := (fld base 24 12 * 4096, fld size 13 0 * 4096)

/-- Ranges that have a byte in common. -/
def overlap (a b : Nat × Nat) : Bool := max a.1 b.1 < min (a.1 + a.2) (b.1 + b.2)

/-- Another function already holds a byte of the range with write permission. -/
def ptClash (s : State) (t : Fin 64) (r : Nat × Nat) : Bool :=
  (List.finRange 64).any (fun u => u != t && (List.range 8).any (fun j =>
    let e := Tab.get (0, 0) s.cmt.partNext (8 * u + j)
    bitOf e.2 31 && bitOf e.2 30 && overlap r (ptRange e.1 e.2)))

/-- The lowest-numbered reason for which an entry is refused (R233); 0 none. -/
def ptReason (s : State) (t : Fin 64) (base v : Word) : Nat :=
  let r := ptRange base v
  if t.val ≠ 0 ∧ 1 < tState s t then 1
  else if !bitOf v 31 then 0
  else if bitOf v 30 && ptClash s t r then 2
  else if overlap r (0x1EFF000, 0x101000) then 3
  else if r.2 = 0 ∨ smSize < r.1 + r.2 then 4
  else 0

/-- SMA_PT_SIZE: the entry, with the base SMA_PT_BASE holds, takes effect at the next swap (R233, R245). -/
def doPartitionEntryWrite (t : Fin 64) (j : Fin 8) (v : Word) (s : State) : State :=
  let v := v &&& 0xE0003FFF
  let base := rd s (Reg.smaPtBase t j)
  match ptReason s t base v with
  | 0 =>
    let s := cfgDirty (wr (wr s Reg.smaPtStat 0) (Reg.smaPtSize t j) v)
    { s with cmt := { s.cmt with partNext := Tab.put (0, 0) s.cmt.partNext (8 * t.val + j) (if bitOf v 31 then (base, v) else (0, 0)) } }
  | r => raise (wr s Reg.smaPtStat (W (1 + 2 * r))) Reg.smaIrq 2

def doSmaBClr (b : Fin 16) (v : Word) (s : State) : State := if bitOf v 0 then wr s (Reg.smaBMaxwait b) 0 else s
def doSmaDClr (ch : Fin 4) (v : Word) (s : State) : State := if bitOf v 0 then wr s (Reg.smaDMaxwait ch) 0 else s

def execArbiterGrant (b : Fin 16) (s : State) := ok (doArbiterGrant b s)
def execQuotaWindow (s : State) := ok (doQuotaWindow s)
def execDdr5Grant (ch : Fin 4) (s : State) := ok (doDdr5Grant ch s)
def execPairLinkWriteReceive (bytes : Nat) (s : State) := ok (doPairLinkWrite bytes s)
def execCreditReturn (bytes : Nat) (s : State) := ok (doCreditReturn bytes s)
def execPartitionEntryWrite (t : Fin 64) (j : Fin 8) (v : Word) (s : State) := ok (live s (doPartitionEntryWrite t j v))
def execSmaBClr (b : Fin 16) (v : Word) (s : State) := ok (live s (doSmaBClr b v))
def execSmaDClr (ch : Fin 4) (v : Word) (s : State) := ok (live s (doSmaDClr ch v))

end Sys2Proof.Machine
end

