-- ==== Sys2Proof/Machine/Archive.lean ====
section
/-!
DEFINITION. The waveform archive (R322 to R328): drives, the staging ring, row slots, formatting and transfers.
-/
namespace Sys2Proof.Machine

def modArc (s : State) (f : Archive → Archive) : State := { s with arc := f s.arc }
def getDrive (s : State) (d : Nat) : Drive := Tab.get .reset s.arc.drive d
def setDrive (s : State) (d : Nat) (x : Drive) : State := modArc s (fun a => { a with drive := Tab.put .reset a.drive d x })
def arcSlot (s : State) (n : Nat) : ArcSlot := Tab.get .reset s.arc.slots n
/-- ARC_ID. -/
def arcId (s : State) : Nat := rd64 s Reg.arcIdLo Reg.arcIdHi
def arcHead (s : State) : Nat := rd64 s Reg.arcHeadLo Reg.arcHeadHi

/-- Slots a drive of a capacity in bytes contributes (R323). -/
def driveSlots (capacity : Nat) : Nat := (capacity - 2 * 2 ^ 20) / 34848 / 1024 * 1024

/-- The slot range of a drive of this archive, present or not: first slot and count. -/
def driveRange (s : State) (d : Nat) : Option (Nat × Nat) :=
  match (getDrive s d).sblock with
  | some (id, b, n) => if id = arcId s then some (1024 * b, 1024 * n) else none
  | none => none

/-- A drive serves the archive: present, and its superblock carries ARC_ID (R326). -/
def serves (s : State) (d : Nat) : Bool := (getDrive s d).present && (driveRange s d).isSome

/-- The drive whose range holds a slot. -/
def driveOf (s : State) (n : Nat) : Option Nat :=
  (List.range 4).find? (fun d => match driveRange s d with | some (b, c) => b ≤ n && n < b + c | none => false)

/-- A slot lies on an available drive. -/
def slotAvail (s : State) (n : Nat) : Bool := match driveOf s n with | some d => serves s d | none => false

/-- End of the highest existing range, those of drives that have left the module's ports with it. -/
def rangesEnd (s : State) : Nat :=
  ((List.range 4).map (fun d => match driveRange s d with | some (b, c) => b + c | none => 0)).foldl max s.arc.top

/-- The first slot from `n` on that lies on an available drive. -/
def nextAvail (s : State) (n : Nat) : Option Nat :=
  if slotAvail s n then some n
  else
    let starts := (List.range 4).filterMap (fun d => if serves s d then (driveRange s d).bind (fun r => if n ≤ r.1 then some r.1 else none) else none)
    match starts with
    | [] => none
    | h :: t => some (t.foldl min h)

/-- The oldest written slot. -/
def tailSlot (s : State) : Nat :=
  match s.arc.slots.filter (fun e => e.2.written) with
  | [] => 0
  | h :: t => (t.foldl (fun a e => if e.2.seq < a.2.seq then e else a) h).1

/-- Show drives, totals, tail and backlog in their registers. -/
def showArc (s : State) : State :=
  let s := (List.range 4).foldl (fun s d =>
    let x := getDrive s d
    let s := wf s Reg.arcStatus d d (b2n x.present)
    let s := wf s Reg.arcStatus (4 + d) (4 + d) (b2n (serves s d))
    let s := wf s (Reg.arcDStatus d) 11 0
      (if x.present then 1 + 2 * b2n (serves s d) + 4 + x.width % 16 * 8 + x.rate % 16 * 128 + 2048 * b2n x.critical else 0)
    let r := (driveRange s d).getD (0, 0)
    wr (wr s (Reg.arcDBase d) (W (r.1 / 1024))) (Reg.arcDCount d) (W (r.2 / 1024))) s
  let s := wr64 s Reg.arcSlotsLo Reg.arcSlotsHi (rangesEnd s)
  let s := wr64 s Reg.arcTailLo Reg.arcTailHi (tailSlot s)
  wb (wr s Reg.arcBacklog (W s.arc.staging.length)) Reg.arcStatus 9 (decide (2 ^ 31 / 34848 < 2 * s.arc.staging.length))

/-- Rows that are not recorded (R325, R326). -/
def arcLose (s : State) (n : Nat) : State := if n = 0 then s else raise (bump s Reg.arcLost n) Reg.arcIrq 3

/-- A staged row with no values: the Loom recorded it as a gap, or its values were left out (R324). -/
def gapRow (row : Option Row) : Bool := row.all (·.gap)
/-- Leave a row's values out: its tick, flags and warp statuses stay (R324). -/
def leaveOut (row : Option Row) : Option Row := row.map (fun r => { r with gap := true })

/-- A closed row reaches the engine (R102, R324). -/
def archiveFeed (s : State) (row : Option Row) : State :=
  if !rb s Reg.loomCtrl 9 || !rb s Reg.arcCtrl 0 || !s.arc.ready then s
  else if rb s Reg.arcStatus 8 || !(List.range 4).any (serves s) then arcLose s 1
  else
    let full := decide (2 ^ 31 / 34848 ≤ s.arc.staging.length)
    showArc (askFree (modArc s (fun a => { a with staging := a.staging ++ [if full then leaveOut row else row] })) 0 0 (if full then 0 else 512))

/-- The next slot moves on (R325, R326): past the last available slot it wraps, or the archive is full. -/
def moveHead (s : State) (n : Nat) : State :=
  match nextAvail s n with
  | some m => wr64 s Reg.arcHeadLo Reg.arcHeadHi m
  | none =>
    match nextAvail s 0 with
    | none => s
    | some m =>
      if rb s Reg.arcCtrl 1 then wr64 s Reg.arcHeadLo Reg.arcHeadHi m
      else raise (wb s Reg.arcStatus 8 true) Reg.arcIrq 1

/-- An NVMe command ended with an error. -/
def arcErr (s : State) : State :=
  match driveOf s (arcHead s) with
  | some d => raise (bump s (Reg.arcDErr d)) Reg.arcIrq 5
  | none => s

/-- The value part of the head row has been written; a failed write leaves a row with no values (log entry 23). -/
def doArchiveValueWritten (ok : Bool) (s : State) : State :=
  match s.arc.staging, s.arc.stage with
  | row :: rest, .value =>
    if gapRow row then s
    else if ok then askFree (modArc s (fun a => { a with stage := .index })) 3 0 512
    else modArc (arcErr s) (fun a => { a with staging := leaveOut row :: rest })
  | _, _ => s

/-- The index part of the head row has been written, `written` last: the slot holds the row. A gap row has no value part. A
failed write is tried again. -/
def doArchiveIndexWritten (ok : Bool) (s : State) : State :=
  match s.arc.staging with
  | [] => s
  | row :: rest =>
    if !gapRow row && s.arc.stage == .value then s
    else if !ok then arcErr s
    else
      let h := arcHead s
      let q := rd64 s Reg.arcSeqLo Reg.arcSeqHi
      let s := modArc s (fun a => { a with
        staging := rest, stage := .value, slots := Tab.put .reset a.slots h ⟨q, gapRow row, true, row⟩ })
      let s := wr64 s Reg.arcSeqLo Reg.arcSeqHi (q + 1)
      let s := if gapRow row then raise (bump s Reg.arcGaps) Reg.arcIrq 2 else s
      let s := showArc (moveHead s (h + 1))
      if rb s Reg.arcStatus 8 then showArc (arcLose (modArc s (fun a => { a with staging := [] })) rest.length) else s

/-- A drive leaves (R326): the row being written to it is recorded as a gap, and the next slot jumps. -/
def doDriveRemove (d : Fin 4) (s : State) : State :=
  if !(getDrive s d).present then s
  else
    let here := driveOf s (arcHead s) == some d.val
    let s := setDrive s d { getDrive s d with present := false }
    let s := if here then
        moveHead (modArc s (fun a => { a with
          stage := .value, staging := match a.staging with | r :: t => leaveOut r :: t | [] => [] })) (arcHead s)
      else s
    let s := if (List.range 4).any (serves s) then s
      else arcLose (modArc s (fun a => { a with staging := [], stage := .value })) s.arc.staging.length
    raise (showArc s) Reg.arcIrq 0

/-- A drive is inserted: it serves again only when its superblock matches (R326). One whose namespace 1 the engine does not support
gives it no slots (R322). -/
def doDriveInsert (d : Fin 4) (drv : DriveInfo) (s : State) : State :=
  if (getDrive s d).present then s
  else
    let s := modArc s (fun a => { a with top := rangesEnd s })
    let fits := (drv.lba == 512 || drv.lba == 4096) && !drv.metadata
    let s := setDrive s d ⟨true, if fits then drv.sblock else none, if fits then driveSlots drv.capacity else 0, drv.width, drv.rate, drv.critical⟩
    let s := if slotAvail s (arcHead s) then s else moveHead s (arcHead s)
    raise (showArc s) Reg.arcIrq 0

/-- Empty a range of slots. -/
def blankRange (s : State) (b n : Nat) : State :=
  modArc s (fun a => { a with slots := a.slots.filter (fun e => e.1 < b || b + n ≤ e.1) })

def fmtRes (s : State) (r : Nat) : State := wr s Reg.arcFmtRes (W r)

/-- ARC_FMT for one drive. -/
def doFormatDrive (d : Fin 4) (s : State) : State :=
  let x := getDrive s d
  if !x.present then fmtRes s 5
  else
    let r := (driveRange s d).getD (rangesEnd s, x.slots / 1024 * 1024)
    if x.slots < r.2 ∨ r.2 = 0 then fmtRes s 1
    else if driveOf s (arcHead s) = some d.val then fmtRes s 2
    else if 2 ^ 33 < r.1 + r.2 then fmtRes s 4
    else
      let s := setDrive (blankRange s r.1 r.2) d { x with sblock := some (arcId s, r.1 / 1024, r.2 / 1024) }
      let s := if slotAvail s (arcHead s) then s else moveHead s (arcHead s)
      fmtRes (showArc s) 0

/-- ARC_FMT for all drives: a new archive identity, an empty archive. -/
def doFormatAll (s : State) : State :=
  if rb s Reg.loomCtrl 9 then fmtRes s 3
  else if !(List.range 4).any (fun d => (getDrive s d).present) then fmtRes s 5
  else
    let total := ((List.range 4).map (fun d => if (getDrive s d).present then (getDrive s d).slots / 1024 * 1024 else 0)).sum
    if 2 ^ 33 < total then fmtRes s 4
    else
      let (a, s) := drawWord s
      let (b, s) := drawWord s
      let s := wr (wr s Reg.arcIdLo a) Reg.arcIdHi b
      let id := arcId s
      let s := modArc s (fun x => { x with slots := [], staging := [], stage := .value, top := 0 })
      let (_, s) := (List.range 4).foldl (fun (acc : Nat × State) d =>
        let x := getDrive acc.2 d
        if x.present then (acc.1 + x.slots / 1024, setDrive acc.2 d { x with sblock := some (id, acc.1, x.slots / 1024) })
        else (acc.1, setDrive acc.2 d { x with sblock := none })) (0, s)
      let s := wr64 (wr64 s Reg.arcHeadLo Reg.arcHeadHi 0) Reg.arcSeqLo Reg.arcSeqHi 0
      fmtRes (showArc (wb s Reg.arcStatus 8 false)) 0

/-! ## Transfers (R327) -/

/-- The transfer that ARC_XFER_SLOT, CNT and DST name. -/
def xferOf (s : State) (v : Word) : Xfer :=
  ⟨v, rd64 s Reg.arcXferSlotLo Reg.arcXferSlotHi, rf s Reg.arcXferCnt 15 0, rd64 s Reg.arcXferDstLo Reg.arcXferDstHi⟩
/-- The slots of a transfer. -/
def Xfer.slots (x : Xfer) : List Nat := (List.range x.count).map (x.first + ·)

/-- ARC_XFER_CMD with go. -/
def doArchiveTransfer (v : Word) (s : State) : State :=
  let err (s : State) (n : Nat) : State := wr s Reg.arcXferStat (W (3 + 16 * n))
  let x := xferOf s v
  if !bitOf v 0 then s
  else if s.arc.xfer.isSome then wf s Reg.arcXferStat 7 4 4
  else if x.count = 0 ∨ rd64 s Reg.arcSlotsLo Reg.arcSlotsHi < x.first + x.count then err s 1
  else if !x.slots.all (slotAvail s) then err s 2
  else wb (wr (modArc s (fun a => { a with xfer := some x })) Reg.arcXferStat 1) Reg.arcStatus 10 true

/-- A warp entry of an archived row: status word and values; in a slot without a row's values the warp entries are all missing
(R327). -/
def arcEntry (x : ArcSlot) (w : Nat) : Word × List Word :=
  match x.row with
  | some r =>
    if x.gap then (2, List.replicate 16 0)
    else match r.warps.find? (fun e => e.1 == w) with
    | some (_, e) => (e.status, (e.vals ++ List.replicate 16 0).take 16)
    | none => (0, List.replicate 16 0)
  | none => (2, List.replicate 16 0)

/-- The value part of a slot: 32 768 bytes (R323). -/
def valuePart (x : ArcSlot) : List Byte :=
  (List.range 512).flatMap (fun w => (arcEntry x w).2.flatMap (fun v => toLe 4 v.toNat))

/-- The row header of R93 in an archived row, with its last three words. -/
def arcHeader (x : ArcSlot) (tail : List Byte) : List Byte :=
  match x.row with
  | some r => toLe 4 r.tick ++ toLe 2 (r.tick / 2 ^ 32) ++ toLe 2 r.stepcnt ++ toLe 4 r.flags.toNat ++ toLe 4 0 ++ toLe 4 r.d ++ tail
  | none => toLe 20 0 ++ tail

/-- The index part of a slot: 2080 bytes (R323). -/
def indexPart (x : ArcSlot) : List Byte :=
  arcHeader x (toLe 8 x.seq ++ toLe 4 (b2n x.gap + 2 * b2n x.written)) ++
  (List.range 512).flatMap (fun w => toLe 4 (arcEntry x w).1.toNat)

/-- A slot as a row in the layout of R93: 40 992 bytes. -/
def rowPart (x : ArcSlot) : List Byte :=
  arcHeader x (toLe 12 0) ++ (List.range 512).flatMap (fun w =>
    let e := arcEntry x w
    toLe 4 e.1.toNat ++ toLe 4 0 ++ e.2.flatMap (fun v => toLe 4 v.toNat) ++ toLe 8 0)

/-- The transfer in progress ends: its bytes are at the destination, or the host returned an error, or a drive of it has left. -/
def doTransferDone (hostErr : Bool) (s : State) : State :=
  match s.arc.xfer with
  | none => s
  | some x =>
    let s := wb (modArc s (fun a => { a with xfer := none })) Reg.arcStatus 10 false
    let xs := x.slots.map (arcSlot s)
    let done (s : State) : State := raise (wr s Reg.arcXferStat 2) Reg.arcIrq 4
    if !x.slots.all (slotAvail s) then wr s Reg.arcXferStat (W (3 + 16 * 2))
    else if bitOf x.cmd 1 then
      let base := x.dst % 2 ^ 36
      done (askSpread { s with ddr := pokes s.ddr base (xs.flatMap rowPart) } 3 base (40992 * xs.length))
    else if hostErr then wr s Reg.arcXferStat (W (3 + 16 * 3))
    else
      done (emit s (.dma 0 x.dst (xs.flatMap (fun r => (if bitOf x.cmd 2 then valuePart r else []) ++ (if bitOf x.cmd 3 then indexPart r else [])))))

/-! ## Meanings -/

def execArchiveValueWritten (okay : Bool) (s : State) := ok (doArchiveValueWritten okay s)
def execArchiveIndexWritten (okay : Bool) (s : State) := ok (doArchiveIndexWritten okay s)
def execDriveRemove (d : Fin 4) (s : State) := ok (doDriveRemove d s)
def execDriveInsert (d : Fin 4) (drv : DriveInfo) (s : State) := ok (doDriveInsert d drv s)
def execFormatDrive (d : Fin 4) (s : State) := ok (live s (doFormatDrive d))
def execFormatAll (s : State) := ok (live s doFormatAll)
def execArchiveTransfer (v : Word) (s : State) := ok (live s (doArchiveTransfer v))
def execTransferDone (hostErr : Bool) (s : State) := ok (doTransferDone hostErr s)

end Sys2Proof.Machine
end

