-- ==== Sys2Proof/Machine/Clu.lean ====
section
/-!
DEFINITION. The Control Law Units (chapter 09): loop words, one evaluation, min-select groups, injection, capture, and the CLU
instructions (op 0x50 to 0x53; R152, R153).
-/
namespace Sys2Proof.Machine

/-! ## Loops and their words (R214, R221) -/

def lKey (c : Fin 8) (i : Fin 32) : Nat := 32 * c + i
def getLoop (s : State) (c : Fin 8) (i : Fin 32) : LoopBox := Tab.get .reset s.clu.loop (lKey c i)
def modLoop (s : State) (c : Fin 8) (i : Fin 32) (f : LoopBox → LoopBox) : State :=
  { s with clu := { s.clu with loop := Tab.put .reset s.clu.loop (lKey c i) (f (getLoop s c i)) } }
/-- Offset of loop word j. -/
def loopReg (c : Fin 8) (i : Fin 32) (j : Nat) : Nat := Reg.cluLMode c i + 4 * j
def loopWord (s : State) (c : Fin 8) (i : Fin 32) (j : Nat) : Word := rd s (loopReg c i j)
def loopOwner (s : State) (c : Fin 8) (i : Fin 32) : Nat := rf s (Reg.cluLOwn c i) 5 0
def loopMode (s : State) (c : Fin 8) (i : Fin 32) : Nat := fld (loopWord s c i 0) 1 0

/-- Q15 words: setpoint, feedforward, manual output, amplitude, and of each bank DF, UMIN, UMAX, RATE. -/
def isQ15Word (j : Nat) : Bool := [1, 2, 3, 5, 11, 12, 13, 14, 19, 20, 21, 22].contains j
/-- What a parameter word keeps of a written value. -/
def loopMask (j : Nat) (v : Word) : Word :=
  if isQ15Word j then sx (v.setWidth 16)
  else match j with
    | 0 => v &&& 0x1F
    | 4 => v &&& 1
    | 6 | 7 => v
    | 15 => v &&& 0xFFFFFF
    | _ => v &&& 0xFFFFF

/-- Words CSET, CSETT and the PF may write: the parameter words and STAT. -/
def loopWritable (j : Nat) : Bool := j < 23 || j == 30

/-- Write a loop word now: a parameter word, or ones to the sticky bits of STAT. -/
def loopWrite (s : State) (c : Fin 8) (i : Fin 32) (j : Nat) (v : Word) : State :=
  if j = 30 then wr s (loopReg c i 30) (loopWord s c i 30 &&& ~~~ (v &&& 0x3F))
  else if j < 23 then wr s (loopReg c i j) (loopMask j v)
  else s

/-- Set a sticky bit of STAT (R217); CLU_IRQ.sticky on a change. -/
def setSticky (s : State) (c : Fin 8) (i : Fin 32) (b : Nat) : State :=
  if bitOf (loopWord s c i 30) b then s else raise (wb s (loopReg c i 30) b true) (Reg.cluIrq c) 0

/-- A state word as it reads (R214): I_LO, I_HI, CAND, OUT, ERR, DSTATE, STAT, PV. -/
def loopStateWord (sticky : Word) (x : LoopSt) (j : Nat) : Word :=
  match j with
  | 24 => wi x.i
  | 25 => wi (x.i.fdiv (2 ^ 32))
  | 26 => wi x.cand
  | 27 => wi x.out
  | 28 => wi x.err
  | 29 => wi x.d
  | 30 => (sticky &&& 0x3F) ||| W (x.stat % 128 * 256)
  | _ => wi x.pv

/-- A loop word as a tick program reads it (working state when evaluated in the tick, R220), or as the PF reads it. -/
def loopRead (s : State) (c : Fin 8) (i : Fin 32) (j : Nat) (core : Bool) : Word :=
  let b := getLoop s c i
  if j < 23 then loopWord s c i j
  else if j = 23 then 0
  else loopStateWord (loopWord s c i 30) (if core then b.wrk.getD b.com else b.com) j

/-! ## Injection (R227, R228) -/

/-- Taps of the PRBS polynomials by order. -/
def prbsTaps (n : Nat) : List Nat :=
  match n with
  | 7 => [7, 6] | 8 => [8, 6, 5, 4] | 9 => [9, 5] | 10 => [10, 7] | 11 => [11, 9] | 12 => [12, 11, 10, 4]
  | 13 => [13, 12, 11, 8] | 14 => [14, 13, 12, 2] | _ => [15, 14]

/-- One shift of the Fibonacci LFSR: stage k is bit k − 1, the output is stage n. -/
def prbsShift (n x : Nat) : Nat :=
  let fb := (prbsTaps n).foldl (fun a k => a + x / 2 ^ (k - 1) % 2) 0 % 2
  (2 * x + fb) % 2 ^ n

/-- The signal of an evaluation, and the generator after it; none when the injection has reached its duration. -/
def injStep (g : Inj) : Int × Option Inj :=
  let sig : Int := match g.kind with
    | 1 | 2 => sineOf g.amp (g.phase / 2 ^ 32)
    | 3 => if g.lfsr / 2 ^ (g.order - 1) % 2 = 1 then g.amp else -g.amp
    | _ => g.amp
  let inc := if g.kind = 2 then sweepInc g.f0 g.f1 g.dur g.k else g.f0 * 2 ^ 32
  let shift := g.kind = 3 ∧ (g.k + 1) % (max 1 (g.f1 % 65536)) = 0
  let g' := { g with phase := (g.phase + inc) % 2 ^ 64, lfsr := if shift then prbsShift g.order g.lfsr else g.lfsr, k := g.k + 1, fresh := false }
  (sig, if g.dur ≠ 0 ∧ g.dur ≤ g.k + 1 then none else some g')

/-- Apply an injection control word (R227). An accepted request waits for the loop's next evaluation, and reaches the committed
state at the next swap, so that the state words change at swaps only (R220). DESIGN CHOICE (log entry 39): a request accepted in a
tick that does not commit stays accepted, like a CSET; the manual does not say. -/
def inject (s : State) (c : Fin 8) (i : Fin 32) (v : Word) (fromPf : Bool) : State :=
  let kind := fld v 2 0
  let order := fld v 7 4
  let f0 := (loopWord s c i 6).toNat
  let f1 := (loopWord s c i 7).toNat
  let dur := fld (loopWord s c i 15) 23 0
  let refused := 5 ≤ kind || (kind == 3 && (order < 7 || 15 < order || f1 % 65536 == 0)) ||
    (kind == 2 && (f0 == 0 || f1 == 0 || dur < 2)) || (fromPf && tState s (ten (loopOwner s c i)) != 4)
  if refused then
    let s := raise (setSticky s c i 5) (Reg.cluIrq c) 5
    if fromPf then wr s (Reg.cluInjRes c) 1 else s
  else
    let s := if fromPf then wr s (Reg.cluInjRes c) 0 else s
    let g : Option Inj := if kind = 0 then none else some
      { kind := kind, point := fld v 3 3, order := order, amp := q15 (loopWord s c i 5), f0 := f0, f1 := f1, dur := dur, phase := 0,
        lfsr := 2 ^ order - 1, k := 0, fresh := true }
    modLoop s c i (fun b => { b with req := some g, taken := false })

/-- A state with a generator in place of its own. -/
def LoopSt.withInj (x : LoopSt) (g : Option Inj) : LoopSt := { x with inj := g, stat := x.stat % 64 + if g.isSome then 64 else 0 }

/-- The state an evaluation starts from: the committed one, with an accepted injection request. -/
def LoopBox.start (b : LoopBox) : LoopSt := match b.req with | some g => b.com.withInj g | none => b.com

/-! ## One evaluation (R215 to R218) -/

/-- scale(k, y) of R215. -/
def scaleQ (k : Word) (y : Int) : Int :=
  let m := q15 k
  let x := (BitVec.ofNat 4 (fld k 19 16)).toInt
  if 0 ≤ x then m * y * 2 ^ x.toNat else rne (m * y) (-x).toNat

/-- A loop's parameter words, as an evaluation reads them. -/
structure LoopPar where
  mode : Nat
  rev : Bool
  dOnPv : Bool
  irst : Bool
  sp : Int
  ff : Int
  man : Int
  kp : Word
  ki : Word
  kd : Word
  df : Int
  umin : Int
  umax : Int
  rate : Int

def loopPar (s : State) (c : Fin 8) (i : Fin 32) : LoopPar :=
  let w := loopWord s c i
  let b := if bitOf (w 4) 0 then 16 else 8
  let m := w 0
  { mode := fld m 1 0, rev := bitOf m 2, dOnPv := bitOf m 3, irst := bitOf m 4, sp := q15 (w 1), ff := q15 (w 2), man := q15 (w 3),
    kp := w b, ki := w (b + 1), kd := w (b + 2), df := q15 (w (b + 3)), umin := q15 (w (b + 4)), umax := q15 (w (b + 5)),
    rate := q15 (w (b + 6)) }

/-- What an evaluation answers: the new state, sticky bits sat and ova (fs bits 0 and 1), lim_inv, inj_done. -/
structure EvalOut where
  st : LoopSt
  fl : Word
  limInv : Bool
  done : Bool

/-- One evaluation from the committed state. -/
def evalLoop (p : LoopPar) (cs : LoopSt) (pv : Int) : EvalOut :=
  let (sig, inj') := match cs.inj with | some g => injStep g | none => (0, none)
  let done := cs.inj.isSome && inj'.isNone
  let point := match cs.inj with | some g => g.point | none => 2
  let injBit := if inj'.isSome then 64 else 0
  if p.mode = 0 then
    ⟨{ cs with cand := 0, stat := injBit, inj := inj', lastInj := sig, u := 0, vh := cs.i, off := true }, 0, false, done⟩
  else
    let (sp, f0) := if point = 0 then satq15 (p.sp + sig) else (p.sp, 0)
    let (e, f1) := if p.rev then satq15 (pv - sp) else satq15 (sp - pv)
    let (x, f2) := if p.dOnPv then satq15 (-pv) else (e, 0)
    let (xp0, f3) := if p.dOnPv then satq15 (-cs.pv) else (cs.err, 0)
    let xp := if p.irst then x else xp0
    let i0 := if p.irst then 0 else cs.i
    let d0 := if p.irst then 0 else cs.d
    let (i1, f4) := if p.mode = 1 then sata (i0 + scaleQ p.ki e) else (i0, 0)
    let (dx, f5) := satq15 (x - xp)
    let (dq, f6) := satq15 (rne (scaleQ p.kd dx) 15)
    let (dd, f7) := satq15 (dq - d0)
    let (d, f8) := satq15 (d0 + rne (p.df * dd) 15)
    let pTerm := scaleQ p.kp e
    let (v, f9) := sata (pTerm + i1 + d * 2 ^ 15 + p.ff * 2 ^ 15)
    let (u0, f10) := satq15 (rne v 15)
    let hi := p.umax
    let lo := min p.umin hi
    let lim (y : Int) : Int := min (max y lo) hi
    let (u, rated, f11) : Int × Bool × Word :=
      if p.mode = 1 then
        let u1 := lim u0
        if 0 < p.rate then
          let (a, fa) := satq15 (cs.out - p.rate)
          let (b, fb) := satq15 (cs.out + p.rate)
          let u2 := min (max u1 a) b
          (u2, u2 != u1, fa ||| fb)
        else (u1, false, 0)
      else if p.mode = 2 then (lim p.man, false, 0)
      else (cs.out, false, 0)
    let track := p.mode != 1 || f10 != 0 || u != u0
    let (i2, f12) := if track then sata (i1 + u * 2 ^ 15 - v) else (i1, 0)
    let vh := pTerm + i2 + d * 2 ^ 15 + p.ff * 2 ^ 15
    let (cand, f13) : Int × Word :=
      if p.mode = 1 ∧ point = 1 then let (y, fy) := satq15 (u + sig); (lim y, fy) else (u, 0)
    let want := if p.mode = 1 then u0 else if p.mode = 2 then p.man else cs.out
    let stat := b2n (p.mode != 3 && hi < want) + 2 * b2n (p.mode != 3 && want < lo) + 4 * b2n rated + injBit
    ⟨{ i := i2, cand := cand, out := cs.out, err := e, d := d, pv := pv, sp := sp, stat := stat, inj := inj', lastInj := sig, u := u, vh := vh, off := false },
      f0 ||| f1 ||| f2 ||| f3 ||| f4 ||| f5 ||| f6 ||| f7 ||| f8 ||| f9 ||| f10 ||| f11 ||| f12 ||| f13, p.umax < p.umin, done⟩

/-! ## Min-select groups (R223, R224) -/

/-- Members of a group. -/
def members (s : State) (c k : Fin 8) : List (Fin 32) := (List.finRange 32).filter (fun i => rb s (Reg.cluSgMemb c k) i)
/-- The group a loop belongs to. -/
def groupOf (s : State) (c : Fin 8) (i : Fin 32) : Option (Fin 8) :=
  (List.finRange 8).find? (fun k => rb s (Reg.cluSgMemb c k) i)

/-- The selection of a complete group, in the working state: members evaluated in Off take no part. Answers whether a tracking
sum saturated. -/
def select (s : State) (c k : Fin 8) : Bool × State :=
  let ms := members s c k
  let wrk (i : Fin 32) : LoopSt := (getLoop s c i).wrk.getD .reset
  let live := ms.filter (fun i => !(wrk i).off)
  let best := live.foldl (fun (b : Option (Fin 32)) i =>
    match b with | none => some i | some j => if (wrk i).cand < (wrk j).cand then some i else b) none
  let sel : Int := match best with | some j => (wrk j).cand | none => 0
  let tracked (i : Fin 32) : Int × Word := let x := wrk i; sata (x.i + (sel - (x.cand - x.u)) * 2 ^ 15 - x.vh)
  let losers := live.filter (fun i => best != some i)
  let s := ms.foldl (fun s i =>
    let x := wrk i
    if x.off then modLoop s c i (fun b => { b with wrk := some { x with out := sel } })
    else if best = some i then modLoop s c i (fun b => { b with wrk := some { x with out := sel, stat := x.stat % 8 + 16 + x.stat / 32 * 32 } })
    else
      let s := if (tracked i).2 = 0 then s else setSticky s c i 1
      modLoop s c i (fun b => { b with wrk := some { x with i := (tracked i).1, out := sel, stat := x.stat % 8 + 8 + x.stat / 32 * 32 } })) s
  (losers.any (fun i => (tracked i).2 != 0), { s with clu := { s.clu with resolved := Tab.ins s.clu.resolved (8 * c.val + k) (best.map (·.val)) } })

/-- Evaluate a loop in the working state: the candidate, whether something saturated (R217), and the state (R216, R219, R223). A loop
whose owner is neither Running nor Test is not evaluated, and answers its committed candidate (R222). -/
def ceval (s : State) (c : Fin 8) (i : Fin 32) (pv : Int) : Int × Bool × State :=
  let b := getLoop s c i
  match b.wrk with
  | some x => (x.cand, false, modLoop s c i (fun b => { b with wrk := some { x with stat := x.stat % 32 + 32 + x.stat / 64 * 64 } }))
  | none =>
    if !tActive s (ten (loopOwner s c i)) then (b.com.cand, false, s) else
    let p := loopPar s c i
    let r := evalLoop p b.start pv
    let g := groupOf s c i
    let st := if g.isSome then r.st else { r.st with out := r.st.cand }
    let s := modLoop s c i (fun b => { b with wrk := some st, taken := b.req.isSome, trig := b.start.inj.any (·.fresh) })
    let s := if bitOf r.fl 0 then setSticky s c i 0 else s
    let s := if bitOf r.fl 1 then setSticky s c i 1 else s
    let s := if r.limInv then setSticky s c i 2 else s
    let s := if r.done then raise (setSticky s c i 4) (Reg.cluIrq c) 2 else s
    let s := if p.irst && p.mode != 0 then wb s (loopReg c i 0) 4 false else s
    let (sat, s) := match g with
      | some k => if (members s c k).all (fun j => (getLoop s c j).wrk.isSome) then select s c k else (false, s)
      | none => (false, s)
    (st.cand, sat || r.fl != 0, s)

/-! ## Instructions (R152, R153, R213) -/

/-- The loop and word index a CLU operand names, when it is granted and its reserved bits are 0. -/
def cluOperand (s : State) (l : Fin 64) (v : Word) : Option (Fin 8 × Fin 32 × Nat) :=
  let c : Fin 8 := Fin.ofNat 8 (l / 8)
  let i : Fin 32 := Fin.ofNat 32 (fld v 4 0)
  if fld v 31 13 = 0 ∧ fld v 7 5 = 0 ∧ loopOwner s c i = coreOwner s l then some (c, i, fld v 12 8) else none

/-- When a request issued at t0 is served: after the core's own outstanding one (R213), and after the CLU is free, at most 128
cycles later. Answers issue cycle and wait. Requests arrive in the order of the queue, those of one cycle in ascending core order
(R153; log entry 39). -/
def cluServe (s : State) (l : Fin 64) (t0 : Nat) : Nat × Nat :=
  let t1 := max t0 (getCore s l).clu
  (t1, min 128 (Tab.get 0 s.clu.busyTo (l / 8) - t1))

/-- Note a wait of the tick (CLU_STATUS). -/
def noteClu (s : State) (l : Fin 64) (wait : Nat) : State :=
  { s with clu := { s.clu with maxWait := Tab.put 0 s.clu.maxWait (l / 8) (max wait (Tab.get 0 s.clu.maxWait (l / 8))) } }

def doCeval (l : Fin 64) (f : FmtA) (s : State) : State :=
  runCore l true f.pr [f.s1.toNat, f.s2.toNat] none s (fun t0 c s =>
    match cluOperand s l (c.ctx.rg f.s1.toNat) with
    | none => trapData s l
    | some (cl, i, _) =>
      let (t1, wait) := cluServe s l t0
      let (cand, sat, s) := ceval s cl i (q15 (c.ctx.rg f.s2.toNat))
      let s := noteClu { s with clu := { s.clu with busyTo := Tab.put 0 s.clu.busyTo (l / 8) (t1 + wait + 16) } } l wait
      let s := modCore s l (fun k => { k with clu := t1 + wait + 16, cluEnd := t1 + wait + 16 })
      retire s l t1 1 (16 + wait) false (Wr.reg f.d.toNat (wi cand) (if sat then fsClus else 0)))

def doCset (l : Fin 64) (f : FmtA) (s : State) : State :=
  runCore l (f.d == 0) f.pr [f.s1.toNat, f.s2.toNat] none s (fun t0 c s =>
    match cluOperand s l (c.ctx.rg f.s1.toNat) with
    | none => trapData s l
    | some (cl, i, j) =>
      if !loopWritable j then trapData s l
      else
        let (t1, wait) := cluServe s l t0
        let s := noteClu (loopWrite s cl i j (c.ctx.rg f.s2.toNat)) l wait
        retire (modCore s l (fun k => { k with clu := t1 + wait + 2, cluEnd := t1 + wait + 2 })) l t1 1 1 false Wr.none)

/-- CSETT: one transaction entry; no effect once the transaction is aborted. -/
def doCsett (l : Fin 64) (f : FmtA) (s : State) : State :=
  runCore l (f.d == 0) f.pr [f.s1.toNat, f.s2.toNat] none s (fun t0 c s =>
    if aborted s (coreOwner s l) then retire s l t0 1 1 false Wr.none
    else match cluOperand s l (c.ctx.rg f.s1.toNat) with
    | none => trapData s l
    | some (cl, i, j) =>
      if !loopWritable j then trapData s l
      else retire (stage s l (.loopWord cl i (Fin.ofNat 32 j) (c.ctx.rg f.s2.toNat))) l t0 1 1 false Wr.none)

def doCget (l : Fin 64) (f : FmtA) (s : State) : State :=
  runCore l (f.s2 == 0) f.pr [f.s1.toNat] none s (fun t0 c s =>
    match cluOperand s l (c.ctx.rg f.s1.toNat) with
    | none => trapData s l
    | some (cl, i, j) =>
      if j = 23 then trapData s l
      else
        let (t1, wait) := cluServe s l t0
        let v := loopRead s cl i j true
        retire (modCore (noteClu s l wait) l (fun k => { k with clu := t1 + wait + 4 })) l t1 1 (4 + wait) false (Wr.reg f.d.toNat v))

def doCinj (l : Fin 64) (f : FmtA) (s : State) : State :=
  runCore l (f.d == 0) f.pr [f.s1.toNat, f.s2.toNat] none s (fun t0 c s =>
    match cluOperand s l (c.ctx.rg f.s1.toNat) with
    | none => trapData s l
    | some (cl, i, _) =>
      let (t1, wait) := cluServe s l t0
      let s := noteClu (inject s cl i (c.ctx.rg f.s2.toNat) false) l wait
      retire (modCore s l (fun k => { k with clu := t1 + wait + 2, cluEnd := t1 + wait + 2 })) l t1 1 1 false Wr.none)

def execCeval (l : Fin 64) (f : FmtA) (s : State) := ok (doCeval l f s)
def execCset (l : Fin 64) (f : FmtA) (s : State) := ok (doCset l f s)
def execCsett (l : Fin 64) (f : FmtA) (s : State) := ok (doCsett l f s)
def execCget (l : Fin 64) (f : FmtA) (s : State) := ok (doCget l f s)
def execCinj (l : Fin 64) (f : FmtA) (s : State) := ok (doCinj l f s)

/-! ## Registers with a row of their own -/

/-- A PF write of a loop word (R221, R231): state words but STAT ignore it. -/
def doLoopWordWrite (c : Fin 8) (i : Fin 32) (j : Fin 32) (v : Word) (s : State) : State := loopWrite s c i j v

/-- Every word of a loop set to 0 (R212). -/
def clearLoop (s : State) (c : Fin 8) (i : Fin 32) : State :=
  (List.range 31).foldl (fun s j => if j < 23 ∨ j = 30 then wr s (loopReg c i j) 0 else s) (modLoop s c i (fun _ => .reset))

/-- CLU_L_OWN (R212, R261): accepted only while the old and the new owner are Empty or Stopped, and in force from the next swap, where
the loop is cleared; else HIF_IRQ.own_rej sets. -/
def doCluLOwnWrite (c : Fin 8) (i : Fin 32) (v : Word) (s : State) : State :=
  let new := fld v 5 0
  let old := loopOwner s c i
  if new = old ∨ (ownerFree s old && ownerFree s new) then
    cfgDirty { s with cmt := { s.cmt with waiting := s.cmt.waiting ++ [(Reg.cluLOwn c i, W new)] } }
  else raise s Reg.hifIrq 6

/-- CLU_SG_MEMB (R223). -/
def doCluSgMembWrite (c : Fin 8) (k : Fin 8) (v : Word) (s : State) : State :=
  let named : List (Fin 32) := (List.finRange 32).filter (fun i : Fin 32 => bitOf v i.val)
  let owner := match named with | i :: _ => loopOwner s c i | [] => 0
  let good := named.length ≤ 8 && named.all (fun i => loopOwner s c i == owner && owner != 0) &&
    ownerFree s owner && (members s c k).all (fun i => ownerFree s (loopOwner s c i)) &&
    named.all (fun i => match groupOf s c i with | some g => g == k | none => true)
  if good then wb (wr s (Reg.cluSgMemb c k) v) (Reg.cluSgStat c k) 9 false
  else wb s (Reg.cluSgStat c k) 9 true

/-- CLU_INJ_CMD (R227): go, and the loop in [4:0]; the control word is in CLU_INJ_WORD. -/
def doInjCmd (c : Fin 8) (v : Word) (s : State) : State :=
  if bitOf v 31 then inject s c (Fin.ofNat 32 (fld v 4 0)) (rd s (Reg.cluInjWord c)) true else s

/-! ## Response capture (R229, R230) -/

def getCap (s : State) (c : Fin 8) (n : Fin 2) : Cap := Tab.get .reset s.clu.cap (2 * c + n)
def modCap (s : State) (c : Fin 8) (n : Fin 2) (f : Cap → Cap) : State :=
  { s with clu := { s.clu with cap := Tab.put .reset s.clu.cap (2 * c + n) (f (getCap s c n)) } }
def capArmed (s : State) (c : Fin 8) (n : Fin 2) : Bool := rb s (Reg.cluCapStat c n) 17
def capRunning (s : State) (c : Fin 8) (n : Fin 2) : Bool := rb s (Reg.cluCapStat c n) 18

/-- Show the channel's position: samples stored, wrapped, tick number of sample 0. -/
def showCap (s : State) (c : Fin 8) (n : Fin 2) : State :=
  let x := getCap s c n
  let s := wf s (Reg.cluCapStat c n) 16 0 x.buf.length
  let t := x.stamps.headD 0
  wr (wr s (Reg.cluCapT0Lo c n) (W t)) (Reg.cluCapT0Hi c n) (W (t / 2 ^ 32))

/-- The channel stops: done, and its interrupt. -/
def capDone (s : State) (c : Fin 8) (n : Fin 2) : State :=
  let s := wb (wb (wb s (Reg.cluCapStat c n) 17 false) (Reg.cluCapStat c n) 18 false) (Reg.cluCapStat c n) 19 true
  raise (showCap s c n) (Reg.cluIrq c) (3 + n)

/-- CLU_CAP_CMD.arm: the channel starts at the next swap or at the trigger; no effect while armed or running. -/
def doCapArm (c : Fin 8) (n : Fin 2) (s : State) : State :=
  if capArmed s c n || capRunning s c n then s
  else showCap (wr (modCap s c n (fun _ => .reset)) (Reg.cluCapStat c n) (oneBit 17)) c n

/-- CLU_CAP_CMD.stop: in ring mode, CLU_CAP_POST further samples. -/
def doCapStop (c : Fin 8) (n : Fin 2) (s : State) : State :=
  if capRunning s c n && rb s (Reg.cluCapCtrl c n) 8 then
    match rf s (Reg.cluCapPost c n) 15 0 with
    | 0 => capDone s c n
    | p => modCap s c n (fun x => { x with post := some p })
  else s

/-- A read of CLU_CAP_RDDATA: two samples, and the pointer advances by 2. -/
def doCapRead (c : Fin 8) (n : Fin 2) (s : State) : State :=
  let p := rf s (Reg.cluCapRdptr c n) 15 0 / 2 * 2
  let b := (getCap s c n).buf
  let s := wr s (Reg.cluCapRddata c n) (W ((b.getD p 0).toNat + 65536 * (b.getD (p + 1) 0).toNat))
  wr s (Reg.cluCapRdptr c n) (W ((p + 2) % 65536))

def doCluCapCtrlWrite (c : Fin 8) (n : Fin 2) (v : Word) (s : State) : State :=
  if capArmed s c n || capRunning s c n then s else wr s (Reg.cluCapCtrl c n) (v &&& 0xFF03FF)

/-- The committed value of a signal code. -/
def capSignal (x : LoopSt) (code : Nat) : Int :=
  match code with
  | 0 => x.pv | 1 => x.sp | 2 => x.err | 3 => x.cand | 4 => x.out | 5 => (satq15 (rne x.i 15)).1 | 6 => x.d | _ => x.lastInj

/-- A channel at a swap: `evaluated` says whether the loop was evaluated by a committing tenant, `trig` whether that
evaluation had a newly accepted injection. Without an evaluation the committed value repeats. -/
def capSwap (s : State) (c : Fin 8) (n : Fin 2) (evaluated trig : Bool) : State :=
  let ctl := rd s (Reg.cluCapCtrl c n)
  let start := capArmed s c n && (!bitOf ctl 9 || trig)
  let s := if start then wb (wb s (Reg.cluCapStat c n) 17 false) (Reg.cluCapStat c n) 18 true else s
  if !capRunning s c n then s
  else
    let x := getCap s c n
    if x.skip ≠ 0 then modCap s c n (fun x => { x with skip := x.skip - 1 })
    else
      let v : BitVec 16 := BitVec.ofInt 16 (capSignal (getLoop s c (Fin.ofNat 32 (fld ctl 4 0))).com (fld ctl 7 5))
      let s := if evaluated then s else bump s (Reg.cluCapHold c n)
      let full := 65536 ≤ x.buf.length
      let stamp := s.time.tick % 2 ^ 48 + rf s Reg.timeStepcnt 15 0 * 2 ^ 48
      let s := if full then wb s (Reg.cluCapStat c n) 20 true else s
      let s := showCap (modCap s c n (fun x => { x with
        buf := (if full then x.buf.drop 1 else x.buf) ++ [v]
        stamps := (if full then x.stamps.drop 1 else x.stamps) ++ [stamp]
        skip := fld ctl 23 16
        count := x.count + 1
        post := x.post.map (· - 1) })) c n
      if bitOf ctl 8 then (if x.post = some 1 then capDone s c n else s)
      else if x.buf.length = 65535 then capDone s c n else s

def execLoopWordWrite (c : Fin 8) (i : Fin 32) (j : Fin 32) (v : Word) (s : State) := ok (live s (doLoopWordWrite c i j v))
def execCluLOwnWrite (c : Fin 8) (i : Fin 32) (v : Word) (s : State) := ok (live s (doCluLOwnWrite c i v))
def execCluSgMembWrite (c : Fin 8) (k : Fin 8) (v : Word) (s : State) := ok (live s (doCluSgMembWrite c k v))
def execInjCmd (c : Fin 8) (v : Word) (s : State) := ok (live s (doInjCmd c v))
def execCapArm (c : Fin 8) (n : Fin 2) (s : State) := ok (live s (doCapArm c n))
def execCapStop (c : Fin 8) (n : Fin 2) (s : State) := ok (live s (doCapStop c n))
def execCapRead (c : Fin 8) (n : Fin 2) (s : State) := ok (live s (doCapRead c n))
def execCluCapCtrlWrite (c : Fin 8) (n : Fin 2) (v : Word) (s : State) := ok (live s (doCluCapCtrlWrite c n v))

/-! ## At the deadline and the swap (R220, R222, R224) -/

/-- Groups at the deadline (R224): one evaluated in part is incomplete; CLU_SG_STAT.incomplete tells of this deadline alone (R231). -/
def cluDeadline (s : State) : State :=
  each 8 (fun c s => each 8 (fun k s =>
    let ms := members s c k
    let ev := ms.filter (fun i => (getLoop s c i).wrk.isSome)
    if ms.isEmpty || ev.isEmpty || ev.length == ms.length then wb s (Reg.cluSgStat c k) 8 false
    else
      let s := raise (wb s (Reg.cluSgStat c k) 8 true) (Reg.cluIrq c) 1
      ms.foldl (fun s i => setSticky s c i 3) s) s) s

/-- A loop at a swap: the working state of a committing owner becomes the committed one, and an accepted injection request that it
has not taken joins it (R220, R227); a generator of an owner that is neither Running nor Test stops (R222). -/
def LoopBox.swap (b : LoopBox) (commits active : Bool) : LoopBox :=
  let done := b.wrk.isSome && commits
  let com := if done then b.wrk.getD b.com else b.com
  let com := match b.req with | some g => if done && b.taken then com else com.withInj g | none => com
  ⟨if active then com else com.withInj none, none, none, false, false⟩

/-- The swap: working states of committing tenants become committed; groups show their committed resolution; captures store. -/
def cluSwap (s : State) (commits : Nat → Bool) : State :=
  let before := s
  let ownerOf (c : Fin 8) (i : Fin 32) : Nat := loopOwner before c i
  let evald (c : Fin 8) (i : Fin 32) : Bool := (getLoop before c i).wrk.isSome && commits (ownerOf c i)
  let fresh (c : Fin 8) (i : Fin 32) : Bool := evald c i && (getLoop before c i).trig
  let s := each 8 (fun c s => each 8 (fun k s =>
    match Tab.get none s.clu.resolved (8 * c.val + k) with
    | some j =>
      if commits (ownerOf c (Fin.ofNat 32 j)) then
        let st := rd s (Reg.cluSgStat c k)
        let ch := if fld st 4 0 = j then fld st 31 16 else fld st 31 16 + 1
        wr s (Reg.cluSgStat c k) (setFld (setFld st 4 0 j) 31 16 ch)
      else s
    | none => s) s) s
  let s := each 8 (fun c s =>
    let n := ((List.finRange 32).filter (fun i => (getLoop s c i).wrk.isSome)).length
    wr s (Reg.cluStatus c) (W (n + 65536 * min 255 (Tab.get 0 s.clu.maxWait c)))) s
  let s := each 8 (fun c s => each 32 (fun i s =>
    modLoop s c i (fun b => b.swap (commits (ownerOf c i)) (tActive s (ten (ownerOf c i))))) s) s
  let s := { s with clu := { s.clu with resolved := [], maxWait := [] } }
  each 8 (fun c s => each 2 (fun n s =>
    let i : Fin 32 := Fin.ofNat 32 (rf s (Reg.cluCapCtrl c n) 4 0)
    capSwap s c n (evald c i) (fresh c i)) s) s

end Sys2Proof.Machine
end

