-- ==== Sys2Proof/Machine/Switch.lean ====
section
/-!
DEFINITION. Ports and the switch core (chapter 03): port states, queues, buffer pools, egress, pause, fencing, statistics and
the forwarding and VLAN tables. Reception is in Machine/Ingress.lean.
-/
namespace Sys2Proof.Machine

/-! ## Statistics (R79, R80) -/

/-- Count on a port's counter `i`: 40 bits, wrapping; bit 39 going to 1 sets the half-range flag. -/
def count (s : State) (p : Fin 144) (i : Nat) (n : Nat := 1) : State :=
  let c := Tab.get 0 (getPort s p).cnt i
  let c' := (c + n) % 2 ^ 40
  let s := modPort s p (fun x => { x with cnt := Tab.put 0 x.cnt i c' })
  if c < 2 ^ 39 ∧ 2 ^ 39 ≤ c' then
    let off := if i < 32 then Reg.swcPCntirqLo p else Reg.swcPCntirqHi p
    let s := wb s off (i % 32) true
    if rb s (off + 8) (i % 32) then
      raise (wb s (Reg.swcCntirqSum (p / 32)) (p % 32) true) Reg.swcIrq 3
    else s
  else s

/-- Size band of R79: 0 for 64 bytes, … 6 for 1523 and more. -/
def sizeBand (len : Nat) : Nat :=
  if len ≤ 64 then 0 else if len ≤ 127 then 1 else if len ≤ 255 then 2 else if len ≤ 511 then 3
  else if len ≤ 1023 then 4 else if len ≤ 1522 then 5 else 6

/-- Unicast 0, multicast 1, broadcast 2. -/
def castKind (dst : BitVec 48) : Nat :=
  if dst = 0xFFFFFFFFFFFF then 2 else if dst.getLsbD 40 then 1 else 0

/-- The counters of a good frame, received (base 0) or sent (base 16). -/
def countFrame (s : State) (p : Fin 144) (base : Nat) (f : Frame) : State :=
  count (count (count (count s p base) p (base + 1) f.len) p (base + 2 + castKind f.dst)) p (base + 5 + sizeBand f.len)

/-! ## Port state and pairs (R60, R65) -/

/-- SWC_P_STATUS.state: 0 Disabled, 1 Training, 2 Up, 3 Fenced, 4 Loopback. -/
def pState (s : State) (p : Fin 144) : Nat := rf s (Reg.swcPStatus p) 2 0
/-- COL_PAIRMODE of the pair a port belongs to: 0 none, 1 PRP, 2 HSR. -/
def pairMode (s : State) (k : Fin 72) : Nat := rf s (Reg.colPairmode (k / 16)) (2 * (k % 16) + 1) (2 * (k % 16))
def pairOf (p : Fin 144) : Fin 72 := ⟨p / 2, by omega⟩
/-- The other port of a pair. -/
def mate (p : Fin 144) : Fin 144 := ⟨if p.val % 2 = 0 then p + 1 else p - 1, by split <;> omega⟩
/-- The physical ports of a port's logical port. -/
def logical (s : State) (p : Fin 144) : List (Fin 144) :=
  if pairMode s (pairOf p) = 0 then [p] else [⟨2 * (p / 2), by omega⟩, ⟨2 * (p / 2) + 1, by omega⟩]

/-- Whether a port is in a port group of COL_PGRP (R66, R81). -/
def inGroup (s : State) (g : Nat) (p : Fin 144) : Bool :=
  if p.val < 128 then rb s (Reg.colPgrp g (p / 32)) (p % 32) else rb s (Reg.colPgrpx g) (p - 128)

/-- The physical ports of a port group. -/
def portsOf (s : State) (g : Nat) : List (Fin 144) := (List.finRange 144).filter (inGroup s g)

/-! ## Buffers and references (R72 to R74) -/

/-- Pool of a class: 0 for TC0 to TC4, 1 TC5, 2 TC6, 3 TC7. -/
def poolOf (tc : Nat) : Nat := tc - 4
def poolCells (k : Nat) : Nat := match k with | 0 => 172032 | 1 => 8192 | 2 => 65536 | _ => 16384
def poolDesc (k : Nat) : Nat := match k with | 0 => 94208 | 1 => 4096 | 2 => 24576 | _ => 8192

/-- Cells and descriptors a pool has in use on chip. -/
def poolUse (s : State) (k : Nat) : Nat × Nat :=
  s.sw.frames.foldl (fun a e => match e.2 with
    | some x => if !x.ddr && poolOf x.tc == k then (a.1 + x.cells, a.2 + 1) else a
    | none => a) (0, 0)

def cellsOf (len : Nat) : Nat := (len + 255) / 256

/-- DDR5 channels available (HC_DDR). -/
def ddrChannels (s : State) : Nat := ((List.range 4).filter (fun i => rb s Reg.hcDdr i)).length
/-- Overflow capacity in bytes: 4 GiB for each available channel (R73). -/
def ovfCap (s : State) : Nat := ddrChannels s * 2 ^ 32

/-- Keep SWC_OVF_STAT in line with the overflow. -/
def showOvf (s : State) : State :=
  let v := setFld (setFld (rd s Reg.swcOvfStat) 14 0 (s.sw.ovfBytes / 2 ^ 20)) 18 16 (ddrChannels s)
  wr s Reg.swcOvfStat (putBit v 20 s.sw.pausing)

/-- Effective pause and resume thresholds in bytes: clamped when channels are lost (R76). -/
def pauseThr (s : State) : Nat :=
  let v := rf s Reg.swcOvfCfg 12 8 * 2 ^ 30
  if ddrChannels s < 4 then min v (ovfCap s * 3 / 4) else v
def resumeThr (s : State) : Nat :=
  let v := rf s Reg.swcOvfCfg 20 16 * 2 ^ 30
  if ddrChannels s < 4 then min v (ovfCap s / 2) else v

/-- A control frame of a port, untagged. -/
def portFrame (s : State) (p : Fin 144) (dst : BitVec 48) (len : Nat) (body : Payload) : Frame :=
  { dst := dst, src := macOf s p, vid := none, pcp := 0, len := len, fcsErr := false, symErr := false, reasmErr := false,
    prpSeq := none, hsrSeq := none, macsec := none, tag := none, body := body }

/-- A PFC frame for priorities 0 to 3 (R76). -/
def pfcFrame (s : State) (p : Fin 144) (quanta : Nat) : Frame :=
  portFrame s p 0x0180C2000001 64 (.pfc 0x0F (List.replicate 4 quanta))

/-- Send PFC on every port that is Up with pfc_tx (R76). DESIGN CHOICE (log entry 38): a sent PFC frame counts in tx_pause only, not
in tx_frames, tx_octets, their kinds and the size bands, while a received one counts in rx_frames_ok and its companions. -/
def sendPfc (s : State) (quanta : Nat) : State :=
  each 144 (fun p s => if pState s p = 2 ∧ rb s (Reg.swcPCfg p) 7 then
    count (emit s (.frame p (pfcFrame s p quanta) s.now)) p 31 else s) s

/-- Hold the overflow occupancy against the pause and resume thresholds (R76): PFC starts when it has reached the one, and
quanta 0 go out when it has fallen below the other. -/
def pauseCheck (s : State) : State :=
  if !s.sw.pausing && 0 < s.sw.ovfBytes && pauseThr s ≤ s.sw.ovfBytes then
    sendPfc (raise (showOvf { s with sw := { s.sw with pausing := true } }) Reg.swcIrq 4) 0xFFFF
  else if s.sw.pausing && s.sw.ovfBytes < resumeThr s then
    sendPfc (showOvf { s with sw := { s.sw with pausing := false } }) 0
  else showOvf s

/-- Free one reference of a stored frame; at zero its cells and descriptor are freed (R74). -/
def freeRef (s : State) (id : Nat) : State :=
  match Tab.get none s.sw.frames id with
  | none => s
  | some x =>
    if 1 < x.refs then { s with sw := { s.sw with frames := Tab.put none s.sw.frames id (some { x with refs := x.refs - 1 }) } }
    else
      let s := { s with sw := { s.sw with frames := Tab.put none s.sw.frames id none } }
      if x.ddr then pauseCheck { s with sw := { s.sw with ovfBytes := s.sw.ovfBytes - x.frame.len } }
      else wr (wr s Reg.swcBufFree (rd s Reg.swcBufFree + W x.cells)) Reg.swcDescFree (rd s Reg.swcDescFree + 1)

/-- A stored frame by identifier. -/
def stored (s : State) (id : Nat) : Option Stored := Tab.get none s.sw.frames id

/-- Append a frame identifier to a class queue of a port. -/
def pushQ (s : State) (p : Fin 144) (tc id : Nat) : State :=
  modPort s p (fun x => { x with q := setAt x.q tc ((x.q.getD tc []) ++ [id]) })

/-- Shared-pool occupancy in bytes. -/
def sharedBytes (s : State) : Nat := (poolUse s 0).1 * 256

/-- Whether a (port, class) queue is in spill mode for a new frame (R73): it enters when the shared occupancy reaches
SWC_OVF_CFG.spill and leaves when its DDR5 part is empty and the occupancy is below. -/
def spillNow (s : State) (p : Fin 144) (tc : Nat) : Bool :=
  let x := getPort s p
  let full := rf s Reg.swcOvfCfg 29 24 * 2 ^ 20 ≤ sharedBytes s
  let hasDdr := (x.q.getD tc []).any (fun i => match stored s i with | some f => f.ddr | none => false)
  rb s Reg.swcOvfCfg 0 && (full || (x.spill.getLsbD tc && hasDdr))

/-- Instants the overflow writer takes for a frame at 100 Gb/s for each available channel (R73). -/
def ddrWriteTime (s : State) (len : Nat) : Instant := (len * 8 * nsec + 100 * ddrChannels s - 1) / (100 * ddrChannels s)

/-- Take a frame into the switch core for its target ports, once, or drop it (R72 to R74). `tags` are the redundancy tags the
pairs among the targets send it with, `ring` the port it goes round its HSR ring by and the form it arrived in. DESIGN CHOICE
(log entry 38): when only some of the target queues are in spill mode, the one stored copy goes to DDR5; a frame is beyond
the write rate when the overflow writer lags by more than Config.ovfBurst. -/
def takeIn (s : State) (f : Frame) (tags : Tab (Option (BitVec 16))) (ring : Option (Fin 144 × Frame)) (tc : Nat)
    (targets : List (Fin 144)) (inPort : Option (Fin 144)) : State :=
  if targets.isEmpty then s
  else
    let drop (s : State) : State := match inPort with | some p => count s p (56 + tc) | none => s
    let spill := tc ≤ 4 && targets.any (fun p => spillNow s p tc)
    let s := if 4 < tc then s else targets.foldl (fun s p =>
      modPort s p (fun x => { x with spill := if spillNow s p tc then x.spill ||| BitVec.ofNat 5 (2 ^ tc)
        else x.spill &&& ~~~(BitVec.ofNat 5 (2 ^ tc)) })) s
    let id := s.sw.nextFrame
    let put (s : State) (ddr : Bool) (cells : Nat) : State :=
      let x : Stored := ⟨f, tags, ring, tc, cells, targets.length, s.now, inPort, ddr, none⟩
      let s := { s with sw := { s.sw with frames := Tab.put none s.sw.frames id (some x), nextFrame := id + 1 } }
      targets.foldl (fun s p => pushQ s p tc id) s
    if spill then
      if ovfCap s < s.sw.ovfBytes + f.len then drop (raise s Reg.swcIrq 5)
      else
        let done := max s.op s.sw.writerTo + ddrWriteTime s f.len
        if s.op + Config.ovfBurst < done then drop s
        else
          let s := askFree { s with sw := { s.sw with ovfBytes := s.sw.ovfBytes + f.len, writerTo := done } } 1 0 ((f.len + 63) / 64)
          pauseCheck (put s true 0)
    else
      let c := cellsOf f.len
      let u := poolUse s (poolOf tc)
      let lost := if poolOf tc = 0 then s.sw.retired.length else 0
      if poolCells (poolOf tc) < u.1 + c + lost ∨ poolDesc (poolOf tc) < u.2 + 1 then drop s
      else
        let s := put s false c
        wr (wr s Reg.swcBufFree (rd s Reg.swcBufFree - W c)) Reg.swcDescFree (rd s Reg.swcDescFree - 1)

/-! ## Leaving and entering port states (R60, R77, R78) -/

/-- Discard the queued frames of a port that are not trip frames, counting them (R77). -/
def discardQueues (s : State) (p : Fin 144) : State :=
  let x := getPort s p
  let ids := x.q.flatten ++ x.resend.toList
  let s := modPort s p (fun x => { x with q := Port.reset.q, resend := none, preempted := none })
  let s := ids.foldl (fun s id => count (freeRef s id) p 47) s
  match x.preempted with | some (id, _) => freeRef s id | none => s

/-- R78: every frame queued for the port is discarded, trip frames included. -/
def discardAll (s : State) (p : Fin 144) : State :=
  let s := discardQueues s p
  let x := getPort s p
  let s := x.trips.foldl (fun s _ => count s p 47) s
  let s := match x.wire with | some (.stored id _) => freeRef s id | _ => s
  modPort s p (fun x => { x with trips := [], wire := none, paused := 0 })

/-- SWC_P_STATUS of a state: link, RS-FEC in use; a change of link sets SWC_IRQ.link_chg (R60, R81). -/
def setPState (s : State) (p : Fin 144) (st : Nat) (link : Bool) : State :=
  let s := if rb s (Reg.swcPStatus p) 3 == link then s else raise s Reg.swcIrq 2
  let s := wb (wf s (Reg.swcPStatus p) 2 0 st) (Reg.swcPStatus p) 3 link
  wb s (Reg.swcPStatus p) 5 (link && rb s (Reg.swcPCfg p) 3 && rf s (Reg.swcPCfg p) 2 1 == 2)

/-- An mPacket of the verification protocol leaves a port at once (R62). -/
def sendVerify (s : State) (p : Fin 144) (body : Payload) : State :=
  emit s (.frame p (portFrame s p 0 64 body) s.now)

/-- A port enters Up (R60, R62): link, and where preemption is configured its verification with the first attempt. -/
def enterUp (s : State) (p : Fin 144) : State :=
  let s := setPState s p 2 true
  if rb s (Reg.swcPCfg p) 6 then sendVerify (wr s (Reg.swcPPreempt p) 0x11) p .verify else wr s (Reg.swcPPreempt p) 0

/-- A port leaves Up or Fenced for Training (R60, R78). `logIt`: the row of the table writes a log record. -/
def retrain (s : State) (p : Fin 144) (logIt : Bool) : State :=
  let s := count (discardAll s p) p 46
  let s := wr (setPState s p 1 false) (Reg.swcPPreempt p) 0
  if logIt then logRec s Reg.swcIrq 2 0 1 [p] else s

/-- Note an FCS or symbol error and fence the port when the window's threshold is exceeded (R77). -/
def noteError (s : State) (p : Fin 144) : State :=
  let thr := rf s (Reg.swcPFence p) 15 0
  let win := rf s (Reg.swcPFence p) 23 16 * msec
  let errs := (s.op :: (getPort s p).errs).filter (fun t => s.op < t + win)
  let s := modPort s p (fun x => { x with errs := errs, lastErr := s.op })
  if 0 < thr ∧ thr < errs.length ∧ pState s p = 2 then
    let s := setPState (discardQueues s p) p 3 true
    logRec (raise (count s p 45) Reg.swcIrq 0) Reg.swcIrq 2 0 3 [p]
  else s

/-- A Fenced port returns to Up (R60). DESIGN CHOICE (log entry 38): the error window of R77 starts empty again. -/
def unfencePort (s : State) (p : Fin 144) : State :=
  logRec (setPState (modPort s p (fun x => { x with errs := [] })) p 2 true) Reg.swcIrq 1 0 2 [p]

/-! ## Egress (R62, R71, R75) -/

/-- Ageing limit of a class (R75). -/
def ageLimit (s : State) (tc : Nat) : Instant :=
  match tc with
  | 7 => 20 * usec
  | 6 => 250 * usec
  | 5 => msec
  | 4 => rf s Reg.swcAgeHi 19 10 * msec
  | 3 => rf s Reg.swcAgeHi 9 0 * msec
  | 2 => rf s Reg.swcAgeLo 29 20 * msec
  | 1 => rf s Reg.swcAgeLo 19 10 * msec
  | _ => rf s Reg.swcAgeLo 9 0 * msec

/-- The redundancy tag of a pair on a frame: six octets of PRP trailer or HSR tag (R65). -/
def redTag (mode : Nat) (q : BitVec 16) (f : Frame) : Frame :=
  match mode with
  | 1 => { f with prpSeq := some q, len := f.len + 6 }
  | 2 => { f with hsrSeq := some q, len := f.len + 6 }
  | _ => f

/-- What the time stamping puts into a PTP message as it leaves (R34, R35): a transparent clock adds residence time and, with
the peer-to-peer profiles, the ingress link delay; an event message of the module gets its transmit timestamp, a Pdelay_Resp its
turnaround time. -/
def ptpOut (s : State) (x : Stored) (m : PtpMsg) : PtpMsg :=
  let res : Int := ((s.now - x.stamp) / 36 : Nat)
  match x.inPort with
  | some q =>
    if m.kind.event && rb s Reg.timeCtrl 6 && m.domain == rf s Reg.timePrio 23 16 then
      { m with correction := m.correction + res + (if rf s Reg.timeCtrl 5 4 = 2 then 0 else (Tab.get 0 s.time.linkDelay q : Nat)) }
    else m
  | none => match m.kind with
    | .pdelayResp => { m with correction := m.correction + res }
    | .sync | .delayReq | .pdelayReq => { m with ts := s.now / 36 }
    | _ => m

/-- A publication's GOOSE message as it leaves: in a gated publication the last member's value is the lease epoch (R275). -/
def ctlEpochOut (s : State) (x : Stored) (m : GooseMsg) : GooseMsg :=
  if x.pub.any (pubGated s) then { m with members := setAt m.members (m.members.length - 2) (.uint (rd s Reg.pluEpoch).toNat) } else m

/-- A trip frame as it leaves: in a gated publication its last member is the lease epoch (R275). -/
def tripOut (s : State) (t : TripItem) : TripItem :=
  match pubGated s t.pub, t.frame.body with
  | true, .raw et b => { t with frame := { t.frame with
      body := .raw et (overlay b (b.length - t.tail) (toBe 4 (rd s Reg.pluEpoch).toNat)) } }
  | _, _ => t

/-- The frame as it leaves a port, before MACsec: the form it arrived in round its ring, or VLAN untagging (R70) and the
redundancy tag of its pair (R65), padded to 64 octets; then the PTP fields and ctlEpoch. -/
def egressFrame (s : State) (p : Fin 144) (x : Stored) : Frame :=
  let plain : Frame :=
    let f := x.frame
    let vid := f.vid.getD (BitVec.ofNat 12 (rf s (Reg.swcPPvid p) 11 0))
    let untag := match Tab.get none s.sw.vlan vid.toNat with | some v => v.untag.getLsbD p | none => false
    let f := if untag && f.vid.isSome then { f with vid := none, len := f.len - 4 } else f
    let f := match Tab.get none x.tags p with | some q => redTag (pairMode s (pairOf p)) q f | none => f
    { f with len := max 64 f.len }
  let f := match x.ring with | some (q, g) => if q = p then g else plain | none => plain
  match f.body with
  | .ptp m => { f with body := .ptp (ptpOut s x m) }
  | .goose a v m => { f with body := .goose a v (ctlEpochOut s x m) }
  | _ => f

/-- MACsec on egress (R68, R36, R296, R305): the frame is protected under a bound transmit association, with its key, SSCI and salt, and discarded where the port has
none or the Key Store is keyless. DESIGN CHOICE (log entry 21): no counter counts a frame discarded for want of a transmit
association. PTP event messages of the module go out unprotected unless the integrator protects them.
Where both associations are bound, Config.macsecTx says which sends (a free choice of log entry 21). -/
def macsecOut (s : State) (p : Fin 144) (f : Frame) : Option Frame × State :=
  if !rb s (Reg.swcPMacsec p) 0 then (some f, s)
  else if (match f.body with | .ptp m => m.kind.event && !Config.ptpProtected p | _ => false) then (some f, s)
  else if keyless s then (none, noKey s)
  else
    let has (a : Nat) : Bool := let b := binding s 4 (16 * p + a); b.valid && (ksSlot s b.slotA).active.isSome
    if !has 0 && !has 1 then (none, s)
    else
      let a := if has 0 && has 1 then b2n (Config.macsecTx p) else if has 0 then 0 else 1
      let pn := Tab.get 0 (getPort s p).pn (8 + a) + 1
      let b := binding s 4 (16 * p + a)
      let key := (ksSlot s b.slotA).active.elim [] (·.val)
      let icv := Config.macsecIcv key b.salt b.kidA pn (Config.frameOctets f)
      (some { f with macsec := some ⟨some (Fin.ofNat 8 a), pn, true, Config.secTagLen, icv⟩, len := f.len + Config.secTagLen },
        modPort s p (fun y => { y with pn := Tab.put 0 y.pn (8 + a) pn }))

/-- A frame starts on the wire of a port; in Loopback nothing leaves (R60). -/
def onWire (s : State) (p : Fin 144) (f : Frame) : State := if pState s p = 4 then s else emit s (.frame p f s.now)

/-- Start a stored frame on a port's wire. A publication's frame that the gate mutes meanwhile is discarded (R275; DESIGN CHOICE, log
entry 40: nothing counts it). -/
def startStored (s : State) (p : Fin 144) (id : Nat) (x : Stored) : State :=
  if x.pub.any (pubMuted s) then freeRef s id else
  match macsecOut s p (egressFrame s p x) with
  | (some f, s) => onWire (modPort s p (fun y => { y with wire := some (.stored id f) })) p f
  | (none, s) => freeRef s id

/-- Whether preemption is Active on a port (R62). -/
def preemptActive (s : State) (p : Fin 144) : Bool := rf s (Reg.swcPPreempt p) 1 0 == 2

/-- Start a stored frame on the wire, or discard it when it is too old (R75). -/
def startOrAge (s : State) (p : Fin 144) (tc id : Nat) : State :=
  let s := modPort s p (fun x => { x with q := setAt x.q tc ((x.q.getD tc []).tail) })
  match stored s id with
  | none => s
  | some x =>
    if ageLimit s tc < s.now - x.stamp then freeRef (count s p (48 + tc)) id
    else startStored (askFree s 1 0 (if x.ddr then (x.frame.len + 63) / 64 else 0)) p id x

/-- Deficit weighted round robin over TC0 to TC4 (R71): the class to serve, with the deficits and cursor after the choice. -/
def dwrr (w : Nat → Nat) (lenOf : Nat → Option Nat) : Nat → List Nat → Nat → Option (Nat × List Nat × Nat)
  | 0, _, _ => none
  | fuel + 1, d, c =>
    match lenOf c with
    | some n =>
      if n ≤ d.getD c 0 then some (c, setAt d c (d.getD c 0 - n), c)
      else let c' := (c + 1) % 5; dwrr w lenOf fuel (setAt d c' (d.getD c' 0 + w c' * 256)) c'
    | none => let c' := (c + 1) % 5; dwrr w lenOf fuel (setAt (setAt d c 0) c' ((setAt d c 0).getD c' 0 + w c' * 256)) c'

/-- Serve a port's queues in the order of R71. -/
def serve (s : State) (p : Fin 144) : State :=
  let x := getPort s p
  match x.trips with
  | t :: ts =>
    if pubMuted s t.pub then modPort s p (fun y => { y with trips := ts })
    else
      let t := tripOut s t
      onWire (modPort s p (fun y => { y with trips := ts, wire := some (.trip t) })) p t.frame
  | [] =>
    if pState s p = 3 then s
    else match x.resend with
    | some id => match stored s id with
      | some f => startStored (modPort s p (fun y => { y with resend := none })) p id f
      | none => modPort s p (fun y => { y with resend := none })
    | none => match x.q.getD 7 [], x.q.getD 6 [] with
      | id :: _, _ => startOrAge s p 7 id
      | [], id :: _ => startOrAge s p 6 id
      | [], [] => match x.preempted with
        | some (id, f) => modPort s p (fun y => { y with preempted := none, wire := some (.stored id f) })
        | none => match x.q.getD 5 [] with
          | id :: _ => startOrAge s p 5 id
          | [] =>
            let lenOf (c : Nat) : Option Nat := match x.q.getD c [] with
              | id :: _ => if x.paused.getLsbD c then none else (stored s id).map (fun f => f.frame.len)
              | [] => none
            match dwrr (fun c => rf s Reg.swcDwrr (6 * c + 5) (6 * c)) lenOf 256 x.deficit x.cursor with
            | some (c, d, k) =>
              let s := modPort s p (fun y => { y with deficit := d, cursor := k })
              match x.q.getD c [] with | id :: _ => startOrAge s p c id | [] => s
            | none => s

/-- Whether an express frame waits on a port: a trip, a TC7 or a TC6 frame (R62). -/
def expressWaits (x : Port) : Bool := !x.trips.isEmpty || x.resend.isSome || !(x.q.getD 7 []).isEmpty || !(x.q.getD 6 []).isEmpty

/-- The head of an egress queue is selected, aged out or started; a preemptable frame on the wire yields to an express
frame while preemption is Active (R62, R71, R75). DESIGN CHOICE (log entry 38): tx_mpackets counts one for each preemption, as
tx_preempted does, and not each mPacket of the frame. -/
def doEgressDequeue (p : Fin 144) (tm : Instant) (s : State) : State :=
  let s := toInstant s tm
  if pState s p < 2 then s
  else
    let x := getPort s p
    match x.wire with
    | none => serve s p
    | some (.stored id f) =>
      let preemptable := match stored s id with | some x => x.tc ≤ 5 | none => false
      let fenced := pState s p == 3
      let wanted := if fenced then !x.trips.isEmpty else expressWaits x
      if preemptable && wanted && preemptActive s p then
        let s := count (count (modPort s p (fun y => { y with wire := none, preempted := if fenced then none else some (id, f) })) p 29) p 30
        serve (if fenced then freeRef s id else s) p
      else s
    | some (.trip _) => s

/-- A frame finishes on a port (R74, R79): it is counted in the form it left in, and its reference freed. -/
def wireDone (s : State) (p : Fin 144) : State :=
  match (getPort s p).wire with
  | none => s
  | some (.stored id f) => freeRef (modPort (countFrame s p 16 f) p (fun y => { y with wire := none })) id
  | some (.trip t) => count (countFrame (modPort s p (fun y => { y with wire := none })) p 16 t.frame) p 28

/-! ## Pause (R76) -/

def doPfcRepeat (s : State) : State :=
  let s := pauseCheck s
  if s.sw.pausing then sendPfc s 0xFFFF else s

def doPauseQuantaExpiry (p : Fin 144) (tc : Fin 5) (s : State) : State :=
  modPort s p (fun x => { x with paused := x.paused &&& ~~~(BitVec.ofNat 5 (2 ^ tc.val)) })

/-! ## Port configuration and events (R58, R60, R62, R69, R77) -/

def cfgRej (s : State) (p : Fin 144) : State := wb s (Reg.swcPStatus p) 4 true

/-- The other lanes of a front cage (R58). -/
def cageMates (p : Fin 144) : List (Fin 144) :=
  if p.val < 96 then [] else (List.finRange 144).filter (fun q => 96 ≤ q.val ∧ q ≠ p ∧ (q.val - 96) / 4 = (p.val - 96) / 4)

/-- A write of SWC_P_CFG (R58, R60). DESIGN CHOICE (log entry 38): preempt set or cleared on a port that is Up leaves
SWC_P_PREEMPT as it is, since verification starts only at entry to Up (R62); a write that both sets loop and changes speed, fec
or an on a port that is Up or Fenced takes the table's Loopback row, so link_down_events does not count it. -/
def doSwcPCfgWrite (p : Fin 144) (v : Word) (s : State) : State :=
  let v := v &&& 0x1FF
  let old := rd s (Reg.swcPCfg p)
  let sp := fld v 2 1
  let bad := sp = 3 ∨ (96 ≤ p.val ∧ sp = 0) ∨
    (bitOf v 0 ∧ (cageMates p).any (fun q => rb s (Reg.swcPCfg q) 0 && rf s (Reg.swcPCfg q) 2 1 != sp))
  if bad then cfgRej s p
  else
    let s := wb (wrp s (Reg.swcPCfg p) v) (Reg.swcPStatus p) 4 false
    let st := pState s p
    let chg := fld old 2 1 ≠ sp ∨ bitOf old 3 ≠ bitOf v 3 ∨ bitOf old 4 ≠ bitOf v 4
    if !bitOf v 0 then
      if st = 0 then s else wr (setPState (discardAll s p) p 0 false) (Reg.swcPPreempt p) 0
    else match st with
      | 0 => setPState s p 1 false
      | 4 => if !bitOf v 8 then setPState s p 1 false else setPState s p 4 true
      | 1 => s
      | _ => if bitOf v 8 then wr (setPState (discardAll s p) p 4 true) (Reg.swcPPreempt p) 0
             else if chg then retrain s p false else s

/-- Whether a port carries the fast path (R69): in the group of an SV entry whose warp is bound to a Heddle unit, or an egress
port of an armed trip frame. `armedOn` names the ports of armed slots. -/
def fastPathPort (s : State) (armedOn : Fin 144 → Bool) (bound : Fin 512 → Bool) (p : Fin 144) : Bool :=
  armedOn p || (List.finRange 512).any (fun w =>
    let e := Tab.get .reset s.sw.matchTab w
    e.valid && bound w && (logical s p).any (inGroup s e.grp.toNat))

/-- Block lock (R60). DESIGN CHOICE (log entry 38): a port whose SWC_P_CFG.loop is already 1 enters Up and stays there, since
the table enters Loopback where loop is set in Up or Fenced. -/
def doBlockLock (p : Fin 144) (tm : Instant) (s : State) : State :=
  let s := toInstant s tm
  if pState s p = 1 ∧ !(getPort s p).lowPower then enterUp s p else s

def doTrainingTimeout (p : Fin 144) (s : State) : State := if pState s p = 1 then count s p 46 else s

def doLossOfLock (p : Fin 144) (s : State) : State :=
  if pState s p = 2 ∨ pState s p = 3 then retrain s p true else s

/-- An unanswered verify attempt (R62): the next attempt leaves, and after the third the status is Failed. DESIGN CHOICE (log
entry 38): on a port that has become Fenced meanwhile the attempts are counted on, but no verify mPacket leaves, since a
Fenced port transmits trip frames only (R77). -/
def doVerifyAttemptTimeout (p : Fin 144) (s : State) : State :=
  let r := rd s (Reg.swcPPreempt p)
  if fld r 1 0 ≠ 1 then s
  else if 3 ≤ fld r 7 4 then raise (wf s (Reg.swcPPreempt p) 1 0 3) Reg.swcIrq 1
  else
    let s := wf s (Reg.swcPPreempt p) 7 4 (fld r 7 4 + 1)
    if pState s p = 3 then s else sendVerify s p .verify

def doVerifyResponse (p : Fin 144) (s : State) : State :=
  if rf s (Reg.swcPPreempt p) 1 0 = 1 then wf s (Reg.swcPPreempt p) 1 0 2 else s

/-- The auto-release interval of SWC_P_FENCE.clean seconds without errors (R77). -/
def doFenceAutoRelease (p : Fin 144) (tm : Instant) (s : State) : State :=
  let s := toInstant s tm
  if pState s p = 3 && rb s (Reg.swcPFence p) 31 && passed s (some (getPort s p).lastErr) (rf s (Reg.swcPFence p) 30 24 * second) then
    unfencePort s p
  else s

def doFenceRelease (p : Fin 144) (s : State) : State := if pState s p = 3 then unfencePort s p else s

/-- SWC_P_LATCH (R80): bit 0 latches all 64 counters, bit 1 zeroes the live ones at the same edge. -/
def doSwcPLatch (p : Fin 144) (v : Word) (tm : Instant) (s : State) : State :=
  let s := toInstant s tm
  if !bitOf v 0 then s
  else
    let c := (getPort s p).cnt
    let s := each 64 (fun i s => wr (wr s (Reg.swcPCnt p (2 * i)) (W (Tab.get 0 c i))) (Reg.swcPCnt p (2 * i + 1)) (W (Tab.get 0 c i / 2 ^ 32))) s
    let s := wr (wr s (Reg.swcPLatchSec p) (W (secOf s.now))) (Reg.swcPLatchNs p) (nsWord s.now)
    if bitOf v 1 then modPort s p (fun x => { x with cnt := [] }) else s

/-- A module inserted in a front cage (R371): a power class above 3.5 W is held in low-power mode, its ports in Training. -/
def doQsfpInserted (cage : Fin 12) (high : Bool) (s : State) : State :=
  each 144 (fun p s =>
    if 96 ≤ p.val ∧ (p.val - 96) / 4 = cage.val then
      let s := modPort s p (fun x => { x with lowPower := high })
      if high ∧ (pState s p = 2 ∨ pState s p = 3) then retrain s p true else s
    else s) s

/-! ## Forwarding and VLAN tables (R70) -/

def fdbFind (s : State) (vid : BitVec 12) (mac : BitVec 48) : Option FdbEntry := s.sw.fdb.find? (fun e => e.vid == vid && e.mac == mac)
def fdbDel (s : State) (vid : BitVec 12) (mac : BitVec 48) : State :=
  { s with sw := { s.sw with fdb := s.sw.fdb.filter (fun e => !(e.vid == vid && e.mac == mac)) } }
def bucketFull (s : State) (vid : BitVec 12) (mac : BitVec 48) : Bool :=
  4 ≤ (s.sw.fdb.filter (fun e => Config.fdbHash e.vid e.mac % 16384 == Config.fdbHash vid mac % 16384)).length

/-- The MAC address and VID the FDB registers name. -/
def fdbKey (s : State) : BitVec 12 × BitVec 48 :=
  (BitVec.ofNat 12 (rf s Reg.swcFdbMacHi 27 16), BitVec.ofNat 48 (rf s Reg.swcFdbMacHi 15 0 * 2 ^ 32 + (rd s Reg.swcFdbMacLo).toNat))

def fdbStat (s : State) (nf bf : Bool) : State := wb (wb (wb s Reg.swcFdbStat 0 false) Reg.swcFdbStat 1 nf) Reg.swcFdbStat 2 bf

def doFdbRead (s : State) : State :=
  let k := fdbKey s
  match fdbFind s k.1 k.2 with
  | some e => fdbStat (wr s Reg.swcFdbData e.data) false false
  | none => fdbStat s true false

/-- A static or multicast entry is written: it is content of the configuration record (R70, R264). -/
def doFdbWriteStatic (s : State) : State :=
  let k := fdbKey s
  let had := (fdbFind s k.1 k.2).isSome
  if !had && bucketFull s k.1 k.2 then fdbStat s false true
  else
    let e : FdbEntry := ⟨k.1, k.2, rd s Reg.swcFdbData, true, 0⟩
    let s' := fdbDel s k.1 k.2
    fdbStat (cfgDirty { s' with sw := { s'.sw with fdb := e :: s'.sw.fdb } }) false false

def doFdbDelete (s : State) : State :=
  let k := fdbKey s
  match fdbFind s k.1 k.2 with
  | some e => fdbStat (if e.static then cfgDirty (fdbDel s k.1 k.2) else fdbDel s k.1 k.2) false false
  | none => fdbStat s true false

def doFdbFlushLearned (s : State) : State :=
  fdbStat { s with sw := { s.sw with fdb := s.sw.fdb.filter (fun e => e.static) } } false false

/-- A learned entry without a frame from its source for SWC_FDB_AGE seconds goes (R70). -/
def doFdbAgeOut (mac : BitVec 48) (vid : BitVec 12) (tm : Instant) (s : State) : State :=
  let s := toInstant s tm
  let age := rf s Reg.swcFdbAge 15 0
  match fdbFind s vid mac with
  | some e => if e.static || age == 0 || !passed s (some e.at') (age * second) then s else fdbDel s vid mac
  | none => s

/-- Learn the source of a received frame, or note that it is heard still (R70). -/
def learn (s : State) (p : Fin 144) (vid : BitVec 12) (src : BitVec 48) : State :=
  if !rb s Reg.swcCtrl 1 || src.getLsbD 40 || vid == 0 || vid == 4095 then s
  else match fdbFind s vid src with
    | some e => if e.static then s else
        { s with sw := { s.sw with fdb := s.sw.fdb.map (fun x =>
            if x.vid == vid && x.mac == src then { x with data := W p, at' := s.op } else x) } }
    | none =>
      if bucketFull s vid src then
        let c := rf s Reg.swcFdbStat 31 16
        wf s Reg.swcFdbStat 31 16 (min (c + 1) 0xFFFF)
      else { s with sw := { s.sw with fdb := ⟨vid, src, W p, false, s.op⟩ :: s.sw.fdb } }

def vlanIdx (s : State) : Nat := rf s Reg.swcVlanIdx 11 0
/-- The 144-bit bitmap of five registers. -/
def bitmap144 (s : State) (off : Nat → Nat) : BitVec 144 :=
  BitVec.ofNat 144 ((List.range 5).foldl (fun a i => a + (rd s (off i)).toNat * 2 ^ (32 * i)) 0)

/-- A VLAN entry is written: the table is content of the configuration record (R70, R264). -/
def doVlanWrite (s : State) : State :=
  let v := vlanIdx s
  if v = 0 ∨ 4094 < v then s
  else
    let e : Vlan := ⟨bitmap144 s Reg.swcVlanMem, bitmap144 s Reg.swcVlanUntag, rd s Reg.swcVlanCtl &&& 0xF⟩
    cfgDirty { s with sw := { s.sw with vlan := Tab.put none s.sw.vlan v (some e) } }

def doVlanRead (s : State) : State :=
  let e := (Tab.get none s.sw.vlan (vlanIdx s)).getD ⟨0, 0, 0⟩
  let s := each 5 (fun i s => wr (wr s (Reg.swcVlanMem i) (W (e.mem.toNat / 2 ^ (32 * i.val))))
    (Reg.swcVlanUntag i) (W (e.untag.toNat / 2 ^ (32 * i.val)))) s
  wf s Reg.swcVlanCtl 3 0 (fld e.ctl 3 0)

/-- SWC_OVF_CFG (R73): ranges and threshold order, or refused with cfg_rej. -/
def doSwcOvfCfgWrite (v : Word) (s : State) : State :=
  let p := fld v 12 8; let r := fld v 20 16; let sp := fld v 29 24
  if 1 ≤ p ∧ p ≤ 16 ∧ r < p ∧ 8 ≤ sp ∧ sp ≤ 42 then pauseCheck (wrp s Reg.swcOvfCfg (v &&& 0x3F1F1F01))
  else raise s Reg.swcIrq 6

/-! ## Pair modes and the duplicate table (R65) -/

/-- COL_PAIRMODE: a 17th HSR pair or a reserved value rejects the write whole. -/
def doColPairmodeWrite (i : Fin 5) (v : Word) (s : State) : State :=
  let n := if i.val = 4 then 8 else 16
  let modes := (List.range n).map (fun j => fld v (2 * j + 1) (2 * j))
  let others := ((List.finRange 72).filter (fun k => k.val / 16 ≠ i.val ∧ pairMode s k = 2)).length
  if modes.contains 3 ∨ 16 < others + (modes.filter (· == 2)).length then raise s Reg.colIrq 0
  else
    wrp s (Reg.colPairmode i) (if i.val = 4 then v &&& 0xFFFF else v)

def showDup (s : State) : State := wf s Reg.colDupstat 14 0 s.sw.dup.length

/-- An entry of the duplicate table without traffic for COL_DUPCFG.forget ms is forgotten (R65). -/
def doDupEntryForget (pair : Fin 72) (mac : BitVec 48) (tm : Instant) (s : State) : State :=
  let s := toInstant s tm
  showDup { s with sw := { s.sw with dup := s.sw.dup.filter (fun e =>
    !(e.pair == pair && e.mac == mac && passed s (some e.at') (rf s Reg.colDupcfg 15 0 * msec))) } }

/-- Duplicate detection of a sequence number for a key: whether the frame is a later copy, and the state after. -/
def dupCheck (s : State) (pair : Fin 72) (mac : BitVec 48) (q : BitVec 16) : Bool × State :=
  let rest := s.sw.dup.filter (fun e => !(e.pair == pair && e.mac == mac))
  let put (e : DupEntry) : State := { s with sw := { s.sw with dup := { e with at' := s.op } :: rest } }
  match s.sw.dup.find? (fun e => e.pair == pair && e.mac == mac) with
  | some e =>
    let back := (e.h - q).toNat
    let fwd := (q - e.h).toNat
    if back < 64 then
      if e.seen.getLsbD back then (true, put e) else (false, put { e with seen := e.seen ||| BitVec.ofNat 64 (2 ^ back) })
    else if fwd < 32768 then (false, put { e with h := q, seen := (e.seen <<< fwd) ||| 1 })
    else (false, put e)
  | none =>
    let e : DupEntry := ⟨pair, mac, q, 1, s.op⟩
    if 16384 ≤ s.sw.dup.length then
      let s := raise (bump s Reg.colDupEvict) Reg.colIrq 1
      (false, showDup { s with sw := { s.sw with dup := e :: s.sw.dup.dropLast } })
    else
      let s := showDup { s with sw := { s.sw with dup := e :: s.sw.dup } }
      (false, if s.sw.dup.length = 16384 then raise s Reg.colIrq 1 else s)

/-! ## Frames the module originates -/

/-- A frame of the module as it leaves a port of a pair, padded to 64 octets (R65, R172). -/
def tagged (s : State) (p : Fin 144) (f : Frame) : Frame :=
  let f := redTag (pairMode s (pairOf p)) (Tab.get 0 s.sw.pairSeq (pairOf p)) f
  { f with len := max 64 f.len }

/-- The sequence number of each pair among the ports advances once for a frame. -/
def advancePairs (s : State) (ports : List (Fin 144)) : State :=
  ((ports.map pairOf).eraseDups).foldl (fun s k =>
    if pairMode s k = 0 then s
    else { s with sw := { s.sw with pairSeq := Tab.put 0 s.sw.pairSeq k (Tab.get 0 s.sw.pairSeq k + 1) } }) s

/-- The redundancy tags of the pairs among the ports, with each pair's own sequence number. -/
def pairTags (s : State) (ports : List (Fin 144)) : Tab (Option (BitVec 16)) :=
  ports.foldl (fun t p => if pairMode s (pairOf p) = 0 then t else Tab.put none t p (some (Tab.get 0 s.sw.pairSeq (pairOf p)))) []

/-- The physical ports of a port group, both ports of every pair in it: to the switch core a pair is one port (R65). -/
def groupPorts (s : State) (g : Nat) : List (Fin 144) := ((portsOf s g).flatMap (logical s)).eraseDups

/-- A frame the module originates is stored once for the ports it leaves by, with the redundancy tag of each pair (R65, R74). -/
def originate (s : State) (f : Frame) (tc : Nat) (ports : List (Fin 144)) : State :=
  let ps := ports.filter (fun p => pState s p == 2 || pState s p == 4)
  advancePairs (takeIn s f (pairTags s ps) none tc ps none) ps

/-- A publication's frame: the gate decides as it leaves (R275). -/
def originatePub (s : State) (f : Frame) (tc : Nat) (ports : List (Fin 144)) (pub : Nat) : State :=
  let id := s.sw.nextFrame
  let s := originate s f tc ports
  match stored s id with
  | some x => { s with sw := { s.sw with frames := Tab.put none s.sw.frames id (some { x with pub := some pub }) } }
  | none => s

/-! ## PTP messages of the module (R30 to R36, R41) -/

/-- The data set the module announces (R33, R41): its own as grandmaster, else its master's one step further, with the clock
quality of R41. -/
def announced (s : State) (p : Fin 144) : Announce :=
  let q := clkQuality s
  match s.time.best with
  | some (a, _) => { a with cls := q.1, acc := q.2, steps := a.steps + 1, sender := portIdentity s p }
  | none => { ownAnnounce s with cls := q.1, acc := q.2, sender := portIdentity s p }

/-- Octets of a PTP message (PRESUMED: IEEE 1588-2019). -/
def ptpLen (k : PtpKind) : Nat :=
  match k with | .sync | .delayReq | .followUp => 44 | .announce => 64 | _ => 54

/-- A PTP frame of the module (R30, R32): layer 2, or in the default profile UDP over IPv4. -/
def ptpFrame (s : State) (p : Fin 144) (m : PtpMsg) : Frame :=
  let peer := match m.kind with | .pdelayReq | .pdelayResp | .pdelayFollowUp => true | _ => false
  if m.ipv4 then portFrame s p 0x01005E000181 (max 64 (ptpLen m.kind + 46)) (.ptp m)
  else portFrame s p (if peer then 0x0180C200000E else 0x011B19000000) (max 64 (ptpLen m.kind + 18)) (.ptp m)

/-- A message of a port with its identities; the time stamping fills in its timestamp as it leaves (R35). -/
def ptpMessage (s : State) (p : Fin 144) (kind : PtpKind) (seq : Nat) : PtpMsg :=
  { kind := kind, domain := rf s Reg.timePrio 23 16, ipv4 := rf s Reg.timeCtrl 5 4 == 2,
    srcIp := if rf s Reg.timeCtrl 5 4 = 2 then Config.portIp p else 0, source := portIdentity s p, seq := seq, correction := 0, ts := 0,
    request := 0, ann := if kind = .announce then some (announced s p) else none,
    utc := if kind = .announce then some (utcOffset s) else none }

/-- Number of a kind in the sequence counters. -/
def ptpIdx : PtpKind → Nat
  | .sync => 0 | .announce => 1 | .delayReq => 2 | .pdelayReq => 3 | _ => 4

/-- The Sync, Announce, Delay_Req and Pdelay_Req messages the module sends at their intervals (R30, R33, R35): Sync and
Announce from master ports, Delay_Req from the slave port of the end-to-end profile, Pdelay_Req with the peer-to-peer
profiles. Responses are sent as their requests arrive; no message carries a timestamp in a follow-up. -/
def doPtpTransmit (p : Fin 144) (kind : PtpKind) (tm : Instant) (s : State) : State :=
  let s := toInstant s tm
  let e2e := rf s Reg.timeCtrl 5 4 == 2
  let may := match kind with
    | .sync | .announce => ptpRole s p == .master
    | .delayReq => ptpRole s p == .slave && e2e
    | .pdelayReq => !e2e
    | _ => false
  if !rb s Reg.timeCtrl 0 || !may || pState s p != 2 then s
  else
    let k := 8 * p.val + ptpIdx kind
    let m := ptpMessage s p kind (Tab.get 0 s.time.ptpSeq k)
    let s := modTime s (fun t => { t with ptpSeq := Tab.put 0 t.ptpSeq k ((Tab.get 0 t.ptpSeq k + 1) % 2 ^ 16) })
    originate s (ptpFrame s p m) 5 [p]

/-- The answer to a request that reaches a port (R30, R35): Delay_Resp with the receive timestamp from a master port of the
end-to-end profile, Pdelay_Resp with the peer-to-peer profiles. -/
def answerPtp (s : State) (p : Fin 144) (m : PtpMsg) : State :=
  let e2e := rf s Reg.timeCtrl 5 4 == 2
  let r (k : PtpKind) : PtpMsg :=
    { ptpMessage s p k m.seq with ts := s.now / 36, request := m.source, correction := m.correction }
  if !rb s Reg.timeCtrl 0 || pState s p != 2 then s
  else match m.kind with
    | .delayReq => if e2e && ptpRole s p == .master then originate s (ptpFrame s p (r .delayResp)) 5 [p] else s
    | .pdelayReq => if e2e then s else originate s (ptpFrame s p (r .pdelayResp)) 5 [p]
    | _ => s

/-! ## Meanings -/

def execEgressDequeue (p : Fin 144) (tm : Instant) (s : State) := ok (live s (doEgressDequeue p tm))
def execPfcRepeat (s : State) := ok (live s (doPfcRepeat))
def execPauseQuantaExpiry (p : Fin 144) (tc : Fin 5) (s : State) := ok (doPauseQuantaExpiry p tc s)
def execSwcPCfgWrite (p : Fin 144) (v : Word) (s : State) := ok (live s (doSwcPCfgWrite p v))
def execBlockLock (p : Fin 144) (tm : Instant) (s : State) := ok (doBlockLock p tm s)
def execTrainingTimeout (p : Fin 144) (s : State) := ok (doTrainingTimeout p s)
def execLossOfLock (p : Fin 144) (s : State) := ok (doLossOfLock p s)
def execVerifyAttemptTimeout (p : Fin 144) (s : State) := ok (doVerifyAttemptTimeout p s)
def execVerifyResponse (p : Fin 144) (s : State) := ok (doVerifyResponse p s)
def execFenceAutoRelease (p : Fin 144) (tm : Instant) (s : State) := ok (doFenceAutoRelease p tm s)
def execFenceRelease (p : Fin 144) (s : State) := ok (live s (doFenceRelease p))
def execSwcPLatch (p : Fin 144) (v : Word) (tm : Instant) (s : State) := ok (live s (doSwcPLatch p v tm))
def execQsfp28ModuleInserted (cage : Fin 12) (highPower : Bool) (s : State) := ok (doQsfpInserted cage highPower s)
def execFdbRead (s : State) := ok (live s doFdbRead)
def execFdbWriteStatic (s : State) := ok (live s doFdbWriteStatic)
def execFdbDelete (s : State) := ok (live s doFdbDelete)
def execFdbFlushLearned (s : State) := ok (live s doFdbFlushLearned)
def execFdbAgeOut (mac : BitVec 48) (vid : BitVec 12) (tm : Instant) (s : State) := ok (doFdbAgeOut mac vid tm s)
def execVlanWrite (s : State) := ok (live s doVlanWrite)
def execVlanRead (s : State) := ok (live s doVlanRead)
def execSwcOvfCfgWrite (v : Word) (s : State) := ok (live s (doSwcOvfCfgWrite v))
def execColPairmodeWrite (i : Fin 5) (v : Word) (s : State) := ok (live s (doColPairmodeWrite i v))
def execDupEntryForget (pair : Fin 72) (mac : BitVec 48) (tm : Instant) (s : State) := ok (doDupEntryForget pair mac tm s)
def execPtpTransmit (p : Fin 144) (kind : PtpKind) (tm : Instant) (s : State) := ok (live s (doPtpTransmit p kind tm))

end Sys2Proof.Machine
end

