-- ==== Sys2Proof/Machine/Loom.lean ====
section
/-!
DEFINITION. The Loom (chapter 04): which ASDUs a warp takes, the row a sample is placed in, closing a row with the presence
state machine, history and archive feed, playback, and the LOOM registers with a row of their own.
-/
namespace Sys2Proof.Machine

def modLoom (s : State) (f : Loom → Loom) : State := { s with loom := f s.loom }

/-! ## Warp configuration (R83, R84, R91, R109) -/

/-- The configuration of a warp as its four registers hold it: LOOM_W_CFG, _CONFREV, _DELAY, _HYST. -/
structure WarpCfg where
  cfg : Word
  confRev : Word
  delay : Nat
  hyst : Word
deriving DecidableEq, Repr

def warpCfg (s : State) (w : Fin 512) : WarpCfg :=
  ⟨rd s (Reg.loomWCfg w), rd s (Reg.loomWConfrev w), rf s (Reg.loomWDelay w) 15 0, rd s (Reg.loomWHyst w)⟩

def WarpCfg.valid (c : WarpCfg) : Bool := bitOf c.cfg 0
def WarpCfg.format (c : WarpCfg) : Nat := fld c.cfg 2 1
def WarpCfg.nvals (c : WarpCfg) : Nat := fld c.cfg 7 3
/-- ASDUs per frame minus 1. -/
def WarpCfg.nAsdu (c : WarpCfg) : Nat := fld c.cfg 10 8
def WarpCfg.ratio (c : WarpCfg) : Nat := fld c.cfg 12 11
def WarpCfg.owner (c : WarpCfg) : Nat := fld c.cfg 21 16

/-- The ranges of R83, R84 and R109: format, values, ASDUs, ratio, hysteresis, and a sample rate the module supports. -/
def WarpCfg.ranges (c : WarpCfg) (F : Nat) : Bool :=
  let rate := c.ratio * F
  (match c.format with
    | 0 => c.nvals == 8 && c.nAsdu ≤ 1
    | 3 => false
    | _ => 1 ≤ c.nvals && c.nvals ≤ 16)
  && 1 ≤ c.ratio && c.ratio ≤ 3 && [4000, 4800, 9600, 14400].contains rate
  && 1 ≤ fld c.hyst 7 0 && fld c.hyst 7 0 ≤ 64 && 1 ≤ fld c.hyst 15 8 && fld c.hyst 15 8 ≤ 64

/-- d × T covers the warp (R91), both sides scaled by the ratio. -/
def WarpCfg.covered (c : WarpCfg) (T : Instant) (transit d : Nat) : Bool :=
  (c.delay + transit) * usec * c.ratio + c.nAsdu * T ≤ d * T * c.ratio

def warpValid (s : State) (w : Fin 512) : Bool := rb s (Reg.loomWCfg w) 0
def warpOwner (s : State) (w : Fin 512) : Nat := if warpValid s w then (warpCfg s w).owner else 0
/-- LOOM_W_STATE.presence: 0 Unassigned, 1 Absent, 2 Rejoining, 3 Present. -/
def presence (s : State) (w : Fin 512) : Nat := rf s (Reg.loomWState w) 1 0
/-- The close delay in force. -/
def closeDelay (s : State) : Nat := rf s Reg.loomStat 6 0
/-- LOOM_PB_STATUS: 0 Idle, 1 Armed, 2 Running. -/
def pbState (s : State) : Nat := rf s Reg.loomPbStatus 1 0

/-- The close delay at the next edge: an accepted one waits for it (R92). -/
def nextDelay (s : State) : Nat := s.loom.delayPend.getD (closeDelay s)

/-- The held value of a register in a grant session, or the stored one. -/
def heldWord (s : State) (x : Session) (off : Nat) : Word :=
  match x.held.find? (fun e => e.1 == off) with | some e => e.2 | none => rd s off

/-- A warp's configuration as a session leaves it. -/
def sessionCfg (s : State) (x : Session) : WarpCfg :=
  ⟨heldWord s x (Reg.loomWCfg x.obj), heldWord s x (Reg.loomWConfrev x.obj), fld (heldWord s x (Reg.loomWDelay x.obj)) 15 0,
   heldWord s x (Reg.loomWHyst x.obj)⟩

/-- The unit and binding slot a warp is bound to (R157). -/
def boundAt (s : State) (w : Fin 512) : Option (Nat × Nat) :=
  ((List.range 16).flatMap (fun u => (List.range 32).map (fun j => (u, j)))).find? (fun e =>
    let b := rd s (Reg.hdlUWarp e.1 e.2)
    bitOf b 15 && fld b 8 0 == w.val)

/-- The registers and match entries as a session leaves them at the edge at which it takes effect (R260): its held writes; a release
takes the warp's grant and its binding (R95). -/
def afterGrant (s : State) (x : Session) : State :=
  let s := x.held.foldl (fun s e => wr s e.1 e.2) s
  let s := { s with sw := { s.sw with matchTab := x.entries.foldl (fun m y => Tab.put .reset m y.1 y.2) s.sw.matchTab } }
  if x.kind ≠ 0 ∨ x.tenant ≠ 0 then s
  else
    let s := wr s (Reg.loomWCfg x.obj) (rd s (Reg.loomWCfg x.obj) &&& oneBit 15)
    match boundAt s (Fin.ofNat 512 x.obj) with | some (u, j) => wr s (Reg.hdlUWarp u j) 0 | none => s

/-- The grants as the sessions committed for the next edge leave them, in their order. -/
def afterGrants (s : State) : State := s.hif.granted.foldl afterGrant s

/-- Every warp granted, or granted at the next edge, is covered (R91). -/
def allCovered (s : State) (transit d : Nat) : Bool :=
  let s' := afterGrants s
  (List.finRange 512).all (fun w => [warpCfg s w, warpCfg s' w].all (fun c => !c.valid || c.covered (period s) transit d))

/-! ## Which ASDUs a warp takes (R85, R97, R107) -/

/-- Whether an ASDU matched to a warp is processed, with the counters of those it is refused by. `loopback` ASDUs skip R107. -/
def asduAccept (s : State) (w : Fin 512) (sim : Bool) (a : SvAsdu) (loopback : Bool) : Bool × State :=
  let c := warpCfg s w
  if a.confRev ≠ c.confRev ∨ c.ratio * rateHz s ≤ a.smpCnt then (false, bump s (Reg.loomWRej w))
  else if bitOf c.cfg 15 && !loopback then (false, bump s (Reg.loomWIgn w))
  else if sim && !bitOf c.cfg 13 then (false, bump s (Reg.loomWIgn w))
  else if sim then
    if rb s (Reg.loomWState w) 3 then (true, s)
    else (true, raise (wb s (Reg.loomWState w) 3 true) Reg.loomIrq 8)
  else if rb s (Reg.loomWState w) 3 then (false, bump s (Reg.loomWIgn w))
  else (true, s)

/-! ## Placing a sample (R86 to R90) -/

/-- R86: whether an ASDU is time-aligned. -/
def timeAligned (s : State) (w : Fin 512) (a : SvAsdu) : Bool :=
  a.smpSynch == 2 && (match a.gmId with
    | some g => g.toNat == rd64 s Reg.timeGmidLo Reg.timeGmidHi
    | none => !rb s (Reg.loomWCfg w) 14) && (clkState s == 2 || clkState s == 3 || clkState s == 4)

/-- Change the alignment mode where the ASDU's result differs (R86, R88, R89). -/
def setAlign (s : State) (w : Fin 512) (aligned : Bool) : State :=
  let x := getWarp s w
  let old := rb s (Reg.loomWState w) 2
  let x' := if aligned && !old then { x with realign := x.modeSet, modeSet := true }
    else if !aligned && (old || !x.modeSet) then { x with anchor := none, modeSet := true }
    else { x with modeSet := true }
  wb (setWarp s w x') (Reg.loomWState w) 2 aligned

/-- R87: the tick of a time-aligned sample, from its ingress timestamp. -/
def tickByTime (F ratio : Nat) (ts : Instant) (smpCnt : Nat) : Int :=
  let off : Int := (smpCnt * second / (ratio * F) : Nat)
  let S : Int := ((ts : Int) + msec - off).fdiv second
  S * F + (smpCnt / ratio : Nat)

/-- R88: the tick of an arrival-aligned sample: the anchor's progression, or the nearest tick to its arrival. Answers the tick
and whether the warp re-anchored. DESIGN CHOICE (log entry 20): of two ticks equally near, the later. -/
def tickByArrival (F ratio : Nat) (T : Instant) (delayUs : Nat) (ts : Instant) (anchor : Option (Nat × Nat)) (smpCnt : Nat) :
    Int × Bool :=
  let arr : Int := (2 * ((ts : Int) - (delayUs * usec : Nat)) + T).fdiv (2 * T)
  match anchor with
  | none => (arr, false)
  | some (at0, c0) =>
    let m : Int := ((smpCnt : Int) - c0).fmod (ratio * F : Nat)
    let pred : Int := at0 + m.fdiv ratio
    if 2 ≤ (pred - arr).natAbs then (arr, true) else (pred, false)

/-- The four-bit quality of a row entry from a received 32-bit quality (R93). -/
def nibble (q : Word) : Nat := fld q 1 0 + 4 * b2n (bitOf q 11) + 8 * b2n (fld q 9 2 != 0 || bitOf q 10 || bitOf q 12)

def packQuals (l : List Word) : BitVec 64 :=
  BitVec.ofNat 64 ((l.take 16).foldr (fun q a => nibble q + 16 * a) 0)

/-- Ingress timestamp minus sample instant in µs, saturating (R93). -/
def marginOf (ts : Instant) (inst : Int) : Int := max (-32767) (min 32767 (((ts : Int) - inst).tdiv usec))

def rowSlot (s : State) (n : Nat) (w : Fin 512) : Option Sample := Tab.get none (Tab.get [] s.loom.openRows n) w
def setSlot (s : State) (n : Nat) (w : Fin 512) (x : Option Sample) : State :=
  modLoom s (fun l => { l with openRows := Tab.put [] l.openRows n (Tab.put none (Tab.get [] l.openRows n) w x) })

/-- The tick edge whose instant has come while its command is still to run: an ASDU of that cycle is behind it (R90). -/
def edgeDue (s : State) : Bool := s.time.ticking && (s.time.tick + 1) * period s ≤ s.now

/-- The tick as an ASDU finds it. -/
def dueTick (s : State) : Nat := s.time.tick + b2n (edgeDue s)

/-- Whether that edge discards the open rows: a pending step, tick rate or close delay (R92, R99). -/
def cutDue (s : State) : Bool :=
  let top := (s.time.tick + 1) % rateHz s == 0
  edgeDue s && ((match s.time.step with | some x => !x.top || top | none => false) || (s.time.ratePend.isSome && top) ||
    s.loom.delayPend.isSome)

/-- Whether an ASDU's record reaches the Loom in the cycle of an edge that discards the open rows (R99). -/
def inCutCycle (s : State) : Bool :=
  cutDue s || (match s.loom.cutAt with | some t => decide (s.op < t + mainCycle) | none => false)

/-- An ASDU accepted for a warp reaches the Loom (R84, R86 to R90, R99, R109). Its alignment and the anchor follow whether or not
placement is enabled. -/
def loomAsdu (s : State) (w : Fin 512) (sim : Bool) (a : SvAsdu) (ts : Instant) (playback : Bool) (chk : Option Nat) : State :=
  let c := warpCfg s w
  if !s.loom.started || inCutCycle s || !c.valid || c.ratio == 0 || a.smpCnt % c.ratio != 0 then s
  else
    let F := rateHz s
    let T := period s
    let al := timeAligned s w a
    let s := setAlign s w al
    let x := getWarp s w
    let (n, re) := if al then (tickByTime F c.ratio ts a.smpCnt, false) else tickByArrival F c.ratio T c.delay ts x.anchor a.smpCnt
    let s := if re then bump s (Reg.loomWReanchor w) else s
    let s := if al then s else modWarp s w (fun y => { y with anchor := some (n.toNat, a.smpCnt) })
    let m : Int := dueTick s
    let d : Int := closeDelay s
    if !s.loom.enable then s
    else if (match s.loom.flushUpTo with | some f => decide (n ≤ (f : Int)) | none => false) then s
    else if n ≤ m - d then
      raise (modWarp (bump s (Reg.loomWLate w)) w (fun y => { y with lateSeen := true })) Reg.loomIrq 2
    else if m + 8 < n then bump s (Reg.loomWEarly w)
    else
      let x := getWarp s w
      let q := packQuals a.quals
      match rowSlot s n.toNat w with
      | some o =>
        let s := bump s (Reg.loomWDup w)
        if o.vals ≠ a.vals ∨ o.quals ≠ q then raise (setSlot s n.toNat w (some { o with conflict := true })) Reg.loomIrq 3 else s
      | none =>
        let smp : Sample := {
          au := !al, sim := sim, realign := al && x.realign, playback := playback, conflict := false,
          synch := a.smpSynch % 4, smpCnt := a.smpCnt % 2 ^ 16, margin := marginOf ts (n * T), vals := a.vals, quals := q, chk := chk }
        let s := setSlot s n.toNat w (some smp)
        let s := if al then modWarp s w (fun y => { y with realign := false }) else s
        wf s (Reg.loomWState w) 31 16 (a.smpCnt % 2 ^ 16)

/-! ## Closing a row (R19, R93 to R95) -/

/-- Some value's quality nibble satisfies a test. -/
def anyNibble (q : BitVec 64) (n : Nat) (f : Nat → Bool) : Bool :=
  (List.range n).any (fun i => f ((q.toNat / 16 ^ i) % 16))

/-- The warp entry's status word (R93), from the sample placed or held. -/
def statusWord (st : Nat) (placed held : Option Sample) (late absentNow presentNow reassigned : Bool) (nvals : Nat) : Word :=
  let src := placed.orElse (fun _ => held)
  let of (f : Sample → Bool) (o : Option Sample) : Bool := match o with | some x => f x | none => false
  let q : BitVec 64 := match src with | some x => x.quals | none => BitVec.ofNat 64 0x1111111111111111
  W (b2n (st == 3) + 2 * b2n placed.isNone + 4 * b2n placed.isNone + 8 * b2n (of (·.au) placed) + 16 * b2n late +
    32 * b2n (of (·.conflict) placed) + 64 * b2n (of (·.sim) src) + 128 * b2n (anyNibble q nvals (fun x => x / 4 % 2 == 1)) +
    256 * b2n (anyNibble q nvals (fun x => x % 4 == 1)) + 512 * b2n absentNow + 1024 * b2n presentNow +
    4096 * b2n (of (·.realign) placed) + 8192 * b2n reassigned + 16384 * b2n (of (·.playback) placed) + 32768 * b2n (st == 2) +
    65536 * (match src with | some x => x.synch | none => 0))

/-- Words of the row entry for a warp with its status word. -/
def entryOf (status : Word) (src : Option Sample) (nvals : Nat) : WarpEntry :=
  match src with
  | some x => ⟨status, W (x.smpCnt + 65536 * (x.margin.emod 65536).toNat), (x.vals.take nvals) ++ List.replicate (16 - nvals) 0,
      x.quals⟩
  | none => ⟨status, 0, List.replicate 16 0, BitVec.ofNat 64 (if nvals < 16 then 0x1111111111111111 % 16 ^ nvals else 0x1111111111111111)⟩

/-- Close one granted warp's entry of a row (R95): the state table, the flags, LOOM_W_MISSING and the held sample. The miss
counter is that of LOOM_W_STATE: consecutive missing rows, up to 255 (R109). -/
def closeWarp (s : State) (placed : Option Sample) (flushed : Bool) (w : Fin 512) : WarpEntry × State :=
  let c := warpCfg s w
  let x := getWarp s w
  let st := presence s w
  let miss := rf s (Reg.loomWState w) 15 8
  let absentN := fld c.hyst 7 0
  let presentN := fld c.hyst 15 8
  let (st', good', miss', becAbs, becPre) : Nat × Nat × Nat × Bool × Bool :=
    if flushed then (st, x.good, miss, false, false)
    else match placed with
      | some _ =>
        if st = 3 then (3, x.good, 0, false, false)
        else if presentN ≤ x.good + 1 then (3, 0, 0, false, true)
        else (2, x.good + 1, 0, false, false)
      | none =>
        if st = 3 then (if absentN ≤ miss + 1 then (1, 0, miss + 1, true, false) else (3, x.good, miss + 1, false, false))
        else (1, 0, miss + 1, false, false)
  let e := entryOf (statusWord st' placed x.held x.lateSeen becAbs becPre x.reassigned c.nvals)
    (placed.orElse (fun _ => x.held)) c.nvals
  let s := setWarp s w { x with
    good := good', lateSeen := false, reassigned := x.reassigned && placed.isNone,
    held := placed.orElse (fun _ => x.held) }
  let s := wf (wf s (Reg.loomWState w) 1 0 st') (Reg.loomWState w) 15 8 (min 255 miss')
  let s := if placed.isNone then bump s (Reg.loomWMissing w) else s
  let s := if becAbs then logRec (raise s Reg.loomIrq 0) Reg.loomIrq 2 0 1 [w] else s
  (e, if becPre then raise s Reg.loomIrq 1 else s)

/-- Index of the next row to close; it never restarts while the part runs (R145). -/
def nextIndex (s : State) : Nat := match s.loom.closed with | r :: _ => r.index + 1 | [] => 1

/-- Slots the closed rows may hold beside the open ones (R90). -/
def spareSlots (s : State) : Nat := 128 - (closeDelay s + 8)

/-- Whether the history ring is being written. -/
def histOn (s : State) : Bool := rb s Reg.loomCtrl 8 && ddrChannels s != 0

/-- Mark a closed row as a gap of the history ring and the archive (R103). -/
def markGap (s : State) (idx : Nat) : State :=
  modLoom s (fun l => { l with closed := l.closed.map (fun r => if r.index = idx then { r with gap := true } else r) })

/-- A row slot is reused before its row is written (R103). -/
def histOverflow (s : State) : State :=
  match s.loom.histDue with
  | i :: rest =>
    if spareSlots s < s.loom.histDue.length then
      let s := modLoom (markGap s i) (fun l => { l with histDue := rest })
      logRec (raise (archiveFeed s (s.loom.closed.find? (fun r => r.index == i))) Reg.loomIrq 7) Reg.loomIrq 2 1 7 [i]
    else s
  | [] => s

/-- Close the row of tick k (R19, R93, R101, R102): `flushed` rows are discarded open, `disc` marks the discontinuity tick. While placement is disabled every warp is missing (R109). -/
def closeRow (s : State) (k : Nat) (flushed disc : Bool) : State :=
  let slots := if flushed || !s.loom.enable then [] else Tab.get [] s.loom.openRows k
  let (es, s) := (List.finRange 512).foldl (fun (acc : Tab WarpEntry × State) w =>
    if warpValid acc.2 w then
      -- a sample whose tag verdict is still outstanding is left out (R170)
      let x := Tab.get none slots w
      let late := match x with | some y => y.chk.isSome | none => false
      let s0 := if late then match boundAt acc.2 w with | some (u, _) => bump acc.2 (Reg.hdlUAuthlate u) | none => acc.2 else acc.2
      let r := closeWarp s0 (if late then none else x) flushed w
      (acc.1 ++ [(w.val, r.1)], r.2)
    else acc) ([], s)
  let pb := es.any (fun e => bitOf e.2.status 14)
  let flags := W (b2n disc + 2 * b2n flushed + 4 * b2n pb + 8 * clkState s + 64 * b2n (rb s Reg.timeState 5))
  let idx := nextIndex s
  let row : Row := ⟨k, rf s Reg.timeStepcnt 15 0, flags, closeDelay s, idx, !histOn s, es⟩
  let feed := histOn s || rb s Reg.loomCtrl 9
  let s := modLoom s (fun l => { l with
    openRows := Tab.del l.openRows k
    closed := (row :: l.closed).take (rateHz s)
    nClosed := l.nClosed + 1
    histDue := if feed then l.histDue ++ [idx] else l.histDue })
  let s := wr64 s Reg.loomClosedLo Reg.loomClosedHi k
  histOverflow s

/-- Rows discarded at a step, rate or close-delay edge (R42, R92, R99): no open row survives, every arrival anchor is
cleared, the d + 1 rows from here on close flushed. -/
def discardRows (s : State) (upTo : Nat) : State :=
  modLoom s (fun l => { l with
    openRows := []
    flushUpTo := some upTo
    cutAt := some s.op
    warp := l.warp.map (fun e => (e.1, { e.2 with anchor := none })) })

/-- A warp's slots in every open row are cleared (R95, R97, R100). -/
def clearSlots (s : State) (w : Fin 512) : State :=
  modLoom s (fun l => { l with openRows := l.openRows.map (fun e => (e.1, Tab.del e.2 w)) })

/-- A warp in simulation leaves it at the edge after sim_accept was written 0 (R97). -/
def leaveSim (s : State) : State :=
  (List.finRange 512).foldl (fun s w =>
    if (getWarp s w).simLeave then
      let s' := modWarp s w (fun x => { x with simLeave := false })
      if rb s (Reg.loomWState w) 3 then
        wb (modWarp (clearSlots s' w) w (fun x => { x with reassigned := true })) (Reg.loomWState w) 3 false
      else s'
    else s) s

/-- A grant of a warp in force from this edge (R95, R100): a new grant, or a change that keeps its samples and state; cfg_rej stays
until the next accepted write (R109). DEDUCED (log
entry 20): only a change that counts as a new grant clears the warp's slots in the open rows. A change that writes sim_accept 0
leaves simulation at this edge (R97). -/
def loomGrant (s : State) (w : Fin 512) (c : WarpCfg) (matchChanged : Bool) : State :=
  let o := warpCfg s w
  let fresh := matchChanged || !o.valid || o.owner != c.owner || o.format != c.format || o.nvals != c.nvals ||
    o.ratio != c.ratio || o.confRev != c.confRev
  let keep := rd s (Reg.loomWCfg w) &&& oneBit 15
  let s := wr s (Reg.loomWCfg w) ((c.cfg &&& 0x3F7FFF) ||| keep)
  let s := wr (wr (wr s (Reg.loomWConfrev w) c.confRev) (Reg.loomWDelay w) (W c.delay)) (Reg.loomWHyst w) c.hyst
  if fresh then
    let s := setWarp (clearSlots s w) w { WarpSt.reset with reassigned := true, since := nextIndex s }
    wr s (Reg.loomWState w) (1 ||| (rd s (Reg.loomWState w) &&& oneBit 4))
  else if bitOf o.cfg 13 && !bitOf c.cfg 13 then modWarp s w (fun x => { x with simLeave := true }) else s

/-- A warp's grant released (R95). -/
def loomRelease (s : State) (w : Fin 512) : State :=
  let s := setWarp (clearSlots s w) w .reset
  wr (wr s (Reg.loomWCfg w) (rd s (Reg.loomWCfg w) &&& oneBit 15)) (Reg.loomWState w) (rd s (Reg.loomWState w) &&& oneBit 4)

/-! ## History (R101, R103) -/

/-- DDR5 offset of a row of the history ring, by its index: F slots of a row's 40 992 bytes, used in turn (log entry 39). -/
def histAt (s : State) (i : Nat) : Nat := i % rateHz s * 40992

/-- The oldest due row reaches the history ring and the Archive Engine (R101, R102). -/
def doHistoryWrite (s : State) : State :=
  match s.loom.histDue with
  | [] => s
  | i :: rest =>
    let s := if rb s Reg.loomCtrl 8 then askSpread s 0 (histAt s i) 40992 else s
    archiveFeed (modLoom s (fun l => { l with histDue := rest })) (s.loom.closed.find? (fun r => r.index == i))

/-- The history ring is rebuilt, empty, over the remaining channels (R103). The rows whose write was due still reach the Archive
Engine (R102). -/
def doHistoryRebuildDone (s : State) : State :=
  let due := s.loom.histDue.map (fun i => s.loom.closed.find? (fun r => r.index == i))
  due.foldl archiveFeed (modLoom s (fun l => { l with closed := l.closed.take 1, nClosed := 0, histDue := [] }))

/-! ## Playback (R105 to R108) -/

/-- A stream descriptor (R105). -/
structure PbDesc where
  src : Nat
  nvals : Nat
  nAsdu : Nat
  toPort : Bool
  toWarp : Bool
  tgt : Fin 512
  sim : Bool
  forceTest : Bool
  format : Nat
  pgrp : Nat
  vid : BitVec 12
  pcp : Nat
  dmac : BitVec 48
  appid : Nat
  confRev : Word
  idlen : Nat
  svId : List Byte

/-- The descriptor of a stream (R105). DEDUCED (log entry 20): every word but dmac is little-endian. -/
def pbDesc (s : State) (j : Nat) : PbDesc :=
  let a := rf s Reg.loomPbDtabHi 3 0 * 2 ^ 32 + (rd s Reg.loomPbDtabLo).toNat + 128 * j
  let b := peeks s.ddr a 128
  let w (i : Nat) : Word := W (leNat ((b.drop i).take 4))
  let w0 := w 0
  let w1 := w 4
  {
    src := fld w0 8 0, nvals := fld w0 13 9, nAsdu := fld w0 16 14, toPort := bitOf w0 17, toWarp := bitOf w0 18,
    tgt := Fin.ofNat 512 (fld w0 27 19), sim := bitOf w0 28, forceTest := bitOf w0 29, format := fld w0 31 30, pgrp := fld w1 5 0,
    vid := BitVec.ofNat 12 (fld w1 17 6), pcp := fld w1 20 18, dmac := BitVec.ofNat 48 (beNat ((b.drop 8).take 6)),
    appid := leNat ((b.drop 14).take 2), confRev := w 16, idlen := fld (w 20) 6 0, svId := (b.drop 24).take (fld (w 20) 6 0) }

def pbCount (s : State) : Nat := min 512 (rf s Reg.loomPbNstr 9 0)
def pbDescs (s : State) : List (Nat × PbDesc) := (List.range (pbCount s)).map (fun j => (j, pbDesc s j))
def pbScopeModule (s : State) : Bool := rb s Reg.loomPbCtrl 0

/-- Whether playback, not Idle, has a scope that covers a tenant (R108, R188). -/
def pbCovers (s : State) (t : Fin 64) : Bool :=
  pbState s != 0 && (pbScopeModule s || (pbDescs s).any (fun e => e.2.toWarp && warpOwner s e.2.tgt == t.val))

/-- The start checks of R108: the first reason that applies; 0 none. -/
def pbCheck (s : State) : Nat :=
  let ds := pbDescs s
  let idle (t : Nat) (l : List Nat) : Bool := l.contains (tState s (ten t))
  let c1 := if pbScopeModule s then (List.range 64).all (fun t => idle t [0, 1, 4])
    else ds.all (fun e => !e.2.toWarp || warpOwner s e.2.tgt == 0 || idle (warpOwner s e.2.tgt) [1, 4])
  let startT := rf s Reg.loomPbStartHi 15 0 * 2 ^ 32 + (rd s Reg.loomPbStartLo).toNat
  let c3 := ds.all (fun e =>
    (e.2.toPort || e.2.toWarp) && (!e.2.toWarp || presence s e.2.tgt != 0) && (pbScopeModule s || !e.2.toPort))
  let n := rf s Reg.loomPbNstr 9 0
  if !c1 then 1 else if startT < s.time.tick + 2 then 2 else if !c3 then 3
  else if rf s Reg.loomPbRows 15 0 < 2 ∨ n < 1 ∨ 512 < n then 4 else 0

def doPbStart (s : State) : State :=
  if pbState s ≠ 0 then s
  else match pbCheck s with
    | 0 => wb (wf (wf s Reg.loomPbStatus 1 0 1) Reg.loomPbStatus 6 4 0) Reg.loomPbStatus 8 false
    | r => raise (wf s Reg.loomPbStatus 6 4 r) Reg.loomIrq 4

def doPbStop (s : State) : State := if pbState s = 0 then s else modLoom s (fun l => { l with pbStop := true })

/-- Set or clear pb_target on the target warps. -/
def pbTargets (s : State) (on : Bool) : State :=
  if on then (pbDescs s).foldl (fun s e => if e.2.toWarp then wb s (Reg.loomWCfg e.2.tgt) 15 true else s) s
  else each 512 (fun w s => wb s (Reg.loomWCfg w) 15 false) s

/-- Playback ends (R108). -/
def pbIdle (s : State) (done : Bool) : State :=
  let s := modLoom (pbTargets (wf s Reg.loomPbStatus 1 0 0) false) (fun l => { l with pbStop := false, pbHold := [] })
  if done then raise s Reg.loomIrq 6 else s

/-- One sample of a stream from the buffer row at an index (R105, R106). -/
def pbSample (s : State) (d : PbDesc) (row : Nat) : SvAsdu :=
  let base := rf s Reg.loomPbBufHi 3 0 * 2 ^ 32 + (rd s Reg.loomPbBufLo).toNat + 40992 * row + 32 + 80 * d.src
  let word (o : Nat) : Word := W (leNat (peeks s.ddr (base + o) 4))
  let qs := leNat (peeks s.ddr (base + 72) 8)
  let locked := clkState s == 2
  {
    svId := d.svId, dsLen := 8 * d.nvals, smpCnt := s.time.tick % rateHz s, confRev := d.confRev,
    smpSynch := if locked then 2 else 1,
    gmId := if locked then some (BitVec.ofNat 64 (rd64 s Reg.timeGmidLo Reg.timeGmidHi)) else none,
    refrTm := some s.now,
    vals := (List.range d.nvals).map (fun i => word (8 + 4 * i)),
    quals := (List.range d.nvals).map (fun i =>
      let q := qs / 16 ^ i % 16
      W (q % 4 + 2048 * b2n (d.forceTest || q / 4 % 2 == 1) + 1024 * (q / 8))) }

/-- The frame of a stream's samples, for ports (R106). -/
def pbFrame (j : Nat) (d : PbDesc) (l : List SvAsdu) : Frame :=
  {
    dst := d.dmac, src := Config.streamSrc j, vid := some d.vid, pcp := d.pcp, len := Config.svLen d.format l.length d.nvals d.idlen, fcsErr := false,
    symErr := false, reasmErr := false, prpSeq := none, hsrSeq := none, macsec := none, tag := none, body := .sv d.appid d.sim true l }

/-- Emit one buffer row at the edge of the current tick. A frame leaves when it holds n_asdu + 1 samples, at the tick whose
index is congruent to n_asdu; a frame that has missed a sample, the first one or one with an underrun inside, does not hold
them and does not leave (log entry 20). -/
def pbEmit (s : State) (row : Nat) : State :=
  (pbDescs s).foldl (fun s e =>
    let d := e.2
    let smp := pbSample s d row
    let held := (if smp.smpCnt % (d.nAsdu + 1) = 0 then [] else Tab.get [] s.loom.pbHold e.1) ++ [smp]
    if smp.smpCnt % (d.nAsdu + 1) = d.nAsdu then
      let s := modLoom s (fun l => { l with pbHold := Tab.put [] l.pbHold e.1 [] })
      if held.length = d.nAsdu + 1 then
        let s := if d.toPort then originate s (pbFrame e.1 d held) 6 (groupPorts s d.pgrp) else s
        if d.toWarp then modLoom s (fun l => { l with pbLoop := l.pbLoop ++ held.map (fun a => (e.1, d.tgt.val, d.sim, a, s.now)) })
        else s
      else s
    else modLoom s (fun l => { l with pbHold := Tab.put [] l.pbHold e.1 held })) s

/-- One row of a running playback at a tick edge. -/
def pbRun (s : State) : State :=
  let cons := rf s Reg.loomPbCons 15 0
  let rows := max 1 (rf s Reg.loomPbRows 15 0)
  let base := rf s Reg.loomPbBufHi 3 0 * 2 ^ 32 + rf s Reg.loomPbBufLo 31 12 * 4096
  let play (s : State) (c : Nat) : State := wr (pbEmit (askSpread s 0 (base + 40992 * c) 40992) c) Reg.loomPbCons (W ((c + 1) % rows))
  if cons ≠ rf s Reg.loomPbProd 15 0 then play s cons
  else if rb s Reg.loomPbCtrl 2 then pbIdle s true
  else if rb s Reg.loomPbCtrl 1 then play s 0
  else raise (bump s Reg.loomPbUnderrun) Reg.loomIrq 5

/-- Playback at a tick edge (R108); `stepEdge` marks a step's discontinuity tick. -/
def pbEdge (s : State) (stepEdge : Bool) : State :=
  let startT := rf s Reg.loomPbStartHi 15 0 * 2 ^ 32 + (rd s Reg.loomPbStartLo).toNat
  if pbState s = 0 then s
  else if s.loom.pbStop then pbIdle s true
  else if pbState s = 1 then
    if s.time.tick = startT then pbRun (pbTargets (wf s Reg.loomPbStatus 1 0 2) true)
    else if stepEdge && startT < s.time.tick then
      let s := wb (pbTargets (wf s Reg.loomPbStatus 1 0 2) true) Reg.loomPbStatus 8 true
      pbRun (logRec s Reg.loomIrq 2 0 2 [s.time.tick])
    else s
  else pbRun (if stepEdge then wb s Reg.loomPbStatus 8 true else s)

/-! ## Grant sessions seen by the blocks (R260) -/

/-- A session is open for an object: kind 0 warp, 1 GOOSE subscription. -/
def inSession (s : State) (kind obj : Nat) : Bool :=
  match s.hif.session with | some x => x.kind == kind && x.obj == obj | none => false

/-- Hold a register write in the open session. -/
def holdWrite (s : State) (off : Nat) (v : Word) : State :=
  match s.hif.session with
  | some x => { s with hif := { s.hif with session := some { x with held := Tab.ins x.held off v } } }
  | none => s

/-! ## Registers with a row of their own (R91, R92, R97, R109) -/

/-- LOOM_CTRL (R92, R109). DESIGN CHOICE (log entry 20): a write that leaves close_delay as it is is accepted while tenants run,
and causes no discard. -/
def doLoomCtrlWrite (v : Word) (s : State) : State :=
  let v := v &&& 0x3FF
  let d := fld v 7 1
  let chg := d ≠ rf s Reg.loomCtrl 7 1
  if d < 1 ∨ 64 < d ∨ (chg ∧ !(allIdle s && pbState s == 0 && allCovered s (rf s Reg.loomTransit 15 0) d)) then
    wb s Reg.loomStat 8 true
  else
    let s := wb (wrp s Reg.loomCtrl v) Reg.loomStat 8 false
    if chg then modLoom s (fun l => { l with delayPend := some d }) else s

def doLoomTransitWrite (v : Word) (s : State) : State :=
  if allCovered s (fld v 15 0) (nextDelay s) then wb (wrp s Reg.loomTransit (v &&& 0xFFFF)) Reg.loomStat 12 false
  else raise (wb s Reg.loomStat 12 true) Reg.loomIrq 4

/-- LOOM_W_CFG: held in the warp's grant session; outside it only sim_accept changes. -/
def doLoomWCfgWrite (w : Fin 512) (v : Word) (s : State) : State :=
  if inSession s 0 w then holdWrite s (Reg.loomWCfg w) (v &&& 0x3F7FFF)
  else
    let old := rd s (Reg.loomWCfg w)
    if (v ^^^ old) &&& 0x3F5FFF ≠ 0 then wb s (Reg.loomWState w) 4 true
    else
      let s := wb (wb s (Reg.loomWCfg w) 13 (bitOf v 13)) (Reg.loomWState w) 4 false
      if bitOf old 13 && !bitOf v 13 then modWarp s w (fun x => { x with simLeave := true }) else s

/-- The other grant-only registers of a warp (R260). -/
def warpRegWrite (s : State) (w : Fin 512) (off : Nat) (v : Word) : State :=
  if inSession s 0 w then holdWrite s off v else wb s (Reg.loomWState w) 4 true

def execHistoryWrite (s : State) := ok (doHistoryWrite s)
def execHistoryRebuildDone (s : State) := ok (doHistoryRebuildDone s)
def execPbStart (s : State) := ok (live s doPbStart)
def execPbStop (s : State) := ok (live s doPbStop)
def execLoomCtrlWrite (v : Word) (s : State) := ok (live s (doLoomCtrlWrite v))
def execLoomTransitWrite (v : Word) (s : State) := ok (live s (doLoomTransitWrite v))
def execLoomWCfgWrite (w : Fin 512) (v : Word) (s : State) := ok (live s (doLoomWCfgWrite w v))

end Sys2Proof.Machine
end

