-- ==== Sys2Proof/Machine/Trip.lean ====
section
/-!
DEFINITION. The Trip Release Unit and the publishers (R15, R18, R169 to R178, R190, R194, R275, R380): armed-frame slots, release,
publication streams and holds, and the commands that write slots.
-/
namespace Sys2Proof.Machine

def modTru (s : State) (f : Tru → Tru) : State := { s with tru := f s.tru }
def getSlot (s : State) (i : Nat) : TSlot := Tab.get .reset s.tru.slot i
def modSlot (s : State) (i : Nat) (f : TSlot → TSlot) : State :=
  modTru s (fun t => { t with slot := Tab.put .reset t.slot i (f (getSlot s i)) })
def getPub (s : State) (p : Nat) : Pub := Tab.get .reset s.tru.pub p
def modPub (s : State) (p : Nat) (f : Pub → Pub) : State :=
  modTru s (fun t => { t with pub := Tab.put .reset t.pub p (f (getPub s p)) })

/-- TRU_S_CFG of a slot (R184). -/
def TSlot.pub (x : TSlot) : Nat := fld x.cfg 9 0
def TSlot.cfgOwner (x : TSlot) : Nat := fld x.cfg 15 10
def TSlot.pgrp (x : TSlot) : Nat := fld x.cfg 21 16
def TSlot.gmac (x : TSlot) : Bool := bitOf x.cfg 22
def TSlot.sim (x : TSlot) : Bool := bitOf x.cfg 23
/-- allData of the template (R177): offset in TRU_S_LEN, length in TRU_S_TOFS. -/
def TSlot.allData (x : TSlot) : List Byte := (x.template.drop (fld x.len 24 16)).take (fld x.tofs 24 16)

/-- The slot's frame is its publication's stream (R177). -/
def holding (s : State) (i : Nat) : Bool :=
  (getSlot s i).st != 0 && (getPub s (getSlot s i).pub).hold == some i

/-- Owner of a publication (HIF_OWN_GPUB, HIF_OWN_SPUB; R261). -/
def pubOwner (s : State) (p : Nat) : Nat :=
  if p < 1024 then ownByte s Reg.hifOwnGpub p else ownByte s Reg.hifOwnSpub (p - 1024)

/-! ## Building a frame (R172, R174) -/

/-- A non-negative number as the content octets of a minimal BER INTEGER. -/
def berInt (n : Nat) : List Byte :=
  toBe (if n < 0x80 then 1 else if n < 0x8000 then 2 else if n < 0x800000 then 3 else if n < 0x80000000 then 4 else 5) n

/-- The clock counts as synchronised for timeQuality (R174). -/
def clkGood (s : State) : Bool := clkState s == 2 || (clkState s == 3 && rb s Reg.timeState 5)

/-- t: the present instant as the eight octets of a UtcTime. -/
def utcTime (s : State) : List Byte :=
  let ofs : Int := (BitVec.ofNat 16 (rf s Reg.timeUtcofs 15 0)).toInt
  let sec := ((secOf s.now : Int) - ofs).emod (2 ^ 32)
  let q := 0x80 + (if clkGood s then 0 else 0x20) + (if clkState s = 2 then 20 else 31)
  toBe 4 sec.toNat ++ toBe 3 (s.now % second * 2 ^ 24 / second) ++ [BitVec.ofNat 8 q]

/-- Replace a seven-octet placeholder by a minimal INTEGER with the same tag. -/
def putInt (b : List Byte) (ofs n : Nat) : List Byte :=
  b.take (ofs + 1) ++ [BitVec.ofNat 8 (berInt n).length] ++ berInt n ++ b.drop (ofs + 7)

/-- Take `n` off a two-octet length. -/
def subLen (b : List Byte) (ofs n : Nat) : List Byte := overlay b ofs (toBe 2 (beNat ((b.drop ofs).take 2) - n))

/-- The IEC 62351-6 extension of a frame a publication sends (R174, R298): the key identifier, or an empty slot's zero tag
(R305), counted. -/
def signFrame (s : State) (p : Nat) (f : Frame) : Frame × State :=
  let kind := if p < 1024 then 0 else 1
  match pubKey s kind (if p < 1024 then p else p - 1024) with
  | some (kid, some _) => ({ f with tag := some ⟨kid, .gmac, true⟩, len := f.len + Config.tagLen }, s)
  | some (kid, none) => ({ f with tag := some ⟨kid, .gmac, false⟩, len := f.len + Config.tagLen }, noKey s)
  | none => (f, s)

/-- The frame of a slot with a stNum, a sqNum and t (R172, R174); in a gated publication the lease epoch becomes the last member as
the frame leaves (`tripOut`). -/
def slotFrame (x : TSlot) (st sq : Nat) (t : List Byte) : Frame :=
  let b := (overlay x.template (fld x.tofs 8 0) t).take x.template.length
  let o1 := fld x.ofs 8 0
  let o2 := fld x.ofs 24 16
  let b := if o1 < o2 then putInt (putInt b o2 sq) o1 st else putInt (putInt b o1 st) o2 sq
  let cut := 10 - (berInt st).length - (berInt sq).length
  let vlan := beNat ((b.drop 12).take 2) == 0x8100
  let et := if vlan then 16 else 12
  let b := subLen (subLen b (et + 4) cut) (et + 12) cut
  { dst := BitVec.ofNat 48 (beNat (b.take 6)), src := BitVec.ofNat 48 (beNat ((b.drop 6).take 6)),
    vid := if vlan then some (BitVec.ofNat 12 (beNat ((b.drop 14).take 2))) else none,
    pcp := if vlan then beNat ((b.drop 14).take 2) / 2 ^ 13 else 0, len := b.length + 4, fcsErr := false, symErr := false,
    reasmErr := false, prpSeq := none, hsrSeq := none, macsec := none, tag := none,
    body := .raw (beNat ((b.drop et).take 2)) b }

/-- A trip frame joins a port's trip queue; an express frame on the wire is aborted for it and kept to be sent again (R71,
R175). DESIGN CHOICE (log entry 38): so is an express frame that was on the wire when the port became Fenced: it was not queued
then (R77), and it is sent again once the port is Up. -/
def pushTrip (s : State) (p : Fin 144) (t : TripItem) : State :=
  let s := modPort s p (fun x => { x with trips := x.trips ++ [t] })
  match (getPort s p).wire with
  | some (.stored id _) =>
    let express := match stored s id with | some f => decide (6 ≤ f.tc) | none => false
    if express then bump (modPort s p (fun x => { x with wire := none, resend := some id })) Reg.truAborts else s
  | _ => s

/-- Send a slot's frame as a trip frame on every port of its group that is Up or Fenced; answers the ports missed (R176). -/
def sendSlot (s : State) (i : Nat) (st sq : Nat) (t : List Byte) : Nat × State :=
  let x := getSlot s i
  if pubMuted s x.pub then (0, s)
  else
    let f := slotFrame x st sq t
    let (f, s) := if x.gmac then signFrame s x.pub f else (f, s)
    let ps := portsOf s x.pgrp
    let live := ps.filter (fun p => pState s p == 2 || pState s p == 3)
    let s := live.foldl (fun s p => pushTrip s p ⟨x.pub, some i, tagged s p f, x.template.length + 4 - fld x.len 24 16 - fld x.tofs 24 16⟩) s
    (ps.length - live.length, advancePairs s live)

/-- Retransmission intervals (R177): t1, doubling up to t0. -/
def retxT1 (s : State) : Instant := rf s Reg.truRetx 9 0 * 100 * usec
def retxT0 (s : State) : Instant := rf s Reg.truRetx 25 16 * 10 * msec
def retxGap (s : State) (k : Nat) : Instant := min (retxT1 s * 2 ^ k) (retxT0 s)

/-! ## Release (R15, R171 to R177) -/

def truOn (s : State) : Bool := rb s Reg.truCtrl 0

/-- Release an armed slot: a new state of its publication, whose stream the slot's frame becomes. -/
def release (s : State) (i : Nat) : State :=
  let x := getSlot s i
  let p := x.pub
  let st := ((getPub s p).stNum + 1) % 2 ^ 32
  let t := utcTime s
  let s := modPub s p (fun y => { y with stNum := st, restored := false, sqNum := 0, hold := some i, step := 0, nextAt := s.op + retxT1 s, utc := t })
  let s := raise (bump s Reg.truReleases) Reg.truIrq 0
  let (missed, s) := sendSlot s i st 0 t
  let s := modSlot s i (fun y => { y with
    st := 3, relSec := W (secOf s.now), relNs := nsWord s.now, missed := min 255 missed, portMiss := missed != 0 })
  if missed = 0 then s else raise s Reg.truIrq 4

/-- A request refused by the TRU (R173, R380). -/
def rejectReq (s : State) (unit : Nat) : State :=
  let s := raise (bump s Reg.truRejects) Reg.truIrq 1
  raise (bump s (Reg.hdlUTriprej unit)) (Reg.hdlUIrq unit) 1

/-- A failed tag behind a release under act-then-verify (R170). -/
def atvFail (s : State) (r : TripReq) : State :=
  logRec (raise (bump s Reg.truAtvFail) Reg.truIrq 3) Reg.truIrq 5 2 3 [r.tenant, r.slot, r.unit]

/-- Verdict of a tag check, when it has one. -/
def verdictOf (s : State) (c : Nat) : Option Bool := (s.hdl.verdict.find? (fun e => e.1 == c)).map (·.2)

/-- The TRU accepts a request (R18, R171, R173): the slot must be owned and Armed; a slot already Released is left alone. -/
def acceptReq (s : State) (r : TripReq) : State :=
  let x := getSlot s r.slot
  if !truOn s then rejectReq s r.unit
  else if x.owner = r.tenant ∧ x.st = 3 then s
  else if x.owner ≠ r.tenant ∨ x.st ≠ 2 then rejectReq s r.unit
  else
    let s := release s r.slot
    if r.policy ≠ 1 ∨ r.deciding = 0 then s
    else match verdictOf s r.deciding with
      | some true => s
      | some false => atvFail s r
      | none => { s with hdl := { s.hdl with acted := s.hdl.acted ++ [r] } }

/-- Generation number of a Heddle unit (R181). -/
def unitGen (s : State) (u : Nat) : Nat := rf s (Reg.hdlUStatus u) 15 8

/-- The oldest release request reaches the TRU (R173): stale ones are discarded; verify-before-act ones are held. -/
def doReleaseRequest (tm : Instant) (s : State) : State :=
  let s := toInstant s tm
  match s.hdl.reqs with
  | [] => s
  | r :: rest =>
    let s := { s with hdl := { s.hdl with reqs := rest } }
    if r.gen ≠ unitGen s r.unit then bump s Reg.truStale
    else if r.policy = 2 then { s with hdl := { s.hdl with holds := s.hdl.holds ++ [{ r with tm := s.op }] } }
    else acceptReq s r

/-- The oldest verify-before-act hold ends after 112 cycles (R170): a request gone stale is discarded, and every verdict it needs must
be a pass. -/
def doVbaHoldEnd (tm : Instant) (s : State) : State :=
  let s := toInstant s tm
  match s.hdl.holds with
  | [] => s
  | r :: rest =>
    if s.op < r.tm + 112 * mainCycle then s else
    let s := { s with hdl := { s.hdl with holds := rest } }
    if r.gen ≠ unitGen s r.unit then bump s Reg.truStale
    else if r.verify.all (fun c => verdictOf s c == some true) then acceptReq s r
    else logRec (raise (bump s Reg.truVbaDrop) Reg.truIrq 2) Reg.truIrq 5 2 2 [r.tenant, r.slot, r.unit]

/-- A held frame's next retransmission (R177, R380): while TRU_CTRL.en is 0 its schedule runs without it. -/
def doRetransmission (pub : Fin 1024) (tm : Instant) (s : State) : State :=
  let s := toInstant s tm
  let y := getPub s pub
  match y.hold with
  | none => s
  | some i =>
    if s.op < y.nextAt then s else
    let next := s.op + retxGap s (y.step + 1)
    if !truOn s || pubMuted s pub then modPub s pub (fun z => { z with step := z.step + 1, nextAt := next })
    else
      let sq := (y.sqNum + 1) % 2 ^ 32
      let s := modPub s pub (fun z => { z with sqNum := sq, step := z.step + 1, nextAt := next })
      let (missed, s) := sendSlot s i y.stNum sq y.utc
      modSlot s i (fun z => { z with missed := min 255 missed })

/-! ## The publishers (R177, R190, R194) -/

/-- Members of a publication's dataset: at least one, at most the 64 a member number can name (R148; log entry 2). -/
def pubMembers (p : Nat) : Nat := Config.pubLastMember p % 64 + 1

/-- The dataset words of a publication: value and quality of each member. -/
def dataset (y : Pub) (p : Nat) : List Word := (List.range (2 * pubMembers p)).map (fun k => Tab.get 0 y.data k)

/-- The values a publisher puts in a frame: what the tenant staged. The lease epoch takes the place of the last member of a gated
GOOSE publication as the frame leaves (`ctlEpochOut`). -/
def pubValues (s : State) (p : Nat) : List Word :=
  (List.range (pubMembers p)).map (fun m => Tab.get 0 (getPub s p).data (2 * m))

/-- The members of a GOOSE publication's dataset as its frames carry them: each value with its quality (R190, R194). -/
def gooseMembers (s : State) (p : Nat) : List GooseVal :=
  ((pubValues s p).zipIdx).flatMap (fun e => [.word e.1, .word (Tab.get 0 (getPub s p).data (2 * e.2 + 1))])

/-- A publication's own frame. -/
def pubFrame (s : State) (p : Nat) (body : Payload) : Frame :=
  { dst := Config.pubDst p, src := Config.pubSrc p, vid := some (Config.pubVid p), pcp := Config.pubPcp p, len := Config.pubLen p (dataset (getPub s p) p),
    fcsErr := false, symErr := false, reasmErr := false, prpSeq := none, hsrSeq := none, macsec := none, tag := none, body := body }

/-- Send a GOOSE publication's own frame with its stNum and sqNum. -/
def sendGoose (s : State) (p : Nat) : State :=
  if pubMuted s p then s
  else
    let y := getPub s p
    let f := pubFrame s p (.goose (Config.pubAppid p) true ⟨Config.pubRef p, y.stNum, y.sqNum, Config.pubTal p, Config.pubConfRev p,
      false, false, false, gooseMembers s p⟩)
    let (f, s) := signFrame s p f
    originatePub s f 6 (groupPorts s (Config.pubGroup p)) p

/-- A new state of a publication: stNum + 1, sqNum 0, sent now, the schedule from t1. A stNum restored from a checkpoint
waits for the first frame that leaves (R283). -/
def newState (s : State) (p : Nat) : State :=
  let wait := pubMuted s p
  let s := modPub s p (fun y => { y with
    stNum := if y.restored && wait then y.stNum else (y.stNum + 1) % 2 ^ 32, restored := y.restored && wait, sqNum := 0, hold := none, step := 0, nextAt := s.op + retxT1 s, utc := utcTime s })
  sendGoose s p

/-- A GOOSE publication's normal schedule. -/
def doGoosePublish (pub : Fin 1024) (tm : Instant) (s : State) : State :=
  let s := toInstant s tm
  let y := getPub s pub
  if y.hold.isSome ∨ s.op < y.nextAt then s
  else if y.restored then newState s pub
  else sendGoose (modPub s pub (fun z => { z with
    sqNum := (y.sqNum + 1) % 2 ^ 32, step := z.step + 1, nextAt := s.op + retxGap s (z.step + 1) })) pub

/-- An SV publication's next frame, with the dataset of the last swap. -/
def doSvPublish (pub : Fin 128) (s : State) : State :=
  let p := 1024 + pub.val
  let y := getPub s p
  let s := modPub s p (fun z => { z with smpCnt := (y.smpCnt + 1) % rateHz s })
  if pubMuted s p then s
  else
    let n := pubMembers p
    let locked := clkState s == 2
    let a : SvAsdu := {
      svId := Config.pubRef p, dsLen := 8 * n, smpCnt := y.smpCnt, confRev := Config.pubConfRev p,
      smpSynch := if locked then 2 else 1, gmId := if locked then some (BitVec.ofNat 64 (rd64 s Reg.timeGmidLo Reg.timeGmidHi)) else none,
      refrTm := none, vals := pubValues s p, quals := (List.range n).map (fun m => Tab.get 0 y.data (2 * m + 1)) }
    let (f, s) := signFrame s p (pubFrame s p (.sv (Config.pubAppid p) false true [a]))
    originatePub s f 6 (groupPorts s (Config.pubGroup p)) p

/-! ## The TRU update point (R18, R177, R190, R191) -/

/-- One publication entry of a commit. -/
def pubEntry (s : State) (p member : Nat) (quality : Bool) (v : Word) : State :=
  modPub s p (fun y => { y with data := Tab.put 0 y.data (2 * member + b2n quality) v })

/-- The verdict of a commit on a publication (R177): `before` is its dataset before the commit, `touched` whether the commit
holds a TXPUB entry for it, `force` a fallback commit of its owner. -/
def pubVerdict (s : State) (p : Nat) (before : List Word) (touched force : Bool) : State :=
  if 1024 ≤ p then s
  else match (getPub s p).hold with
    | some i =>
      if force then newState s p
      else if !touched then s
      else
        let a := Config.allData p (dataset (getPub s p) p)
        let b := (getSlot s i).allData
        let same := if pubGated s p then Config.dropLast a == Config.dropLast b else a == b
        if same then modPub s p (fun y => { y with hold := none }) else newState s p
    | none => if dataset (getPub s p) p == before then s else newState s p

/-- MACsec is enabled on some port of a group (R69, R172). -/
def groupMacsec (s : State) (g : Nat) : Bool := (portsOf s g).any (fun p => rb s (Reg.swcPMacsec p) 0)

/-- A committed arming entry (R172); the TRU rejects an arming whose ports have MACsec enabled (R69). -/
def armEntry (s : State) (i : Nat) (disarm : Bool) : State :=
  if !disarm && groupMacsec s (getSlot s i).pgrp then s
  else modSlot s i (fun x => { x with st := if x.st = 0 then 0 else if disarm then 1 else 2 })

/-- Every slot of a tenant is disarmed (R172, R190). -/
def disarmAll (s : State) (t : Nat) : State :=
  modTru s (fun r => { r with slot := r.slot.map (fun e =>
    (e.1, if e.2.owner = t ∧ t ≠ 0 ∧ e.2.st ≠ 0 then { e.2 with st := 1 } else e.2)) })

/-- Owners written by slot commands take effect at a swap: the slot is Disarmed (R172). -/
def slotOwners (s : State) : State :=
  modTru s (fun r => { r with slot := r.slot.map (fun e =>
    (e.1, match e.2.nextOwner with | some o => { e.2 with owner := o, nextOwner := none, st := if e.2.st = 0 then 0 else 1 } | none => e.2)) })

/-- Release of a tenant's slot grants: its slots become Empty (R172, R266). -/
def freeSlots (s : State) (t : Nat) : State :=
  modTru s (fun r => { r with slot := r.slot.filter (fun e => e.2.owner ≠ t ∧ e.2.nextOwner ≠ some t) })

/-- Publications whose owner is a tenant. -/
def pubsOf (s : State) (t : Nat) : List Nat := (List.range 1152).filter (fun p => t != 0 && pubOwner s p == t)

/-! ## Slot commands and TRU registers (R172, R184, R380) -/

def slotIdx (s : State) : Nat := rf s Reg.truSlotIdx 11 0
/-- The template staging buffer as octets: word i holds octets 4i to 4i + 3. -/
def stagedTemplate (s : State) : List Byte := (List.range 128).flatMap (fun i => toLe 4 (rd s (Reg.truTemplate i)).toNat)

def doSlotRead (s : State) : State :=
  let x := getSlot s (slotIdx s)
  let s := wr (wr (wr (wr s Reg.truSCfg x.cfg) Reg.truSLen x.len) Reg.truSOfs x.ofs) Reg.truSTofs x.tofs
  (List.range 128).foldl (fun s i => wr s (Reg.truTemplate i) (W (leNat ((x.template.drop (4 * i)).take 4)))) s

/-- Whether the indexed slot may be written or cleared. -/
def slotFree (s : State) (i : Nat) : Bool := (getSlot s i).st ≤ 1 && !holding s i

def truRej (s : State) : State := raise s Reg.truIrq 5

def doSlotClear (s : State) : State :=
  if slotFree s (slotIdx s) then cfgDirty (modSlot s (slotIdx s) (fun _ => .reset)) else truRej s

/-- The checks of a slot write with valid = 1 (R172). -/
def slotGood (s : State) : Bool :=
  let cfg := rd s Reg.truSCfg
  let b := stagedTemplate s
  let n := rf s Reg.truSLen 8 0
  let tlv (o : Nat) : Bool := o + 7 ≤ n && b.getD (o + 1) 0 == 5
  slotFree s (slotIdx s) && 64 ≤ n && n ≤ 480 && tlv (rf s Reg.truSOfs 8 0) && tlv (rf s Reg.truSOfs 24 16) &&
    rf s Reg.truSLen 24 16 + rf s Reg.truSTofs 24 16 ≤ n &&
    (portsOf s (fld cfg 21 16)).all (fun p => !rb s (Reg.swcPMacsec p) 0) && fld cfg 15 10 != 0

def doSlotWrite (s : State) : State :=
  let cfg := rd s Reg.truSCfg
  if !bitOf cfg 24 then doSlotClear s
  else if !slotGood s then truRej s
  else
    let o := fld cfg 15 10
    cfgDirty (modSlot s (slotIdx s) (fun x => { x with
      cfg := cfg, len := rd s Reg.truSLen, ofs := rd s Reg.truSOfs, tofs := rd s Reg.truSTofs,
      template := (stagedTemplate s).take (rf s Reg.truSLen 8 0), st := 1,
      nextOwner := if o = x.owner then none else some o }))

def doTruCtrlWrite (v : Word) (s : State) : State := wrp s Reg.truCtrl (v &&& 1)

def doTruRetxWrite (v : Word) (s : State) : State :=
  if fld v 9 0 = 0 ∨ fld v 25 16 = 0 ∨ 1000 < fld v 25 16 then truRej s else wrp s Reg.truRetx (v &&& 0x3FF03FF)

def execReleaseRequest (tm : Instant) (s : State) := ok (live s (doReleaseRequest tm))
def execVbaHoldEnd (tm : Instant) (s : State) := ok (live s (doVbaHoldEnd tm))
def execRetransmission (pub : Fin 1024) (tm : Instant) (s : State) := ok (live s (doRetransmission pub tm))
def execGoosePublish (pub : Fin 1024) (tm : Instant) (s : State) := ok (live s (doGoosePublish pub tm))
def execSvPublish (pub : Fin 128) (s : State) := ok (live s (doSvPublish pub))
def execSlotRead (s : State) := ok (live s doSlotRead)
def execSlotWrite (s : State) := ok (live s doSlotWrite)
def execSlotClear (s : State) := ok (live s doSlotClear)
def execTruCtrlWrite (v : Word) (s : State) := ok (live s (doTruCtrlWrite v))
def execTruRetxWrite (v : Word) (s : State) := ok (live s (doTruRetxWrite v))

end Sys2Proof.Machine
end

