-- ==== Sys2Proof/Machine/Heddle.lean ====
section
/-!
DEFINITION. Heddle units (chapter 07, R133 to R135, R154, R155): bindings, kernels, gates, records, the spare unit, tag verdicts, and
the Heddle instructions (op 0x58 to 0x5E).
-/
namespace Sys2Proof.Machine

def modHdl (s : State) (f : Heddle → Heddle) : State := { s with hdl := f s.hdl }

/-! ## Bindings and gates (R157, R160, R166) -/

def bindWord (s : State) (u j : Nat) : Word := rd s (Reg.hdlUWarp u j)
def bWarp (v : Word) : Fin 512 := Fin.ofNat 512 (fld v 8 0)
def bKernel (v : Word) : Nat := fld v 11 9
def bSolo (v : Word) : Bool := bitOf v 12
def bPolicy (v : Word) : Nat := fld v 14 13
def bValid (v : Word) : Bool := bitOf v 15

def gateEn (s : State) (u g : Nat) : Bool := rb s (Reg.hdlGCfg u g) 0
def gateKernel (s : State) (u g : Nat) : Nat := rf s (Reg.hdlGCfg u g) 3 1
/-- Member slots of a gate, ascending. -/
def gateMembers (s : State) (u g : Nat) : List Nat := (List.range 32).filter (fun j => rb s (Reg.hdlGMemb u g) j)

/-- ASDUs per frame of the warp bound to a slot; 0 where the binding is not valid. -/
def slotAsdus (s : State) (u j : Nat) : Nat :=
  let v := bindWord s u j
  if bValid v then (warpCfg s (bWarp v)).nAsdu + 1 else 0

/-- w_max (R160). -/
def wMax (s : State) (u : Nat) : Nat :=
  let solo := ((List.range 32).filter (fun j => bSolo (bindWord s u j))).foldl (fun a j => a + slotAsdus s u j) 0
  let gates := ((List.range 8).filter (gateEn s u)).foldl (fun a g =>
    a + (gateMembers s u g).foldl (fun m j => max m (slotAsdus s u j)) 0) 0
  solo + gates - 1

def kernelOf (s : State) (u : Fin 17) (k : Nat) : List Word := Tab.get [] (getUnit s u).kernels k
/-- Owner of a kernel (HDL_U_KOWN); 0 where none is loaded. -/
def kernelOwner (s : State) (u k : Nat) : Nat :=
  if k < 5 then rf s (Reg.hdlUKown0 u) (6 * k + 5) (6 * k) else rf s (Reg.hdlUKown1 u) (6 * (k - 5) + 5) (6 * (k - 5))

/-- The word is TRIP or TRIPBC. -/
def isTrip (w : Word) : Bool := fld w 31 25 == 0x5B || fld w 31 25 == 0x5C
/-- Deepest stage of a table that holds TRIP or TRIPBC. -/
def deepest (t : List Word) : Option Nat := (t.zipIdx.filter (fun e => isTrip e.1)).getLast?.map (·.2)
/-- Deepest over a list of tables. -/
def deepestOf (ts : List (List Word)) : Option Nat :=
  ts.foldl (fun a t => match a, deepest t with | some x, some y => some (max x y) | none, d => d | d, none => d) none
def unitTables (s : State) (u : Fin 17) : List (List Word) := (getUnit s u).kernels.map (·.2)

/-- Rule 3 of R165 for a unit's tables and w_max. -/
def placed (ts : List (List Word)) (w : Nat) : Bool := match deepestOf ts with | some d => d + w ≤ 127 | none => true

/-- The answer to a load, binding or gate write (R161): reason 0 accepts. -/
def unitAnswer (s : State) (u reason stage : Nat) : State :=
  let k := rd s (Reg.hdlUKstat u) &&& 1
  if reason = 0 then wb (wr s (Reg.hdlUKstat u) k) (Reg.hdlUStatus u) 17 false
  else wb (wr s (Reg.hdlUKstat u) (k ||| W (2 + 16 * reason + 256 * stage))) (Reg.hdlUStatus u) 17 true

/-- The first reason of a list of (applies, reason) pairs in ascending order. -/
def lowest (l : List (Bool × Nat)) : Nat := match l.find? (·.1) with | some e => e.2 | none => 0

/-- Whether a binding word fails a check of R157, with `own` the warp's owner. -/
def bindFault (s : State) (u : Fin 17) (j : Nat) (v : Word) (own : Nat) : Nat :=
  let s' := wr s (Reg.hdlUWarp u j) v
  let k := kernelOwner s u (bKernel v)
  let elsewhere := (List.range 16).any (fun a => (List.range 32).any (fun i =>
    (a != u.val || i != j) && bValid (bindWord s a i) && bWarp (bindWord s a i) == bWarp v))
  lowest [
    (bValid v && !placed (unitTables s u) (wMax s' u), 5), (bValid v && elsewhere, 6),
    (bValid v && k != 0 && k != own, 7), (bValid v && bSolo v && decide (j < 8) && gateEn s u j, 8), (bPolicy v == 3, 9)]

/-- A write of HDL_U_WARP (R157): held in a grant session of its warp or of the warp the slot holds; refused outside one. -/
def doHdlBindingWrite (u : Fin 17) (j : Fin 32) (v : Word) (s : State) : State :=
  let v := v &&& 0xFFFF
  let old := bindWord s u j
  if u.val = 16 then s
  else if inSession s 0 (bWarp v) || (bValid old && inSession s 0 (bWarp old)) then holdWrite s (Reg.hdlUWarp u j) v
  else
    let r := bindFault s u j v (warpOwner s (bWarp v))
    let r := if r = 0 then 12 else r
    unitAnswer s u r (if r = 5 then (deepestOf (unitTables s u)).getD 0 else 0)

/-! ## Stage state (R162) -/

def smKey (stage slot word : Nat) : Nat := (stage * 32 + slot) * 64 + word

def unitRole (s : State) (u : Nat) : Nat := rf s (Reg.hdlUStatus u) 1 0

/-- HU-S shadows a unit (R179). -/
def shadows (s : State) (u : Nat) : Bool := unitRole s 16 == 2 && rf s (Reg.hdlUStatus 16) 6 2 == u

/-- Change a unit's kernels or stage state; the spare that shadows it follows (R179). -/
def modStage (s : State) (u : Fin 17) (f : HUnit → HUnit) : State :=
  let s := modUnit s u f
  if u.val ≠ 16 ∧ shadows s u then modUnit s 16 (fun x => { x with kernels := (getUnit s u).kernels, sm := (getUnit s u).sm }) else s

/-- Zero the state words of a slot in all stages, with their mirror. -/
def clearState (s : State) (u : Fin 17) (slot : Nat) : State :=
  let keep (t : Tab Word) : Tab Word := t.filter (fun e => e.1 / 64 % 32 ≠ slot)
  modStage s u (fun x => { x with sm := keep x.sm, mirror := keep x.mirror })

def doStateWordWrite (u : Fin 17) (v : Word) (s : State) : State :=
  let a := rd s (Reg.hdlUSmaddr u)
  let k := smKey (fld a 6 0) (fld a 11 7) (fld a 17 12)
  askFree (modStage s u (fun x => { x with sm := Tab.put 0 x.sm k v, mirror := Tab.put 0 x.mirror k v })) 6 0 1

/-- A binding in force (R158): a new warp in the slot starts from zero state, unless the slot's state is an enabled gate's. -/
def applyBinding (s : State) (u : Fin 17) (j : Nat) (v : Word) : State :=
  let old := bindWord s u j
  let fresh := bValid v && !(bValid old && bWarp old == bWarp v)
  let s := if fresh && !(decide (j < 8) && gateEn s u j) then clearState s u j else s
  unitAnswer (wr s (Reg.hdlUWarp u j) v) u 0 0

/-! ## Kernels (R133, R135, R161) -/

/-- Whether a word is legal in a kernel (R129, R133, R136). -/
def kernelLegal (w : Word) : Bool :=
  let op := fld w 31 25
  let fn := fld w 9 3
  let d := fld w 24 20
  let s1 := fld w 19 15
  let s2 := fld w 14 10
  let imm := fld w 14 3
  let lo (n : Nat) : Bool := decide (n < 16)
  let p (n : Nat) : Bool := decide (n < 8)
  match op with
  | 0x00 => fn ≤ 0x18 && lo d && lo s1 && lo s2 && (fn < 0x13 || s2 == 0)
  | 0x01 | 0x02 | 0x03 | 0x04 => lo d && lo s1
  | 0x05 | 0x06 | 0x07 => lo d && lo s1 && imm < 32
  | 0x08 => lo d
  | 0x09 => lo d && fld w 19 18 == 0
  | 0x0A => fn ≤ 6 && p d && lo s1 && lo s2
  | 0x0B => lo s1
  | 0x0C => if fn ≤ 3 then p d && p s1 && p s2 else if fn = 4 then p d && lo s1 && s2 == 0 else fn == 5 && lo d && p s1 && s2 == 0
  | 0x10 =>
    let two := fn == 0 || fn == 1 || fn == 4
    fn ≤ 6 && d / 8 < 2 && d % 8 < 4 && (if two then lo s1 && lo s2 else s2 == 0 && (if fn = 6 then decide (s1 < 2) else lo s1))
  | 0x11 => fn == 0 && d == 0 && lo s1 && lo s2
  | 0x12 => (fn ≤ 5 || (8 ≤ fn && fn ≤ 0x0D)) && lo d && lo s1 && lo s2 && (!(List.contains [3, 4, 0x0B, 0x0C, 0x0D] fn) || s2 == 0)
  | 0x13 => fn ≤ 1 && lo d && s1 < 2 && s2 == 0
  | 0x58 => lo d && s1 == 0 && imm < 64
  | 0x59 => lo d && s1 == 0 && imm < 64
  | 0x5A => lo d && (if s1 < 7 then decide (imm < 64) else s1 == 7 && imm < 2048 && imm / 64 != 0)
  | 0x5B => d == 0 && s1 == 0
  | 0x5C => d == 0 && s1 == 0 && imm < 16
  | 0x5D | 0x5E => d == 0 && s1 == 0 && imm < 256
  | _ => false

/-- Why a stage's word fails for an owner: 1 illegal, 3 slot, 4 channel; 0 passes. -/
def stageFault (s : State) (own : Nat) (w : Word) : Nat :=
  if !kernelLegal w then 1
  else if fld w 31 25 = 0x5B ∧ (getSlot s (fld w 14 3)).owner ≠ own then 3
  else if fld w 31 25 = 0x5C ∧ bcOwner s (Fin.ofNat 16 (fld w 6 3)) ≠ own then 4
  else 0

/-- Owner of a gate: of its first bound member. -/
def gateOwner (s : State) (u g : Nat) : Nat :=
  match (gateMembers s u g).filter (fun j => bValid (bindWord s u j)) with
  | j :: _ => warpOwner s (bWarp (bindWord s u j))
  | [] => 0

/-- The spare's kernel owners are those of the unit it shadows. -/
def copyOwners (s : State) (u : Nat) : State :=
  wr (wr s (Reg.hdlUKown0 16) (rd s (Reg.hdlUKown0 u))) (Reg.hdlUKown1 16) (rd s (Reg.hdlUKown1 u))

/-- HDL_U_KLOAD with go (R161): the checks in their order. -/
def doKernelLoad (u : Fin 17) (v : Word) (s : State) : State :=
  if !bitOf v 31 || u.val == 16 then s
  else
    let k := fld v 2 0
    let own := fld v 8 3
    let t := (List.range 128).map (fun i => rd s (Reg.hdlUKtab u i))
    let bad := t.zipIdx.find? (fun e => stageFault s own e.1 != 0)
    let tables := t :: ((getUnit s u).kernels.filter (fun e => e.1 ≠ k)).map (·.2)
    let owners := (List.range 32).all (fun j => let b := bindWord s u j
        !bValid b || bKernel b != k || warpOwner s (bWarp b) == own) &&
      (List.range 8).all (fun g => !gateEn s u g || gateKernel s u g != k || gateOwner s u g == own)
    if own = 0 ∨ 1 < tState s (ten own) then unitAnswer s u 2 0
    else match bad with
      | some (w, i) => unitAnswer s u (stageFault s own w) i
      | none =>
        if !placed tables (wMax s u) then unitAnswer s u 5 ((deepestOf tables).getD 0)
        else if !owners then unitAnswer s u 7 0
        else
          let s := modStage s u (fun x => { x with kernels := Tab.put [] x.kernels k t })
          let s := if k < 5 then wf s (Reg.hdlUKown0 u) (6 * k + 5) (6 * k) own else wf s (Reg.hdlUKown1 u) (6 * (k - 5) + 5) (6 * (k - 5)) own
          cfgDirty (unitAnswer (if shadows s u then copyOwners s u else s) u 0 0)

/-! ## Gate writes (R166, R168) -/

/-- Why a unit's gate may not stand as written; 0 it may. -/
def gateFault (s : State) (u : Fin 17) (g : Nat) : Nat :=
  let ms := gateMembers s u g
  let ws := (ms.map (bindWord s u)).filter bValid
  let own := gateOwner s u g
  let k := kernelOwner s u (gateKernel s u g)
  let same (f : Fin 512 → Nat) : Bool := match ws with | v :: r => r.all (fun x => f (bWarp x) == f (bWarp v)) | [] => true
  lowest [
    (!placed (unitTables s u) (wMax s u), 5),
    (!same (warpOwner s) || (!ws.isEmpty && k != 0 && k != own), 7),
    (gateEn s u g && bValid (bindWord s u g) && bSolo (bindWord s u g), 8),
    (decide (8 < ms.length) || (gateEn s u g && ms.isEmpty), 10),
    (!same (fun w => (warpCfg s w).ratio), 11)]

/-- Discard collections of a gate; the open ones among them are counted as incomplete (R168). -/
def dropColls (s : State) (u : Fin 17) (g : Nat) (keep : GColl → Bool) : State :=
  let cs := Tab.get [] (getUnit s u).coll g
  let n := (cs.filter (fun c => !keep c && !c.complete)).length
  if cs.all keep then s
  else
    let s := modUnit s u (fun x => { x with coll := Tab.put [] x.coll g (cs.filter keep) })
    if n = 0 then s else raise (bump s (Reg.hdlGIncomplete u g) n) (Reg.hdlUIrq u) 5

def doGateWrite (u : Fin 17) (g : Fin 8) (reg : GateReg) (v : Word) (s : State) : State :=
  if u.val = 16 then s
  else
    let off := match reg with | .memb => Reg.hdlGMemb u g | .cfg => Reg.hdlGCfg u g
    let v := match reg with | .memb => v | .cfg => v &&& 0xF
    let s' := wr s off v
    match gateFault s' u g with
    | 0 =>
      let was := gateEn s u g
      let s' := if was && rd s off != v then dropColls s' u g (fun _ => false) else s'
      let s' := if !was && gateEn s' u g then clearState s' u g else s'
      unitAnswer s' u 0 0
    | r => unitAnswer s u r (if r = 5 then (deepestOf (unitTables s u)).getD 0 else 0)

def doGateVselWrite (u : Fin 17) (g : Fin 8) (v : Word) (s : State) : State := wr s (Reg.hdlGVsel u g) (v &&& 0xFFFFFF)

/-- The spare leaves shadowing: it is Idle. -/
def endShadow (s : State) : State :=
  let s := modHdl s (fun h => { h with comparing := false })
  wf (wb s (Reg.hdlUStatus 16) 7 false) (Reg.hdlUStatus 16) 1 0 0

/-- HDL_U_CTRL: dispatch (R379); clearing the spare's rot_en ends its shadowing (R179). -/
def doHdlUCtrlWrite (u : Fin 17) (v : Word) (s : State) : State :=
  let s := wr s (Reg.hdlUCtrl u) (v &&& 3)
  if u.val = 16 ∧ !bitOf v 1 ∧ unitRole s 16 = 2 then endShadow s else s

/-! ## Records (R158 to R160, R167) -/

/-- Tick number of an ASDU's sample instant, and whether it is arrival-aligned (R86 to R88). -/
def sampleTick (s : State) (w : Fin 512) (a : SvAsdu) (ts : Instant) : Int × Bool :=
  let c := warpCfg s w
  if timeAligned s w a then (tickByTime (rateHz s) c.ratio ts a.smpCnt, false)
  else
    let x := getWarp s w
    let anchor := if rb s (Reg.loomWState w) 2 || !x.modeSet then none else x.anchor
    ((tickByArrival (rateHz s) c.ratio (period s) c.delay ts anchor a.smpCnt).1, true)

/-- The row of a tick has closed; an edge of the present cycle comes first (R90). -/
def rowClosed (s : State) (n : Int) : Bool := decide (n ≤ (dueTick s : Int) - closeDelay s)

def listTab (base : Nat) (l : List Word) : Tab Word := (l.zipIdx.map (fun e => (base + e.2, e.1))).filter (fun e => e.2 ≠ 0)

/-- The words of a single record (R159). -/
def recWords (s : State) (w : Fin 512) (v : Word) (p : Fin 144) (sim : Bool) (a : SvAsdu) (ts : Instant) : Tab Word :=
  let (n, au) := sampleTick s w a ts
  let w0 := W (w + 512 * bKernel v + 8192 * b2n sim + 16384 * b2n (a.quals.any (fun q => bitOf q 11)) +
    32768 * b2n (a.quals.any (fun q => fld q 1 0 == 1)) + 65536 * b2n au + 131072 * b2n (rowClosed s n) + 262144 * bPolicy v)
  listTab 0 ([w0, W (a.smpCnt % 65536 + 65536 * (a.smpSynch % 4)), BitVec.ofInt 32 n, nsWord ts] ++
    ((a.vals ++ List.replicate 16 0).take 16) ++ ((a.quals ++ List.replicate 16 0).take 16) ++ [a.confRev, W p])

def rword (r : HRec) (i : Nat) : Word := Tab.get 0 r.words i

/-- A group record from the member records in slot order, `last` the completing one (R159, R170). -/
def groupRec (s : State) (u : Fin 17) (g : Nat) (ms : List HRec) (last : HRec) : HRec :=
  let k := gateKernel s u g
  let fl := ms.foldl (fun a r => a ||| (rword r 0 &&& 0x3E000)) 0
  let pol := ms.foldl (fun a r => max a r.policy) 0
  let vsel (i : Nat) : Nat := rf s (Reg.hdlGVsel u g) (4 * i + 3) (4 * i)
  let w0 := W (g + 512 * k + 4096 + 262144 * pol) ||| fl
  let heads := ms.map (fun r => rword r 0 &&& 0x3E1FF)
  let vals := ms.flatMap (fun r => (List.range 6).map (fun i => rword r (4 + vsel i)))
  { id := 0, words := listTab 0 ([w0, rword last 1, rword last 2, rword last 3, 0, 0, 0, 0] ++
      (heads ++ List.replicate 8 0).take 8 ++ vals), group := true, slot := g, warp := last.warp, kernel := k, owner := last.owner,
    sim := ms.any (·.sim), policy := pol, deciding := last.deciding, verify := ms.flatMap (·.verify), gen := 0, stage := 0,
    ctx := .reset, pend := [], ready := last.ready, port := last.port }

/-- A record joins the dispatch stage: after every record that was ready earlier or came in the same cycle from a port not above its
own (R160). -/
def enqueue (s : State) (u : Fin 17) (r : HRec) : State :=
  let first (x : HRec) : Bool := x.ready < r.ready || (x.ready == r.ready && x.port ≤ r.port)
  modUnit s u (fun y => { y with queue := y.queue.filter first ++ [r] ++ y.queue.filter (fun x => !first x) })

/-- A member record joins its instant's collection; the last one completes the group, whose record is emitted (R167). -/
def joinColl (s : State) (u : Fin 17) (g : Nat) (c : GColl) (r : HRec) : State :=
  let recs := c.recs ++ [r]
  let full := decide ((gateMembers s u g).length ≤ recs.length)
  let s := modUnit s u (fun x => { x with coll := Tab.put [] x.coll g ((Tab.get [] x.coll g).map (fun y =>
    if y.tick = c.tick ∧ y.cnt = c.cnt then { y with recs := recs, complete := full } else y)) })
  if full then
    enqueue (bump s (Reg.hdlGDone u g)) u (groupRec s u g ((List.range 32).flatMap (fun j => recs.filter (fun x => x.slot == j))) r)
  else s

/-- Open a collection; a 33rd open one releases the oldest as incomplete (R167). -/
def openColl (s : State) (u : Fin 17) (g : Nat) (c : GColl) : State :=
  let cs := Tab.get [] (getUnit s u).coll g
  let s := match cs.filter (!·.complete) with
    | old :: rest => if 31 ≤ rest.length then dropColls s u g (fun x => x != old) else s
    | [] => s
  modUnit s u (fun x => { x with coll := Tab.put [] x.coll g (Tab.get [] x.coll g ++ [c]) })

/-- A member record reaches a gate (R167, R168): a further record of an instant's member is ignored. -/
def gateMember (s : State) (u : Fin 17) (g : Nat) (r : HRec) (n : Int) : State :=
  let cnt := fld (rword r 1) 15 0
  match (Tab.get [] (getUnit s u).coll g).find? (fun c => (c.tick : Int) == n && c.cnt == cnt) with
  | none =>
    if rowClosed s n then bump s (Reg.hdlGLate u g)
    else
      let c : GColl := ⟨n.toNat, cnt, [], false⟩
      joinColl (openColl s u g c) u g c r
  | some c => if c.complete || c.recs.any (fun x => x.slot == r.slot) then s else joinColl s u g c r

/-- An ASDU accepted for a warp reaches the dispatch stage of the unit it is bound to (R17, R158, R160): its own record when
the binding is solo, and its gates. -/
def heddleAsdu (s : State) (w : Fin 512) (p : Fin 144) (sim : Bool) (a : SvAsdu) (ts : Instant) (chk : Option Nat) : State :=
  match boundAt s w with
  | none => s
  | some (un, j) =>
    let u : Fin 17 := Fin.ofNat 17 un
    let v := bindWord s u j
    let own := warpOwner s w
    if !tActive s (ten own) then s
    else
      let r : HRec := {
        id := 0, words := recWords s w v p sim a ts, group := false, slot := j, warp := w, kernel := bKernel v, owner := own,
        sim := sim, policy := bPolicy v, deciding := chk.getD 0, verify := if bPolicy v = 2 then [chk.getD 0] else [], gen := 0, stage := 0,
        ctx := .reset, pend := [], ready := s.op / mainCycle, port := p }
      let held := ((getUnit s u).queue.filter (fun x => !x.group && x.warp == w.val)).length
      if bSolo v && (warpCfg s w).nAsdu + 1 ≤ held then bump s (Reg.hdlURatedrop u)
      else
        let s := if bSolo v then enqueue s u r else s
        let n := (sampleTick s w a ts).1
        ((List.range 8).filter (fun g => gateEn s u g && rb s (Reg.hdlGMemb u g) j)).foldl (fun s g => gateMember s u g r n) s

/-- The record at the head of a unit's dispatch stage enters it (R158, R160, R181, R379). -/
def doRecordDispatch (u : Fin 16) (s : State) : State :=
  let k : Fin 17 := ⟨u, by omega⟩
  match (getUnit s k).queue with
  | [] => s
  | r :: rest =>
    let s := modUnit s k (fun x => { x with queue := rest })
    let live := tActive s (ten r.owner) && (if r.group then gateEn s u r.slot else bValid (bindWord s u r.slot) && (bWarp (bindWord s u r.slot)).val == r.warp)
    if !live then s
    else if !rb s (Reg.hdlUCtrl u) 0 || unitRole s u == 3 || s.hdl.restoring == some u.val then bump s (Reg.hdlURatedrop u)
    else
      let r := { r with id := (getUnit s k).nextId, gen := unitGen s u, stage := 0, ctx := .reset, pend := [] }
      modUnit (bump s (Reg.hdlURecords u)) k (fun x => { x with flight := x.flight ++ [r], nextId := x.nextId + 1 })

/-- A record leaves the last stage (R134): sat, ova and iov join the flags of its kernel; the spare compares what it has taken too, and
goes on shadowing while the self-tests of a mismatch run (R179, R180). -/
def doRecordExit (u : Fin 16) (id : Nat) (s : State) : State :=
  let k : Fin 17 := ⟨u, by omega⟩
  match getRec s k id with
  | none => s
  | some r =>
    let fs := ({ r with stage := 128 } : HRec).settle.ctx.fs
    let s := modUnit s k (fun x => { x with flight := x.flight.filter (fun y => y.id != id) })
    let b := b2n (bitOf fs 0) + 2 * b2n (bitOf fs 1) + 4 * b2n (bitOf fs 3)
    let s := if b = 0 then s
      else raise (wr s (Reg.hdlUKflags u) (rd s (Reg.hdlUKflags u) ||| W (b * 2 ^ (3 * r.kernel)))) (Reg.hdlUIrq u) 0
    if s.hdl.comparing && shadows s u && decide (s.hdl.compareFrom ≤ id) && !rb s (Reg.hdlUStatus 16) 18 then
      let (bad, s) := drawBool s
      if bad then
        let s := raise (bump s (Reg.hdlUMismatch u)) (Reg.hdlUIrq u) 3
        wb (wb s (Reg.hdlUStatus u) 18 true) (Reg.hdlUStatus 16) 18 true
      else s
    else s

/-! ## Tick edges -/

/-- At the edge that closes the row of tick k, collections of its instants are released (R168). -/
def gateEdge (s : State) (k : Int) : State :=
  each 16 (fun u s => each 8 (fun g s => dropColls s (Fin.ofNat 17 u) g (fun c => k < (c.tick : Int))) s) s

/-- Every open collection is discarded (R168). -/
def gateFlush (s : State) : State :=
  each 16 (fun u s => each 8 (fun g s => dropColls s (Fin.ofNat 17 u) g (fun _ => false)) s) s

/-- A member's grant has changed: the open collections of its gates are discarded (R100, R168). -/
def gateGrant (s : State) (w : Fin 512) : State :=
  match boundAt s w with
  | none => s
  | some (u, j) => each 8 (fun g s => if rb s (Reg.hdlGMemb u g) j then dropColls s (Fin.ofNat 17 u) g (fun _ => false) else s) s

/-! ## Tag verdicts (R169, R170) -/

def doTagVerdict (c : Nat) (s : State) : State :=
  match s.sw.checks.find? (fun x => x.id == c) with
  | none => s
  | some x =>
    let s := { s with sw := { s.sw with checks := s.sw.checks.filter (fun y => y.id != c) } }
    let s := modHdl s (fun h => { h with verdict := (c, x.ok) :: h.verdict })
    let settle (e : Tab (Option Sample)) : Tab (Option Sample) :=
      (e.filter (fun y => x.ok || !(match y.2 with | some z => z.chk == some c | none => false))).map (fun y =>
        (y.1, y.2.map (fun z => if z.chk == some c then { z with chk := none } else z)))
    let s := modLoom s (fun l => { l with openRows := l.openRows.map (fun e => (e.1, settle e.2)) })
    let due := s.hdl.acted.filter (fun r => r.deciding == c)
    let s := modHdl s (fun h => { h with acted := h.acted.filter (fun r => r.deciding != c) })
    if x.ok then s
    else
      let s := match x.unit with
        | some u => raise (bump s (Reg.hdlUAuthfail u)) (Reg.hdlUIrq u) 6
        | none => s
      due.foldl atvFail s

/-! ## Instructions (R133, R154, R155, R163, R171) -/

/-- A Heddle-only instruction: illegal on a tick core. -/
def runHed (x : Who) (legal : Bool) (pr : BitVec 3) (s : State) (go : HRec → Fin 17 → State → Wr × State) : State :=
  match x with
  | .core l => runCore l false pr [] none s (fun _ _ s => s)
  | .record u id => runRec u id legal pr 1 s (fun r s => go r u s)

def doHget (x : Who) (f : FmtI) (s : State) : State :=
  runHed x (f.s1 == 0 && decide (f.imm.toNat < 64) && low [f.d]) f.pr s (fun r _ s => (Wr.reg f.d.toNat (rword r f.imm.toNat), s))

/-- Stage-state word of the executing stage. -/
def stateWord (s : State) (u : Fin 17) (r : HRec) (w : Nat) : Word := Tab.get 0 (getUnit s u).sm (smKey r.stage r.slot w)

def doHld (x : Who) (f : FmtM) (s : State) : State :=
  runHed x (f.base == 0 && decide (f.off.toNat < 64) && low [f.d]) f.pr s (fun r u s => (Wr.reg f.d.toNat (stateWord s u r f.off.toNat), s))

/-- The state update of R154: new state word, the register's value (none in mode 0), flags. -/
def hstStep (mode n : Nat) (old x : Word) : Word × Option Word × Word :=
  match mode with
  | 0 => (x, none, 0)
  | 1 => (x, some old, 0)
  | 2 => (old + x, some (old + x), 0)
  | 3 => let r := satq31 (q31 old + q31 x); (wi r.1, some (wi r.1), r.2)
  | 4 => let m := if old.toInt < x.toInt then x else old; (m, some m, 0)
  | 5 => let m := if x.toInt < old.toInt then x else old; (m, some m, 0)
  | 6 => if x = 0 then (0, some 0, 0) else if old = 0xFFFFFFFF then (old, some old, fsIov) else (old + 1, some (old + 1), 0)
  | _ => let r := satq31 (q31 old - rne (q31 old) n + q31 x); (wi r.1, some (wi r.1), r.2)

def doHst (x : Who) (f : FmtM) (s : State) : State :=
  let m := f.base.toNat
  let o := f.off.toNat
  let legal := low [f.d] && (if m < 7 then decide (o < 64) else m == 7 && decide (o < 2048) && o / 64 != 0)
  runHed x legal f.pr s (fun r u s =>
    let (new, back, fl) := hstStep m (o / 64) (stateWord s u r (o % 64)) (r.ctx.rg f.d.toNat)
    let s := modStage s u (fun y => { y with sm := Tab.put 0 y.sm (smKey r.stage r.slot (o % 64)) new })
    (match back with | some v => Wr.reg f.d.toNat v fl | none => Wr.none, s))

/-- A request the unit refuses (R171). -/
def tripRej (s : State) (u : Nat) : State := raise (bump s (Reg.hdlUTriprej u)) (Reg.hdlUIrq u) 1

/-- Release requests in the order in which the TRU takes them: by cycle, and in one cycle in ascending unit order (R173). -/
def queueReq (l : List TripReq) (r : TripReq) : List TripReq :=
  let first (x : TripReq) : Bool := x.tm / mainCycle < r.tm / mainCycle || (x.tm / mainCycle == r.tm / mainCycle && x.unit ≤ r.unit)
  l.filter first ++ [r] ++ l.filter (fun x => !first x)

/-- TRIP: a release request with the unit's generation number, unless R171 refuses it in the unit. -/
def doTrip (x : Who) (f : FmtI) (s : State) : State :=
  runHed x (f.d == 0 && f.s1 == 0) f.pr s (fun r u s =>
    let s := bump s (Reg.hdlUTripreq u)
    let slot := f.imm.toNat
    let sim := (getSlot s slot).sim
    if sim != r.sim || (tState s (ten r.owner) == 4 && !sim) then (Wr.none, tripRej s u)
    else (Wr.none, modHdl s (fun h => { h with
      reqs := queueReq h.reqs ⟨u, unitGen s u, slot, r.owner, r.policy, r.deciding, r.verify, s.op⟩ })))

/-- TRIPBC: the TRIP output of a channel (R16, R155, R171, R178). The request carries the unit's present generation number and reaches
the Field I/O Unit in the same step, so that it is never stale. -/
def doTripbc (x : Who) (f : FmtI) (s : State) : State :=
  runHed x (f.d == 0 && f.s1 == 0 && decide (f.imm.toNat < 16)) f.pr s (fun r u s =>
    let s := bump s (Reg.hdlUTripreq u)
    let k : Fin 16 := Fin.ofNat 16 f.imm.toNat
    if r.sim || tState s (ten r.owner) == 4 || bcOwner s k != r.owner then (Wr.none, tripRej s u)
    else (Wr.none, tripBc s k))

/-- HMARK: the mark byte of the record's slot or gate. -/
def doHmark (x : Who) (f : FmtI) (s : State) : State :=
  runHed x (f.d == 0 && f.s1 == 0 && decide (f.imm.toNat < 256)) f.pr s (fun r u s =>
    let off := if r.group then Reg.hdlUGmark u (r.slot / 4) else Reg.hdlUMark u (r.slot / 4)
    (Wr.none, wr s off (rd s off ||| W (f.imm.toNat * 256 ^ (r.slot % 4)))))

/-- HPASS: an event in the unit's ring of 256; dropped when it is full. -/
def doHpass (x : Who) (f : FmtI) (s : State) : State :=
  runHed x (f.d == 0 && f.s1 == 0 && decide (f.imm.toNat < 256)) f.pr s (fun r u s =>
    let es := (getUnit s u).events
    if 256 ≤ es.length then (Wr.none, raise (wb (bump s (Reg.hdlUEvtDrop u)) (Reg.hdlUEvtInfo u) 31 true) (Reg.hdlUIrq u) 2)
    else
      let e : HEvent := ⟨f.imm.toNat, r.stage, if r.group then r.slot else r.warp, r.group, rword r 2⟩
      (Wr.none, wf (modUnit s u (fun y => { y with events := y.events ++ [e] })) (Reg.hdlUEvtInfo u) 8 0 (es.length + 1)))

def doEvtPop (u : Fin 17) (s : State) : State :=
  match (getUnit s u).events with
  | [] => wb s (Reg.hdlUEvtInfo u) 30 false
  | e :: es =>
    let s := modUnit s u (fun y => { y with events := es })
    let s := wr s (Reg.hdlUEvtData0 u) (W (e.code + 256 * e.stage + 32768 * e.obj + 16777216 * b2n e.group))
    let s := wr s (Reg.hdlUEvtData1 u) e.word2
    wb (wf s (Reg.hdlUEvtInfo u) 8 0 es.length) (Reg.hdlUEvtInfo u) 30 true

/-! ## The spare unit (R179 to R181) -/

/-- The next unit the rotation shadows: the first from `next` that is not dead. -/
def nextShadow (s : State) : Option Nat :=
  ((List.range 16).map (fun i => (s.hdl.next + i) % 16)).find? (fun u => unitRole s u != 3)

/-- HU-S starts shadowing the next unit, after 4800 ticks of the one before: it copies its kernels and stage memory, and from the
start of the copy follows what changes in them. -/
def doShadowPeriodStart (s : State) : State :=
  if !rb s (Reg.hdlUCtrl 16) 1 || unitRole s 16 == 3 || s.hdl.restoring.isSome || rb s (Reg.hdlUStatus 16) 18 ||
      (unitRole s 16 == 2 && s.hdl.shadowTicks < 4800) then s
  else match nextShadow s with
    | none => s
    | some u =>
      let s := modHdl s (fun h => { h with shadowTicks := 0, comparing := false, next := (u + 1) % 16 })
      let s := copyOwners (wb (wf (wf s (Reg.hdlUStatus 16) 1 0 2) (Reg.hdlUStatus 16) 6 2 u) (Reg.hdlUStatus 16) 7 true) u
      modStage s (Fin.ofNat 17 u) id

/-- A tick edge counts in the shadow period; the rotation moves to the unit HC_CMD shadow has named (R179, R356). -/
def heddleEdge (s : State) : State :=
  if s.hdl.moveNow then doShadowPeriodStart (modHdl s (fun h => { h with shadowTicks := 4800, moveNow := false }))
  else modHdl s (fun h => { h with shadowTicks := h.shadowTicks + 1 })

/-- The copy is complete: the spare takes every record that enters from now on, and comparison starts (R179). -/
def doShadowCopyDone (s : State) : State :=
  if rb s (Reg.hdlUStatus 16) 7 then
    let from' := (getUnit s (Fin.ofNat 17 (rf s (Reg.hdlUStatus 16) 6 2))).nextId
    modHdl (wb s (Reg.hdlUStatus 16) 7 false) (fun h => { h with comparing := true, compareFrom := from' })
  else s

/-- A logical unit's physical unit is dead (R181, R348): the spare takes over at once with identical state while it
compares with that unit, or restores from the mirror; without a spare the unit stays Dead. -/
def unitDead (s : State) (u : Fin 17) : State :=
  let stop (s : State) : State := wf (wb (wb (modHdl s (fun h => { h with comparing := false })) (Reg.hdlUStatus 16) 7 false)
    (Reg.hdlUStatus 16) 18 false) (Reg.hdlUStatus 16) 1 0 3
  if u.val = 16 then stop s
  else if unitRole s 16 = 3 ∨ s.hdl.restoring.isSome then
    modUnit (wf (wb s (Reg.hdlUStatus u) 18 false) (Reg.hdlUStatus u) 1 0 3) u (fun x => { x with flight := [] })
  else
    let same := s.hdl.comparing && shadows s u
    let s := wf (wb s (Reg.hdlUStatus u) 18 false) (Reg.hdlUStatus u) 15 8 ((unitGen s u + 1) % 256)
    let s := raise (stop s) (Reg.hdlUIrq u) 4
    -- 1 MiB of stage memory is read from the mirror
    if same then s
    else askFree (modUnit (modHdl s (fun h => { h with restoring := some u.val })) u (fun x => { x with flight := [] })) 6 0 16384

def doHeddleRestoreDone (s : State) : State :=
  match s.hdl.restoring with
  | none => s
  | some n =>
    let u : Fin 17 := Fin.ofNat 17 n
    let s := modHdl s (fun h => { h with restoring := none })
    wb (modUnit s u (fun x => { x with sm := x.mirror, resetDue := true })) (Reg.hdlUStatus u) 16 true

def execTagVerdict (frame : Nat) (s : State) := ok (doTagVerdict frame s)
def execRecordDispatch (u : Fin 16) (s : State) := ok (live s (doRecordDispatch u))
def execRecordExit (u : Fin 16) (id : Nat) (s : State) := ok (live s (doRecordExit u id))
def execKernelLoad (u : Fin 17) (v : Word) (s : State) := ok (live s (doKernelLoad u v))
def execHdlBindingWrite (u : Fin 17) (j : Fin 32) (v : Word) (s : State) := ok (live s (doHdlBindingWrite u j v))
def execGateWrite (u : Fin 17) (g : Fin 8) (reg : GateReg) (v : Word) (s : State) := ok (live s (doGateWrite u g reg v))
def execGateVselWrite (u : Fin 17) (g : Fin 8) (v : Word) (s : State) := ok (live s (doGateVselWrite u g v))
def execStateWordWrite (u : Fin 17) (v : Word) (s : State) := ok (live s (doStateWordWrite u v))
def execHdlUCtrlWrite (u : Fin 17) (v : Word) (s : State) := ok (live s (doHdlUCtrlWrite u v))
def execEvtPop (u : Fin 17) (s : State) := ok (live s (doEvtPop u))
def execShadowPeriodStart (s : State) := ok (doShadowPeriodStart s)
def execShadowCopyDone (s : State) := ok (doShadowCopyDone s)
def execHeddleRestoreDone (s : State) := ok (doHeddleRestoreDone s)
def execHget (x : Who) (f : FmtI) (s : State) := ok (doHget x f s)
def execHld (x : Who) (f : FmtM) (s : State) := ok (doHld x f s)
def execHst (x : Who) (f : FmtM) (s : State) := ok (doHst x f s)
def execTrip (x : Who) (f : FmtI) (s : State) := ok (doTrip x f s)
def execTripbc (x : Who) (f : FmtI) (s : State) := ok (doTripbc x f s)
def execHmark (x : Who) (f : FmtI) (s : State) := ok (doHmark x f s)
def execHpass (x : Who) (f : FmtI) (s : State) := ok (doHpass x f s)

end Sys2Proof.Machine
end

