-- ==== Sys2Proof/Machine/Memory.lean ====
section
/-!
DEFINITION. Wormin loads, stores, prefetch and row loads (op 0x30 to 0x3F; R114 to R119, R141 to R146).
-/
namespace Sys2Proof.Machine

/-! ## Local memory (R114, R116) -/

/-- End of a core's code region. -/
def codeEnd (s : State) (l : Fin 64) : Nat :=
  0x10000 + match coreImage s l with | some ci => ci.code.length | none => 0

/-- One byte of a core's local memory; scratch that nothing has written in the window is free. -/
def localByte (s : State) (l : Fin 64) (a : Nat) : Byte :=
  let c := getCore s l
  if a < 0x10000 then peek c.mem a
  else if a < codeEnd s l then
    match coreImage s l with | some ci => ci.code.getD (a - 0x10000) 0 | none => 0
  else if a < 0x7C000 then match Tab.get none c.scr a with | some b => b | none => Config.freeScratch c.epoch l a
  else peek c.mem a

def localBytes (s : State) (l : Fin 64) (a : Nat) : Nat → List Byte
  | 0 => []
  | n + 1 => localByte s l a :: localBytes s l (a + 1) n

/-- Store a byte in scratch or the retained region. -/
def storeByte (c : Core) (a : Nat) (b : Byte) : Core :=
  if a < 0x7C000 then { c with scr := Tab.ins c.scr a (some b) } else { c with mem := poke c.mem a b }

def storeBytes (c : Core) (a : Nat) : List Byte → Core
  | [] => c
  | b :: bs => storeBytes (storeByte c a b) (a + 1) bs

/-! ## Checks (R114, R117) -/

def smBase : Nat := 0x10000000

def mayLoad (s : State) (l : Fin 64) (a n : Nat) : Bool :=
  a + n ≤ 0x80000 ||
    (smBase ≤ a && a + n ≤ smBase + smSize && inPartition s (ten (coreOwner s l)) (a - smBase) n false)

def mayStore (s : State) (l : Fin 64) (a n : Nat) : Bool := codeEnd s l ≤ a && a + n ≤ 0x80000

/-- Effective address of format M (R141). -/
def effAddr (c : Ctx) (f : FmtM) (size : Nat) : Word := c.rg f.base.toNat + sx f.off * W size

/-! ## State Memory access (R142, R143, R238) -/

/-- Issue cycle when at most four accesses may be outstanding, and those still outstanding then. -/
def slotAt (c : Core) (t0 : Nat) : Nat × List (Nat × Nat) :=
  let live := c.outst.filter (t0 < ·.2)
  if live.length < 4 then (t0, live)
  else let t1 := live.foldl (fun m e => min m e.2) ((live.map (·.2)).headD t0); (t1, live.filter (t1 < ·.2))

/-- Note a core's wait in the bank's longest-wait record and the core's own count (R210, R245). -/
def noteWait (s : State) (l : Fin 64) (bank wait : Nat) : State :=
  let off := Reg.smaBMaxwait bank
  bump (wf s off 7 0 (max (min 255 wait) (rf s off 7 0))) (Reg.arrKSmwait (l / 8) (physOf s l)) wait

/-- A hint given for a request of a bank (R245). -/
def noteHint (s : State) (bank hint : Nat) : State :=
  let off := Reg.smaBMaxwait bank
  wf s off 15 8 (max hint (rf s off 15 8))

/-- A State Memory access issued at a core's cycle t1, with those outstanding then: its turn hint, by the board of the issue cycle
(R239), the cycle of its grant, and the state in which it waits at its bank. It goes after the core's older requests to the bank, and
from the power-fail warning on it is masked (R241). -/
def smAccess (s : State) (l : Fin 64) (t1 : Nat) (live : List (Nat × Nat)) (off : Nat) : Nat × Nat × State :=
  let bank := bankOf off
  let older := (live.filter (·.1 == bank)).foldl (fun m e => max m (e.2 - 3)) 0
  let r : ArbReq := ⟨l / 8, l, s.time.edge / mainCycle + t1, 1, 0, coreGen s l, off / 32 * 32⟩
  let s := upTo s bank r.stamp
  let (b, u) := board false (getArb s bank) r
  let (x, s) := drawLe s (8 * u)
  let g := if failing s then never else max (older + 1) (t1 + waitOf b x)
  let s := request (if failing s then s else noteWait s l bank (g - max t1 older)) bank r
  (hintOf b u, g, modCore s l (fun c => { c with outst := live ++ [(bank, g + 3)] }))

/-- A State Memory load: issue cycle, latency and state. It hits a completed prefetch line, or waits for the grant. -/
def smLoad (s : State) (l : Fin 64) (t0 off : Nat) : Nat × Nat × State :=
  let c := getCore s l
  if c.pf.any (fun e => e.1 == off / 32 * 32 && e.2 ≤ t0) then (t0, 2, s)
  else
    let (t1, live) := slotAt c t0
    let (_, g, s) := smAccess s l t1 live off
    (t1, g - t1 + 3, s)

/-! ## Loads and stores (R141, R142) -/

/-- A load of `size` bytes; `dst` forms what it writes from the number read. -/
def runLoad (l : Fin 64) (f : FmtM) (size : Nat) (legal : Bool) (dst : Nat → Wr) (s : State) : State :=
  runCore l legal f.pr [f.base.toNat] none s (fun t0 c s =>
    let a := effAddr c.ctx f size
    if a.toNat % size ≠ 0 then trap s l 2 a
    else if !mayLoad s l a.toNat size then trap s l 3 a
    else if a.toNat < smBase then retire s l t0 1 2 false (dst (leNat (localBytes s l a.toNat size)))
    else
      let off := a.toNat - smBase
      let w := dst (leNat (smRead s off size))
      let (t1, lat, s) := smLoad s l t0 off
      retire s l t1 1 lat false w)

/-- A store of `size` bytes. -/
def runStore (l : Fin 64) (f : FmtM) (size : Nat) (legal : Bool) (srcs : List Nat) (val : Ctx → Nat) (s : State) : State :=
  runCore l legal f.pr (f.base.toNat :: srcs) none s (fun t0 c s =>
    let a := effAddr c.ctx f size
    if a.toNat % size ≠ 0 then trap s l 2 a
    else if !mayStore s l a.toNat size then trap s l 3 a
    else retire (modCore s l (fun k => storeBytes k a.toNat (toLe size (val c.ctx)))) l t0 1 1 false Wr.none)

def even (d : BitVec 5) : Bool := d.toNat % 2 == 0
def isAcc (d : BitVec 5) : Bool := d.toNat < 4

def execLb (l : Fin 64) (f : FmtM) (s : State) := ok (runLoad l f 1 true (fun n => Wr.reg f.d.toNat (sx (BitVec.ofNat 8 n))) s)
def execLbu (l : Fin 64) (f : FmtM) (s : State) := ok (runLoad l f 1 true (fun n => Wr.reg f.d.toNat (W n)) s)
def execLh (l : Fin 64) (f : FmtM) (s : State) := ok (runLoad l f 2 true (fun n => Wr.reg f.d.toNat (sx (BitVec.ofNat 16 n))) s)
def execLhu (l : Fin 64) (f : FmtM) (s : State) := ok (runLoad l f 2 true (fun n => Wr.reg f.d.toNat (W n)) s)
def execLw (l : Fin 64) (f : FmtM) (s : State) := ok (runLoad l f 4 true (fun n => Wr.reg f.d.toNat (W n)) s)
def execLd (l : Fin 64) (f : FmtM) (s : State) :=
  ok (runLoad l f 8 (even f.d) (fun n => ⟨[(f.d.toNat, W n), (f.d.toNat + 1, W (n / 2 ^ 32))], [], [], 0⟩) s)
def execLa (l : Fin 64) (f : FmtM) (s : State) :=
  ok (runLoad l f 8 (isAcc f.d) (fun n => ⟨[], [(f.d.toNat, BitVec.ofNat 40 n)], [], 0⟩) s)

def execSb (l : Fin 64) (f : FmtM) (s : State) := ok (runStore l f 1 true [f.d.toNat] (fun c => (c.rg f.d.toNat).toNat) s)
def execSh (l : Fin 64) (f : FmtM) (s : State) := ok (runStore l f 2 true [f.d.toNat] (fun c => (c.rg f.d.toNat).toNat) s)
def execSw (l : Fin 64) (f : FmtM) (s : State) := ok (runStore l f 4 true [f.d.toNat] (fun c => (c.rg f.d.toNat).toNat) s)
def execSd (l : Fin 64) (f : FmtM) (s : State) :=
  ok (runStore l f 8 (even f.d) [f.d.toNat, f.d.toNat + 1]
    (fun c => (c.rg f.d.toNat).toNat + 2 ^ 32 * (c.rg (f.d.toNat + 1)).toNat) s)
def execSa (l : Fin 64) (f : FmtM) (s : State) :=
  ok (runStore l f 8 (isAcc f.d) [32 + f.d.toNat] (fun c => (BitVec.ofInt 64 (c.ra f.d.toNat)).toNat) s)

/-! ## Prefetch and wait (R143, R239) -/

/-- PFSM: one of four prefetch lines, the oldest giving way (log entry 39); the hint is that of R239. -/
def doPfsm (l : Fin 64) (f : FmtM) (s : State) : State :=
  runCore l true f.pr [f.base.toNat] none s (fun t0 c s =>
    let a := effAddr c.ctx f 32
    if a.toNat % 32 ≠ 0 then trap s l 2 a
    else if !(smBase ≤ a.toNat && mayLoad s l a.toNat 32) then trap s l 3 a
    else
      let off := a.toNat - smBase
      let (t1, live) := slotAt (getCore s l) t0
      let (hint, g, s) := smAccess s l t1 live off
      let s := modCore (noteHint s (bankOf off) hint) l (fun c => { c with pf := ((off, g + 3) :: c.pf.filter (fun e => e.1 != off)).take 4 })
      retire s l t1 1 2 false (Wr.reg f.d.toNat (W hint)))

/-- WAITSM: s1, s2 must be 0. -/
def doWaitsm (l : Fin 64) (f : FmtA) (s : State) : State :=
  runCore l (f.s1 == 0 && f.s2 == 0) f.pr [] none s (fun t0 c s =>
    let t1 := c.outst.foldl (fun m e => max m e.2) t0
    retire s l t1 1 1 false (Wr.reg f.d.toNat (W (t1 - t0))))

def execPfsm (l : Fin 64) (f : FmtM) (s : State) := ok (doPfsm l f s)
def execWaitsm (l : Fin 64) (f : FmtA) (s : State) := ok (doWaitsm l f s)

/-! ## Row and input-image loads (R144 to R146) -/

/-- A word of a row by LROW's selector (R93, R144). -/
def rowWord (r : Row) (e : WarpEntry) (sel : Nat) : Word :=
  if sel < 16 then e.vals.getD sel 0
  else match sel with
    | 16 => e.status
    | 17 => e.word1
    | 18 => W e.quals.toNat
    | 19 => W (e.quals.toNat / 2 ^ 32)
    | 20 => W r.tick
    | _ => W (r.tick / 2 ^ 32 % 2 ^ 16 + 65536 * r.stepcnt)

/-- The row of age a as a warp's owner sees it; none is a gap (R145). -/
def rowAt (s : State) (w : Fin 512) (a : Nat) : Option Row :=
  if 1 ≤ a && !rb s Reg.loomCtrl 8 then none
  else match s.loom.closed[a]? with
    | some r => if (1 ≤ a && r.gap) || r.index < (getWarp s w).since || s.loom.nClosed < a then none else some r
    | none => none

/-- The channel a stretch of the history ring lies in: that of its offset, or after its loss one of those left (R103; which is a free
value, log entry 2); none when no channel is left. -/
def rowChannel (s : State) (off : Nat) : Option Nat × State :=
  let ch := Config.ddrChannel off % 4
  let l := (List.range 4).filter (fun c => rb s Reg.hcDdr c)
  if rb s Reg.hcDdr ch then (some ch, s) else let (i, s) := drawLe s (l.length - 1); (l[i]?, s)

/-- A row load waits at its DDR5 channel (R242): 40 ns, the accesses ahead, what the high-priority port may yet put ahead, and a
refresh of up to 320 ns, at most 600 ns in all. -/
def ddrWait (s : State) (l : Fin 64) (t0 ch off : Nat) : Nat × State :=
  let k := 16 + ch
  let r : ArbReq := ⟨2, l, s.time.edge / mainCycle + t0, 1, 0, 0, off⟩
  let s := upTo s k r.stamp
  let (b, u) := board true (getArb s k) r
  let (x, s) := drawLe s (64 * u + 512)
  (min 960 (64 + 8 * b + x), request s k r)

def doLrow (l : Fin 64) (f : FmtA) (sel : BitVec 7) (s : State) : State :=
  runCore l (sel.toNat ≤ 21) f.pr [f.s1.toNat, f.s2.toNat] none s (fun t0 c s =>
    let w := c.ctx.rg f.s1.toNat
    let a := (c.ctx.rg f.s2.toNat).toNat
    let wi : Fin 512 := Fin.ofNat 512 w.toNat
    if 512 ≤ w.toNat ∨ warpOwner s wi ≠ coreOwner s l ∨ rateHz s ≤ a then trapData s l
    else
      let v := match rowAt s wi a with
        | some r => rowWord r (Tab.get .zero r.warps wi) sel.toNat
        | none => if sel.toNat = 16 then 2 else 0
      let onChip := match s.loom.closed[a]? with | some r => s.loom.histDue.contains r.index | none => true
      if a = 0 then retire s l t0 1 2 false (Wr.reg f.d.toNat v)
      else if onChip then retire s l t0 1 6 false (Wr.reg f.d.toNat v)
      else
        let off := histAt s ((s.loom.closed[a]?).elim a (·.index))
        match rowChannel s off with
        | (none, s) => retire s l t0 1 6 false (Wr.reg f.d.toNat (if sel.toNat = 16 then 2 else 0))
        | (some ch, s) =>
          -- 6 cycles, the DDR5 wait, and the access
          let (w, s) := ddrWait s l t0 ch off
          retire s l t0 1 (6 + w + 8) false (Wr.reg f.d.toNat v))

/-- Length in words of the tenant's input image (R192, R193). -/
def imgLen (s : State) (l : Fin 64) : Nat :=
  match (getTen s (ten (coreOwner s l))).image with | some im => im.map.length | none => 0

def doLimg (l : Fin 64) (f : FmtI) (s : State) : State :=
  runCore l true f.pr [f.s1.toNat] none s (fun t0 c s =>
    let i := c.ctx.rg f.s1.toNat + sx f.imm
    if i.toInt < 0 ∨ (imgLen s l : Int) ≤ i.toInt then trapData s l
    else retire s l t0 1 2 false (Wr.reg f.d.toNat (W (leNat (localBytes s l (0xA800 + 4 * i.toNat) 4)))))

def execLrow (l : Fin 64) (f : FmtA) (sel : BitVec 7) (s : State) := ok (doLrow l f sel s)
def execLimg (l : Fin 64) (f : FmtI) (s : State) := ok (doLimg l f s)

end Sys2Proof.Machine
end

