-- ==== Sys2Proof/Machine/Transactions.lean ====
section
/-!
DEFINITION. Wormin tick and transaction instructions (op 0x48 to 0x4E; R148 to R152).
-/
namespace Sys2Proof.Machine

/-- The spare that shadows a core in lockstep compares at TEND (R203, R347); whether it differs is a free value. -/
def shadowCompare (s : State) (l : Fin 64) : State :=
  let c := l.val / 8
  let sp := Tab.get .reset s.spare c
  if !(sp.lockstep && rb s (Reg.arrCCtrl c) 0 && rf s (Reg.arrCStatus c) 7 4 == physOf s l) then s
  else
    let (bad, s) := drawBool s
    if !bad then s
    else
      let s := modTen s (ten (coreOwner s l)) (fun x => { x with mismatch := true })
      raise { s with spare := Tab.put .reset s.spare c { sp with
        lockstep := false, testing := some (physOf s l, rf s (Reg.arrCStatus c) 3 0), testAt := s.op } } (Reg.arrCIrq c) 2

/-- TEND (R152): after the last CEVAL, CSET and CINJ of the core have completed; outstanding loads and prefetch lines are dropped. -/
def doTend (l : Fin 64) (f : FmtA) (s : State) : State :=
  runCore l (f.d == 0 && f.s1 == 0 && f.s2 == 0) f.pr [] none s (fun t0 c s =>
    let t1 := max t0 c.cluEnd
    let k := l.val / 8
    let p := physOf s l
    let s := modCore (retire s l t1 1 1 false Wr.none) l (fun x => { x with run := .ended, tended := true, cyc := t1, outst := [], pf := [] })
    let s := wr s (Reg.arrKTendTs k p) (W t1)
    let s := wr s (Reg.arrKTendMax k p) (W (max t1 (rd s (Reg.arrKTendMax k p)).toNat))
    shadowCompare (wb s (Reg.arrKStatus k p) 11 true) l)

/-- Run the work of a transaction instruction unless the tenant's transaction has been aborted (R150). -/
def unlessAborted (l : Fin 64) (t0 : Nat) (s : State) (work : State → State) : State :=
  if aborted s (coreOwner s l) then retire s l t0 1 1 false Wr.none else work s

/-- TXW and TXWD (R117, R148): a write of State Memory, checked when it executes. -/
def runTx (l : Fin 64) (f : FmtM) (size : Nat) (legal : Bool) (srcs : List Nat) (val : Ctx → Nat) (s : State) : State :=
  runCore l legal f.pr (f.base.toNat :: srcs) none s (fun t0 c s =>
    unlessAborted l t0 s (fun s =>
      let a := effAddr c.ctx f size
      let off := a.toNat - smBase
      if a.toNat % size ≠ 0 then trap s l 2 a
      else if !(smBase ≤ a.toNat && a.toNat + size ≤ smBase + smSize && inPartition s (ten (coreOwner s l)) off size true) then
        trap s l 3 a
      else retire (stage s l (.mem off (toLe size (val c.ctx)))) l t0 1 1 false Wr.none))

def doTxw (l : Fin 64) (f : FmtM) (s : State) : State :=
  runTx l f 4 true [f.d.toNat] (fun c => (c.rg f.d.toNat).toNat) s

def doTxwd (l : Fin 64) (f : FmtM) (s : State) : State :=
  runTx l f 8 (even f.d) [f.d.toNat, f.d.toNat + 1] (fun c => (c.rg f.d.toNat).toNat + 2 ^ 32 * (c.rg (f.d.toNat + 1)).toNat) s

/-- TXPUB (R148): the publication must be the tenant's, and the member one of its dataset. -/
def doTxpub (l : Fin 64) (f : FmtA) (quality : Bool) (s : State) : State :=
  runCore l (f.d == 0) f.pr [f.s1.toNat, f.s2.toNat] none s (fun t0 c s =>
    unlessAborted l t0 s (fun s =>
      let v := c.ctx.rg f.s1.toNat
      let p := fld v 10 0
      let m := fld v 21 16
      if fld v 15 11 ≠ 0 ∨ fld v 31 22 ≠ 0 ∨ 1152 ≤ p ∨ pubOwner s p ≠ coreOwner s l ∨ pubMembers p ≤ m then trapData s l
      else retire (stage s l (.pub p m quality (c.ctx.rg f.s2.toNat))) l t0 1 1 false Wr.none))

/-- TXOUT (R148): the channel must be the tenant's. -/
def doTxout (l : Fin 64) (f : FmtA) (s : State) : State :=
  runCore l (f.d == 0) f.pr [f.s1.toNat, f.s2.toNat] none s (fun t0 c s =>
    unlessAborted l t0 s (fun s =>
      let v := c.ctx.rg f.s1.toNat
      let k : Fin 16 := Fin.ofNat 16 (fld v 3 0)
      if fld v 31 5 ≠ 0 ∨ bcOwner s k ≠ coreOwner s l then trapData s l
      else retire (stage s l (.out k (if bitOf v 4 then .close else .trip) (bitOf (c.ctx.rg f.s2.toNat) 0))) l t0 1 1 false Wr.none))

/-- TXARM (R148): the slot must be the tenant's; s2 must be 0. -/
def doTxarm (l : Fin 64) (f : FmtA) (disarm : Bool) (s : State) : State :=
  runCore l (f.d == 0 && f.s2 == 0) f.pr [f.s1.toNat] none s (fun t0 c s =>
    unlessAborted l t0 s (fun s =>
      let v := c.ctx.rg f.s1.toNat
      let i := fld v 11 0
      if fld v 31 12 ≠ 0 ∨ (getSlot s i).owner ≠ coreOwner s l then trapData s l
      else retire (stage s l (.arm i disarm)) l t0 1 1 false Wr.none))

/-- TXABORT (R150): d, s1, s2 must be 0. -/
def doTxabort (l : Fin 64) (f : FmtA) (s : State) : State :=
  runCore l (f.d == 0 && f.s1 == 0 && f.s2 == 0) f.pr [] none s (fun t0 _ s =>
    retire (abortTx s (coreOwner s l) 2) l t0 1 1 false Wr.none)

def execTend (l : Fin 64) (f : FmtA) (s : State) := ok (doTend l f s)
def execTxw (l : Fin 64) (f : FmtM) (s : State) := ok (doTxw l f s)
def execTxwd (l : Fin 64) (f : FmtM) (s : State) := ok (doTxwd l f s)
def execTxpub (l : Fin 64) (f : FmtA) (quality : Bool) (s : State) := ok (doTxpub l f quality s)
def execTxout (l : Fin 64) (f : FmtA) (s : State) := ok (doTxout l f s)
def execTxarm (l : Fin 64) (f : FmtA) (disarm : Bool) (s : State) := ok (doTxarm l f disarm s)
def execTxabort (l : Fin 64) (f : FmtA) (s : State) := ok (doTxabort l f s)

end Sys2Proof.Machine
end

