-- ==== Sys2Proof/Machine/Commit.lean ====
section
/-!
DEFINITION. The manager's commands to the Commit Unit (R187 to R189, R195, R206, R208, R209, R211) and the loss and replacement of
tick cores (R203, R204, R347).
-/
namespace Sys2Proof.Machine

def modCmt (s : State) (f : Commit → Commit) : State := { s with cmt := f s.cmt }

/-! ## Cores lost and replaced (R203, R204) -/

def getSpare (s : State) (c : Nat) : Spare := Tab.get .reset s.spare c
def modSpare (s : State) (c : Nat) (f : Spare → Spare) : State := { s with spare := Tab.put .reset s.spare c (f (getSpare s c)) }
/-- Physical core that is the cluster's available spare; 15 none (ARR_C_STATUS). -/
def spareCore (s : State) (c : Nat) : Nat := rf s (Reg.arrCStatus c) 3 0
/-- Physical core being shadowed; 15 none. -/
def shadowed (s : State) (c : Nat) : Nat := rf s (Reg.arrCStatus c) 7 4
/-- A logical core is served by a live physical core. -/
def served (s : State) (l : Fin 64) : Bool := physOf s l != 15 && !(getCore s l).lost
/-- The logical core of a cluster that a physical core serves. -/
def servedBy (s : State) (c : Fin 8) (p : Nat) : Option (Fin 64) :=
  ((List.finRange 8).map (fun k => (Fin.ofNat 64 (8 * c.val + k.val) : Fin 64))).find? (fun l => physOf s l == p)

/-- Set the physical core serving a logical core. -/
def setMap (s : State) (l : Fin 64) (p : Nat) : State := wf s (Reg.arrCMap (l / 8)) (4 * (l % 8) + 3) (4 * (l % 8)) p

/-- Every core of a tenant stops with what it staged discarded. -/
def stopCores (s : State) (t : Nat) : State :=
  (coresOf s t).foldl (fun s l => modCore s l (fun k => { k with run := .stopped, entries := [] })) s

/-- A tenant enters Stopped: trap records, cause and waiting commands are cleared. -/
def enterStopped (s : State) (t : Fin 64) : State :=
  let s := modTen (clearTraps s t) t (fun x => { x with pend := [] })
  let s := wf (wf (wf s (Reg.cmtTState t) 10 8 0) (Reg.cmtTState t) 3 3 0) (Reg.cmtTState t) 4 4 0
  setTState s t 1

/-- A tenant enters Fenced at once (R187): its cores stop, and its fallback is due unless it is in place already. Cause 3 the
manager, 4 a core lost. -/
def enterFenced (s : State) (t : Fin 64) (cause : Nat) : State :=
  let s := modTen (stopCores s t) t (fun x => { x with pend := [], fallbackDue := !x.fallbackDone })
  let s := wf (wf (wf s (Reg.cmtTState t) 10 8 cause) (Reg.cmtTState t) 3 3 0) (Reg.cmtTState t) 4 4 0
  setTState s t 6

/-- Fence a tenant whose logical core is left without a core. -/
def fenceLost (s : State) (l : Fin 64) : State :=
  let t := ten (coreOwner s l)
  let s := setMap s l 15
  let s := raise s (Reg.arrCIrq (l / 8)) 3
  if t ≠ 0 ∧ [2, 3, 4, 5].contains (tState s t) then enterFenced s t 4 else s

/-- Address of a core's retained copy, and of its saved fs (R199, R205). -/
def retainedAt (l : Fin 64) : Nat := 0x1F00000 + 0x4000 * l.val
def savedFsAt (l : Fin 64) : Nat := 0x1EFF000 + 4 * l.val

/-- DDR5 accesses that read a logical core's code region from the image copy. -/
def codeLines (s : State) (l : Fin 64) : Nat := match coreImage s l with | some ci => ci.code.length / 64 | none => 0

/-- The cluster's spare starts loading for a logical core; it stops any shadowing. The code comes from the DDR5 image copy (R242;
log entry 39). -/
def loadSpare (s : State) (l : Fin 64) : State :=
  let c := l.val / 8
  let s := modSpare s c (fun x => { x with loading := some l.val, ready := false, ticks := 0, lockstep := false })
  askTick (wb (wf s (Reg.arrCStatus c) 7 4 15) (Reg.arrCStatus c) 8 true) (codeLines s l)

/-- The tenant of a core for which a spare that is no longer there was loading enters Fenced (R204). -/
def spareGone (s : State) (c : Nat) : State :=
  match (getSpare s c).loading with
  | some l => fenceLost (modSpare s c (fun x => { x with loading := none, ready := false })) (Fin.ofNat 64 l)
  | none => s

/-- A core is lost (R203, R204). Two losses of one cluster in one tick: the spare takes the lower physical core. -/
def loseCore (s : State) (l : Fin 64) : State :=
  let c := l.val / 8
  let p := physOf s l
  if !served s l then s
  else
    let t := ten (coreOwner s l)
    let gen := rf s (Reg.arrKStatus c p) 23 16
    let s := wf s (Reg.arrKStatus c p) 23 16 ((gen + 1) % 256)
    let s := withdraw (modCore s l (fun k => { k with run := .stopped, entries := [], lost := true })) l
    let s := if t ≠ 0 ∧ tActive s t then modTen s t (fun x => { x with lostTick := true }) else s
    let x := getSpare s c
    if spareCore s c ≠ 15 ∧ x.loading = none then
      let s := logRec s (Reg.arrCIrq c) 3 1 0xFF [t, l, p]
      loadSpare s l
    else
      match x.loading with
      | some l0 =>
        if x.ticks = 0 ∧ p < physOf s (Fin.ofNat 64 l0) then
          let s := logRec s (Reg.arrCIrq c) 3 1 3 [t, l, p]
          loadSpare (fenceLost s (Fin.ofNat 64 l0)) l
        else fenceLost (logRec s (Reg.arrCIrq c) 3 1 3 [t, l, p]) l
      | none => fenceLost (logRec s (Reg.arrCIrq c) 3 1 3 [t, l, p]) l

/-- The spare has loaded code, retained region and fs. -/
def doSpareReady (c : Fin 8) (s : State) : State :=
  if (getSpare s c).loading.isSome then modSpare s c (fun x => { x with ready := true }) else s

/-- At a tick edge a ready spare takes over its logical core (R203). -/
def spareTakes (s : State) (c : Fin 8) : State :=
  let x := getSpare s c
  match x.loading with
  | some n =>
    if x.ready then
      let l : Fin 64 := Fin.ofNat 64 n
      let t := ten (coreOwner s l)
      let old := physOf s l
      let s := wr (setMap s l (spareCore s c)) (Reg.arrKTendMax c (spareCore s c)) 0
      let s := modCore s l (fun k => { k with lost := false })
      let s := modSpare s c (fun y => { Spare.reset with testing := y.testing, testAt := y.testAt })
      let s := wf s (Reg.arrCStatus c) 3 0 (x.passed.getD 15)
      let s := if x.passed.isSome then wb (wb s (Reg.arrCStatus c) 8 false) (Reg.arrCStatus c) 9 false else s
      let s := modTen s t (fun y => { y with replaced := true })
      logRec (raise s (Reg.arrCIrq c) 1) (Reg.arrCIrq c) 3 1 1 [t, l, old, physOf s l]
    else modSpare s c (fun y => { y with ticks := y.ticks + 1 })
  | none => modSpare s c (fun y => { y with ticks := y.ticks + 1 })

/-- A position of a cluster the spare may shadow: an active core of a Running or Test tenant (R347). -/
def mayShadow (s : State) (c : Fin 8) (k : Nat) : Bool :=
  let l : Fin 64 := Fin.ofNat 64 (8 * c.val + k)
  served s l && tActive s (ten (coreOwner s l))

/-- The next core to shadow: the next position in ascending order, wrapping. -/
def nextShadowCore (s : State) (c : Fin 8) : Option Nat :=
  let cur := match servedBy s c (shadowed s c) with | some l => l.val % 8 | none => 7
  ((List.range 8).map (fun i => (cur + 1 + i) % 8)).find? (mayShadow s c)

/-- The rotation moves on (R347): after 4800 ticks, or from a core that serves no Running or Test tenant any more. -/
def rotationDue (s : State) (c : Fin 8) : Bool :=
  !(servedBy s c (shadowed s c)).any (fun l => mayShadow s c (l.val % 8)) || decide (4800 ≤ (getSpare s c).ticks)

/-- The spare may shadow: ARR_C_CTRL.rot_en is 1, and it is neither in use nor dead nor in a test after a mismatch (R347, R348). -/
def mayRotate (s : State) (c : Fin 8) : Bool :=
  let x := getSpare s c
  rb s (Reg.arrCCtrl c) 0 && spareCore s c != 15 && x.loading.isNone && x.testing.isNone

/-- The spare shadows the core at a position from now on, or none: it loads the code region from the DDR5 image copy, and the core's
retained region and fs of the last commit (R347, R242). -/
def shadowCore (s : State) (c : Fin 8) (k : Option Nat) : State :=
  let s := modSpare s c (fun y => { y with ticks := 0, lockstep := false })
  match k with
  | none => wf s (Reg.arrCStatus c) 7 4 15
  | some k =>
    let l : Fin 64 := Fin.ofNat 64 (8 * c.val + k)
    let s := wf s (Reg.arrCStatus c) 7 4 (physOf s l)
    askBanks (askTick s (codeLines s l)) 8 (linesOf (retainedAt l) 0x4000)

/-- The rotation moves to the next core (R347). -/
def doCoreShadowRotation (c : Fin 8) (s : State) : State :=
  if mayRotate s c && rotationDue s c then shadowCore s c (nextShadowCore s c) else s

/-- At a tick edge the rotation moves to the unit HC_CMD shadow has named (R356), and ends where rot_en has become 0. -/
def shadowEdge (s : State) (c : Fin 8) : State :=
  let s := if !rb s (Reg.arrCCtrl c) 0 && shadowed s c != 15 then shadowCore s c none else s
  match (getSpare s c).next with
  | none => s
  | some l =>
    let s := if mayRotate s c && mayShadow s c (l % 8) then shadowCore s c (some (l % 8)) else s
    modSpare s c (fun x => { x with next := none })

/-! ## Tenant commands (R187, R188) -/

/-- Answer a command with a result code. -/
def answer (s : State) (t : Fin 64) (r : Nat) : State := wf s (Reg.cmtTState t) 7 5 r

/-- Some warp, subscription or publication of the tenant has a valid key binding (R305). -/
def needsKeys (s : State) (t : Nat) : Bool :=
  s.ks.bind.any (fun e => e.1 / 65536 < 4 && e.2.valid && bindOwner s (e.1 / 65536) (e.1 % 65536) == t)

/-- Code loaded, every logical core served, and the Key Store usable where keys are bound (R188, R305). -/
def resourcesOk (s : State) (t : Fin 64) : Bool :=
  let ls := coresOf s t
  !ls.isEmpty && ls.all (fun l => (coreImage s l).isSome && served s l) && !(keyless s && needsKeys s t)

/-- A start names each core whose budget is above the window (R130). -/
def logBudgets (s : State) (t : Fin 64) : State :=
  (coresOf s t).foldl (fun s l => match coreImage s l with
    | some im => if windowCycles s < im.watchdog then logRec s Reg.cmtIrq 2 3 0xFF [t, l, im.watchdog, windowCycles s] else s
    | none => s) s

/-- PLU_STATUS.state: 0 ACTIVE, 1 STANDBY, 2 SOLO, 3 FENCED. -/
def pairState (s : State) : Nat := rf s Reg.pluStatus 1 0
/-- A control tenant (PLU_T_CLASS; R268). -/
def isControl (s : State) (t : Fin 64) : Bool := rb s (if t.val < 32 then Reg.pluTClass0 else Reg.pluTClass1) (t % 32)
/-- The manager may not start or enter Test: a control tenant on a module in STANDBY or FENCED, or whose gate is not open (R270; log
entry 40). -/
def barred (s : State) (t : Fin 64) : Bool := isControl s t && (pairState s == 1 || pairState s == 3 || !gateOpen s)

/-- A start accepted: start tick recorded, counters of the tolerance cleared (R187). -/
def beginStart (s : State) (t : Fin 64) (n : Nat) (test : Bool) : State :=
  let s := modTen s t (fun x => { x with
    startAt := n, startTest := test, window := [], abort := none, trapped := false, lostTick := false, mismatch := false,
    retErr := false, pend := [], staged := 0, prevUncommitted := false, initDue := true, loopInit := true })
  let s := wr (wr (wr s (Reg.cmtTUncom t) 0) (Reg.cmtTUncTotal t) 0) (Reg.cmtTEntries t) 0
  let s := (coresOf s t).foldl (fun s (l : Fin 64) => wr s (Reg.arrKTendMax (l / 8) (physOf s l)) 0) s
  -- the next checkpoint is full after a control tenant starts (R280)
  let s := if isControl s t then { s with plu := { s.plu with fullNext := true } } else s
  setTState (logBudgets s t) t 2

def doStart (t : Fin 64) (s : State) : State :=
  let n := rf s (Reg.cmtTStartHi t) 15 0 * 2 ^ 32 + (rd s (Reg.cmtTStartLo t)).toNat
  let test := rb s (Reg.cmtTStartHi t) 16
  if t = 0 then s
  else if tState s t ≠ 1 || barred s t then answer s t 1
  else if n < s.time.tick + 2 then answer s t 2
  else if pbCovers s t && !test then answer s t 3
  else if !resourcesOk s t then answer s t 4
  else beginStart (answer s t 0) t n test

/-- Hold a command for the next commit phase. -/
def pendCmd (s : State) (t : Fin 64) (c : TenantCmd) (bit : Nat) : State :=
  let s := wb (answer s t 0) (Reg.cmtTState t) bit true
  modTen s t (fun x => if x.pend.contains c then x else { x with pend := x.pend ++ [c] })

def doStop (t : Fin 64) (s : State) : State :=
  if t = 0 then s
  else match tState s t with
    | 2 => enterStopped (answer s t 0) t
    | 3 => pendCmd s t .stop 3
    | 4 => pendCmd s t .stop 3
    | 5 => if (getTen s t).fallbackDue then pendCmd s t .stop 3 else enterStopped (answer s t 0) t
    | _ => answer s t 1

def doEnterTest (t : Fin 64) (s : State) : State :=
  if t = 0 then s else if tState s t = 3 ∧ !barred s t then pendCmd s t .enterTest 4 else answer s t 1

def doLeaveTest (t : Fin 64) (s : State) : State :=
  if t = 0 then s
  else if tState s t ≠ 4 then answer s t 1
  else if pbCovers s t then answer s t 3
  else pendCmd s t .leaveTest 4

def doFence (t : Fin 64) (s : State) : State :=
  if t = 0 then s
  else if [2, 3, 4, 5].contains (tState s t) then enterFenced (answer s t 0) t 3
  else answer s t 1

def doUnfence (t : Fin 64) (s : State) : State :=
  if t = 0 then s
  else if tState s t ≠ 6 then answer s t 1
  else if (coresOf s t).all (served s) then enterStopped (answer s t 0) t
  else answer s t 4

/-- CMT_T_TOL (R211): written only while Stopped. -/
def doCmtTTolWrite (t : Fin 64) (v : Word) (s : State) : State :=
  if t = 0 then s else if tState s t = 1 then wr s (Reg.cmtTTol t) (v &&& 0xFF0F) else answer s t 1

/-! ## Commit reserve, designated operations, aperture (R195, R206, R208, R209) -/

def getDop (s : State) (i : Nat) : Dop := Tab.get .reset s.cmt.dop i
def modDop (s : State) (i : Nat) (f : Dop → Dop) : State :=
  modCmt s (fun c => { c with dop := Tab.put .reset c.dop i (f (getDop s i)) })

/-- Some designated operation is Scheduled. -/
def dopScheduled (s : State) : Bool := (List.range 8).any (fun i => (getDop s i).status == 1)

def doCmtCfgWrite (v : Word) (s : State) : State :=
  let r := fld v 5 0
  if allIdle s && !dopScheduled s && decide (8 ≤ r) && decide (r ≤ 32) then
    wb (wrp s Reg.cmtCfg (v &&& 0x3F)) Reg.cmtStatus 1 false
  else raise (wb s Reg.cmtStatus 1 true) Reg.cmtIrq 4

/-- The slot CMT_DOP_IDX names. -/
def dopIdx (s : State) : Nat := rf s Reg.cmtDopIdx 2 0

/-- A copy descriptor: source, destination, length (R208). -/
def dopDesc (s : State) (a : Nat) : Nat × Nat × Nat := ((smWord s a).toNat, (smWord s (a + 4)).toNat, (smWord s (a + 8)).toNat)

def overlaps (a n b m : Nat) : Bool := a < b + m && b < a + n

/-- The descriptor checks of R208. -/
def dopListOk (s : State) (l : List (Nat × Nat × Nat)) : Bool :=
  l.all (fun (src, dst, len) => src % 64 == 0 && dst % 64 == 0 && len % 64 == 0 && 64 ≤ len && len ≤ 0x100000 &&
    src + len ≤ smSize && inPartitions s 0 dst len true) &&
  (l.map (fun e => e.2.2)).sum ≤ 0x100000 &&
  l.zipIdx.all (fun (e, i) => l.zipIdx.all (fun (f, j) =>
    (i == j || !overlaps e.2.1 e.2.2 f.2.1 f.2.2) && !overlaps e.2.1 e.2.2 f.1 f.2.2))

/-- The slot registers of the slot CMT_DOP_IDX names (R211), by their offset. -/
def dopRegs : List (Nat × (Dop → Word) × (Word → Dop → Dop)) :=
  [(Reg.cmtDopTickLo, (·.tickLo), fun v d => { d with tickLo := v }), (Reg.cmtDopTickHi, (·.tickHi), fun v d => { d with tickHi := v &&& 0xFFFF }),
   (Reg.cmtDopCfg, (·.cfg), fun v d => { d with cfg := v &&& 0x7F }), (Reg.cmtDopList, (·.listAt), fun v d => { d with listAt := v &&& 0x1FFFFF0 })]

/-- CMT_DOP_GO.submit: the reasons of R208 in ascending order (log entry 12). -/
def doDopSubmit (s : State) : State :=
  let i := dopIdx s
  let d := getDop s i
  let n := fld d.tickHi 15 0 * 2 ^ 32 + d.tickLo.toNat
  let cnt := fld d.cfg 6 1 + 1
  let a := fld d.listAt 24 4 * 16
  let l := (List.range cnt).map (fun k => dopDesc s (a + 16 * k))
  let reason :=
    if n < s.time.tick + 2 then 1
    else if (List.range 8).any (fun k => (getDop s k).status == 1 && (getDop s k).tick == n) then 2
    else if s.cmt.reserve < 10 then 3
    else if !(inPartition s 0 a (16 * cnt) false && dopListOk s l) then 4
    else if d.status = 1 then 5 else 0
  if reason = 0 then modDop s i (fun d => { d with tick := n, settings := bitOf d.cfg 0, list := l, status := 1, reason := 0 })
  else raise (modDop s i (fun d => { d with reason := reason })) Reg.cmtIrq 3

def doDopCancel (s : State) : State :=
  let d := getDop s (dopIdx s)
  if d.status = 1 ∧ s.time.tick + 2 ≤ d.tick then modDop s (dopIdx s) (fun d => { d with status := 4 }) else s

/-- A write in pieces of at most 64 bytes. -/
def pieces : Nat → Nat → List Byte → List (Nat × List Byte)
  | 0, _, _ => []
  | n + 1, a, b => if b.isEmpty then [] else (a, b.take 64) :: pieces n (a + 64) (b.drop 64)

/-- A PF write through the State Memory aperture: buffered for the next swap, or discarded and reported (R206, R263). -/
def doApertureWrite (off : Nat) (data : List Byte) (s : State) : State :=
  if data.isEmpty then s
  else if inPartition s 0 off data.length true then
    modCmt s (fun c => { c with aperture := c.aperture ++ pieces data.length off data })
  else raise (wr (bump s Reg.hifAprejCnt) Reg.hifAprejAddr (W off &&& 0x1FFFFFF)) Reg.hifIrq 4

/-- Offset of the deadline from the edge. -/
def deadlineAt (s : State) : Instant := period s - s.cmt.reserve * usec

/-! ## The line shadow (R198, R199, R205) -/

/-- The cells of a byte string from an address. -/
def cellsAt (a : Nat) (l : List Byte) : List Host.Cell := (l.zipIdx.filter (fun e => e.1 ≠ 0)).map (fun e => (a + e.2, e.1))

/-- Put stretches of State Memory in the line shadow. -/
def shadowWrite (s : State) (a n : Nat) (cells : List Host.Cell) : State :=
  modCmt s (fun c => { c with shadow := c.shadow ++ [(a, n, cells)] })

/-- A stretch of a memory replaced by the cells given for it. -/
def spliceMem (m : List Host.Cell) (a n : Nat) (cells : List Host.Cell) : List Host.Cell :=
  (cells.filter (fun e => a ≤ e.1 && e.1 < a + n)).foldl (fun m e => poke m e.1 e.2) (m.filter (fun e => e.1 < a || a + n ≤ e.1))

/-! ## Meanings -/

def execStart (t : Fin 64) (s : State) := ok (live s (doStart t))
def execStop (t : Fin 64) (s : State) := ok (live s (doStop t))
def execEnterTest (t : Fin 64) (s : State) := ok (live s (doEnterTest t))
def execLeaveTest (t : Fin 64) (s : State) := ok (live s (doLeaveTest t))
def execFence (t : Fin 64) (s : State) := ok (live s (doFence t))
def execUnfence (t : Fin 64) (s : State) := ok (live s (doUnfence t))
def execCmtTTolWrite (t : Fin 64) (v : Word) (s : State) := ok (live s (doCmtTTolWrite t v))
def execCmtCfgWrite (v : Word) (s : State) := ok (live s (doCmtCfgWrite v))
def execDopSubmit (s : State) := ok (live s doDopSubmit)
def execDopCancel (s : State) := ok (live s doDopCancel)
def execApertureWrite (off : Nat) (data : List Byte) (s : State) := ok (live s (doApertureWrite off data))
def execCoreLost (l : Fin 64) (s : State) := ok (loseCore s l)
def execSpareReady (c : Fin 8) (s : State) := ok (doSpareReady c s)
def execCoreShadowRotation (c : Fin 8) (s : State) := ok (doCoreShadowRotation c s)

end Sys2Proof.Machine
end

