-- ==== Sys2Proof/Machine/Plu.lean ====
section
/-!
DEFINITION. The Pair Link Unit (chapter 12): lease messages, the gate and the quiet lines, pair states, epochs, checkpoints,
takeover and planned role swaps.
-/
namespace Sys2Proof.Machine

def modPlu (s : State) (f : Plu → Plu) : State := { s with plu := f s.plu }

def paired (s : State) : Bool := rb s Reg.pluCfg 0
def moduleB (s : State) : Bool := rb s Reg.pluStatus 2
/-- The partner shows quiet (R276). -/
def peerQuiet (s : State) : Bool := s.plu.qp && !s.plu.qn
def epoch (s : State) : Nat := (rd s Reg.pluEpoch).toNat
/-- PLU_LEASE in force: an accepted write waits for the next renewal sent or received (R287). -/
def leaseWord (s : State) : Word := s.plu.leaseOld.getD (rd s Reg.pluLease)
/-- L and G of R273. -/
def leaseL (s : State) : Instant := fld (leaseWord s) 9 0 * msec
def guardG (s : State) : Instant := fld (leaseWord s) 23 16 * 100 * usec
/-- A renewal is sent or received: an accepted PLU_LEASE takes effect. -/
def takeLease (s : State) : State := modPlu s (fun p => { p with leaseOld := none })
/-- Holding control or about to: ACTIVE or SOLO. -/
def holder (s : State) : Bool := pairState s == 0 || pairState s == 2
/-- A lease counted from an instant has not ended. -/
def within (s : State) (a : Option Instant) : Bool := match a with | some a => decide (s.op < a + leaseL s) | none => false
/-- An acknowledged renewal is younger than L (R273; operating time counts the main clock). -/
def acknowledged (s : State) : Bool := within s s.plu.acked
/-- The lease is held: by an acknowledged renewal, or from the opening of the gate until its first renewals can be answered (log
entry 40). -/
def leaseHeld (s : State) : Bool := pairState s == 0 && (acknowledged s || within s s.plu.opened)

/-! ## The gate (R275) -/

/-- The gate closes: CLOSE outputs de-energise at once, quiet_hold ends, and a takeover under way does not open it again. -/
def closeGate (s : State) : State :=
  let s := wb (wb s Reg.pluStatus 3 false) Reg.pluStatus 4 false
  evalAll (modPlu s (fun p => { p with openAt := none, take := .none }))

/-- The gate opens, at a tick edge. -/
def openGate (s : State) : State :=
  evalAll (modPlu (wb s Reg.pluStatus 3 true) (fun p => { p with openAt := none, opened := some s.op, sent := [] }))

/-- The quiet lines of the module show quiet (R275, R276): the gate is closed, and the module is not taking control (R278). -/
def showsQuiet (s : State) : Bool := !gateOpen s && s.plu.take == .none && !(holder s && s.plu.openAt.isSome)

/-- A change of pair state: state_chg and its log record (R378). -/
def setPair (s : State) (st : Nat) : State :=
  let s := raise (wf s Reg.pluStatus 1 0 st) Reg.pluIrq 0
  logRec s Reg.pluIrq 2 0 st [epoch s, (rd s Reg.pluPeerEpoch).toNat]

/-- The quiet lines as PLU_STATUS shows them (R276, R287); an invalid combination is a fault. -/
def showQuietLines (s : State) : State :=
  let s := wb s Reg.pluStatus 6 (peerQuiet s)
  if s.plu.qp == s.plu.qn then raise (wb s Reg.pluStatus 7 true) Reg.pluIrq 4 else wb s Reg.pluStatus 7 false

/-- Control tenants stop (R270): at the next commit phase, a Starting one at once, a Faulted one once its fallback is committed. -/
def stopControl (s : State) : State :=
  each 64 (fun t s =>
    if t = 0 ∨ !isControl s t then s
    else if tState s t = 2 ∨ (tState s t = 5 ∧ !(getTen s t).fallbackDue) then enterStopped s t
    else if tActive s t ∨ tState s t = 5 then
      modTen (wb s (Reg.cmtTState t) 3 true) t (fun x => if x.pend.contains .stop then x else { x with pend := x.pend ++ [.stop] })
    else s) s

/-- A planned swap is in progress on either side. -/
def swapping (s : State) : Bool := s.plu.yieldTick.isSome || s.plu.handTick.isSome || s.plu.swapWanted

/-- Forget any planned swap, which counts as abandoned, and any takeover in progress (R286). -/
def dropSwap (s : State) : State :=
  let s := if swapping s then wf s Reg.pluSwapStat 18 16 3 else s
  let s := wb (wb s Reg.pluStatus 14 false) Reg.pluStatus 16 false
  modPlu s (fun p => { p with
    yieldTick := none, ready := false, handTick := none, finalIn := false, yielded := false, swapWanted := false, restart := false,
    retries := 0, take := .none, apply := [], openAt := none, yieldMem := [], yieldLoops := [] })

/-- Enter STANDBY with the gate closed: the takeover timer starts. -/
def toStandby (s : State) (lapsed : Bool) : State :=
  let s := stopControl (dropSwap (closeGate s))
  let s := wb s Reg.pluStatus 5 lapsed
  setPair (modPlu s (fun p => { p with heard := s.op })) 1

/-- The lease has ended and the partner is not quiet (R273, R276, R277); `held`: the gate had been held open on quiet. -/
def lapse (s : State) (held : Bool) : State :=
  let s := raise (toStandby s true) Reg.pluIrq 3
  if held then raise (bump s Reg.pluDemotions) Reg.pluIrq 2 else s

/-- Demotion by a message (R279): the log record of the change holds both epochs, and a higher one is persisted. -/
def demote (s : State) (peer : Nat) : State :=
  let s := raise (bump (toStandby s false) Reg.pluDemotions) Reg.pluIrq 2
  if epoch s < peer then wrp s Reg.pluEpoch (W peer) else s

/-- FENCED (R277): gate closed, control tenants stopped. -/
def pluFence (s : State) : State :=
  if pairState s = 3 then s else setPair (wb (stopControl (dropSwap (closeGate s))) Reg.pluStatus 5 false) 3

/-! ## Lease messages (R271, R272) -/

def peerMac (s : State) : BitVec 48 := BitVec.ofNat 48 (rd64 s Reg.pluPeerMacLo Reg.pluPeerMacHi)
/-- A slot holds an AES key of a use. -/
def aesSlot (s : State) (i use : Nat) : Bool := match (ksSlot s i).active with | some k => k.typ ≤ 2 && k.use == use | none => false
/-- Lease messages can be tagged: PLU_NET.key names, from 3 to 1022, an encrypt-only AES slot (R299, R305). -/
def netKey (s : State) : Bool :=
  let k := rf s Reg.pluNet 30 21
  !keyless s && 3 ≤ k && k ≤ 1022 && aesSlot s k 0
/-- Lease messages can be verified: the slot one higher holds the same key, decrypt-only. -/
def netVerify (s : State) : Bool :=
  let k := rf s Reg.pluNet 30 21
  netKey s && aesSlot s (k + 1) 1 && (ksSlot s k).active.map (·.val) == (ksSlot s (k + 1)).active.map (·.val)

/-- The 64 octets of a lease message (R271). PRESUMED (log entry 40): its words are little-endian. -/
def leaseOctets (m : LeaseMsg) : List Byte :=
  let typ := match m.kind with | .renewal => 1 | .ack => 2 | .yld => 3 | .ready => 4 | .refuse => 5 | .swapFailed => 6
  toLe 1 typ ++ toLe 1 (b2n m.fromB + 2 * b2n m.gate + 4 * b2n m.solo) ++ toLe 2 1 ++ toLe 4 m.epoch ++ toLe 4 m.seq ++ toLe 4 m.echo
    ++ toLe 6 m.tick ++ toLe 2 0 ++ toLe 4 m.ckpt ++ toLe 36 0

/-- A lease message as a network frame carries it (R271): EtherType 0x88B5, the message, and the AES-GMAC tag under the key of
PLU_NET.key. -/
def leasePayload (s : State) (m : LeaseMsg) : List Byte :=
  let key := (ksSlot s (rf s Reg.pluNet 30 21)).active.elim [] (·.val)
  toBe 2 0x88B5 ++ leaseOctets m ++ (Config.gmac key (Config.leaseIv m.seq) (leaseOctets m)).take 16

/-- The frame of a lease message on the network path; its tag stands in its payload. -/
def leaseFrame (s : State) (m : LeaseMsg) : Frame :=
  { dst := peerMac s, src := macOf s 145, vid := some (BitVec.ofNat 12 (rf s Reg.pluNet 17 6)), pcp := rf s Reg.pluNet 20 18,
    len := 102, fcsErr := false, symErr := false, reasmErr := false, prpSeq := none, hsrSeq := none, macsec := none, tag := none,
    body := .lease m }

/-- Send a lease message on a path: a lane that is up, or a tagged frame into TC6 of the port group. -/
def sendOn (s : State) (path : Path) (m : LeaseMsg) : State :=
  match path with
  | .pair => if lanesUp s = 0 then s else emit s (.lease .pair m (leaseOctets m))
  | .net =>
    if netKey s then emit (originate s (leaseFrame s m) 6 (groupPorts s (rf s Reg.pluNet 5 0))) (.lease .net m (leasePayload s m)) else s

/-- A message of the module: its sequence number is the caller's. -/
def message (s : State) (kind : LeaseKind) (seq echo tick : Nat) : LeaseMsg :=
  { kind := kind, fromB := moduleB s, gate := gateOpen s, solo := pairState s == 2, epoch := epoch s, seq := seq, echo := echo,
    tick := tick, ckpt := (match kind, s.plu.store with | .ack, some c => c.seq | .ready, some c => c.seq | _, _ => 0), sender := macOf s 145, authentic := true }

/-- Send a numbered message on both paths. -/
def sendNew (s : State) (kind : LeaseKind) (tick : Nat) : State :=
  let n := s.plu.seq
  let s := modPlu s (fun p => { p with seq := (n + 1) % 2 ^ 32 })
  let m := message s kind n 0 tick
  let s := sendOn s .pair m
  if rb s Reg.pluCfg 1 then sendOn s .net m else s

/-- A quarter of the lease has gone by since the last renewal; a gate that has just opened sends one at once (R272). -/
def renewalDue (s : State) : Bool := match s.plu.sent.head? with | some e => decide (4 * e.2 + leaseL s ≤ 4 * s.op) | none => true

/-- An open-gate module's renewal (R272). -/
def doLeaseRenewal (tm : Instant) (s : State) : State :=
  let s := toInstant s tm
  if !gateOpen s || !paired s || !renewalDue s then s
  else
    let s := takeLease s
    let s := modPlu s (fun p => { p with
      sent := ((p.seq, s.op) :: p.sent).filter (fun e => s.op ≤ e.2 + leaseL s), ackNos := p.ackNos.filter (fun n => n != p.seq) })
    bump (sendNew s .renewal 0) Reg.pluRenewTx

/-- What every valid message does (R271, R277 to R279): network tags are checked, in FENCED too, where a message has no other effect; the partner's address and epoch are noted;
lapsed ends; a higher epoch demotes a holder. Answers whether the message counts. -/
def hear (s : State) (path : Path) (m : LeaseMsg) : Bool × State :=
  if !paired s then (false, s)
  else if path = .net ∧ (!m.authentic || !netVerify s) then (false, raise (bump s Reg.pluAuthfail) Reg.pluIrq 9)
  else if pairState s = 3 then (false, s)
  else
    let s := if path = .pair then wr64 s Reg.pluPeerMacLo Reg.pluPeerMacHi m.sender.toNat
      else wb (modPlu s (fun p => { p with netAt := some s.op })) Reg.pluStatus 12 true
    let s := if (rd s Reg.pluPeerEpoch).toNat < m.epoch then wr s Reg.pluPeerEpoch (W m.epoch) else s
    let s := wb s Reg.pluStatus 5 false
    (true, if holder s && decide (epoch s < m.epoch) then demote s m.epoch else s)

/-- A planned swap failed: interrupt, outcome and log record (R285). -/
def swapFailed (s : State) : State := logRec (raise (wf s Reg.pluSwapStat 18 16 4) Reg.pluIrq 6) Reg.pluIrq 3 1 6 []

/-- A renewal (R272, R279). After a completed yield, one with a higher epoch ends the planned swap. DESIGN CHOICE (log entry 40): it
reports the swap done when it comes within half a lease of the yield, and else a takeover after a swap that failed (R285). -/
def doRenewal (path : Path) (m : LeaseMsg) (tm : Instant) (s : State) : State :=
  let before := epoch s
  let (good, s) := hear (toInstant s tm) path m
  if !good then s
  else
    let s := takeLease s
    let s := if holder s && moduleB s && m.epoch == epoch s then demote s m.epoch else s
    let ack := message s .ack (s.plu.seq) m.seq 0
    if m.epoch < before then
      let s := modPlu s (fun p => { p with seq := (p.seq + 1) % 2 ^ 32, heard := if pairState s = 1 then s.op else p.heard })
      bump (sendOn s path ack) Reg.pluStale
    else if pairState s = 1 then
      let won := s.plu.yielded && decide (before < m.epoch)
      let done := decide (s.op < s.plu.yieldAt + leaseL s / 2)
      let s := modPlu s (fun p => { p with
        heard := s.op, seq := (p.seq + 1) % 2 ^ 32, yielded := p.yielded && !won, yieldMem := if won then [] else p.yieldMem,
        yieldLoops := if won then [] else p.yieldLoops })
      let s := if !won then s else if done then raise (wf s Reg.pluSwapStat 18 16 1) Reg.pluIrq 5 else swapFailed s
      sendOn s path ack
    else s

/-- An acknowledgement extends the lease from the send instant of its renewal (R273); a duplicate changes nothing (R272). A partner
that was silent, or that begins to say it holds no checkpoint, needs a full one (R280). -/
def doAcknowledgement (path : Path) (m : LeaseMsg) (tm : Instant) (s : State) : State :=
  let (good, s) := hear (toInstant s tm) path m
  if !good || s.plu.ackNos.contains m.echo then s
  else
    let s := bump (modPlu s (fun p => { p with ackNos := m.echo :: p.ackNos })) Reg.pluAckRx
    if !holder s then s
    else
      let silent := if pairState s = 0 then !leaseHeld s else !acknowledged s
      let s := modPlu s (fun p => { p with
        fullNext := p.fullNext || silent || (m.ckpt == 0 && !p.fullAsked), fullAsked := m.ckpt == 0 })
      let s := if m.ckpt ≠ 0 ∧ m.ckpt = (rd s Reg.pluCkptSeq).toNat then wb s Reg.pluStatus 13 true else s
      let s := match s.plu.sent.find? (fun e => e.1 == m.echo) with
        | some e => modPlu s (fun p => { p with acked := some (max e.2 (p.acked.getD 0)) })
        | none => s
      if leaseHeld s then wb s Reg.pluStatus 4 false else s

/-- The holder's lease ends (R273, R276). -/
def doLeaseExpiry (tm : Instant) (s : State) : State :=
  let s := toInstant s tm
  if pairState s ≠ 0 ∨ !gateOpen s || leaseHeld s then s
  else if peerQuiet s then wb s Reg.pluStatus 4 true
  else lapse s false

/-- The partner's quiet lines change (R276, R277); without a partner they are ignored. -/
def doQuietChange (qp qn : Bool) (tm : Instant) (s : State) : State :=
  let s := modPlu (toInstant s tm) (fun p => { p with qp := qp, qn := qn })
  if !paired s then s
  else
    let s := showQuietLines s
    if qp && !qn then s
    else if gateOpen s && pairState s == 0 && rb s Reg.pluStatus 4 && !leaseHeld s then lapse s true
    else if pairState s = 2 && !acknowledged s then lapse s false
    else s

/-! ## Checkpoints held (R282) -/

/-- Items of the same object. -/
def sameItem : CkptItem → CkptItem → Bool
  | .page a _, .page b _ => a == b
  | .retained a _ _, .retained b _ _ => a == b
  | .loop a _ _, .loop b _ _ => a == b
  | .pub a _, .pub b _ => a == b
  | .slot a _, .slot b _ => a == b
  | .tenant a _, .tenant b _ => a == b
  | _, _ => false

/-- A checkpoint's item admits a start of its tenant: the same image, and the same class (R282). -/
def admits (s : State) (i : CkptItem) : Bool :=
  match i with
  | .tenant t sig => (getTen s t).image.isSome && (getTen s t).sig == sig && isControl s t
  | _ => true

/-- Control tenants a checkpoint restores. -/
def restored (s : State) (c : Ckpt) : List (Fin 64) :=
  c.items.filterMap (fun i => match i with | .tenant t _ => if admits s i then some t else none | _ => none)

/-- The items that have arrived of a checkpoint; those of another, interrupted, one are dropped. -/
def arrived (s : State) (seq : Nat) : List CkptItem := if s.plu.comingSeq = seq then s.plu.coming else []

/-- An item arrives: it is written over an earlier copy of it. -/
def doCheckpointPageReceive (item : CkptPage) (s : State) : State :=
  if pairState s = 1 then
    let l := (arrived s item.seq).filter (fun i => !sameItem i item.item) ++ [item.item]
    askFree (modPlu s (fun p => { p with coming := l, comingSeq := item.seq })) 5 0 ((itemBytes item.item + 63) / 64)
  else s

/-- The tenant of an item's object, where one owns it. -/
def itemOwner (s : State) (i : CkptItem) : Nat :=
  match i with
  | .retained l _ _ => coreOwner s l
  | .loop k _ _ => loopOwner s (Fin.ofNat 8 (k.val / 32)) (Fin.ofNat 32 (k.val % 32))
  | .pub p _ => pubOwner s p
  | .slot i _ => (getSlot s i).owner
  | .tenant t _ => t
  | .page n _ => ((List.finRange 64).find? (fun t => inPartition s t (4096 * n.val) 4096 true)).elim 0 (·.val)

/-- Restore what a checkpoint holds of the admitted tenants: pages now, the rest with the next swap (R283). -/
def restore (s : State) (c : Ckpt) : State :=
  let ts := restored s c
  let mine (i : CkptItem) : Bool := ts.any (fun t => t.val == itemOwner s i)
  let s1 := c.items.foldl (fun s i => match i with
    | .page n d => if mine i then smWrite s (4096 * n.val) (d.take 4096) else s
    | _ => s) s
  modPlu s1 (fun p => { p with apply := c.items.filter (fun i => mine i && (match i with | .page _ _ => false | _ => true)) })

/-- The transfers of a restore (R283): the checkpoint store is read from DDR5, and the pages written through the parked queues. -/
def askRestore (s : State) (c : Ckpt) : State :=
  let pages := c.items.filterMap (fun i => match i with | .page n _ => some (4096 * n.val) | _ => none)
  let s := askFree s 5 0 (((c.items.map itemBytes).sum + 63) / 64)
  if pages.isEmpty then s else (List.range 16).foldl (fun s b => request s b ⟨10, 2, cycleOf s, 8 * pages.length, 0, 0, pages.headD 0⟩) s

/-- The final checkpoint of a planned swap is written into State Memory as in a takeover (R283); it counts when it is there by the
deadline of tick h (R285). -/
def finalRestore (s : State) (c : Ckpt) (h : Nat) : State :=
  let s := restore (complete (askRestore (wb s Reg.pluStatus 16 true) c) 10 2) c
  let late := decide (h < s.time.tick) || (decide (h = s.time.tick) && decide (s.time.edge + deadlineAt s < s.now))
  modPlu s (fun p => { p with finalIn := !late })

/-- The closing record (R282): a complete checkpoint becomes current; one with items missing, or one that is not full where none is
held, leaves the previous. -/
def doCheckpointClose (c : CkptClose) (s : State) : State :=
  let l := arrived s c.seq
  if pairState s ≠ 1 then s
  else if l.length ≠ c.items ∨ (!c.full ∧ s.plu.store = none) then modPlu s (fun p => { p with coming := [] })
  else
    let keep := match s.plu.store with
      | some o => if c.full then [] else o.items.filter (fun i => (match i with | .page _ _ => true | _ => false) && !l.any (sameItem i))
      | none => []
    let k : Ckpt := ⟨c.seq, c.tick, c.full, keep ++ l⟩
    let bad := k.items.any (fun i => !admits s i)
    let s := modPlu s (fun p => { p with store := some k, coming := [] })
    let s := wb (wr (wr64 s Reg.pluCkptTickLo Reg.pluCkptTickHi c.tick) Reg.pluCkptSeq (W c.seq)) Reg.pluStatus 13 true
    let s := if bad then logRec (raise s Reg.pluIrq 8) Reg.pluIrq 3 1 8 [c.seq] else s
    match s.plu.handTick with
    | some h => if c.tick + 1 = h then finalRestore s k h else s
    | none => s

/-! ## Taking control (R278, R283) -/

/-- The control tenants a takeover starts: those of the checkpoint that are admitted; without one, every control tenant that
holds an image (R283, log entry 14). -/
def toStart (s : State) : List (Fin 64) :=
  (match s.plu.store with
    | some c => restored s c
    | none => (List.finRange 64).filter (fun t => isControl s t && (getTen s t).image.isSome)).filter
    (fun t => t != 0 && tState s t == 1)

/-- The PLU issues start for control tenants. -/
def startControl (s : State) (ts : List (Fin 64)) (n : Nat) : State :=
  ts.foldl (fun s t => if resourcesOk s t then beginStart s t n false else s) s

/-- Take a new epoch and persist it (R278). -/
def nextEpoch (s : State) : State :=
  let e := epoch s
  let s := modPlu s (fun p => { p with oldEpoch := W e })
  wrp s Reg.pluEpoch (W (max e (rd s Reg.pluPeerEpoch).toNat + 1))

/-- Begin taking control: a planned swap in progress is abandoned (R286), then the epoch, the quiet lines released, 20 µs of waiting. -/
def beginTake (s : State) (target : Nat) : State :=
  let s := if s.plu.handTick.isSome then stopControl (dropSwap s) else s
  modPlu (nextEpoch s) (fun p => { p with take := .quietWait, takeTo := target, takeAt := s.op })

def doTakeover (tm : Instant) (s : State) : State :=
  let s := toInstant s tm
  if failing s ∨ pairState s ≠ 1 ∨ rb s Reg.pluStatus 5 ∨ s.plu.take ≠ .none ∨
      s.op < s.plu.heard + leaseL s + guardG s then s
  else beginTake s 0

/-- The restore is complete: start commands, and the edge at which the gate opens (R283). -/
def restoreDone (s : State) : State :=
  let n := s.time.tick + 3
  let s := startControl s (toStart s) n
  modPlu s (fun p => { p with openAt := some n, take := .none })

/-- The 20 µs are over: Module B closes again if the partner is not quiet; otherwise the module takes control (R278). -/
def doTakeoverQuietCheck (tm : Instant) (s : State) : State :=
  let s := toInstant s tm
  if s.plu.take ≠ .quietWait ∨ s.op < s.plu.takeAt + 20 * usec then s
  else if !peerQuiet s && moduleB s then
    modPlu (wrp s Reg.pluEpoch s.plu.oldEpoch) (fun p => { p with take := .none, heard := s.op })
  else
    let s := raise (bump s Reg.pluTakeovers) Reg.pluIrq 1
    let s := setPair s s.plu.takeTo
    let s := modPlu s (fun p => { p with fullNext := true })
    match s.plu.store with
    | some c => askRestore (modPlu (wb (wb s Reg.pluStatus 16 true) Reg.pluStatus 15 false) (fun p => { p with take := .restoring })) c
    | none => restoreDone (wb s Reg.pluStatus 15 true)

/-- The checkpoint's pages are in State Memory. -/
def doRestoreComplete (s : State) : State :=
  match s.plu.take, s.plu.store with
  | .restoring, some c => restoreDone (restore (complete s 10 2) c)
  | _, _ => s

/-! ## Checkpoints taken (R280, R281) -/

/-- A committed loop state as a checkpoint carries it, with its injection generator where one runs (R220, R280). -/
def loopSave (x : LoopSt) : List Int :=
  [x.i, x.cand, x.out, x.err, x.d, x.pv, x.sp, (x.stat : Int), x.lastInj] ++
    (match x.inj with
      | some g => ([g.kind, g.point, g.order] : List Nat).map Int.ofNat ++ [g.amp] ++
          ([g.f0, g.f1, g.dur, g.phase, g.lfsr, g.k, b2n g.fresh] : List Nat).map Int.ofNat
      | none => [])
def loopLoad (l : List Int) : LoopSt :=
  let n (i : Nat) : Nat := (l.getD i 0).toNat
  { LoopSt.reset with
    i := l.getD 0 0, cand := l.getD 1 0, out := l.getD 2 0, err := l.getD 3 0, d := l.getD 4 0, pv := l.getD 5 0, sp := l.getD 6 0,
    stat := n 7, lastInj := l.getD 8 0,
    inj := if l.length ≤ 9 then none else some
      { kind := n 9, point := n 10, order := n 11, amp := l.getD 12 0, f0 := n 13, f1 := n 14, dur := n 15, phase := n 16, lfsr := n 17,
        k := n 18, fresh := n 19 == 1 } }

/-- Pages changed since the last complete checkpoint: those of one still being sent count (R280, R281). -/
def changedPages (s : State) : List Nat :=
  s.plu.dirty ++ (match s.plu.sending with
    | some c => c.items.filterMap (fun i => match i with | .page n _ => if s.plu.dirty.contains n.val then none else some n.val | _ => none)
    | none => [])

/-- The next checkpoint is full: also when it takes the place of a full one that has not left. -/
def fullDue (s : State) : Bool := s.plu.fullNext || (match s.plu.sending with | some c => c.full | none => false)

/-- What a checkpoint of the present committed image holds, for the pages named. -/
def ckptItems (s : State) : List CkptItem :=
  let full := fullDue s
  let changed := changedPages s
  let ts := (List.finRange 64).filter (fun t => t != 0 && isControl s t && tActive s t)
  ts.flatMap (fun t =>
    let pages := (List.finRange 8192).filter (fun n => (full || changed.contains n.val) && inPartition s t (4096 * n.val) 4096 true)
    pages.map (fun n => CkptItem.page n (smRead s (4096 * n.val) 4096)) ++
    (coresOf s t).map (fun l => CkptItem.retained l (smWord s (0x1EFF000 + 4 * l.val)) (smRead s (0x1F00000 + 0x4000 * l.val) 0x4000)) ++
    ((List.finRange 256).filter (fun k => loopOwner s (Fin.ofNat 8 (k.val / 32)) (Fin.ofNat 32 (k.val % 32)) == t.val)).map (fun k =>
      CkptItem.loop k ((List.range 23).map (fun j => loopWord s (Fin.ofNat 8 (k.val / 32)) (Fin.ofNat 32 (k.val % 32)) j))
        (loopSave (Tab.get .reset s.clu.loop k).com)) ++
    ((List.finRange 1024).filter (fun (p : Fin 1024) => pubOwner s p == t.val)).map (fun p => CkptItem.pub p (getPub s p).stNum) ++
    ((List.finRange 4096).filter (fun (i : Fin 4096) => (getSlot s i).owner == t.val && (getSlot s i).st != 0)).map (fun i =>
      CkptItem.slot i ((getSlot s i).st == 2)) ++
    [CkptItem.tenant t (getTen s t).sig])

/-- Freeze a checkpoint of tick k and start sending it, as credits and local grants allow (R243), in the place of one that has not
left. -/
def takeCkpt (s : State) : State :=
  let c : Ckpt := ⟨(rd s Reg.pluCkptSeq).toNat + 1, s.time.tick, fullDue s, ckptItems s⟩
  let kib := ((c.items.map itemBytes).sum + 1023) / 1024
  let s := modPlu (dropOut s) (fun p => { p with sending := some c, dirty := [], fullNext := false })
  askOut (wr s Reg.pluCkptKib (W kib))

/-- The checkpoint interval in ticks. -/
def ckptInterval (s : State) : Nat := max 1 (rf s Reg.pluCkpt 10 0)

/-- At the swap of a tick that is a multiple of the interval; skipped while one is being sent. -/
def ckptDue (s : State) : State :=
  if !paired s || !holder s || !gateOpen s || s.time.tick % ckptInterval s ≠ 0 then s
  else if s.plu.sending.isSome then raise (bump s Reg.pluCkptSkip) Reg.pluIrq 7
  else takeCkpt s

/-! ## Planned role swaps (R284, R285) -/

/-- Name a handover tick at least 4 ticks ahead (its distance is free) and send the yield. -/
def sendYield (s : State) : State :=
  let (x, s) := drawWord s
  let h := s.time.tick + 4 + x.toNat
  let s := wb (modPlu s (fun p => { p with yieldTick := some h, ready := false, swapWanted := false })) Reg.pluStatus 14 true
  sendNew s .yld h

/-- Start a planned swap: at once, or when the checkpoint being sent is complete. -/
def beginSwap (s : State) : State :=
  let s := modPlu s (fun p => { p with retries := 0, swapBase := s.op })
  let s := wf s Reg.pluSwapStat 31 24 0
  if s.plu.sending.isSome then modPlu s (fun p => { p with swapWanted := true }) else sendYield s

/-- Planned swaps are made: enabled, and PLU_SWAP.hours is not 0. -/
def swapsPlanned (s : State) : Bool := pairState s == 0 && rb s Reg.pluCfg 2 && rf s Reg.pluSwap 13 0 != 0

/-- Operating-time instant at which the next planned swap falls due. -/
def nextSwapAt (s : State) : Instant := s.plu.swapBase + rf s Reg.pluSwap 13 0 * 3600 * second

/-- A planned swap falls due (R284). -/
def doPlannedSwapDue (s : State) : State :=
  if !swapsPlanned s ∨ s.op < nextSwapAt s ∨ !gateOpen s ∨ swapping s then s else beginSwap s

/-- The checkpoint being sent has left (R281): every burst of it has had its local grant (R243), and its closing record follows
(R282). -/
def doCheckpointSent (s : State) : State :=
  let s := settleAll s
  match s.plu.sending with
  | none => s
  | some c =>
    if s.plu.outSent < ckptBursts c then s else
    let s := wr (wr64 s Reg.pluCkptTickLo Reg.pluCkptTickHi c.tick) Reg.pluCkptSeq (W c.seq)
    let s := emit (modPlu s (fun p => { p with sending := none })) (.closing ⟨c.seq, c.tick, c.full, c.items.length⟩)
    if s.plu.swapWanted && pairState s == 0 && gateOpen s then sendYield s else s

/-- A yield received by the standby (R284): ready or refuse; a ready one issues its starts for tick h + 1. -/
def doYield (path : Path) (m : LeaseMsg) (tm : Instant) (s : State) : State :=
  let (good, s) := hear (toInstant s tm) path m
  if !good ∨ pairState s ≠ 1 ∨ s.plu.take ≠ .none ∨ s.plu.handTick = some m.tick then s
  else
    let okc := match s.plu.store with | some c => c.items.all (admits s) | none => false
    if okc && decide (s.time.tick + 2 ≤ m.tick) then
      let s := modPlu s (fun p => { p with handTick := some m.tick, finalIn := false })
      sendNew (startControl s (toStart s) (m.tick + 1)) .ready m.tick
    else sendNew s .refuse m.tick

def doReady (path : Path) (m : LeaseMsg) (tm : Instant) (s : State) : State :=
  let (good, s) := hear (toInstant s tm) path m
  if good && s.plu.yieldTick == some m.tick then modPlu s (fun p => { p with ready := true }) else s

/-- The standby refuses: the planned swap is postponed (log entry 14). -/
def doRefuse (path : Path) (m : LeaseMsg) (tm : Instant) (s : State) : State :=
  let (good, s) := hear (toInstant s tm) path m
  if good && s.plu.yieldTick == some m.tick then
    wf (wb (modPlu s (fun p => { p with yieldTick := none, ready := false })) Reg.pluStatus 14 false) Reg.pluSwapStat 18 16 2
  else s

/-- Swap failed received while still quiet: the gate reopens at the next edge, control tenants start two ticks later. -/
def doSwapFailed (path : Path) (m : LeaseMsg) (tm : Instant) (s : State) : State :=
  let (good, s) := hear (toInstant s tm) path m
  if !(good && s.plu.yielded && pairState s == 1 && showsQuiet s) then s
  else
    let s := setPair (swapFailed s) 0
    modPlu s (fun p => { p with yielded := false, openAt := some (s.time.tick + 1), restart := true })

/-- Largest final checkpoint, in KiB: the limit of R285 in proportion to the lanes up. -/
def finalLimit (s : State) : Nat :=
  (match rf s Reg.timeTickcfg 1 0 with | 0 => 2048 | 1 => 1640 | 2 => 624 | _ => 284) * lanesUp s / 4

/-- The active module at the swap of tick h − 1: it yields if the final checkpoint fits; otherwise it keeps its gate open and
tries again at the next checkpoint boundary, up to 8 times (R285). Tick numbers that have stepped past h − 1 abandon the swap (R286;
log entry 40). -/
def yieldSwap (s : State) : State :=
  match s.plu.yieldTick with
  | none => s
  | some h =>
    if s.time.tick + 1 < h then s
    else
      let s := wb (modPlu s (fun p => { p with yieldTick := none })) Reg.pluStatus 14 false
      if h < s.time.tick + 1 || !s.plu.ready then wf s Reg.pluSwapStat 18 16 3
      else if finalLimit s * 1024 < ((ckptItems s).map itemBytes).sum then
        if 8 ≤ s.plu.retries then wf s Reg.pluSwapStat 18 16 3
        else
          let s := modPlu s (fun p => { p with retries := p.retries + 1, swapWanted := true, ready := false })
          wf s Reg.pluSwapStat 31 24 s.plu.retries
      else
        let s := takeCkpt (closeGate s)
        -- a lost swap-failed message leaves the module lapsed (R285); the partner's first message ends that
        let s := wb (stopControl s) Reg.pluStatus 5 true
        setPair (modPlu s (fun p => { p with
          yielded := true, ready := false, heard := s.op, yieldAt := s.op, yieldMem := s.mem,
          yieldLoops := (ckptItems s).filter (fun i => match i with | .loop _ _ _ => true | _ => false) })) 1

/-! ## What the tick does for the pair -/

/-- Apply restored items at a swap (R283). -/
def applyItem (s : State) (i : CkptItem) : State :=
  match i with
  | .retained l fs d =>
    shadowWrite (shadowWrite s (retainedAt l) 0x4000 (cellsAt (retainedAt l) (d.take 0x4000))) (savedFsAt l) 4
      (cellsAt (savedFsAt l) (toLe 4 fs.toNat))
  | .loop k ps st =>
    let c : Fin 8 := Fin.ofNat 8 (k.val / 32)
    let i : Fin 32 := Fin.ofNat 32 (k.val % 32)
    let s := ps.zipIdx.foldl (fun s e => loopWrite s c i e.2 e.1) s
    modLoop s c i (fun _ => ⟨loopLoad st, none, none, false, false⟩)
  | .pub p n => modPub s p (fun y => { y with stNum := n, restored := true })
  | .slot j armed => modSlot s j (fun x => { x with st := if x.st = 0 then 0 else if armed then 2 else 1 })
  | .tenant t _ => modTen s t (fun x => { x with loopInit := false })
  | .page _ _ => s

/-- The stretches of State Memory that are a control tenant's own: its write partitions, its cores' retained copies and saved fs. -/
def ownStretches (s : State) (t : Fin 64) : List (Nat × Nat) :=
  (List.range 8).filterMap (fun j => match partition s t j with | some (b, n, _, true) => some (b, n) | _ => none) ++
    (coresOf s t).flatMap (fun l => [(retainedAt l, 0x4000), (savedFsAt l, 4)])

/-- Control tenants go back to the committed image of tick h − 1: State Memory and loops as they were at the yield (R285). -/
def restoreYield (s : State) : State :=
  let l := ((List.finRange 64).filter (fun t => t != 0 && isControl s t)).flatMap (ownStretches s)
  let m := s.plu.yieldMem
  let s := { s with mem := l.foldl (fun a (e : Nat × Nat) => spliceMem a e.1 e.2 m) s.mem }
  modPlu (s.plu.yieldLoops.foldl applyItem s) (fun p => { p with yieldMem := [], yieldLoops := [] })

/-- At a tick edge: the gate opens (R275, R283 to R285), unless power fails (R351). -/
def pluEdge (s : State) : State :=
  match s.plu.openAt with
  | some n =>
    if n ≤ s.time.tick ∧ holder s ∧ !failing s then
      let again := s.plu.restart
      let s := if again then restoreYield s else s
      let s := openGate (modPlu s (fun p => { p with restart := false }))
      if again then
        (List.finRange 64).foldl (fun s t =>
          if t ≠ 0 ∧ isControl s t ∧ tState s t = 1 ∧ (getTen s t).image.isSome then
            modTen (startControl s [t] (s.time.tick + 2)) t (fun x => { x with initDue := false, loopInit := false })
          else s) s
      else s
    else s
  | none => s

/-- At the deadline of the handover tick on the standby: without the final checkpoint it sends swap failed (R285). -/
def pluDeadline (s : State) : State :=
  match s.plu.handTick with
  | some h =>
    if h ≤ s.time.tick ∧ !s.plu.finalIn then
      let s := modPlu s (fun p => { p with handTick := none })
      sendNew (swapFailed (stopControl s)) .swapFailed h
    else s
  | none => s

/-- At a swap: the items of a completed restore apply, through the line shadow. -/
def pluApply (s : State) : State :=
  if s.plu.take = .restoring ∨ s.plu.handTick.any (s.time.tick < ·) then s
  else wb (modPlu (s.plu.apply.foldl applyItem s) (fun p => { p with apply := [] })) Reg.pluStatus 16 false

/-- At a swap: the standby of a planned swap takes control, the active one yields, a checkpoint falls due. -/
def pluSwap (s : State) : State :=
  let s := match s.plu.handTick with
    | some h =>
      if h ≤ s.time.tick ∧ s.plu.finalIn then
        let s := raise (bump (nextEpoch s) Reg.pluTakeovers) Reg.pluIrq 1
        let s := raise (wf s Reg.pluSwapStat 18 16 1) Reg.pluIrq 5
        setPair (modPlu s (fun p => { p with
          handTick := none, finalIn := false, openAt := some (s.time.tick + 1), fullNext := true, swapBase := s.op })) 0
      else s
    | none => s
  ckptDue (yieldSwap s)

/-! ## Manager commands and registers (R268, R277, R287) -/

def pluAnswer (s : State) (r : Nat) : State := wr s Reg.pluCmdRes (W r)

def doPairSwap (s : State) : State :=
  if pairState s ≠ 0 ∨ !gateOpen s ∨ swapping s then pluAnswer s 1
  else if !rb s Reg.pluStatus 13 then pluAnswer s 3
  else beginSwap (pluAnswer s 0)

def doPairFence (s : State) : State := pluFence (pluAnswer s 0)

def doPairUnfence (tm : Instant) (s : State) : State :=
  let s := toInstant s tm
  if pairState s ≠ 3 then pluAnswer s 1
  else setPair (modPlu (wb (pluAnswer s 0) Reg.pluStatus 5 false) (fun p => { p with heard := s.op })) 1

def doSolo (tm : Instant) (s : State) : State :=
  let s := toInstant s tm
  if failing s then pluAnswer s 1 else
  match pairState s with
  | 0 => if peerQuiet s then setPair (wb (pluAnswer s 0) Reg.pluStatus 4 false) 2 else pluAnswer s 2
  | 1 =>
    if s.plu.take ≠ .none then pluAnswer s 1
    else if peerQuiet s then beginTake (wb (pluAnswer s 0) Reg.pluStatus 5 false) 2 else pluAnswer s 2
  | _ => pluAnswer s 1

def doLeaveSolo (s : State) : State := if pairState s = 2 then setPair (pluAnswer s 0) 0 else pluAnswer s 1

/-- PLU_EPOCH: only in FENCED, and only upwards. -/
def doPluEpochWrite (v : Word) (s : State) : State :=
  if pairState s = 3 ∧ epoch s < v.toNat then wrp s Reg.pluEpoch v else s

/-- PLU_T_CLASS: only bits of tenants that are Empty or Stopped may change. -/
def doPluTClassWrite (i : Fin 2) (v : Word) (s : State) : State :=
  let off := if i = 0 then Reg.pluTClass0 else Reg.pluTClass1
  let v := if i = 0 then putBit v 0 false else v
  let chg := rd s off ^^^ v
  if (List.range 32).all (fun b => !bitOf chg b || tState s (Fin.ofNat 64 (32 * i.val + b)) ≤ 1) then wrp s off v else s

def doPluLeaseWrite (v : Word) (s : State) : State :=
  if 8 ≤ fld v 9 0 ∧ fld v 9 0 ≤ 500 ∧ 5 ≤ fld v 23 16 ∧ fld v 23 16 ≤ 200 then
    wrp (modPlu s (fun p => { p with leaseOld := some (leaseWord s) })) Reg.pluLease (v &&& 0xFF03FF)
  else s

/-! ## Meanings -/

def execLeaseRenewal (tm : Instant) (s : State) := ok (doLeaseRenewal tm s)
def execRenewal (path : Path) (m : LeaseMsg) (tm : Instant) (s : State) := ok (doRenewal path m tm s)
def execAcknowledgement (path : Path) (m : LeaseMsg) (tm : Instant) (s : State) := ok (doAcknowledgement path m tm s)
def execYield (path : Path) (m : LeaseMsg) (tm : Instant) (s : State) := ok (doYield path m tm s)
def execReady (path : Path) (m : LeaseMsg) (tm : Instant) (s : State) := ok (doReady path m tm s)
def execRefuse (path : Path) (m : LeaseMsg) (tm : Instant) (s : State) := ok (doRefuse path m tm s)
def execSwapFailed (path : Path) (m : LeaseMsg) (tm : Instant) (s : State) := ok (doSwapFailed path m tm s)
def execLeaseExpiry (tm : Instant) (s : State) := ok (doLeaseExpiry tm s)
def execTakeover (tm : Instant) (s : State) := ok (doTakeover tm s)
def execTakeoverQuietCheck (tm : Instant) (s : State) := ok (doTakeoverQuietCheck tm s)
def execQuietChange (qp qn : Bool) (tm : Instant) (s : State) := ok (doQuietChange qp qn tm s)
def execRestoreComplete (s : State) := ok (doRestoreComplete s)
def execCheckpointPageReceive (item : CkptPage) (s : State) := ok (doCheckpointPageReceive item s)
def execCheckpointClose (c : CkptClose) (s : State) := ok (doCheckpointClose c s)
def execCheckpointSent (s : State) := ok (doCheckpointSent s)
def execPlannedSwapDue (s : State) := ok (doPlannedSwapDue s)
def execPairSwap (s : State) := ok (live s doPairSwap)
def execPairFence (s : State) := ok (live s doPairFence)
def execPairUnfence (tm : Instant) (s : State) := ok (live s (doPairUnfence tm))
def execSolo (tm : Instant) (s : State) := ok (live s (doSolo tm))
def execLeaveSolo (s : State) := ok (live s doLeaveSolo)
def execPluEpochWrite (v : Word) (s : State) := ok (live s (doPluEpochWrite v))
def execPluTClassWrite (i : Fin 2) (v : Word) (s : State) := ok (live s (doPluTClassWrite i v))
def execPluLeaseWrite (v : Word) (s : State) := ok (live s (doPluLeaseWrite v))

end Sys2Proof.Machine
end

