-- ==== Sys2Proof/Machine/Ingress.lean ====
section
/-!
DEFINITION. Reception (R61 to R70, R76, R82): a frame's way through the Colander, the subscribers and into the switch core; the
match table; MACsec enables.
-/
namespace Sys2Proof.Machine

/-! ## Addresses and classes (R3, R64) -/

/-- A MAC address of the module's own block of 256 (R3). -/
def ownMac (s : State) (m : BitVec 48) : Bool := decide ((m - macOf s 0).toNat < 256)

/-- VLAN of a frame at a port: its own, or the port's default for an untagged or priority-tagged frame. -/
def frameVid (s : State) (p : Fin 144) (f : Frame) : BitVec 12 :=
  let v := f.vid.getD 0
  if v = 0 then BitVec.ofNat 12 (rf s (Reg.swcPPvid p) 11 0) else v

def vlanOf (s : State) (vid : BitVec 12) : Option Vlan := Tab.get none s.sw.vlan vid.toNat

/-- Priority of a frame: its own, or the default PCP of the port's default VLAN entry. -/
def framePcp (s : State) (p : Fin 144) (f : Frame) : Nat :=
  if f.vid.isSome then f.pcp
  else match vlanOf s (frameVid s p f) with | some v => fld v.ctl 3 1 | none => 0

/-! ## Matching (R66, R67) -/

def getMatch (s : State) (i : Nat) : MatchEntry := Tab.get .reset s.sw.matchTab i

/-- Every field of an entry but its port group. -/
def matchFields (e : MatchEntry) (f : Frame) (vid : BitVec 12) (appid : Nat) (id : Option (List Byte)) : Bool :=
  e.valid && e.mac == f.dst && e.vid == vid && e.appid.toNat == appid && (match id with | some x => e.id == x | none => true)

/-- The ingress port, or for a pair either port of the pair, is in the entry's group. -/
def inEntry (s : State) (e : MatchEntry) (p : Fin 144) : Bool := (logical s p).any (inGroup s e.grp.toNat)

/-- Entries of a range that match, and whether some entry matches but for its port group. -/
def entriesFor (s : State) (p : Fin 144) (f : Frame) (vid : BitVec 12) (appid : Nat) (id : Option (List Byte)) (lo hi : Nat) :
    List Nat × Bool :=
  let hits := (s.sw.matchTab.filter (fun e => lo ≤ e.1 && e.1 < hi && matchFields e.2 f vid appid id))
  ((hits.filter (fun e => inEntry s e.2 p)).map (·.1), hits.any (fun e => !inEntry s e.2 p))

/-- A matched frame that does not parse (R67). -/
def malformed (s : State) (p : Fin 144) : State := raise (bump (count s p 39) Reg.colMalformed) Reg.colIrq 2

/-- A frame that matched nothing (R67). DESIGN CHOICE (log entry 38): one whose APDU does not parse is counted here too, since a frame
is held against R67's format only once it has matched. -/
def unmatched (s : State) (portOnly : Bool) : State := if portOnly then bump s Reg.colPortRej else bump s Reg.colUnmatched

/-! ## SV (R17, R63, R83, R85, R169) -/

/-- Start the tag check of a frame for a warp, where the warp has one (R169); checks are numbered from 1. -/
def startCheck (s : State) (w : Fin 512) (f : Frame) (frame : Nat) : Option Nat × State :=
  let policy := match boundAt s w with | some (u, j) => bPolicy (bindWord s u j) | none => 0
  let keyed := (binding s 3 w).valid
  if keyed || policy != 0 then
    let n := s.sw.nextFrame + 1
    let ok := keyed && tagOk s 3 w f.tag
    let unit := (boundAt s w).map (·.1)
    let counted := s.sw.checks.any (fun c => c.frame == frame && !c.ok && c.unit == unit)
    let c : TagCheck := ⟨n, w, ok, if counted then none else unit, frame⟩
    (some n, { s with sw := { s.sw with nextFrame := n + 1, checks := s.sw.checks ++ [c] } })
  else (none, s)

/-- One ASDU for one warp reaches the Heddle unit and the Loom. -/
def deliverAsdu (s : State) (w : Fin 512) (p : Fin 144) (sim : Bool) (a : SvAsdu) (ts : Instant) (loopback : Bool)
    (chk : Option Nat) : State :=
  let (good, s) := asduAccept s w sim a loopback
  if !good then s else loomAsdu (heddleAsdu s w p sim a ts chk) w sim a ts loopback chk

/-- An SV frame (R63, R66, R67, R83): its ASDUs are delivered in frame order (R160). -/
def svFrame (s : State) (p : Fin 144) (f : Frame) (appid : Nat) (sim parses : Bool) (asdus : List SvAsdu) : State :=
  let s := count s p 12
  let vid := frameVid s p f
  let ids : List (Option (List Byte)) := if asdus.isEmpty then [none] else asdus.map (fun a => some a.svId)
  let found := ids.map (fun i => entriesFor s p f vid appid i 0 512)
  if found.all (fun m => m.1.isEmpty) then unmatched s (found.any (·.2))
  else
    let sized := asdus.all (fun a => (entriesFor s p f vid appid (some a.svId) 0 512).1.all (fun w =>
      a.dsLen == 8 * (warpCfg s (Fin.ofNat 512 w)).nvals))
    if !parses || !sized then malformed s p
    else
      let ws := (found.flatMap (·.1)).eraseDups
      let frame := s.sw.nextFrame
      let start (x : List (Nat × Option Nat) × State) (w : Nat) : List (Nat × Option Nat) × State :=
        let (chk, s) := startCheck x.2 (Fin.ofNat 512 w) f frame
        (x.1 ++ [(w, chk)], s)
      let (ws, s) := ws.foldl start ([], s)
      asdus.foldl (fun s a => ws.foldl (fun s e =>
        if a.svId == (getMatch s e.1).id then deliverAsdu s (Fin.ofNat 512 e.1) p sim a s.now false e.2 else s) s) s

/-! ## GOOSE (R63, R66, R169, R193) -/

/-- The 32-bit word of a GOOSE member (R193). -/
def GooseVal.toWord : GooseVal → Word
  | .bool b => W (b2n b)
  | .int _ v => BitVec.ofInt 32 v
  | .uint v => W v
  | .float v => v
  | .bits l => W (l.foldr (fun b n => b2n b + 2 * n) 0)
  | .word v => v

/-- A GOOSE message for a subscription (R193): a failed tag only shows in the status. -/
def gooseSub (s : State) (g : Fin 2048) (f : Frame) (m : GooseMsg) : State :=
  let x := getSub s g
  if !tagOk s 2 g f.tag then setSub s g { x with tagFail := true }
  else
    let chg := x.seen && x.stNum != m.stNum
    setSub s g { x with
      valid := true, until' := s.op + m.talMs * msec, expired := false, test := m.test, sim := m.sim, ndsCom := m.ndsCom, tagFail := false,
      changes := if chg then min 255 (x.changes + 1) else x.changes, stNum := m.stNum, sqNum := m.sqNum, seen := true,
      members := m.members.map GooseVal.toWord }

/-- A GOOSE frame: delivered to its subscriptions; answers whether an express entry matched (R64). -/
def gooseFrame (s : State) (p : Fin 144) (f : Frame) (appid : Nat) (parses : Bool) (m : GooseMsg) : Bool × State :=
  let s := count s p 13
  let (hits, other) := entriesFor s p f (frameVid s p f) appid (some m.goCbRef) 512 2560
  let express := hits.any (fun i => (getMatch s i).express)
  if hits.isEmpty then (false, unmatched s other)
  else if !parses then (express, malformed s p)
  else (express, hits.foldl (fun s i => gooseSub s (Fin.ofNat 2048 (i - 512)) f m) s)

/-- A subscription's timeAllowedToLive runs out (R193). -/
def doGooseTalExpiry (g : Fin 2048) (tm : Instant) (s : State) : State :=
  let s := toInstant s tm
  let x := getSub s g
  if x.valid && x.until' ≤ s.op then setSub s g { x with valid := false, expired := true } else s

/-! ## Pause (R76) -/

/-- Set or clear the pause of a queue. -/
def pauseQ (s : State) (p : Fin 144) (tc quanta : Nat) : State :=
  modPort s p (fun x => { x with paused := if quanta = 0 then x.paused &&& ~~~(BitVec.ofNat 5 (2 ^ tc)) else x.paused ||| BitVec.ofNat 5 (2 ^ tc) })

def pfc (s : State) (p : Fin 144) (en : BitVec 8) (quanta : List Nat) : State :=
  (List.range 8).foldl (fun s i =>
    if !en.getLsbD i then s else if i < 5 then pauseQ s p i (quanta.getD i 0) else count s p 42) s

def pauseAll (s : State) (p : Fin 144) (quanta : Nat) : State :=
  (List.range 5).foldl (fun s i => pauseQ s p i quanta) (count s p 15)

/-! ## Into the switch core (R64, R65, R67, R70) -/

/-- The ports a frame leaves by: its forwarding entry's, or the VLAN's, without the port it came in by. DESIGN CHOICE (log
entry 38): the multicast group index of SWC_FDB_DATA is read as a port group of COL_PGRP. -/
def targets (s : State) (p : Fin 144) (f : Frame) (vid : BitVec 12) : List (Fin 144) :=
  match vlanOf s vid with
  | none => []
  | some v =>
    let named := match fdbFind s vid f.dst with
      | some e => if bitOf e.data 31 then groupPorts s (fld e.data 15 0) else
          if h : fld e.data 7 0 < 144 then logical s ⟨fld e.data 7 0, h⟩ else []
      | none =>
        if f.dst.getLsbD 40 && f.dst != 0xFFFFFFFFFFFF && bitOf v.ctl 0 then [] else List.finRange 144
    named.filter (fun q => v.mem.getLsbD q && !(logical s p).contains q && (pState s q == 2 || pState s q == 4))

/-- Admit a frame for its targets, once (R74). An HSR pair gets it with a tag of the pair's own, in both directions; round its
own ring a frame goes on in the form it arrived in (R65). -/
def forward (s : State) (p : Fin 144) (f g : Frame) (tc : Nat) (ts : List (Fin 144)) (ring : Bool) : State :=
  let plain : Frame := if g.hsrSeq.isSome then { g with hsrSeq := none, len := max 64 (g.len - 6) } else g
  let rings := ts.filter (fun q => pairMode s (pairOf q) == 2)
  let on := ring && (pState s (mate p) == 2 || pState s (mate p) == 4)
  advancePairs (takeIn s plain (pairTags s rings) (if on then some (mate p, f) else none) tc
    (if on then mate p :: ts.filter (· != mate p) else ts) (some p)) rings

/-- Class of a frame (R64). -/
def classOf (s : State) (p : Fin 144) (f : Frame) (express : Bool) : Nat :=
  match f.body with
  | .goose _ _ _ => if express then 7 else 6
  | .sv _ _ _ _ => 6
  | .ptp _ => 5
  | _ => let x := framePcp s p f; min 4 (rf s Reg.swcPcpmap (3 * x + 2) (3 * x))

/-- Steps 6 to 9 of R63: deliver, learn and switch a frame; `ring` also sends it around its HSR ring. DESIGN CHOICE (log entry 38):
a frame without an HSR tag that arrives on a port of an HSR pair goes around the ring like any other, with no duplicate check;
rx_sv, rx_goose and rx_ptp count the frames that have passed duplicate detection and VLAN filtering. -/
def deliver (s : State) (p : Fin 144) (f : Frame) (ring : Bool) : State :=
  let vid := frameVid s p f
  let (express, s) := match f.body with
    | .sv appid sim parses asdus => (false, svFrame s p f appid sim parses asdus)
    | .goose appid parses m => gooseFrame s p f appid parses m
    | .ptp m =>
      let s := count s p 14
      (false, if m.domain = rf s Reg.timePrio 23 16 then answerPtp s p m else countForeign s)
    | _ => (false, s)
  let tc := classOf s p f express
  let s := learn s p vid f.src
  -- PTP of the module's own domain is forwarded only by a transparent clock (R31, R34), peer-delay messages of it by none
  -- that uses them itself
  let held := match f.body with
    | .ptp m => m.domain == rf s Reg.timePrio 23 16 && (!rb s Reg.timeCtrl 6 ||
        (rf s Reg.timeCtrl 5 4 != 2 && (m.kind == .pdelayReq || m.kind == .pdelayResp || m.kind == .pdelayFollowUp)))
    | _ => false
  let g : Frame := if f.vid.isSome && f.vid != some 0 then f
    else { f with vid := some vid, pcp := framePcp s p f, len := if f.vid.isSome then f.len else f.len + 4 }
  forward s p f g tc (if held || ownMac s f.dst then [] else targets s p g vid) ring

/-- A lease message reaches the PLU (R271). -/
def leaseIn (s : State) (path : Path) (m : LeaseMsg) : State :=
  match m.kind with
  | .renewal => doRenewal path m s.now s
  | .ack => doAcknowledgement path m s.now s
  | .yld => doYield path m s.now s
  | .ready => doReady path m s.now s
  | .refuse => doRefuse path m s.now s
  | .swapFailed => doSwapFailed path m s.now s

/-- Steps 4 to 8 for a frame that passed its checks: redundancy, VLAN filtering, delivery. -/
def colander (s : State) (p : Fin 144) (f : Frame) : State :=
  let mode := pairMode s (pairOf p)
  if mode = 2 ∧ ownMac s f.src then count s p 41
  else
    let seq := if mode = 1 then f.prpSeq else if mode = 2 then f.hsrSeq else none
    let (copy, s) := match seq with | some q => dupCheck s (pairOf p) f.src q | none => (false, s)
    if copy then count s p 40
    else
      let vid := frameVid s p f
      let member := match vlanOf s vid with | some v => v.mem.getLsbD p | none => false
      if rb s (Reg.swcPPvid p) 12 && !member then count s p 43
      else
        match f.body with
        | .lease m => if f.dst = macOf s 145 then leaseIn s .net m else deliver s p f (mode == 2 && rb s Reg.colCtrl 1)
        | _ => deliver s p f (mode == 2 && rb s Reg.colCtrl 1)

/-- A frame of a receive association as validated: its packet number taken, SecTAG and ICV stripped. -/
def unprotect (s : State) (p : Fin 144) (a : Nat) (m : Macsec) (f : Frame) : Option Frame × State :=
  (some { f with macsec := none, len := max 64 (f.len - m.octets) },
    modPort s p (fun y => { y with pn := Tab.put 0 y.pn a (max (Tab.get 0 y.pn a) (m.pn + 1)) }))

/-- MACsec validation (R68, R305): the frame as it goes on, or none where it is dropped. validateFrames 0 Strict, 1 Check, 2
Disabled (log entry 21). A frame of no bound association or with a failed ICV is dropped and counted in Strict and Check; an
unprotected one in Strict, as without an association, but PTP event messages use the uncontrolled port (R36). DESIGN CHOICE
(log entry 21): a frame older than the replay window counts as a failed ICV. -/
def macsecIn (s : State) (p : Fin 144) (f : Frame) : Option Frame × State :=
  if !rb s (Reg.swcPMacsec p) 0 then (some f, s)
  else
    let mode := rf s (Reg.swcPMacsec p) 6 5
    match f.macsec with
    | none =>
      if mode = 0 && !(match f.body with | .ptp m => m.kind.event | _ => false) then (none, count s p 38) else (some f, s)
    | some m =>
      let has (a : Fin 8) : Bool := let b := binding s 4 (16 * p + 2 + a); b.valid && (ksSlot s b.slotA).active.isSome
      if keyless s then (none, noKey s)
      else match m.sa.filter has with
        | none => if 2 ≤ mode then (some { f with macsec := none, len := max 64 (f.len - m.octets) }, s) else (none, count s p 38)
        | some a =>
          if 2 ≤ mode then unprotect s p a m f
          else if !m.icvOk || m.pn + (Config.replayWindow p).toNat < Tab.get 0 (getPort s p).pn a then (none, count s p 37)
          else unprotect s p a m f

/-- A frame on the receive path of a port (R63). -/
def receive (s : State) (p : Fin 144) (f : Frame) : State :=
  let st := pState s p
  let maxLen := if rb s (Reg.swcPCfg p) 5 then 9216 else 1522
  if st < 2 then s
  else if f.len < 64 then count s p 33
  else if maxLen < f.len then count s p 34
  else if f.fcsErr then noteError (count s p 32) p
  else if f.symErr then noteError (count s p 35) p
  else if st = 3 then count s p 44
  else if f.reasmErr then count s p 36
  else
    match f.body with
    | .verify => if rb s (Reg.swcPCfg p) 6 && st == 2 then sendVerify s p .respond else s
    | .respond => doVerifyResponse p s
    | _ =>
      let s := countFrame s p 0 f
      match f.body with
      | .pfc en quanta => pfc s p en quanta
      | .pause quanta => pauseAll s p quanta
      | _ => match macsecIn s p f with
        | (some f, s) => colander s p f
        | (none, s) => s

/-- A frame received from the wire (R63); in Loopback the receive path is fed by the port's own transmitter (R60). -/
def doFrameReceive (p : Fin 144) (f : Frame) (tm : Instant) (s : State) : State :=
  let s := toInstant s tm
  if pState s p = 4 then s else receive s p f

/-- A frame finishes on a port (R74, R79). In Loopback it comes back on the receive path (R60). -/
def doFrameSent (p : Fin 144) (tm : Instant) (s : State) : State :=
  let s := toInstant s tm
  let back := if pState s p = 4 then (getPort s p).wire else none
  let s := wireDone s p
  match back with
  | some (.stored _ f) => receive s p f
  | some (.trip t) => receive s p t.frame
  | none => s

/-! ## The match table (R69, R82) -/

/-- COL_MATCH_IDX. -/
def matchIdx (s : State) : Nat := rf s Reg.colMatchIdx 11 0

/-- A refused match command. -/
def matchRej (s : State) : State := raise (wb s Reg.colMatchStat 1 true) Reg.colIrq 0

/-- A read command returns the entry in force (R82). DESIGN CHOICE (log entry 38): COL_MATCH_STAT.bound is that of the entry of
the last read command, at that command. -/
def doColMatchRead (s : State) : State :=
  let i := matchIdx s
  if 2559 < i then matchRej s
  else
    let e := getMatch s i
    let s := wr64 s Reg.colKeyMacLo Reg.colKeyMacHi e.mac.toNat
    let s := wr s Reg.colKeyMisc (W (e.vid.toNat + 4096 * e.appid.toNat + 268435456 * b2n e.express + 536870912 * b2n e.valid))
    let s := wr (wr s Reg.colKeyGrp (W e.grp.toNat)) Reg.colKeyIdlen (W e.id.length)
    let s := (List.range 17).foldl (fun s k => wr s (Reg.colKeyId k) (W (leNat ((e.id.drop (4 * k)).take 4)))) s
    wb (wb s Reg.colMatchStat 1 false) Reg.colMatchStat 2 (i < 512 && (boundAt s (Fin.ofNat 512 i)).isSome)

/-- The entry the key registers spell. -/
def keyEntry (s : State) (goose : Bool) : MatchEntry :=
  let misc := rd s Reg.colKeyMisc
  let bytes := ((List.range 17).map (fun k => toLe 4 (rd s (Reg.colKeyId k)).toNat)).flatten
  ⟨BitVec.ofNat 48 (rd64 s Reg.colKeyMacLo Reg.colKeyMacHi), BitVec.ofNat 12 (fld misc 11 0), BitVec.ofNat 16 (fld misc 27 12),
   goose && bitOf misc 28, bitOf misc 29, BitVec.ofNat 6 (rf s Reg.colKeyGrp 5 0), bytes.take (rf s Reg.colKeyIdlen 6 0)⟩

/-- The open session, or one committed for the next edge, binds the warp to a Heddle unit. -/
def heldBinding (s : State) (w : Nat) : Bool :=
  (s.hif.session.toList ++ s.hif.granted).any (fun x => x.held.any (fun e => (List.range 17).any (fun u => (List.range 32).any (fun j =>
      e.1 == Reg.hdlUWarp u j && bitOf e.2 15 && fld e.2 8 0 == w))))

/-- R69 forbids an SV entry: MACsec on a port at which it could match (R66), a port of its group or the other port of its pair, while
its warp is bound to a Heddle unit. -/
def macsecForbids (s : State) (i : Nat) (e : MatchEntry) : Bool :=
  i < 512 && e.valid && ((boundAt s (Fin.ofNat 512 i)).isSome || heldBinding s i) &&
    (groupPorts s e.grp.toNat).any (fun p => rb s (Reg.swcPMacsec p) 0)

/-- Whether the open session is a warp grant: an SV entry is written only through one (R82). -/
def svSession (s : State) : Bool := match s.hif.session with | some x => x.kind == 0 | none => false

/-- Change an entry (R82): while a grant session is open it is held for the edge at which the grant takes effect, else it
changes in the cycle of the command. -/
def changeMatch (s : State) (i : Nat) (e : MatchEntry) : State :=
  let s := wb s Reg.colMatchStat 1 false
  match s.hif.session with
  | some x => { s with hif := { s.hif with session := some { x with entries := Tab.ins x.entries i e } } }
  | none => cfgDirty { s with sw := { s.sw with matchTab := Tab.put .reset s.sw.matchTab i e } }

def doColMatchWrite (s : State) : State :=
  let i := matchIdx s
  let e := keyEntry s (512 ≤ i)
  if 2559 < i ∨ (i < 512 ∧ !svSession s) ∨ macsecForbids s i e then matchRej s else changeMatch s i e

/-- An entry as the open session leaves it, or in force. -/
def heldMatch (s : State) (i : Nat) : MatchEntry :=
  match s.hif.session with | some x => Tab.get (getMatch s i) x.entries i | none => getMatch s i

def doColMatchInvalidate (s : State) : State :=
  let i := matchIdx s
  if 2559 < i ∨ (i < 512 ∧ !svSession s) then matchRej s else changeMatch s i { heldMatch s i with valid := false }

/-! ## MACsec enables (R69) -/

/-- An armed trip frame lists the port as an egress port (R69). -/
def armedOn (s : State) (p : Fin 144) : Bool := s.tru.slot.any (fun e => e.2.st == 2 && inGroup s e.2.pgrp p)

/-- A port carries the fast path as the grants stand, or as they will from the next tick edge (R69, R260). -/
def fastPath (s : State) (p : Fin 144) : Bool :=
  [s, afterGrants s].any (fun t => fastPathPort t (armedOn t) (fun w => (boundAt t w).isSome) p)

def doSwcPMacsecWrite (p : Fin 144) (v : Word) (s : State) : State :=
  if bitOf v 0 && fastPath s p then cfgRej s p
  else wb (wrp s (Reg.swcPMacsec p) (v &&& 0x7F)) (Reg.swcPStatus p) 4 false

/-! ## Loopback playback (R106, R107) -/

/-- The oldest playback ASDU of a stream enters after match. One of the wrong size for its target is malformed (R83); no port's
counter counts it (log entry 20). -/
def doLoopbackAsdu (stream : Fin 512) (s : State) : State :=
  match s.loom.pbLoop.find? (fun e => e.1 == stream.val) with
  | none => s
  | some e =>
    let (_, w, sim, a, ts) := e
    let s := modLoom s (fun l => { l with pbLoop := l.pbLoop.eraseP (fun x => x.1 == stream.val) })
    let wi : Fin 512 := Fin.ofNat 512 w
    if a.dsLen ≠ 8 * (warpCfg s wi).nvals then raise (bump s Reg.colMalformed) Reg.colIrq 2
    else deliverAsdu s wi 0 sim a ts true none

/-! ## Meanings -/

def execFrameReceive (p : Fin 144) (f : Frame) (tm : Instant) (s : State) := ok (live s (doFrameReceive p f tm))
def execFrameSent (p : Fin 144) (tm : Instant) (s : State) := ok (live s (doFrameSent p tm))
def execGooseTalExpiry (g : Fin 2048) (tm : Instant) (s : State) := ok (doGooseTalExpiry g tm s)
def execColMatchRead (s : State) := ok (live s doColMatchRead)
def execColMatchWrite (s : State) := ok (live s doColMatchWrite)
def execColMatchInvalidate (s : State) := ok (live s doColMatchInvalidate)
def execSwcPMacsecWrite (p : Fin 144) (v : Word) (s : State) := ok (live s (doSwcPMacsecWrite p v))
def execLoopbackAsdu (stream : Fin 512) (s : State) := ok (live s (doLoopbackAsdu stream))

end Sys2Proof.Machine
end

