-- ==== Sys2Proof/Machine/Hif.lean ====
section
/-!
DEFINITION. The host interface (chapter 11): the link, function-level resets and generation numbers, mailboxes, queue pairs,
grant sessions, ownership tables, images, and the configuration record.
-/
namespace Sys2Proof.Machine

def modHif (s : State) (f : Hif → Hif) : State := { s with hif := f s.hif }

/-- Set a HIF_IRQ bit: mailbox events fire vector 19, VF events vector 20 (R257). -/
def raiseHif (s : State) (bit : Nat) : State :=
  let vec := if bit ≤ 1 then 19 else if bit = 2 ∨ bit = 3 ∨ bit = 8 then 20 else vecOf Reg.hifIrq
  let s' := wb s Reg.hifIrq bit true
  if rb s Reg.hifIrqen bit && !rb s Reg.hifIrq bit then msix s' 0 vec else s'

/-- A VF exists while NumVFs is at least its number (R248); function 0 is the PF. -/
def fnExists (s : State) (f : Fin 64) : Bool := decide (f.val ≤ rf s Reg.hifStatus 15 10)
def vfExists (s : State) (f : Fin 64) : Bool := f != 0 && fnExists s f
/-- VF_ID.gen (R258); the PF has none. -/
def vfGen (s : State) (f : Fin 64) : Nat := if f = 0 then 0 else rf s (Reg.vfId f) 15 8
/-- The bit of a function in a pair of bitmap registers. -/
def vfBit (s : State) (reg : Nat → Nat) (f : Fin 64) (b : Bool) : State := wb s (reg (f / 32)) (f % 32) b

/-- An access or command of a VF that breaks its bounds (R262): counted, shown, and logged at most once a second. -/
def violation (s : State) (f : Fin 64) : State :=
  if f = 0 then s
  else
    let s := bump s (Reg.vfViol f)
    let n := rf s (Reg.hifVInfo f) 31 16
    let s := wf s (Reg.hifVInfo f) 31 16 (min 65535 (n + 1))
    let s := raiseHif (raiseVf (vfBit s Reg.hifVfViol f true) f 4) 3
    let t := Tab.get 0 s.hif.violAt f
    if n = 0 ∨ t + second ≤ s.op then
      logRec (modHif s (fun h => { h with violAt := Tab.put 0 h.violAt f s.op })) Reg.hifIrq 5 2 3 [f]
    else s

/-- Traffic with an old tag is discarded and counted (R258). -/
def stale (s : State) (f : Fin 64) (n : Nat) : State := raiseHif (bump s (Reg.hifVStale f) n) 8

/-! ## Resets and the link (R247, R258) -/

def genBump (s : State) (f : Fin 64) : State := wf s (Reg.vfId f) 15 8 ((vfGen s f + 1) % 256)
/-- Every VF's generation number increments. -/
def genBumpAll (s : State) : State := each 64 (fun f s => if f = 0 then s else genBump s f) s

def getQ (s : State) (f : Fin 64) (q : Fin 16) : Queue := Tab.get .reset s.hif.queue (16 * f + q)
def modQ (s : State) (f : Fin 64) (q : Fin 16) (g : Queue → Queue) : State :=
  modHif s (fun h => { h with queue := Tab.put .reset h.queue (16 * f + q) (g (getQ s f q)) })

/-- Offset of a queue pair's first register (R253, R257). -/
def qReg (f : Fin 64) (q : Fin 16) : Nat := if f = 0 then Reg.hifQSqbLo q else Reg.vfQSqbLo f q
def qCtrl (f : Fin 64) (q : Fin 16) : Nat := qReg f q + 0x14
def qStat (f : Fin 64) (q : Fin 16) : Nat := qReg f q + 0x18
def sqSize (s : State) (f : Fin 64) (q : Fin 16) : Nat := 2 ^ rf s (qReg f q + 0x10) 3 0
def cqSize (s : State) (f : Fin 64) (q : Fin 16) : Nat := 2 ^ rf s (qReg f q + 0x10) 7 4
def qRunning (s : State) (f : Fin 64) (q : Fin 16) : Bool := rb s (qStat f q) 0

/-- VF registers and doorbells at reset, but for the generation number and the tenant state (R253). -/
def dropVfRegs (s : State) (f : Fin 64) : State :=
  let lo := Reg.vfId f
  { s with regs := s.regs.filter (fun e => e.1 < lo || lo + 0x40000 ≤ e.1 || e.1 == lo || e.1 == Reg.vfState f) }

/-- Both mailbox buffers of a VF empty. -/
def emptyMailbox (s : State) (f : Fin 64) : State :=
  let lo := Reg.hifMbxOut f 0
  let s := { s with regs := s.regs.filter (fun e => e.1 < lo || lo + 0x400 ≤ e.1) }
  let s := wb (wb (wb s (Reg.hifMbxInfo f) 24 false) (Reg.hifMbxInfo f) 25 false) (Reg.hifMbxInfo f) 26 false
  vfBit s Reg.hifMbPend f false

/-- A freeze of the log ends; flushing resumes when none is left (R319). -/
def dropFreeze (s : State) (f : Fin 64) : State :=
  let off := if f = 0 then Reg.logFreeze else Reg.vfLogFreeze f
  let s := wb s off 0 false
  let s := { s with rec' := { s.rec' with freezeAt := Tab.del s.rec'.freezeAt f } }
  if s.rec'.freezeAt.isEmpty then flushDue (wb s Reg.logStatus 17 false) else s

def doVfFlr (f : Fin 64) (s : State) : State :=
  if !vfExists s f then s
  else
    let s := emptyMailbox (dropVfRegs (dropFreeze s f) f) f
    let s := each 16 (fun q s => modQ s f q (fun x => { Queue.reset with cmds := x.cmds })) s
    raiseHif (vfBit (genBump s f) Reg.hifVfFlr f true) 2

/-- An open session ends with nothing changed. -/
def discardSession (s : State) (reason : Nat) : State :=
  match s.hif.session with
  | none => s
  | some _ => wr (modHif s (fun h => { h with session := none })) Reg.hifGrStat ((rd s Reg.hifGrStat &&& 0x3FFC0) ||| W (4 * reason))

def doPfFlr (s : State) : State := discardSession (genBumpAll (dropFreeze s 0)) 6

def doNumvfsChange (n : Fin 64) (s : State) : State :=
  if rf s Reg.hifStatus 15 10 = n then s else genBumpAll (wf s Reg.hifStatus 15 10 n)

def doPcieLinkChange (e : LinkEvent) (s : State) : State :=
  let up (r w : Nat) : State := wb (wf (wf s Reg.hifStatus 3 0 r) Reg.hifStatus 8 4 w) Reg.hifStatus 9 true
  raiseHif (match e with
    | .up r w => up r w
    | .retrain r w => up r w
    | .lost => genBumpAll (wb s Reg.hifStatus 9 false)
    | .hotReset => genBumpAll s) 7

/-! ## Mailboxes (R251, R252) -/

/-- The length a message's header states, when it is valid. -/
def mbLen (w : Word) : Option Nat :=
  let n := fld w 9 0
  if 4 ≤ n ∧ n ≤ 512 ∧ n % 4 = 0 then some n else none

def doDbMbSend (f : Fin 64) (s : State) : State :=
  if !vfExists s f then s
  else match mbLen (rd s (Reg.hifMbxOut f 0)), rb s (Reg.vfMbStat f) 0 with
    | some n, false =>
      let s := wb (wb s (Reg.vfMbStat f) 0 true) (Reg.vfMbStat f) 2 false
      let s := wf s (Reg.hifMbxInfo f) 24 0 (n + vfGen s f * 2 ^ 10 + f * 2 ^ 18 + 2 ^ 24)
      raiseHif (vfBit s Reg.hifMbPend f true) 0
    | _, _ => wb s (Reg.vfMbStat f) 2 true

/-- HIF_MBX_DB.ack: the outbound buffer is free again; the vector is stale when the send's generation has passed. -/
def doMbxAck (f : Fin 64) (s : State) : State :=
  if f = 0 ∨ !rb s (Reg.hifMbxInfo f) 24 then s
  else
    let old := rf s (Reg.hifMbxInfo f) 17 10
    let s := vfBit (wb (wb s (Reg.vfMbStat f) 0 false) (Reg.hifMbxInfo f) 24 false) Reg.hifMbPend f false
    if old = vfGen s f then raiseVf s f 1 else stale s f 1

def doMbxSend (f : Fin 64) (s : State) : State :=
  if f = 0 then s
  else match mbLen (rd s (Reg.hifMbxIn f 0)), rb s (Reg.hifMbxInfo f) 25 with
    | some _, false =>
      raiseVf (wb (wb (wb s (Reg.vfMbStat f) 1 true) (Reg.hifMbxInfo f) 25 true) (Reg.hifMbxInfo f) 26 false) f 0
    | _, _ => wb s (Reg.hifMbxInfo f) 26 true

def doDbMbAck (f : Fin 64) (s : State) : State :=
  if !vfExists s f || !rb s (Reg.hifMbxInfo f) 25 then s
  else
    let s := wb (wb s (Reg.vfMbStat f) 1 false) (Reg.hifMbxInfo f) 25 false
    raiseHif (vfBit s Reg.hifMbAckd f true) 1

/-! ## Queue pairs (R253, R254) -/

/-- Stop a pair with a status. -/
def stopQ (s : State) (f : Fin 64) (q : Fin 16) (status : Nat) : State := wr s (qStat f q) (W (2 + status * 256))

/-- The completion queue has no free entry. -/
def cqFull (s : State) (f : Fin 64) (q : Fin 16) : Bool :=
  let x := getQ s f q
  decide ((x.cqTail + 1) % cqSize s f q = x.cqHead)

/-- A command of an invalid opcode ends with status 1 when its turn comes: after every command of generation `g` before it. -/
def settle (g : Nat) : List QCmd → List QCmd
  | [] => []
  | c :: t =>
    if c.gen ≠ g ∨ c.status.isSome then c :: settle g t
    else if 3 < c.e.opcode then { c with status := some 1 } :: settle g t
    else c :: t

/-- Fetch the waiting entries, tagged with the generation number in force, while the completion queue has room. -/
def fetchQ (s : State) (f : Fin 64) (q : Fin 16) : State :=
  if !qRunning s f q || cqFull s f q then s
  else
    let g := vfGen s f
    modQ s f q (fun x => { x with
      todo := [], sqHead := (x.sqHead + x.todo.length) % sqSize s f q,
      cmds := settle g (x.cmds ++ x.todo.map (fun e => ⟨e, g, none, 0, 0, 0, false⟩)) })

/-- DB_SQ_TAIL: `entries` are the entries behind the new tail as read from host memory; a read that ends early is a host
error on a queue entry. -/
def doDbSqTail (f : Fin 64) (q : Fin 16) (tail : Nat) (entries : List SqEntry) (s : State) : State :=
  if !fnExists s f || !qRunning s f q then s
  else if sqSize s f q ≤ tail then stopQ s f q 1
  else
    let n := (tail + sqSize s f q - (getQ s f q).sqTail) % sqSize s f q
    let s := fetchQ (modQ s f q (fun x => { x with sqTail := tail, todo := x.todo ++ entries.take n })) f q
    if entries.length < n then stopQ s f q 9 else s

def doDbCqHead (f : Fin 64) (q : Fin 16) (head : Nat) (s : State) : State :=
  if !fnExists s f || !qRunning s f q then s
  else if cqSize s f q ≤ head then stopQ s f q 1
  else fetchQ (modQ s f q (fun x => { x with cqHead := head })) f q

/-- The queue sizes a pair may start with: 2 to 4096 entries. -/
def qSizesOk (s : State) (f : Fin 64) (q : Fin 16) : Bool :=
  let a := rf s (qReg f q + 0x10) 3 0
  let b := rf s (qReg f q + 0x10) 7 4
  1 ≤ a && a ≤ 12 && 1 ≤ b && b ≤ 12

/-- A write of VF_Q_CTRL: setting en starts the pair; clearing it ends it. -/
def doQueueEnable (f : Fin 64) (q : Fin 16) (v : Word) (s : State) : State :=
  let was := rb s (qCtrl f q) 0
  if !fnExists s f || was == bitOf v 0 then s
  else
    let s := wr s (qCtrl f q) (v &&& 1)
    let fresh (x : Queue) : Queue := { Queue.reset with cmds := x.cmds.filter (fun c => c.gen != vfGen s f) }
    if was then wr (modQ s f q fresh) (qStat f q) 0
    else if qSizesOk s f q then wr (modQ s f q fresh) (qStat f q) 1
    else stopQ (modQ s f q fresh) f q 1

/-- The command of a pair that runs next: the oldest fetched under the generation in force that has no status yet. -/
def curCmd (s : State) (f : Fin 64) (q : Fin 16) : Option QCmd :=
  (getQ s f q).cmds.find? (fun c => c.gen == vfGen s f && c.status.isNone)

/-- Update the first command of a list that a test picks. -/
def updFirst (p : QCmd → Bool) (g : QCmd → QCmd) : List QCmd → List QCmd
  | [] => []
  | c :: t => if p c then g c :: t else c :: updFirst p g t

/-- Update the command that runs. -/
def modCmd (s : State) (f : Fin 64) (q : Fin 16) (g : QCmd → QCmd) : State :=
  modQ s f q (fun x => { x with cmds := updFirst (fun c => c.gen == vfGen s f && c.status.isNone) g x.cmds })

/-- The running command is done, with a status. -/
def doneQ (s : State) (f : Fin 64) (q : Fin 16) (status : Nat) : State :=
  let s := modCmd s f q (fun c => { c with status := some status })
  modQ s f q (fun x => { x with cmds := settle (vfGen s f) x.cmds })

/-- Run the next command of a pair when its opcode is the one named. -/
def runQ (s : State) (f : Fin 64) (q : Fin 16) (opcode : Nat) (work : QCmd → State) : State :=
  match curCmd s f q with
  | some c => if c.e.opcode = opcode then work c else s
  | none => s

def doQNop (f : Fin 64) (q : Fin 16) (s : State) : State := runQ s f q 0 (fun _ => doneQ s f q 0)

/-- The tenant an image command is for: the VF's own, or the PF entry's target. -/
def imgTenant (f : Fin 64) (c : QCmd) : Fin 64 := if f = 0 then Fin.ofNat 64 c.e.target else f

def doImgPut (f : Fin 64) (q : Fin 16) (data : List Byte) (hostErr : Bool) (s : State) : State :=
  runQ s f q 1 (fun c =>
    let t := imgTenant f c
    let e := c.e
    let status :=
      if e.len < 4096 ∨ 0x100000 < e.len ∨ e.len % 4096 ≠ 0 ∨ e.off % 4096 ≠ 0 ∨ 0x800000 < e.off + e.len ∨ t = 0 ∨ 63 < e.target then 1
      else if 1 < tState s t then 2
      else if hostErr ∨ data.length ≠ e.len then 9 else 0
    let s := doneQ s f q status
    if status = 0 then
      modHif s (fun h => { h with staging := Tab.put [] h.staging t (pokes (Tab.get [] h.staging t) e.off data) })
    else s)

/-! ## Images (R265, R266) -/

/-- The limits of the image layout table (R266); entry addresses are those of instructions (R110; log entry 39). -/
def imageOk (im : Image) (len : Nat) : Bool :=
  im.length == len && len ≤ 0x800000 && 1 ≤ im.cores.length && im.cores.length ≤ 8 &&
  im.cores.all (fun c => c.entry.toNat % 4 == 0 && c.errorEntry.toNat % 4 == 0 && c.code.length % 4096 == 0 && 0x10000 + c.code.length ≤ 0x7B000 && c.retained.length ≤ 0x4000) &&
  1 ≤ im.reservation && im.reservation ≤ 1024 && im.consecMax ≤ 15 && im.windowMax ≤ 255 &&
  im.fallback.length ≤ im.reservation &&
  im.fallback.all (fun e => match e with | .mem .. => true | .pub .. => true | .out .. => true | _ => false) &&
  im.hist ≤ 65535 && im.map.length ≤ 5632 && !im.map.contains .otherType && im.loops.length ≤ 32 && im.kernels ≤ 8

/-- Code regions and retained initial values reach the local memory of every granted core (R265 step 5). -/
def loadCores (s : State) (t : Nat) : State :=
  (coresOf s t).foldl (fun s l => match coreImage s l with
    | some ci => modCore s l (fun k => { k with mem := pokes (k.mem.filter (fun e => e.1 < 0x7C000)) 0x7C000 ci.retained })
    | none => s) s

/-- Sum of the reservations of the tenants that hold images, but for one. -/
def resvSum (s : State) (skip : Nat) : Nat :=
  ((List.range 64).map (fun u => if u = skip then 0 else reservation s u)).sum

/-- The status of R265 for a staged image: the checks in the order of the rule, the budgets of R130 with the structure. -/
def imageStatus (s : State) (f t : Fin 64) (x : ImageLoad) (len : Nat) : Nat :=
  let kind := b2n x.img.manager
  let signed := match s.ks.owner.find? (fun e => e.1 == kind) with
    | some (_, k) => k.kid == x.img.keyId && Config.ecVerify k.point (Config.sha384 x.bytes) x.sig
    | none => false
  if !x.parses || !imageOk x.img len || x.img.cores.any (fun c => windowCycles s < c.watchdog) then 5
  else if !signed then 4
  else if 16384 < resvSum s t + x.img.reservation || (x.img.manager && f != 0) then 7
  else if !x.writeOk then 8 else 0

/-- Install an image: the tenant's program store slot, the core memories, its declared figures; the tenant enters Stopped. -/
def install (s : State) (t : Fin 64) (x : ImageLoad) : State :=
  let s := modTen s t (fun y => { y with image := some x.img, sig := x.sig.take 8, fallbackDone := false })
  let s := loadCores s t
  let s := wr s (Reg.cmtTTol t) (W (x.img.consecMax + x.img.windowMax * 256))
  let s := wr s (Reg.cmtTResv t) (W x.img.reservation)
  let s := if isControl s t then { s with plu := { s.plu with fullNext := true } } else s
  cfgDirty (if tState s t = 0 then setTState s t 1 else s)

/-- IMG_LOAD: `img` is what the staging area holds, section by section (R266); a command whose operand is not what the
staging area holds has no effect. -/
def doImgLoad (f : Fin 64) (q : Fin 16) (img : ImageLoad) (s : State) : State :=
  runQ s f q 2 (fun c =>
    let t := imgTenant f c
    let staged := peeks (Tab.get [] s.hif.staging t) 0 c.e.len
    if t = 0 ∨ 63 < c.e.target then doneQ s f q 1
    else if 1 < tState s t then doneQ s f q 2
    else if img.parses && staged != img.bytes ++ img.sig then s
    else match imageStatus s f t img c.e.len with
      | 0 => install (askFree (doneQ s f q 0) 4 0 ((c.e.len + 63) / 64)) t img
      | r => doneQ s f q r)

/-- An ownership word without a tenant's bytes. -/
def dropBytes (t : Nat) (w : Word) : Word :=
  (List.range 4).foldl (fun (w : Word) j => if fld w (8 * j + 5) (8 * j) = t then setFld w (8 * j + 5) (8 * j) 0 else w) w

/-- Take an owner's bytes out of an ownership table of `n` words. -/
def dropOwner (s : State) (reg : Nat → Nat) (n t : Nat) : State :=
  (List.range n).foldl (fun s i =>
    let w := rd s (reg i)
    let w' := dropBytes t w
    if w' = w then s else wr s (reg i) w') s

/-- Owners of the GOOSE subscriptions as the sessions committed for the next edge leave them. -/
def nextSubs (s : State) : Tab Nat :=
  (s.hif.granted.filter (fun x => x.kind == 1)).foldl (fun m x => Tab.put 0 m x.obj x.tenant) s.hif.subOwner

/-- An accepted write waiting for the next swap, without what it gives a tenant (R261, R266): its input grants go, its bytes of
an ownership word and its loops are released. -/
def dropWaiting (t : Fin 64) (e : Nat × Word) : Option (Nat × Word) :=
  if e.1 = Reg.fioBiGrant t then none
  else if (List.range 64).any (fun u => e.1 == Reg.fioBiGrant u) then some e
  else some (e.1, dropBytes t e.2)

/-- Every grant of a tenant is released (R266), those accepted for the next edge or swap too: ownership tables, loops, slots,
partitions and field I/O at once, warps and subscriptions at the next tick edge (R100). -/
def releaseAll (s : State) (t : Fin 64) : State :=
  let chans := (List.finRange 16).filter (fun k => bcOwner s k == t.val)
  let s := dropOwner s Reg.hifOwnGpub 256 t
  let s := dropOwner s Reg.hifOwnSpub 32 t
  let s := dropOwner s Reg.hifOwnCore 16 t
  let s := dropOwner s Reg.ksOwn 256 t
  let s := dropOwner s Reg.fioBcOwn 4 t
  let s := chans.foldl bcOwnerChanged s
  let s := wr s (Reg.fioBiGrant t) 0
  let s := each 8 (fun c s => each 32 (fun i s => if loopOwner s c i = t then wr (clearLoop s c i) (Reg.cluLOwn c i) 0 else s) s) s
  let s := { s with cmt := { s.cmt with waiting := s.cmt.waiting.filterMap (dropWaiting t) } }
  let s := freeSlots s t
  let s := each 8 (fun j s => wr (wr s (Reg.smaPtBase t j) 0) (Reg.smaPtSize t j) 0) s
  let keep (p : Tab (Word × Word)) := p.filter (fun e => e.1 / 8 ≠ t.val)
  let s := { s with cmt := { s.cmt with part := keep s.cmt.part, partNext := keep s.cmt.partNext } }
  let s' := afterGrants s
  let warps := (List.range 512).filter (fun w => warpOwner s' (Fin.ofNat 512 w) == t.val)
  let subs := ((nextSubs s).filter (fun e => e.2 == t.val)).map (·.1)
  modHif s (fun h => { h with
    granted := h.granted ++ warps.map (fun w => ⟨0, w, 0, [], []⟩) ++ subs.map (fun g => ⟨1, g, 0, [], []⟩) })

def doUnload (t : Fin 64) (s : State) : State :=
  if t = 0 ∨ tState s t = 0 then wr s Reg.hifTRes 2
  else if tState s t ≠ 1 then wr s Reg.hifTRes 1
  else
    let s := raiseVf (releaseAll (wr s Reg.hifTRes 0) t) t 5
    let s := modTen s t (fun x => { x with image := none, sig := [] })
    let s := wr s (Reg.cmtTResv t) 0
    cfgDirty (setTState (genBump s t) t 0)

/-! ## Reading the committed image (R255) -/

/-- Every line of a range lies in the function's read partitions. -/
def linesReadable (s : State) (f : Fin 64) (off n : Nat) : Bool :=
  (List.range (n / 64)).all (fun i => inPartition s f (off + 64 * i) 64 false)

def doCiRead (f : Fin 64) (q : Fin 16) (s : State) : State :=
  runQ s f q 3 (fun c =>
    let e := c.e
    if e.len < 64 ∨ 65536 < e.len ∨ e.len % 64 ≠ 0 ∨ e.off % 64 ≠ 0 then doneQ s f q 1
    else if !linesReadable s f e.off e.len then violation (doneQ s f q 3) f
    else modCmd s f q (fun c => { c with running := true }))

/-- One attempt of the running CI_READ: `intervened` says that another swap came before the last line was read. A line that has left
the read partitions since the command was fetched ends it with status 3. -/
def doCiReadAttempt (f : Fin 64) (q : Fin 16) (intervened : Bool) (s : State) : State :=
  match (getQ s f q).cmds.find? (fun c => c.running && c.status.isNone) with
  | none => s
  | some c =>
    let upd (s : State) (g : QCmd → QCmd) : State := modQ s f q (fun x => { x with
      cmds := settle (vfGen s f) (updFirst (fun c => c.running && c.status.isNone) g x.cmds) })
    if c.gen ≠ vfGen s f then
      let (n, s) := drawLe s (c.e.len / 128)
      stale (upd s (fun c => { c with status := some 0 })) f n
    else if !linesReadable s f c.e.off c.e.len then violation (upd s (fun c => { c with status := some 3 })) f
    else
      let s := complete (askBanks s 11 (linesOf c.e.off c.e.len)) 11 0
      if intervened then
        upd s (fun c => { c with attempts := c.attempts + 1, status := if 4 ≤ c.attempts + 1 then some 6 else none })
      else
        let s := emit s (.dma f c.e.host (smRead s c.e.off c.e.len))
        let hi := rd s Reg.cmtLastHi
        upd s (fun c => { c with status := some 0, tick := fld hi 15 0 * 2 ^ 32 + (rd s Reg.cmtLastLo).toNat, stepcnt := fld hi 31 16 })

/-- The completion entry of a command (R253). -/
def cqEntry (c : QCmd) (status sqHead : Nat) (phase : Bool) : List Byte :=
  toLe 4 (c.e.tag % 65536 + status * 2 ^ 16 + c.gen * 2 ^ 24) ++ toLe 4 (sqHead + b2n phase * 2 ^ 16) ++ toLe 4 c.tick
    ++ toLe 4 (c.tick / 2 ^ 32 % 65536 + c.stepcnt * 2 ^ 16)

/-- The oldest finished command of a pair completes; a stale one is discarded (R254, R258, R259). -/
def doQueueCompletion (f : Fin 64) (q : Fin 16) (s : State) : State :=
  let x := getQ s f q
  match x.cmds.find? (fun c => c.status.isSome) with
  | none => s
  | some c =>
    let s' := modQ s f q (fun x => { x with cmds := x.cmds.eraseP (fun c => c.status.isSome) })
    if c.gen ≠ vfGen s f then stale s' f 1
    else if !rb s (qCtrl f q) 0 || cqFull s f q then s
    else
      let base := (rd s (qReg f q + 0xC)).toNat * 2 ^ 32 + (rd s (qReg f q + 8)).toNat / 4096 * 4096
      let s' := emit s' (.dma f (base + 16 * x.cqTail) (cqEntry c (c.status.getD 0) x.sqHead x.phase))
      let next := (x.cqTail + 1) % cqSize s f q
      let s' := modQ s' f q (fun x => { x with cqTail := next, phase := if next = 0 then !x.phase else x.phase })
      msix s' f (if f = 0 then 32 + q else 16 + q)

/-- The discarded traffic of an abandoned command: the completion entry of a finished one, and of a running CI_READ the data writes that
had not left too. -/
def discarded (s : State) (c : QCmd) : Nat × State :=
  if c.status.isSome then (1, s)
  else if c.running then
    let (n, s) := drawLe s (c.e.len / 128)
    (n + 1, s)
  else (0, s)

/-- Commands with a stale tag are abandoned, and their discarded traffic counts; the staging area of an abandoned image command is
freed (R258). -/
def doCommandAbandon (f : Fin 64) (q : Fin 16) (s : State) : State :=
  let old := (getQ s f q).cmds.filter (fun c => c.gen != vfGen s f)
  let s := if old.any (fun c => c.e.opcode == 1 || c.e.opcode == 2) then
      modHif s (fun h => { h with staging := Tab.del h.staging f }) else s
  let s := old.foldl (fun s c =>
    let (n, s) := discarded s c
    if n = 0 then s else stale s f n) s
  if old.isEmpty then s else modQ s f q (fun x => { x with cmds := x.cmds.filter (fun c => c.gen == vfGen s f) })

/-! ## Grant sessions (R260) -/

def grReason (s : State) (r : Nat) : State := wf s Reg.hifGrStat 5 2 r

/-- HIF_GR_OPEN with go. -/
def doGrantOpen (v : Word) (s : State) : State :=
  let kind := fld v 1 0
  let obj := fld v 13 2
  if !bitOf v 31 then s
  else if s.hif.session.isSome then grReason s 1
  else if 1 < kind ∨ (kind = 0 ∧ 512 ≤ obj) ∨ (kind = 1 ∧ 2048 ≤ obj) then wr s Reg.hifGrStat (W (4 * 2 + obj * 64))
  else
    wr (modHif s (fun h => { h with session := some ⟨kind, obj, fld v 21 16, [], []⟩ })) Reg.hifGrStat (W (1 + obj * 64))

/-- The match entry of a session's object. -/
def sessionIdx (x : Session) : Nat := if x.kind = 0 then x.obj else 512 + x.obj

/-- The held bindings: unit, slot, word. -/
def heldBindings (x : Session) : List (Fin 17 × Nat × Word) :=
  x.held.filterMap (fun e =>
    ((List.range 16).flatMap (fun u => (List.range 32).map (fun j => (u, j)))).findSome? (fun p =>
      if e.1 = Reg.hdlUWarp p.1 p.2 then some ((Fin.ofNat 17 p.1 : Fin 17), p.2, e.2) else none))

/-- The module as the session leaves it, after the sessions already committed for the next edge. -/
def afterSession (s : State) (x : Session) : State := afterGrant (afterGrants s) x

/-- The bindings a session writes, each with the reason for which it fails R157 or R165; 0 where it passes. -/
def bindFaults (s : State) (x : Session) : List (Fin 17 × Nat) :=
  let t := afterSession s x
  (heldBindings x).map (fun e => (e.1, bindFault t e.1 e.2.1 e.2.2 (warpOwner t (bWarp e.2.2))))

/-- A session's bindings satisfy R157 and R165, and so does the one its warp keeps. -/
def bindingsOk (s : State) (x : Session) : Bool :=
  let t := afterSession s x
  (bindFaults s x).all (fun e => e.2 == 0) && (match boundAt t (Fin.ofNat 512 x.obj) with
    | some (u, j) => bindFault t (Fin.ofNat 17 u) j (bindWord t u j) (warpOwner t (Fin.ofNat 512 x.obj)) == 0
    | none => true)

/-- The units whose binding writes failed at the close show why (R157). -/
def rejectBindings (s : State) (x : Session) : State :=
  (bindFaults s x).foldl (fun s e => if e.2 = 0 then s
    else unitAnswer s e.1 e.2 (if e.2 = 5 then (deepestOf (unitTables s e.1)).getD 0 else 0)) s

/-- A match entry is valid and its string has 1 to 65 octets (COL_KEY_IDLEN). -/
def entryOk (e : MatchEntry) : Bool := e.valid && decide (1 ≤ e.id.length) && decide (e.id.length ≤ 65)

/-- Every code of HIF_GR_STAT.reason for which a commit of the session fails (R260), ascending. A release checks what it writes. -/
def grantFaults (s : State) (x : Session) : List Nat :=
  let t := afterSession s x
  let grant := x.tenant ≠ 0
  let entry := getMatch t (sessionIdx x)
  let badEntry := (grant && !entryOk entry) || (grant && macsecForbids t (sessionIdx x) entry) ||
    x.entries.any (fun y => y.2.valid && (!entryOk y.2 || macsecForbids t y.1 y.2))
  let c := sessionCfg (afterGrants s) x
  let live := x.kind = 0 ∧ (grant ∨ (c.valid ∧ [Reg.loomWCfg x.obj, Reg.loomWDelay x.obj, Reg.loomWHyst x.obj].any (fun off =>
    x.held.any (fun e => e.1 == off))))
  ([(badEntry, 2), (decide live && !c.covered (period s) (rf s Reg.loomTransit 15 0) (nextDelay s), 3),
    (x.kind == 0 && !bindingsOk s x, 4), (x.kind == 0 && grant && (!c.valid || c.owner != x.tenant), 5),
    (decide live && !c.ranges (rateHz s), 7)].filter (·.1)).map (·.2)

/-- The reason a commit of the session fails: the lowest code that applies (log entry 22). -/
def grantReason (s : State) (x : Session) : Nat := (grantFaults s x).headD 0

/-- HIF_GR_CLOSE.commit (R260): every check passes and the grant waits for the next tick edge, or the session is discarded; a breach
of R91 or of a range also shows in the warp's cfg_rej (R91, R109), one of R157 in its unit's. -/
def doGrantCommit (s : State) : State :=
  match s.hif.session with
  | none => s
  | some x =>
    match grantReason s x with
    | 0 =>
      let s := modHif s (fun h => { h with session := none, granted := h.granted ++ [x] })
      let s := if x.kind = 0 then wb s (Reg.loomWState x.obj) 4 false else s
      raiseHif (cfgDirty (wr s Reg.hifGrStat (W (2 + x.obj * 64)))) 5
    | r =>
      let l := grantFaults s x
      let s := if l.contains 4 then rejectBindings s x else s
      let s := if l.contains 3 || l.contains 7 then wb s (Reg.loomWState x.obj) 4 true else s
      discardSession (if l.contains 3 then raise s Reg.loomIrq 4 else s) r

def doGrantDiscard (s : State) : State := discardSession s 0

/-- Tell a tenant that its grants changed (R261). -/
def grantChg (s : State) (t : Nat) : State := if t = 0 then s else raiseVf s (ten t) 5

/-- A match entry of a granted warp has changed in a session of another: a release and a new grant of that warp (R100). -/
def regrant (s : State) (w : Fin 512) : State :=
  if warpValid s w then grantChg (gateGrant (loomGrant s w (warpCfg s w) true) w) (warpOwner s w) else s

/-- A committed session takes effect at a tick edge (R100): match entries, grant, bindings. -/
def applyGrant (s : State) (x : Session) : State :=
  let i := sessionIdx x
  let diff := (x.entries.filter (fun y => decide (y.2 ≠ getMatch s y.1))).map (·.1)
  let changed := diff.contains i
  let setEntry (s : State) : State :=
    let s := x.entries.foldl (fun s y => { s with sw := { s.sw with matchTab := Tab.put .reset s.sw.matchTab y.1 y.2 } }) s
    (diff.filter (fun k => k < 512 && k != i)).foldl (fun s k => regrant s (Fin.ofNat 512 k)) s
  if x.kind = 1 then
    let old := Tab.get 0 s.hif.subOwner x.obj
    let s := modHif (setEntry s) (fun h => { h with subOwner := Tab.put 0 h.subOwner x.obj x.tenant })
    if old = x.tenant then grantChg s old else grantChg (grantChg s old) x.tenant
  else
    let w : Fin 512 := Fin.ofNat 512 x.obj
    let old := warpOwner s w
    let c := sessionCfg s x
    let s := gateGrant (setEntry s) w
    let s := (heldBindings x).foldl (fun s b => applyBinding s b.1 b.2.1 b.2.2) s
    let s := if x.tenant = 0 then
        let s := match boundAt s w with | some (u, j) => wr s (Reg.hdlUWarp u j) 0 | none => s
        loomRelease s w
      else gateGrant (loomGrant s w c changed) w
    if old = x.tenant then grantChg s old else grantChg (grantChg s old) x.tenant

/-- Every committed session takes effect. -/
def applyGrants (s : State) : State :=
  let l := s.hif.granted
  l.foldl applyGrant (modHif s (fun h => { h with granted := [] }))

/-! ## Ownership tables (R261) -/

def ownReg (tab : OwnTable) (i : Nat) : Nat :=
  match tab with | .gpub => Reg.hifOwnGpub i | .spub => Reg.hifOwnSpub i | .core => Reg.hifOwnCore i
def ownWords (tab : OwnTable) : Nat := match tab with | .gpub => 256 | .spub => 32 | .core => 16

def doOwnershipWrite (tab : OwnTable) (i : Fin 256) (v : Word) (s : State) : State :=
  if ownWords tab ≤ i.val then s
  else
    let v := v &&& 0x3F3F3F3F
    if ownWordOk s (rd s (ownReg tab i)) v (tab == .core) then
      cfgDirty { s with cmt := { s.cmt with waiting := s.cmt.waiting ++ [(ownReg tab i, v)] } }
    else raiseHif s 6

/-! ## The configuration record (R264, R345) -/

/-- Register families the configuration record holds, by their first offset. -/
def recordBases : List Nat :=
  [Reg.hifOwnGpub 0, Reg.hifOwnSpub 0, Reg.hifOwnCore 0, Reg.loomWCfg 0, Reg.loomWConfrev 0, Reg.loomWDelay 0, Reg.loomWHyst 0,
   Reg.hdlUWarp 0 0, Reg.hdlUKown0 0, Reg.hdlUKown1 0, Reg.hdlUWarp 16 0, Reg.hdlUKown0 16, Reg.hdlUKown1 16, Reg.ksOwn 0, Reg.fioBiGrant 0, Reg.fioBcOwn 0, Reg.cluLOwn 0 0,
   Reg.smaPtBase 0 0, Reg.smaPtSize 0 0]

def inRecord (off : Nat) : Bool := match regAt off with | some f => recordBases.contains f.base | none => false

/-- The record holds every accepted change, those that wait for the next edge or swap too (R264). -/
def configRecord (s : State) : ConfigRec where
  regs := (s.cmt.waiting.foldl (fun s e => wr s e.1 e.2) (afterGrants s)).regs.filter (fun e => inRecord e.1)
  matchTab := (afterGrants s).sw.matchTab
  bind := s.ks.bind
  fdb := s.sw.fdb.filter (fun e => e.static)
  vlan := s.sw.vlan
  tenants := ((List.finRange 64).map (fun t => (t.val, tState s t))).filter (fun e => e.2 = 3 ∨ e.2 = 4)
  subs := nextSubs s
  part := s.cmt.partNext
  kernels := (s.hdl.unit.map (fun e => (e.1, e.2.kernels))).filter (fun e => e.2 ≠ [])
  slots := s.tru.slot

def doConfigRecordWritten (s : State) : State :=
  if rb s Reg.hifStatus 16 then wb { s with hc := { s.hc with config := some (configRecord s) } } Reg.hifStatus 16 false else s

/-! ## Meanings -/

def execPcieLinkChange (e : LinkEvent) (s : State) := ok (doPcieLinkChange e s)
def execVfFlr (f : Fin 64) (s : State) := ok (doVfFlr f s)
def execPfFlr (s : State) := ok (doPfFlr s)
def execNumvfsChange (n : Fin 64) (s : State) := ok (doNumvfsChange n s)
def execCommandAbandon (f : Fin 64) (q : Fin 16) (s : State) := ok (doCommandAbandon f q s)
def execDbMbSend (f : Fin 64) (s : State) := ok (live s (doDbMbSend f))
def execDbMbAck (f : Fin 64) (s : State) := ok (live s (doDbMbAck f))
def execMbxSend (f : Fin 64) (s : State) := ok (live s (doMbxSend f))
def execMbxAck (f : Fin 64) (s : State) := ok (live s (doMbxAck f))
def execDbSqTail (f : Fin 64) (q : Fin 16) (tail : Nat) (entries : List SqEntry) (s : State) := ok (live s (doDbSqTail f q tail entries))
def execDbCqHead (f : Fin 64) (q : Fin 16) (head : Nat) (s : State) := ok (live s (doDbCqHead f q head))
def execQueueEnable (f : Fin 64) (q : Fin 16) (v : Word) (s : State) := ok (live s (doQueueEnable f q v))
def execNop (f : Fin 64) (q : Fin 16) (s : State) := ok (doQNop f q s)
def execImgPut (f : Fin 64) (q : Fin 16) (data : List Byte) (hostErr : Bool) (s : State) := ok (doImgPut f q data hostErr s)
def execImgLoad (f : Fin 64) (q : Fin 16) (img : ImageLoad) (s : State) := ok (doImgLoad f q img s)
def execCiRead (f : Fin 64) (q : Fin 16) (s : State) := ok (doCiRead f q s)
def execCiReadAttempt (f : Fin 64) (q : Fin 16) (intervened : Bool) (s : State) := ok (doCiReadAttempt f q intervened s)
def execQueueCompletion (f : Fin 64) (q : Fin 16) (s : State) := ok (doQueueCompletion f q s)
def execGrantOpen (v : Word) (s : State) := ok (live s (doGrantOpen v))
def execGrantCommit (s : State) := ok (live s doGrantCommit)
def execGrantDiscard (s : State) := ok (live s doGrantDiscard)
def execOwnershipWrite (tab : OwnTable) (i : Fin 256) (v : Word) (s : State) := ok (live s (doOwnershipWrite tab i v))
def execUnload (t : Fin 64) (s : State) := ok (live s (doUnload t))
def execConfigRecordWritten (s : State) := ok (doConfigRecordWritten s)

end Sys2Proof.Machine
end

