-- ==== Sys2Proof/Machine/Recorder.lean ====
section
/-!
DEFINITION. The Pantry's wear manager and stepped counters, and the module log (R308 to R321).
-/
namespace Sys2Proof.Machine

def modRec (s : State) (f : Recorder → Recorder) : State := { s with rec' := f s.rec' }

/-! ## The Pantry (R309, R311) -/

/-- WEAR_REMAP of the word with a key (an RWP register's offset, or panKey of another word). -/
def doWearRemap (word : Nat) (s : State) : State :=
  let w := getPan s word
  let free := rf s Reg.panStatus 9 0
  if w.phys < 80000000 ∨ free = 0 then s
  else
    let s := setPan s word { w with phys := 0, remaps := w.remaps + 1 }
    let s := raise (bump (wf s Reg.panStatus 9 0 (free - 1)) Reg.panRemaps) Reg.panIrq 1
    let s := if free - 1 = 32 then raise s Reg.panIrq 2 else s
    if free - 1 = 0 then raise s Reg.panIrq 3 else s

/-- Persist a stepped counter. -/
def persistCounter (c : Counter) (s : State) : State :=
  match c with
  | .opTime => persistWord (modRec s (fun r => { r with panOp := s.op, opUnread := false })) 4096
  | .pwrCyc => persistWord (modRec s (fun r => { r with panCyc := rf s Reg.panPwrcyc 23 0 })) 4097
  | .logLost => persistWord (modRec s (fun r => { r with panLost := (rd s Reg.panLogLost).toNat, lostAt := s.op })) 4099

/-- A stepped counter is due (R311): operating time every 0.1 h, the power-cycle count once per start-up, the lost count while it
changes and at most once per 10 s. -/
def counterDue (c : Counter) (s : State) : Bool :=
  match c with
  | .opTime => decide (s.rec'.panOp + 360 * second ≤ s.op)
  | .pwrCyc => s.rec'.panCyc != rf s Reg.panPwrcyc 23 0
  | .logLost => s.rec'.panLost != (rd s Reg.panLogLost).toNat && decide (s.rec'.lostAt + 10 * second ≤ s.op)

def doCounterPersist (c : Counter) (s : State) : State := if counterDue c s then persistCounter c s else s

/-- Every stepped counter at the power-fail warning. -/
def persistAll (s : State) : State := persistCounter .logLost (persistCounter .opTime s)

/-! ## Log memory (R315 to R317, R321) -/

def getSec (s : State) (k : Nat) : LogSector := Tab.get .reset s.rec'.sectors k

/-- A sector that records may enter: blank, no erase under way. -/
def LogSector.ready (x : LogSector) : Bool := x.header.isNone && !x.mixed && (x.erased || !x.begun)

/-- Sectors that the log may enter (LOG_ERASED). -/
def readySectors (s : State) : Nat := 4096 - (s.rec'.sectors.filter (fun e => !e.2.ready)).length

/-- Change a sector, with LOG_ERASED in line. -/
def setSec (s : State) (k : Nat) (x : LogSector) : State :=
  let s := modRec s (fun r => { r with sectors := Tab.put .reset r.sectors k x })
  wr s Reg.logErased (W (readySectors s))

/-- Sectors that hold records of the current generation and are not to be erased. -/
def inUse (s : State) : List (Nat × LogSector) :=
  s.rec'.sectors.filter (fun e => !s.rec'.erase.contains e.1 && (match e.2.header with | some h => W h.1 == rd s Reg.logGen | none => false))

/-- Where the next record goes: the sector, or none while it must wait: until the sector is erased, and from the end of the old log to
the clear record of the next (R320). -/
def recordSector (s : State) : Option Nat :=
  let k := s.rec'.sector
  if s.rec'.clearStep = 2 then none
  else if (getSec s k).header.isSome && !(getSec s k).begun && (getSec s k).recs.length < 1023 then some k
  else if (getSec s k).header.isNone then (if (getSec s k).ready then some k else none)
  else if k + 1 < 4096 ∧ (getSec s (k + 1)).ready then some (k + 1) else none

/-- Program one record; the header with the sector's first. -/
def writeRecord (s : State) (k : Nat) (r : LogRec) : State :=
  let x := getSec s k
  let s := setSec s k { x with header := some (x.header.getD ((rd s Reg.logGen).toNat, r.seq)), recs := x.recs ++ [r] }
  let s := wr (modRec s (fun q => { q with sector := k })) Reg.logLast (W r.seq)
  let s := if r.cls = 5 then wr s Reg.logFirst (W r.seq) else s
  if k = 4095 ∧ x.recs.length = 1022 then raise (wb s Reg.logStatus 16 true) Reg.logIrq 2 else s

/-- Program the `n` oldest pending records, as far as erased sectors reach. -/
def flushN : Nat → State → State
  | 0, s => s
  | n + 1, s =>
    match s.rec'.ring, recordSector s with
    | r :: rest, some k => flushN n (writeRecord (modRec s (fun q => { q with ring := rest })) k r)
    | _, _ => s

def showPending (s : State) : State := wf s Reg.logStatus 10 0 s.rec'.ring.length

/-- LOG_CMD_RES or VF_LOG_RES. -/
def logRes (s : State) (f : Fin 64) (r : Nat) : State := wr s (if f = 0 then Reg.logCmdRes else Reg.vfLogRes f) (W r)

def frozen (s : State) : Bool := rb s Reg.logStatus 17

/-- LOG_CMD.flush (R315): one written while a flush runs starts another when that one ends. -/
def doLogFlush (f : Fin 64) (s : State) : State :=
  if frozen s then logRes s f 2
  else if s.rec'.flushing.isSome then modRec (logRes s f 0) (fun r => { r with flushAgain := true })
  else startFlush (logRes s f 0) false

/-! ## Clearing (R320) -/

/-- The clear record (log entry 24): the clearing function and its generation number, the old generation, its first and last
sequence numbers, and the lost count, or 1 after an interrupted clear. It is the first record of its generation. -/
def clearRecord (s : State) (f gen g first last lost : Nat) : State :=
  let s := wb s Reg.logStatus 16 false
  let n := s.rec'.ring.length
  let s := logRec (wr s Reg.logGen (W (g + 1))) Reg.logIrq 1 5 0 [f, gen, g, first, last, lost]
  let s := modRec s (fun r => { r with sector := 0, ring := r.ring.drop n ++ r.ring.take n })
  startFlush s false

/-- Set the erase-begun mark of a sector. -/
def beginErase (s : State) (k : Nat) : State := setSec s k { getSec s k with begun := true, erased := false }

/-- Sectors that hold records of a generation, but for sector 0. -/
def sectorsOf (s : State) (g : Nat) : List Nat :=
  (s.rec'.sectors.filter (fun e => e.1 ≠ 0 && (match e.2.header with | some h => h.1 == g | none => false))).map (·.1)

/-- Once the records pending at the clear are in the old log, sector 0 is erased: at once, or after a sector whose erase is under way;
erases left from start-up follow. -/
def clearFlushed (s : State) : State :=
  if s.rec'.clearStep = 1 ∧ s.rec'.clearLeft = 0 then
    let s := modRec s (fun r => { r with clearStep := 2 })
    match s.rec'.erase with
    | [] => beginErase (modRec s (fun r => { r with erase := [0] })) 0
    | k :: l => if k = 0 then s else modRec s (fun r => { r with erase := k :: 0 :: l.filter (· != 0) })
  else s

/-- A flush ends: its records are in log memory. Another starts at once where R315 asks for one. -/
def doLogFlushDone (s : State) : State :=
  match s.rec'.flushing with
  | none => s
  | some n =>
    let s := complete s 12 0
    let again := s.rec'.flushAgain
    let before := s.rec'.ring.length
    let s := showPending (flushN n (wb (modRec s (fun r => { r with flushing := none, flushAgain := false })) Reg.logStatus 20 false))
    let s := modRec s (fun r => { r with clearLeft := r.clearLeft - (before - r.ring.length) })
    let s := clearFlushed (raise s Reg.logIrq 0)
    flushDue (if again then startFlush s false else s)

def clearRefusal (s : State) (f : Fin 64) : Nat :=
  if f ≠ 0 ∧ rb s Reg.panLoglock 0 then 1 else if frozen s then 2 else if rb s Reg.logStatus 19 then 3 else 0

def doClearArm (f : Fin 64) (tm : Instant) (s : State) : State :=
  let s := toInstant s tm
  match clearRefusal s f with
  | 0 => logRes (wb (modRec s (fun r => { r with armBy := some f, armAt := s.op })) Reg.logStatus 18 true) f 0
  | r => logRes s f r

def dropArm (s : State) : State := wb (modRec s (fun r => { r with armBy := none })) Reg.logStatus 18 false

def doClearArmExpiry (tm : Instant) (s : State) : State :=
  let s := toInstant s tm
  if s.rec'.armBy.isSome ∧ s.rec'.armAt + second ≤ s.op then dropArm s else s

def doClearConfirm (f : Fin 64) (tm : Instant) (s : State) : State :=
  let s := toInstant s tm
  match clearRefusal s f with
  | 0 =>
    if s.rec'.armBy = some f ∧ s.op ≤ s.rec'.armAt + second then
      let s := wb (logRes (dropArm s) f 0) Reg.logStatus 19 true
      let g := (rd s Reg.logGen).toNat
      let s := modRec s (fun r => { r with
        clearing := some (f.val, vfGen s f, g, (rd s Reg.logFirst).toNat, (rd s Reg.logLast).toNat), clearStep := 1, clearLeft := r.ring.length })
      if s.rec'.ring.isEmpty then clearFlushed s else startFlush s false
    else logRes s f 4
  | r => logRes s f r

/-- The next sector to erase begins, or background erasing ends. -/
def nextErase (s : State) : State :=
  match s.rec'.erase with
  | k :: _ => beginErase s k
  | [] =>
    if s.rec'.clearing.isSome then
      raise (wb (modRec s (fun r => { r with clearing := none, clearStep := 0 })) Reg.logStatus 19 false) Reg.logIrq 3
    else s

/-- The sector being erased is blank, its erase-complete mark programmed. Sector 0 erased at start-up with no sector in use ends a clear
that was interrupted (R321). -/
def doSectorEraseDone (s : State) : State :=
  match s.rec'.erase with
  | [] => s
  | k :: rest =>
    let s := setSec (modRec s (fun r => { r with erase := rest, recovering := r.recovering && !rest.isEmpty })) k ⟨none, false, true, false, []⟩
    match s.rec'.clearing with
    | some (f, gen, g, first, last) =>
      let s := if k = 0 ∧ s.rec'.clearStep = 2 then
          let last := max last (rd s Reg.logLast).toNat
          let s := modRec s (fun r => { r with clearStep := 3 })
          let s := clearRecord s f gen g first last (rd s Reg.panLogLost).toNat
          let s := persistCounter .logLost (wr s Reg.panLogLost 0)
          modRec s (fun r => { r with erase := r.erase ++ (sectorsOf s g).filter (fun j => !r.erase.contains j) })
        else s
      nextErase s
    | none => nextErase (if k = 0 ∧ (inUse s).isEmpty then clearRecord s 0 0 ((rd s Reg.logGen).toNat - 1) 0 0 1 else s)

/-! ## Freezing and reading (R318, R319, R353) -/

def doLogFreezeWrite (f : Fin 64) (v : Word) (tm : Instant) (s : State) : State :=
  let s := toInstant s tm
  let off := if f = 0 then Reg.logFreeze else Reg.vfLogFreeze f
  if bitOf v 0 then
    let s := wb (wb s off 0 true) Reg.logStatus 17 true
    let s := modRec s (fun r => { r with freezeAt := Tab.ins r.freezeAt f s.op })
    if s.rec'.ring.length < 960 ∧ !failing s then wb (modRec s (fun r => { r with flushing := none })) Reg.logStatus 20 false else s
  else if rb s off 0 then dropFreeze s f else s

def doFreezeTimeout (f : Fin 64) (tm : Instant) (s : State) : State :=
  let s := toInstant s tm
  match s.rec'.freezeAt.find? (fun e => e.1 == f.val) with
  | some e => if e.2 + 10 * second ≤ s.op then dropFreeze s f else s
  | none => s

/-- LOG_CUR_ADV. -/
def doLogCurAdv (f : Fin 64) (s : State) : State := bump s (if f = 0 then Reg.logCurSeq else Reg.vfLogCurSeq f) 16

/-- Read-verify of one flushed record (R353). -/
def doLogReadVerify (sector : Fin 4096) (idx : Fin 1023) (crcOk : Bool) (s : State) : State :=
  if (getSec s sector).recs.length ≤ idx ∨ crcOk then s else logRec s Reg.logIrq 2 1 0xFF [sector]

/-! ## Start-up (R321) -/

/-- Sectors to erase again, and sectors pending erase, against the current generation. -/
def toErase (s : State) (g : Nat) : List Nat :=
  (s.rec'.sectors.filter (fun e =>
    let x := e.2
    (x.begun && !x.erased) || x.mixed || (match x.header with | some h => h.1 != g | none => false))).map (·.1)

/-- The log classifies every sector before it accepts a record: it continues the newest log, completes an interrupted clear,
and erases what is left of older ones. A sector 0 that must be erased again is blank to the log, which then has the generation after the
highest found. A log whose last sector is full stays full (R317). -/
def logStartup (s : State) : State :=
  let heads := s.rec'.sectors.filterMap (fun e => e.2.header.map (·.1))
  let top := heads.foldl max 0
  let x := getSec s 0
  let zero := if (x.begun && !x.erased) || x.mixed then none else x.header
  let g := match zero with | some h => h.1 | none => top + 1
  let l := toErase s g
  let newest := ((s.rec'.sectors.flatMap (fun e => e.2.recs)).map (·.seq)).foldl max 0
  let s := wr (wr s Reg.logGen (W g)) Reg.logNext (W (newest + 1))
  let s := modRec s (fun r => { r with ring := [], flushing := none, clearing := none, clearStep := 0, erase := l, marked := true, recovering := !l.isEmpty })
  let used := inUse s
  let recs := used.flatMap (fun e => e.2.recs)
  let s := modRec s (fun r => { r with sector := (used.map (·.1)).foldl max 0 })
  let s := wr (wr s Reg.logFirst (W (match recs with | r :: _ => r.seq | [] => 0))) Reg.logLast (W ((recs.map (·.seq)).foldl max 0))
  let s := wr s Reg.logErased (W (readySectors s))
  let s := if used.any (fun e => e.1 == 4095 && e.2.recs.length == 1023) then wb s Reg.logStatus 16 true else s
  let s := if zero.isNone && used.isEmpty && !l.contains 0 then clearRecord s 0 0 (g - 1) 0 0 1 else s
  let s := match l with
    | [] => s
    | _ => logRec (wb s Reg.logStatus 21 true) Reg.logIrq 2 4 0xFF [l.length]
  nextErase s

/-! ## Meanings -/

def execWearRemap (word : Nat) (s : State) := ok (doWearRemap word s)
def execCounterPersist (c : Counter) (s : State) := ok (doCounterPersist c s)
def execLogFlush (f : Fin 64) (s : State) := ok (doLogFlush f s)
def execLogFlushDone (s : State) := ok (doLogFlushDone s)
def execClearArm (f : Fin 64) (tm : Instant) (s : State) := ok (doClearArm f tm s)
def execClearArmExpiry (tm : Instant) (s : State) := ok (doClearArmExpiry tm s)
def execClearConfirm (f : Fin 64) (tm : Instant) (s : State) := ok (doClearConfirm f tm s)
def execSectorEraseDone (s : State) := ok (doSectorEraseDone s)
def execLogFreezeWrite (f : Fin 64) (v : Word) (tm : Instant) (s : State) := ok (doLogFreezeWrite f v tm s)
def execFreezeTimeout (f : Fin 64) (tm : Instant) (s : State) := ok (doFreezeTimeout f tm s)
def execLogCurAdv (f : Fin 64) (s : State) := ok (doLogCurAdv f s)
def execLogReadVerify (sector : Fin 4096) (idx : Fin 1023) (crcOk : Bool) (s : State) := ok (doLogReadVerify sector idx crcOk s)

end Sys2Proof.Machine
end

