-- ==== Sys2Proof/Machine/Health.lean ====
section
/-!
DEFINITION. The Health Controller (chapter 16): module faults, uncorrectable errors, start-up, spares, the power-fail
sequence, thermal hold, background work, telemetry and HC_CMD.
-/
namespace Sys2Proof.Machine

def modHc (s : State) (f : Health → Health) : State := { s with hc := f s.hc }
def hcSet (s : State) (st : Nat) : State := wf s Reg.hcState 2 0 st

/-! ## Indicators of the front panel (R377) -/

/-- RUN: green while the module is Running. -/
def runLight (s : State) : Light := if hcSt s = 1 then .green else .off
/-- FAULT: red in Fault-halt or Thermal hold. -/
def faultLight (s : State) : Light := if hcSt s = 3 ∨ hcSt s = 4 then .red else .off
/-- PAIR: green in ACTIVE or SOLO, amber in STANDBY, off in FENCED. -/
def pairLight (s : State) : Light := match pairState s with | 0 | 2 => .green | 1 => .amber | _ => .off

/-! ## Module reset (R11, R12, R341) -/

/-- Registers that keep their words: RWP and ROS registers, the counts kept since manufacture (R309, R311), the owner keys'
slots (R299), the archive's identity in its superblocks (R326), the tamper logic's bits of KS_STATUS. -/
def keptReg (off : Nat) : Bool :=
  [Reg.panStatus, Reg.panRemaps, Reg.ksZcnt, Reg.ksOwnerkey, Reg.arcIdLo, Reg.arcIdHi, Reg.ksStatus].contains off ||
  (match regAt off with | some f => f.acc == .rwp || f.acc == .ros | none => false)

/-- The main domain after a module reset; the module is Booting. What the Pantry, the program store, log memory, the drives and
the always-on domain hold stays. An accepted tick rate that waited for its top of second is the Pantry's (R12, R55): it is in
force from then on. -/
def moduleReset (s : State) : State :=
  let ks := rd s Reg.ksStatus &&& 0x1F04 ||| 2
  let rate := s.time.ratePend.getD (rf s Reg.timeTickcfg 1 0)
  let s := { s with
    regs := s.regs.filter (fun e => keptReg e.1)
    now := 0
    time := .reset
    port := []
    sw := .reset
    loom := .reset
    core := []
    ten := (s.ten.map (fun e => (e.1, { Tenant.reset with image := e.2.image, sig := e.2.sig }))).filter (fun e => e.2 ≠ .reset)
    cmt := .reset
    spare := []
    arb := []
    plu := { Plu.reset with qp := s.plu.qp, qn := s.plu.qn }
    rec' := { Recorder.reset with
      pan := s.rec'.pan, panOp := s.rec'.panOp, panCyc := s.rec'.panCyc, panLost := s.rec'.panLost,
      panAgeing := s.rec'.panAgeing, ageAt := s.rec'.ageAt, opUnread := s.rec'.opUnread, sectors := s.rec'.sectors, marked := s.rec'.marked }
    arc := { Archive.reset with drive := s.arc.drive, slots := s.arc.slots, top := s.arc.top }
    hif := .reset
    hdl := .reset
    tru := .reset
    clu := .reset
    fio := .reset
    ks := { KeyStore.reset with
      root := s.ks.root, owner := s.ks.owner, record := s.ks.record, tripAt := s.ks.tripAt, logDue := s.ks.logDue,
      lidOpen := s.ks.lidOpen, tamperRec := s.ks.tamperRec }
    hc := { s.hc with stage := 0, startTick := none, pages := [], ending := 0, telSeq := 0 }
    mem := []
    ddr := [] }
  wr (wr (wb s Reg.panStatus 17 false) Reg.ksStatus ks) Reg.timeTickcfg (W rate)

/-- A module reset with the cause HC_RESET_CAUSE then shows. -/
def resetWith (s : State) (cause : Nat) : State := wr (moduleReset s) Reg.hcResetCause (W cause)

/-! ## Module fault (R342) -/

/-- What stops at a power-fail warning and at a module fault: no further swap, designated operations aborted, gate closed,
field outputs off. -/
def stopCommits (s : State) : State :=
  let s := modCmt s (fun c => { c with
    phase := .idle, shadow := [], updates := [], fallbacks := [], copying := none,
    dop := c.dop.map (fun e => (e.1, if e.2.status = 1 then { e.2 with status := 5 } else e.2)) })
  let s := wb (wb s Reg.cmtStatus 0 false) Reg.cmtStatus 2 false
  fioOff (closeGate s)

/-- A module fault: source block and location code of R343. During a power-fail sequence it is only recorded (R352), as the cause of a
shutdown's reset (R366); one in Fault-halt counts for the hour of R342 alone. -/
def moduleFault (s : State) (src loc : Nat) (ids : List Nat) : State :=
  if hcSt s = 3 then modHc s (fun h => { h with lastFault := some s.op })
  else
    let s := wr s Reg.hcFault (W (src + 256 * loc))
    if failing s then
      let s := modHc s (fun h => { h with lastFault := some s.op, faultAt := s.op, ending := if h.ending = 1 then 3 else h.ending })
      logRec s Reg.hcIrq 4 1 0xFF (src :: loc :: ids)
    else
      let again := match s.hc.lastFault with | some t => decide (s.op < t + 3600 * second) | none => false
      let s := modHc s (fun h => { h with lastFault := some s.op, noRestart := h.noRestart || again, faultAt := s.op })
      let s := each 64 (fun l s => if (getCore s l).run = .running then modCore s l (fun k => { k with run := .stopped }) else s) s
      let s := pluFence (stopCommits (hcSet s 3))
      logRec s Reg.hcIrq 4 1 0xFF (src :: loc :: ids)

/-- The fault log is flushed: the module restarts when R342 allows it. -/
def doFaultRestart (tm : Instant) (s : State) : State :=
  let s := toInstant s tm
  if hcSt s ≠ 3 ∨ s.rec'.flushing.isSome ∨ !s.rec'.ring.isEmpty ∨ !rb s Reg.hcCfg 0 ∨ s.hc.noRestart then s
  else resetWith s 3

def doRailFault (rail : Fin 16) (s : State) : State :=
  if s.hc.mainOn && s.hc.mainGood && !warned s then moduleFault s 1 0 [rail] else s

/-! ## Dead units (R346 to R350) -/

/-- Physical cores 0 to 71, Heddle units 100 to 116. -/
def unitIsDead (s : State) (code : Nat) : Bool :=
  if code < 100 then rb s (Reg.hcDeadCore (code / 32)) (code % 32) else rb s Reg.hcDeadHu (code - 100)

def showDead (s : State) (code : Nat) : State :=
  let s := if code < 100 then wb s (Reg.hcDeadCore (code / 32)) (code % 32) true else wb s Reg.hcDeadHu (code - 100) true
  wb s Reg.hcState 6 true

/-- A unit is declared dead: listed in the Pantry, shown, counted, logged (R348, R350). -/
def declareDead (s : State) (code verdicts : Nat) : State :=
  let s := persistWord (modHc s (fun h => { h with deadList := if h.deadList.contains code then h.deadList else h.deadList ++ [code] })) 4496
  let s := raise (showDead s code) Reg.hcIrq 0
  let s := wf s Reg.hcVerdicts 31 16 (rf s Reg.hcVerdicts 31 16 + 1)
  logRec s Reg.hcIrq 4 1 0 [code, Tab.get 0 s.hc.mismatch code, verdicts]

/-- A cluster's spare is dead; a core for which it was loading is left without one (R204). -/
def spareDead (s : State) (c : Fin 8) : State :=
  let s := wb (wf (wf s (Reg.arrCStatus c) 3 0 15) (Reg.arrCStatus c) 7 4 15) (Reg.arrCStatus c) 9 true
  spareGone (modSpare s c (fun x => { x with lockstep := false, testing := none })) c

/-- A physical core dies: its logical core is lost, or the cluster has no spare. -/
def coreDies (s : State) (p : Fin 72) : State :=
  let c : Fin 8 := Fin.ofNat 8 (p / 9)
  if spareCore s c = p % 9 then spareDead s c
  else match servedBy s c (p % 9) with | some l => loseCore s l | none => s

/-- The logical unit a physical Heddle unit serves: HU-S serves the unit it has taken over (R181). -/
def unitServed (s : State) (u : Fin 17) : Fin 17 :=
  if u.val ≠ 16 then u
  else match (List.range 16).find? (fun k => rb s Reg.hcDeadHu k && unitRole s k != 3) with
    | some k => Fin.ofNat 17 k
    | none => 16

def doRetireCore (p : Fin 72) (force : Bool) (s : State) : State :=
  let c : Fin 8 := Fin.ofNat 8 (p / 9)
  let serves := (servedBy s c (p % 9)).isSome
  let spare := spareCore s c != 15 && (getSpare s c).loading.isNone
  if unitIsDead s p then wr s Reg.hcCmdRes 1
  else if serves && !spare && !force then wr s Reg.hcCmdRes 2
  else coreDies (declareDead (raise (wr s Reg.hcCmdRes 0) Reg.hcIrq 4) p 0) p

def doRetireHeddleUnit (u : Fin 17) (force : Bool) (s : State) : State :=
  let k := unitServed s u
  let spare := unitRole s 16 != 3 && s.hdl.restoring.isNone
  if unitIsDead s (100 + u) then wr s Reg.hcCmdRes 1
  else if k.val ≠ 16 ∧ !spare ∧ !force then wr s Reg.hcCmdRes 2
  else unitDead (declareDead (raise (wr s Reg.hcCmdRes 0) Reg.hcIrq 4) (100 + u) 0) k

def doShadowNow (place : ShadowTarget) (s : State) : State :=
  match place with
  | .core p =>
    if unitIsDead s p then wr s Reg.hcCmdRes 1
    else
      let s := wr s Reg.hcCmdRes 0
      match servedBy s (Fin.ofNat 8 (p / 9)) (p % 9) with
      | some l => modSpare s (p / 9) (fun x => { x with next := some l.val })
      | none => s
  | .heddle u =>
    if unitIsDead s (100 + u) then wr s Reg.hcCmdRes 1
    else
      let s := wr s Reg.hcCmdRes 0
      if u.val = 16 then s else modHdl s (fun h => { h with next := u.val, moveNow := true })

def doClearDead (s : State) : State := persistWord (modHc (wr s Reg.hcCmdRes 0) (fun h => { h with deadList := [] })) 4496
def doClearCause (s : State) : State := wr (wr s Reg.hcCmdRes 0) Reg.hcResetCause 0

/-- A transient verdict of a unit (R348, R349): the third within 24 h of operating time is final. -/
def transient (s : State) (code : Nat) : Bool × State :=
  let s := raise (wf s Reg.hcVerdicts 15 0 (rf s Reg.hcVerdicts 15 0 + 1)) Reg.hcIrq 1
  let s := logRec s Reg.hcIrq 2 4 1 [code, Tab.get 0 s.hc.mismatch code]
  let recent := s.op :: (Tab.get [] s.hc.transient code).filter (fun t => s.op < t + 24 * 3600 * second)
  let s := modHc s (fun h => { h with transient := Tab.put [] h.transient code (recent.take 3) })
  (decide (3 ≤ recent.length), s)

def noteMismatch (s : State) (code : Nat) : State :=
  modHc s (fun h => { h with mismatch := Tab.put 0 h.mismatch code (Tab.get 0 h.mismatch code + 1) })

/-- A core that has passed its test out of service becomes the cluster's spare, where the cluster has none, or once the spare has taken
its place (R348). -/
def rejoin (s : State) (p : Fin 72) : State :=
  let c : Fin 8 := Fin.ofNat 8 (p / 9)
  match servedBy s c (p % 9) with
  | none =>
    if spareCore s c == 15 then
      wb (wb (wf s (Reg.arrCStatus c) 3 0 (p % 9)) (Reg.arrCStatus c) 8 false) (Reg.arrCStatus c) 9 false
    else s
  | some l => if (getSpare s c).loading = some l.val then modSpare s c (fun x => { x with passed := some (p % 9) }) else s

/-- A transient verdict: the rotation resumes with the next unit (R348). -/
def moveOn (s : State) (c : Fin 8) : State := modSpare s c (fun x => { x with ticks := 4800 })

/-- Self-test verdicts after a mismatch (R348): bit 0 the spare passed, bit 1 the active unit passed. -/
def doBistComplete (place : ShadowPlace) (sparePass activePass : Bool) (s : State) : State :=
  let v := b2n sparePass + 2 * b2n activePass
  match place with
  | .cluster c =>
    match (getSpare s c).testing with
    | none => s
    | some (a, b) =>
      let p : Fin 72 := Fin.ofNat 72 (9 * c.val + a)
      let q : Fin 72 := Fin.ofNat 72 (9 * c.val + b)
      let s := noteMismatch (modSpare s c (fun x => { x with testing := none })) p
      match sparePass, activePass with
      | true, false => coreDies (declareDead s p v) p
      | false, true => rejoin (coreDies (declareDead s q v) q) p
      | false, false => coreDies (declareDead (coreDies (declareDead s q v) q) p v) p
      | true, true =>
        let (final, s) := transient s p
        if final then coreDies (declareDead s p v) p else rejoin (moveOn s c) p
  | .heddle =>
    if !rb s (Reg.hdlUStatus 16) 18 then s
    else
      let u : Fin 17 := Fin.ofNat 17 (rf s (Reg.hdlUStatus 16) 6 2)
      let s := noteMismatch (wb (wb s (Reg.hdlUStatus 16) 18 false) (Reg.hdlUStatus u) 18 false) (100 + u)
      match sparePass, activePass with
      | true, false => unitDead (declareDead s (100 + u) v) u
      | false, true => unitDead (declareDead s 116 v) 16
      | false, false => unitDead (declareDead (unitDead (declareDead s 116 v) 16) (100 + u) v) u
      | true, true =>
        let (final, s) := transient s (100 + u)
        if final then unitDead (declareDead s (100 + u) v) u else modHdl s (fun h => { h with shadowTicks := 4800 })

/-- An active core's test has not completed 1 s after the mismatch, and the spare has passed: the spare takes over, and the core
finishes its test out of service. -/
def doCoreSelfTestTimeout (r : SelfTestLate) (s : State) : State :=
  let s := toInstant s r.tm
  let x := getSpare s r.cluster
  match x.testing with
  | some (a, _) =>
    if r.sparePass ∧ x.testAt + second ≤ s.op then
      match servedBy s r.cluster a with | some l => loseCore s l | none => s
    else s
  | none => s

/-! ## Uncorrectable errors (R343) -/

/-- A port holds a stored frame: queued, preempted, waiting to be sent again, or on the wire. -/
def portHolds (x : Port) (id : Nat) : Bool :=
  x.q.any (·.contains id) || x.resend == some id || x.preempted.any (·.1 == id)
    || (match x.wire with | some (.stored i _) => i == id | _ => false)

/-- A port without a stored frame. -/
def portDrops (x : Port) (id : Nat) : Port :=
  { x with
    q := x.q.map (·.erase id), resend := x.resend.filter (· != id), preempted := x.preempted.filter (·.1 != id)
    wire := match x.wire with | some (.stored i f) => if i = id then none else some (.stored i f) | w => w }

/-- A stored frame is discarded on every egress port that holds it, and counted there as aged in its class. -/
def dropStored (s : State) (id : Nat) : State :=
  match stored s id with
  | none => s
  | some f => each 144 (fun p s =>
      if portHolds (getPort s p) id then freeRef (count (modPort s p (fun x => portDrops x id)) p (48 + f.tc)) id else s) s

/-- One of a list of frames, or none, by a free value (log entry 2): which frame a cell or page held is not given. -/
def freePick (s : State) (l : List Nat) : Option Nat × State := let (n, s) := drawLe s l.length; (l[n]?, s)

/-- A DDR5 channel is lost (R73, R103, R108, R343). -/
def doDdr5ChannelLost (ch : Fin 4) (s : State) : State :=
  if !rb s Reg.hcDdr ch then s
  else
    let s := modArb (wb (wb (wb s Reg.hcDdr ch false) Reg.smaStatus (4 + ch) false) (Reg.smaDStatus ch) 0 false) (16 + ch) (fun _ => .reset)
    let s := pauseCheck (wb (raise (raise s Reg.hcIrq 3) Reg.smaIrq 3) Reg.hcState 6 true)
    let s := if rb s Reg.loomCtrl 8 then logRec (raise s Reg.loomIrq 7) Reg.loomIrq 2 1 7 [ch] else s
    if pbState s = 0 then s
    else logRec (wf (pbIdle s false) Reg.loomPbStatus 6 4 5) Reg.loomIrq 2 0 0 [ch]

/-- A 4 KiB page is retired; what it held is a free value (log entry 2): nothing or an image copy, an overflow frame, a history
row, a checkpoint page. -/
def retirePage (s : State) (page : Nat) : State :=
  if s.hc.pages.contains page then s
  else
    let s := modHc s (fun h => { h with pages := page :: h.pages })
    let s := wf s Reg.hcDdr 19 8 (min 4095 (rf s Reg.hcDdr 19 8 + 1))
    let (k, s) := drawLe s 3
    let s := match k with
      | 1 =>
        let (id, s) := freePick s ((s.sw.frames.filter (fun e => match e.2 with | some f => f.ddr | none => false)).map (·.1))
        match id with | some id => dropStored s id | none => s
      | 2 =>
        let (i, s) := freePick s (s.loom.closed.map (·.index))
        match i with | some i => logRec (raise (markGap s i) Reg.loomIrq 7) Reg.loomIrq 2 1 7 [i] | none => s
      | 3 => modPlu s (fun p => { p with fullNext := true })
      | _ => s
    let ch := Config.ddrChannel (4096 * page) % 4
    if 64 ≤ (s.hc.pages.filter (fun q => Config.ddrChannel (4096 * q) % 4 = ch)).length then doDdr5ChannelLost (Fin.ofNat 4 ch) s else s

def doUncorrectableError (loc : ErrLoc) (s : State) : State :=
  match loc with
  | .coreLocal p => coreDies s p
  | .heddle u => if unitIsDead s (100 + u) then s else unitDead (declareDead s (100 + u) 0) (unitServed s u)
  | .packetBuffer cell =>
    let (id, s) := freePick s ((s.sw.frames.filter (fun e => match e.2 with | some f => !f.ddr | none => false)).map (·.1))
    let s := match id with | some id => dropStored s id | none => s
    let l := if s.sw.retired.contains cell then s.sw.retired else cell :: s.sw.retired
    let s := { s with sw := { s.sw with retired := l } }
    if 256 < l.length then moduleFault s 3 3 [cell] else s
  | .ddrPage page => retirePage s page
  | .pantry w =>
    let s := if w = 4096 then modRec s (fun r => { r with opUnread := true }) else s
    moduleFault (raise (wb s Reg.panStatus 17 true) Reg.panIrq 4) 15 4 [w]
  | .stateMemory line => moduleFault (raise (wr s Reg.smaEccAddr (W (line % 2 ^ 25) ||| oneBit 31)) Reg.smaIrq 1) 11 4 [line]
  | .lineShadow => moduleFault s 9 4 []
  | .loom => moduleFault s 5 4 []
  | .tru => moduleFault s 7 4 []
  | .retainedRead l =>
    let t := ten (coreOwner s l)
    if t ≠ 0 ∧ tActive s t then modTen s t (fun x => { x with retErr := true }) else s
  | .keyStore => moduleFault s 14 4 []
  | .other b => moduleFault s b 4 []

/-! ## Start-up (R344 to R346) -/

def booting (s : State) (stage : Nat) : Bool := hcSt s == 0 && s.hc.stage == stage
def atStage (s : State) (n : Nat) : State := modHc s (fun h => { h with stage := n })

/-- The Time Unit starts (R37, R56): Free-run at the rate of the ageing model held in the Pantry, its state shown. -/
def startClock (s : State) : State :=
  selectMaster (modTime s (fun t => { t with rate := (Config.rateOfAgeing s.rec'.panAgeing).toInt }))

/-- Main power is no longer good: operating time stands from here (R311). -/
def holdOp (h : Health) (o : Instant) : Health := { h with mainGood := false, opHold := some (h.opHold.getD o) }

/-- Power good: both supplies in range long enough (R341). Without a hold-off start-up begins, and the log classifies its
sectors (R321). After a loss of main power in Fault-halt it ends a power cycle. -/
def doPowerGood (tm : Instant) (s : State) : State :=
  let s := toInstant s tm
  if s.hc.holdOff then modHc s (fun h => { h with standby := true, mainGood := true })
  else if !booting s 0 && !(hcSt s == 3 && !s.hc.mainGood) then s
  else
    let s := { s with op := s.hc.opHold.getD s.op }
    let s := if hcSt s = 3 then modHc (resetWith s 0) (fun h => { h with noRestart := false }) else s
    let s := modHc s (fun h => { h with opHold := none, standby := true, mainGood := true, mainOn := true, bootAt := s.op, stage := 1 })
    let s := wr s Reg.panLogLost (W s.rec'.panLost)
    startClock (logStartup s)

def doBootImageVerified (aOk bOk : Bool) (s : State) : State :=
  if !booting s 1 then s
  else if aOk then atStage s 2
  else if bOk then logRec (wb (atStage s 2) Reg.hcState 3 true) Reg.hcIrq 3 1 0xFF []
  else moduleFault (modHc s (fun h => { h with noRestart := true })) 1 0 []

/-- A unit out of service from start-up on: the cluster's spare or HU-S serves in its place. -/
def outOfService (s : State) (code : Nat) : State :=
  let s := showDead s code
  if code < 72 then
    let c : Fin 8 := Fin.ofNat 8 (code / 9)
    if code % 9 = spareCore s c then wb (wf s (Reg.arrCStatus c) 3 0 15) (Reg.arrCStatus c) 9 true
    else match servedBy s c (code % 9) with
      | some l =>
        let s' := setMap s l (spareCore s c)
        if spareCore s c = 15 then s' else wb (wf s' (Reg.arrCStatus c) 3 0 15) (Reg.arrCStatus c) 8 true
      | none => s
  else
    let u : Fin 17 := Fin.ofNat 17 (code - 100)
    if u.val = 16 ∨ unitRole s 16 ≠ 3 then wf s (Reg.hdlUStatus 16) 1 0 3 else wf s (Reg.hdlUStatus u) 1 0 3

/-- The self-tests judge the units; those listed dead stay out of service (R346, R350). -/
def doSelfTestComplete (r : SelfTest) (s : State) : State :=
  if !booting s 2 then s
  else if !r.sramOk then moduleFault (modHc s (fun h => { h with noRestart := true })) 1 4 []
  else
    let failed := (r.cores.filter (· < 72) ++ (r.units.filter (· < 17)).map (100 + ·)).filter (fun c => !s.hc.deadList.contains c)
    let listed := s.hc.deadList
    let s := failed.foldl (fun s c => declareDead s c 0) (atStage s 3)
    (listed ++ failed).foldl outOfService s

def doDdr5Trained (ok : BitVec 4) (s : State) : State :=
  if !booting s 3 then s
  else showOvf (each 4 (fun ch s => if ok.getLsbD ch then s else doDdr5ChannelLost ch s) (atStage s 4))

/-- The Pantry is read, the power-cycle count persisted, the Key Store unlocked or provisioned (R306); `checkOk`: the root
agrees with its check word. -/
def doKeyStoreUnlock (checkOk : Bool) (s : State) : State :=
  if !booting s 4 then s
  else
    let s := persistCounter .pwrCyc (wr s Reg.panPwrcyc (W ((s.rec'.panCyc + 1) % 2 ^ 24)))
    let s := wr (atStage s 5) Reg.ksTamper s.ks.tamperRec
    let s := wb s Reg.ksStatus 2 (decide (s.ks.tamperRec ≠ 0))
    let s := match s.ks.root with
      | none => if rb s Reg.ksStatus 2 then wb s Reg.hcState 5 true else provision s
      | some r =>
        if checkOk then
          let s := unlockKeys s r
          showSlots (rederive (wb s Reg.ksStatus 1 false))
        else logRec (wb s Reg.hcState 5 true) Reg.ksIrq 5 2 0xFF []
    if s.ks.logDue then tamperLog s else s

/-- Put the configuration record back (R264, R345). -/
def restoreConfig (s : State) (r : ConfigRec) : State :=
  let s := r.regs.foldl (fun s e => wr s e.1 e.2) s
  let s := { s with sw := { s.sw with matchTab := r.matchTab, fdb := r.fdb, vlan := r.vlan } }
  let s := modHif (modKs s (fun k => { k with bind := r.bind })) (fun h => { h with subOwner := r.subs })
  let s := modCmt s (fun c => { c with part := r.part, partNext := r.part })
  -- a granted warp is Absent until its samples arrive (R95)
  each 512 (fun w s => if warpValid s w then wr s (Reg.loomWState w) 1 else s) s

/-- The archive engine continues after the newest written slot of the drives that are there (R325). -/
def archiveStart (s : State) : State :=
  let newest := (s.arc.slots.filter (fun e => e.2.written && slotAvail s e.1)).foldl (fun (a : Option (Nat × ArcSlot)) e =>
    match a with | some b => if b.2.seq < e.2.seq then some e else a | none => some e) none
  let s := modArc s (fun a => { a with ready := true })
  match newest with
  | some e => showArc (moveHead (wr64 s Reg.arcSeqLo Reg.arcSeqHi (e.2.seq + 1)) (e.1 + 1))
  | none => showArc (moveHead s 0)

/-- The pair state at start-up (R277), with what PLU_STATUS shows of the backplane (R287); a gate opens at the next edge (R275). -/
def pairStart (s : State) : State :=
  let s := wb (modPlu s (fun p => { p with swapBase := s.op, heard := s.op })) Reg.pluStatus 2 Config.moduleB
  if paired s then showQuietLines s
  else modPlu (wf s Reg.pluStatus 1 0 2) (fun p => { p with openAt := some 0 })

/-- The configuration record is restored; switch core, Colander and Time Unit run, ports train. -/
def doConfigRestored (recordOk : Bool) (s : State) : State :=
  if !booting s 5 then s
  else
    let s := atStage s 6
    let s := match s.hc.config, recordOk with
      | some r, true => restoreConfig s r
      | _, _ => logRec (wb s Reg.hcState 4 true) Reg.hcIrq 3 1 0xFF []
    let s := each 144 (fun p s => if rb s (Reg.swcPCfg p) 0 then setPState s p 1 false else s) s
    let s := wr s Reg.loomStat ((rd s Reg.loomStat &&& 0xFFFFFF80#32) ||| W (rf s Reg.loomCtrl 7 1))
    pairStart (archiveStart s)

/-- Tenant images are verified and copied; kernels and templates are loaded. `bad` lists the tenants whose image fails. -/
def doTenantImagesLoaded (bad : List (Fin 64)) (s : State) : State :=
  if !booting s 6 then s
  else
    let s := atStage s 7
    let s := each 64 (fun t s =>
      match (getTen s t).image with
      | none => s
      | some im =>
        let s := wf (wf s (Reg.cmtTState t) 2 0 1) (Reg.vfState t) 2 0 1
        if bad.contains t then logRec (modTen s t (fun x => { x with image := none, sig := [] })) Reg.hcIrq 3 1 0xFF [t]
        else
          let s := wr s (Reg.cmtTTol t) (W (im.consecMax + im.windowMax * 256))
          loadCores (wr s (Reg.cmtTResv t) (W im.reservation)) t) s
    match s.hc.config, rb s Reg.hcState 4 with
    | some r, false =>
      let s := r.kernels.foldl (fun s e => modUnit s (Fin.ofNat 17 e.1) (fun x => { x with kernels := e.2 })) s
      modTru s (fun x => { x with slot := r.slots.map (fun e =>
        (e.1, { e.2 with st := if e.2.st = 0 then 0 else 1, missed := 0, relSec := 0, relNs := 0, portMiss := false })) })
    | _, _ => s

/-- The Loom starts at the current tick's edge, the logical Heddle units are enabled (R379), and the tenants recorded as Running or Test start two ticks later (R344, R345);
control tenants stay Stopped. -/
def doLoomStart (s : State) : State :=
  if !booting s 7 || !s.time.ticking then s
  else
    let n := s.time.tick
    let s := modHc s (fun h => { h with stage := 8, startTick := some (n + 2) })
    let s := each 16 (fun u s => wb s (Reg.hdlUCtrl u) 0 true) s
    let s := modLoom s (fun l => { l with started := true, flushUpTo := some (n - 1) })
    match s.hc.config, rb s Reg.hcState 4 with
    | some r, false =>
      r.tenants.foldl (fun s e =>
        let t := ten e.1
        if t ≠ 0 ∧ tState s t = 1 ∧ !isControl s t ∧ resourcesOk s t ∧ (e.2 = 3 ∨ e.2 = 4) then beginStart s t (n + 2) (e.2 == 4) else s) s
    | _, _ => s

/-! ## Power-fail, resets, temperature (R341, R351, R366) -/

/-- The power-fail sequence (R351), with what it ends in. -/
def powerFail (s : State) (ending : Nat) : State :=
  let s := hcSet s (if ending = 2 then 4 else 2)
  let s := modHc s (fun h => let h := { h with ending := ending, warnAt := s.op }; if ending = 0 then holdOp h s.op else h)
  let s := persistAll (stopCommits s)
  let s := modTime s (fun t => { t with pps := false })
  let s := showArc (modArc s (fun a => { a with staging := [], stage := .value }))
  let s := ((List.range 4).filter (fun d => (getDrive s d).present)).foldl (fun s d => emit s (.driveFlush d)) s
  startFlush s true

/-- The warning (R341, R352, R369); one that arrives while a shutdown runs leaves one sequence. -/
def doPowerFailWarning (tm : Instant) (s : State) : State :=
  let s := toInstant s tm
  if s.hc.mainOn && hcSt s ≤ 1 then powerFail s 0
  else if 2 ≤ hcSt s ∧ hcSt s ≤ 3 ∨ !s.hc.mainOn then
    modTime (modHc s (fun h => holdOp h s.op)) (fun t => { t with pps := false })
  else s

/-- 10 ms after the warning the module resets. -/
def doPowerFailReset (tm : Instant) (s : State) : State :=
  let s := toInstant s tm
  if !failing s || decide (s.op < s.hc.warnAt + 10 * msec) then s
  else if hcSt s = 4 then (if s.hc.ending = 2 then hcSet (moduleReset s) 4 else s)
  else
    let shut := s.hc.ending == 1 || s.hc.ending == 3
    modHc (resetWith s (if s.hc.ending = 3 then 3 else 1)) (fun h => { h with mainOn := false, holdOff := h.holdOff || shut, opHold := some (h.opHold.getD s.op) })

def doThermalHold (tm : Instant) (s : State) : State :=
  let s := toInstant s tm
  if hcSt s = 1 then powerFail s 2 else s

/-- Thermal hold ends once its reset has happened (R341). -/
def doThermalRelease (s : State) : State := if hcSt s = 4 ∧ s.hc.ending = 0 then wr (hcSet s 0) Reg.hcResetCause 4 else s

/-- HC_CMD reset; one that coincides with a module fault or a power-fail sequence leaves that one sequence (R366). -/
def doHcReset (tm : Instant) (s : State) : State :=
  let s := toInstant s tm
  if failing s ∨ (hcSt s = 3 ∧ s.hc.faultAt = s.op) then s else modHc (resetWith s 2) (fun h => { h with noRestart := false })

/-- A die sensor reaches 110 °C. -/
def doTempWarn (sensor : Fin 24) (t16 : BitVec 16) (s : State) : State :=
  let s := wr s (Reg.hcTemp sensor) (t16.setWidth 32)
  if sensor.val < 2 ∨ 15 < sensor.val ∨ t16.toInt < 110 * 16 then s else raise s Reg.hcIrq 2

/-- Standby power is lost: the always-on domain stops, ROS values are lost, a hold-off ends. Operating time falls back to its
last persisted step unless a sequence had persisted it. -/
def doStandbyPowerLoss (s : State) : State :=
  let s := if s.hc.mainOn && !warned s then { s with op := s.rec'.panOp } else { s with op := s.hc.opHold.getD s.op }
  let s := wr (wr (moduleReset s) Reg.hcResetCause 0) Reg.ksTamper 0
  modHc s (fun h => { h with
    standby := false, mainGood := false, mainOn := false, holdOff := false, opHold := some s.op, busArm := none, busStatus := 0, busSector := 0,
    busOffset := 0, noRestart := false })

/-- Standby power arrives: the tamper logic reads the lid latch (R302, R304, R367). -/
def doStandbyPowerUp (lidOpened lidOpen : Bool) (s : State) : State :=
  let s := modHc s (fun h => { h with standby := true })
  if !lidOpened then s
  else
    let s := tamper s 0 6
    if lidOpen then s else doTamperSourceCleared 0 s

/-! ## Background work (R353, R354) -/

/-- A scrub pass (R244, R353): every beat of every bank is read through port 13; corrected lines are rewritten as they were,
counted, and reported. -/
def doSramScrub (corrected addr : Nat) (s : State) : State :=
  let s := Machine.corrected s corrected addr
  if scrubbing s then s else (List.range 16).foldl (fun s b => ask s b 13 65536 (64 * b)) s

/-- Accesses of a pass over a channel: a quarter of 64 GiB in accesses of 64 bytes (R2, R242). -/
def patrolAccesses : Nat := 2 ^ 28

/-- A patrol pass (R353): every line of the available channels is read through port 6; pages found bad are retired. -/
def doDdr5Patrol (retired : List Nat) (s : State) : State :=
  let ask' (s : State) (ch : Nat) : State :=
    if !rb s Reg.hcDdr ch || (getArb s (16 + ch)).reqs.any (fun r => r.port == 6) then s else ask s (16 + ch) 6 patrolAccesses 0
  retired.foldl retirePage ((List.range 4).foldl ask' s)

/-- Each corrected word is rewritten, a write of it like any other (R309, R310). -/
def doPantryScrub (corrected : List Nat) (s : State) : State := corrected.foldl persist s

/-- The 512 bytes of a telemetry record (R354). -/
def telemetryBytes (s : State) (r : TelemetryIn) : List Byte :=
  let u16 (n : Nat) (l : List Nat) : List Byte := (List.range n).flatMap (fun i => toLe 2 (l.getD i 0))
  let body :=
    toLe 4 s.hc.telSeq ++ toLe 6 (secOf s.now) ++ toLe 2 0 ++ toLe 4 (s.now % second / nsec)
    ++ toLe 4 (opHours s % 2 ^ 24) ++ toLe 4 (s.op % (3600 * second) / msec) ++ u16 24 r.temps ++ u16 16 r.rails
    ++ (List.range 12).flatMap (fun k => let e := r.cages.getD k (0, 0); toLe 2 e.1 ++ toLe 2 e.2)
    ++ (List.range 48).flatMap (fun k => let e := r.lanes.getD k (0, 0, 0); toLe 2 e.1 ++ toLe 2 e.2.1 ++ toLe 2 e.2.2)
    ++ toLe 68 0
  body ++ toLe 4 (crc32 body).toNat

def doTelemetryRecord (r : TelemetryIn) (tm : Instant) (s : State) : State :=
  let s := toInstant s tm
  let s := each 24 (fun i s => wr s (Reg.hcTemp i) (W (r.temps.getD i 0 % 65536))) s
  if !rb s Reg.hcTelSize 8 then s
  else
    let n := 2 ^ rf s Reg.hcTelSize 3 0
    let p := rf s Reg.hcTelProd 11 0
    if (p + 1) % n = rf s Reg.hcTelCons 11 0 % n then raise (bump s Reg.hcTelDrop) Reg.hcIrq 5
    else
      let base := (rd s Reg.hcTelBaseHi).toNat * 2 ^ 32 + (rd s Reg.hcTelBaseLo).toNat
      let s := emit s (.dma 0 (base + 512 * p) (telemetryBytes s r))
      msix (modHc (wr s Reg.hcTelProd (W ((p + 1) % n))) (fun h => { h with telSeq := (h.telSeq + 1) % 2 ^ 32 })) 0 21

/-! ## Meanings -/

def execUncorrectableError (loc : ErrLoc) (s : State) := ok (doUncorrectableError loc s)
def execDdr5ChannelLost (ch : Fin 4) (s : State) := ok (doDdr5ChannelLost ch s)
def execBistComplete (place : ShadowPlace) (sparePass activePass : Bool) (s : State) := ok (doBistComplete place sparePass activePass s)
def execCoreSelfTestTimeout (r : SelfTestLate) (s : State) := ok (doCoreSelfTestTimeout r s)
def execPowerGood (tm : Instant) (s : State) := ok (doPowerGood tm s)
def execBootImageVerified (aOk bOk : Bool) (s : State) := ok (doBootImageVerified aOk bOk s)
def execSelfTestComplete (r : SelfTest) (s : State) := ok (doSelfTestComplete r s)
def execDdr5Trained (okMask : BitVec 4) (s : State) := ok (doDdr5Trained okMask s)
def execKeyStoreUnlock (checkOk : Bool) (s : State) := ok (doKeyStoreUnlock checkOk s)
def execConfigRestored (recordOk : Bool) (s : State) := ok (doConfigRestored recordOk s)
def execTenantImagesLoaded (bad : List (Fin 64)) (s : State) := ok (doTenantImagesLoaded bad s)
def execLoomStart (s : State) := ok (doLoomStart s)
def execPowerFailWarning (tm : Instant) (s : State) := ok (doPowerFailWarning tm s)
def execPowerFailReset (tm : Instant) (s : State) := ok (doPowerFailReset tm s)
def execRailFault (rail : Fin 16) (s : State) := ok (doRailFault rail s)
def execFaultRestart (tm : Instant) (s : State) := ok (doFaultRestart tm s)
def execThermalHold (tm : Instant) (s : State) := ok (doThermalHold tm s)
def execThermalRelease (s : State) := ok (doThermalRelease s)
def execRetireCore (p : Fin 72) (force : Bool) (s : State) := ok (doRetireCore p force s)
def execRetireHeddleUnit (u : Fin 17) (force : Bool) (s : State) := ok (doRetireHeddleUnit u force s)
def execShadowNow (place : ShadowTarget) (s : State) := ok (doShadowNow place s)
def execClearDead (s : State) := ok (doClearDead s)
def execHcReset (tm : Instant) (s : State) := ok (doHcReset tm s)
def execClearCause (s : State) := ok (doClearCause s)
def execSramScrub (corrected : Nat) (addr : Nat) (s : State) := ok (doSramScrub corrected addr s)
def execDdr5Patrol (retired : List Nat) (s : State) := ok (doDdr5Patrol retired s)
def execPantryScrub (corrected : List Nat) (s : State) := ok (doPantryScrub corrected s)
def execTelemetryRecord (r : TelemetryIn) (tm : Instant) (s : State) := ok (doTelemetryRecord r tm s)
def execStandbyPowerLoss (s : State) := ok (doStandbyPowerLoss s)
def execStandbyPowerUp (lidOpened lidOpen : Bool) (s : State) := ok (doStandbyPowerUp lidOpened lidOpen s)
def execTempWarn (sensor : Fin 24) (t16 : BitVec 16) (s : State) := ok (doTempWarn sensor t16 s)

end Sys2Proof.Machine
end

