-- ==== Sys2Proof/Machine/Registers.lean ====
section
/-!
DEFINITION. Reads and writes of the register windows (R10 to R12, R358 to R362): what a register shows, what a write to each
register does, and REGISTER_WRITE.
-/
namespace Sys2Proof.Machine

/-- The index of the element an offset lies at, in an array of `n` elements from `base`. -/
def seek (base stride n off : Nat) : Option Nat :=
  if base ≤ off ∧ (off - base) % stride = 0 ∧ (off - base) / stride < n then some ((off - base) / stride) else none

/-- The indices of an element of an array of arrays. -/
def seek2 (base stride n stride2 n2 off : Nat) : Option (Nat × Nat) :=
  let i := (off - base) / stride
  if base ≤ off ∧ i < n then (seek (base + stride * i) stride2 n2 off).map (fun j => (i, j)) else none

/-! ## Interrupts (R256, R257, R357) -/

/-- The IRQ registers of the PF blocks; each is followed by its IRQEN register. -/
def irqRegs : List Nat :=
  [Reg.hcIrq, Reg.timeIrq, Reg.swcIrq, Reg.colIrq, Reg.loomIrq, Reg.truIrq, Reg.cmtIrq, Reg.smaIrq, Reg.hifIrq, Reg.pluIrq,
   Reg.ksIrq, Reg.panIrq, Reg.logIrq, Reg.arcIrq, Reg.fioIrq] ++ (List.range 17).map Reg.hdlUIrq ++ (List.range 8).map Reg.arrCIrq ++
  (List.range 8).map Reg.cluIrq

/-- The vector a bit of an IRQ register fires. -/
def bitVec (irq bit : Nat) : Nat :=
  if irq = Reg.hifIrq then (if bit ≤ 1 then 19 else if bit = 2 ∨ bit = 3 ∨ bit = 8 then 20 else vecOf irq)
  else if 0x100000000 ≤ irq then min bit 4
  else vecOf irq

/-- GLB_IRQ_SUM: the PF vectors with a pending enabled interrupt. -/
def irqSum (s : State) : Word :=
  irqRegs.foldl (fun w irq => (List.range 32).foldl (fun w b =>
    if rb s irq b && rb s (irq + 4) b then w ||| oneBit (bitVec irq b) else w) w) 0

/-- A write of an IRQEN register: a vector fires when a bit that is set becomes enabled. -/
def writeIrqen (s : State) (off : Nat) (v : Word) : State :=
  let irq := off - 4
  let fresh := rd s irq &&& v &&& ~~~ (rd s off)
  let s := wr s off v
  let fn : Fin 64 := if 0x100000000 ≤ off then Fin.ofNat 64 ((off - 0x100000000) / 0x40000) else 0
  let vecs := ((List.range 32).filter (fun b => bitOf fresh b)).map (bitVec irq)
  vecs.eraseDups.foldl (fun s n => msix s fn n) s

/-! ## What a register shows (R11) -/

/-- The bits for which a test holds, as a word. -/
def bits (n : Nat) (f : Nat → Bool) : Word := ((List.range n).filter f).foldl (fun w i => w ||| oneBit i) 0

/-- A log record at its place in a cursor window: 0 outside LOG_FIRST to LOG_LAST (R318). -/
def cursorRec (s : State) (seq : Nat) : List Byte :=
  if (rd s Reg.logFirst).toNat ≤ seq ∧ seq ≤ (rd s Reg.logLast).toNat then
    match (s.rec'.sectors.flatMap (fun e => e.2.recs)).find? (fun r => r.seq == seq) with
    | some r => r.bytes
    | none => List.replicate 64 0
  else List.replicate 64 0

def cursorWord (s : State) (from' i : Nat) : Word := W (leNat (((cursorRec s (from' + i / 16)).drop (4 * (i % 16))).take 4))

/-- A mark of a sector header (R316). -/
def mark (b : Bool) : List Byte := toLe 4 (if b then 0 else 0xFFFFFFFF)

/-- The header of a log sector (R316): erased bytes read 0xFF. -/
def sectorHeader (s : State) (k : Nat) : List Byte :=
  let x := getSec s k
  let head := match x.header with
    | some (gen, seq) => toLe 4 0x5A3C96E1 ++ toLe 4 gen ++ toLe 4 k ++ toLe 4 seq
    | none => List.replicate 16 0xFF
  head ++ mark x.begun ++ mark (x.erased || (s.rec'.marked && !x.begun && !x.mixed)) ++ List.replicate 36 0xFF ++
    (if x.header.isSome then toLe 4 (crc32 head).toNat else List.replicate 4 0xFF)

/-- `n` bytes of log memory, within one 64-byte record or header (R316, R318). -/
def logBytes (s : State) (a n : Nat) : List Byte :=
  let k := a / 65536
  let i := a % 65536 / 64
  let x := getSec s k
  let b := if i = 0 then sectorHeader s k else match x.recs[i - 1]? with | some r => r.bytes | none => List.replicate 64 0xFF
  (b.drop (a % 64)).take n

def logWord (s : State) (a : Nat) : Word := W (leNat (logBytes s a 4))

/-- KS_S_INFO of a slot (R307). -/
def ksInfo (s : State) (i : Nat) : Nat :=
  let x := ksSlot s i
  let own := ownByte s Reg.ksOwn i
  let key := rf s Reg.ksOwnerkey 9 0 = i ∨ rf s Reg.ksOwnerkey 25 16 = i
  let a := x.active
  (match a with | some k => k.typ + k.use * 2 ^ 4 + b2n k.parent.isSome * 2 ^ 12 + k.depth * 2 ^ 17 + k.parent.getD 0 * 2 ^ 21 | none => 0)
    + own * 2 ^ 6 + b2n (i = 1 ∨ i = 2) * 2 ^ 13 + b2n (key ∧ i ≠ 0) * 2 ^ 14 + b2n x.shadow.isSome * 2 ^ 15 + b2n x.verified * 2 ^ 16

/-- ARR_K_STATUS of physical core p of cluster c (R210): role, position and tenant beside the bits kept in the register. -/
def coreStatus (s : State) (c : Fin 8) (p : Nat) : Word :=
  let l := servedBy s c p
  let own := match l with | some l => coreOwner s l | none => 0
  let role := if rb s (Reg.hcDeadCore ((9 * c + p) / 32)) ((9 * c + p) % 32) then 3 else if spareCore s c = p then 2
    else if l.isSome && own != 0 then 1 else 0
  let pos := match l with | some l => l.val % 8 | none => 0
  let lock := spareCore s c = p ∧ (getSpare s c).lockstep
  (rd s (Reg.arrKStatus c p) &&& 0xFF0800) ||| W (role + 4 * pos + 32 * own + 4096 * b2n lock)

/-- ARR_K_ENTRY: the entry address of the logical core that a physical core serves. -/
def coreEntry (s : State) (c : Fin 8) (p : Nat) : Word :=
  match servedBy s c p with
  | some l => match coreImage s l with | some im => im.entry | none => 0
  | none => 0

/-- CMT_T_CORES0 or 1: bit i stands for logical core `base` + i. -/
def coreMask (s : State) (t base : Nat) : Word := bits 32 (fun i => t != 0 && coreOwner s (Fin.ofNat 64 (base + i)) == t)

/-- PAN_WEAR_CNT and PAN_WEAR_INFO (R309, R310). -/
def wearCnt (s : State) : Word := W (min 0xFFFFFFFF (getPan s (rf s Reg.panWearAddr 25 0)).wear)
def wearInfo (s : State) : Word :=
  let off := rf s Reg.panWearAddr 25 0
  let rwp : Bool := match regAt off with | some f => f.acc == .rwp | none => false
  let w := getPan s off
  let n := if w.hour = opHours s then w.hourWrites else 0
  if rwp then W (min 65535 n + 65536 * min 255 w.remaps + b2n (w.hot && w.hour == opHours s) * 2 ^ 24) else oneBit 25

/-- HDL_U_STATUS: a logical unit in service reads Active while it is enabled (R184; log entry 41). -/
def heddleStatus (s : State) (u : Fin 17) : Word :=
  if u.val ≠ 16 ∧ unitRole s u = 0 ∧ rb s (Reg.hdlUCtrl u) 0 then setFld (rd s (Reg.hdlUStatus u)) 1 0 1 else rd s (Reg.hdlUStatus u)

/-- What a register of the windows below 0xB0_0000 shows, where it is not the stored word. -/
def viewLow (s : State) (off : Nat) : Option Word :=
  if off = Reg.glbIrqSum then some (irqSum s)
  else if off = Reg.timeHoldstat then some (holdStat s)
  else if off = Reg.loomStat then
    some ((rd s off &&& 0x117F) ||| W (512 * b2n (histOn s) + 1024 * b2n (rb s Reg.loomCtrl 9) + 2048 * b2n (pbState s ≠ 0)))
  else if off = Reg.truSStat then
    let x := getSlot s (slotIdx s)
    some (W (x.st + 4 * b2n (holding s (slotIdx s)) + 8 * b2n x.portMiss))
  else if off = Reg.truSRelSec then some (getSlot s (slotIdx s)).relSec
  else if off = Reg.truSRelNs then some (getSlot s (slotIdx s)).relNs
  else if off = Reg.truSMiss then some (W (min 255 (getSlot s (slotIdx s)).missed))
  else if off = Reg.truPStnum then some (W (getPub s (rf s Reg.truPIdx 9 0)).stNum)
  else if off = Reg.truPSqnum then some (W (getPub s (rf s Reg.truPIdx 9 0)).sqNum)
  else if off = Reg.truPStat then
    some (match (getPub s (rf s Reg.truPIdx 9 0)).hold with | some i => W (1 + 2 * i) | none => 0)
  else if off = Reg.cmtResvSum then some (W (resvSum s 0))
  else if off = Reg.cmtDopStat then
    let d := getDop s (dopIdx s)
    some (W (d.status + 16 * d.reason + 128 * b2n (s.cmt.copying = some (dopIdx s))))
  else match dopRegs.find? (fun e => e.1 == off) with
  | some (_, get, _) => some (get (getDop s (dopIdx s)))
  | none => match seek (Reg.swcCntirqSum 0) 4 5 off with
  | some i => some (bits 32 (fun j => 32 * i + j < 144 &&
      ((rd s (Reg.swcPCntirqLo (32 * i + j)) &&& rd s (Reg.swcPCntirqenLo (32 * i + j))) ≠ 0 ||
       (rd s (Reg.swcPCntirqHi (32 * i + j)) &&& rd s (Reg.swcPCntirqenHi (32 * i + j))) ≠ 0)))
  | none => match seek (Reg.swcPStatus 0) 0x1000 144 off with
  | some i => some (putBit (rd s off) 6 (pairMode s (pairOf (Fin.ofNat 144 i)) != 0))
  | none => match seek (Reg.loomAbsent 0) 4 16 off with
  | some i => some (bits 32 (fun j => presence s (Fin.ofNat 512 (32 * i + j)) == 1 || presence s (Fin.ofNat 512 (32 * i + j)) == 2))
  | none => match seek (Reg.loomAu 0) 4 16 off with
  | some i => some (bits 32 (fun j => presence s (Fin.ofNat 512 (32 * i + j)) != 0 && !rb s (Reg.loomWState (32 * i + j)) 2))
  | none => match seek2 (Reg.cmtTCmd 0) 0x40 64 4 16 off with
  | some (t, 9) => some (W (reservation s t))
  | some (t, 12) => some (coreMask s t 0)
  | some (t, 13) => some (coreMask s t 32)
  | _ => match seek2 (Reg.arrKStatus 0 0) 0x10000 8 0x40 9 off, seek2 (Reg.arrKEntry 0 0) 0x10000 8 0x40 9 off with
  | some (c, p), _ => some (coreStatus s (Fin.ofNat 8 c) p)
  | _, some (c, p) => some (coreEntry s (Fin.ofNat 8 c) p)
  | none, none => (List.finRange 17).findSome? (fun (u : Fin 17) =>
      if off = Reg.hdlUStatus u then some (heddleStatus s u)
      else if off = Reg.hdlUWmax u then some (W (wMax s u + 1024 * (deepestOf (unitTables s u)).getD 0))
      else if off = Reg.hdlUSmdata u then
        let a := rd s (Reg.hdlUSmaddr u)
        some (Tab.get 0 (getUnit s u).sm (smKey (fld a 6 0) (fld a 11 7) (fld a 17 12)))
      else none)

/-- What a register of the windows from 0xB0_0000 shows, where it is not the stored word. -/
def viewHigh (s : State) (off : Nat) : Option Word :=
  let ks := rf s Reg.ksSIdx 9 0
  if off = Reg.smaStatus then some (putBit (rd s off) 0 (scrubbing s))
  else if off = Reg.pluAckAge then some (match s.plu.acked with | some a => W (min 0xFFFFFFFF ((s.op - a) / usec)) | none => 0)
  else if off = Reg.pluSwapStat then
    some (setFld (rd s off) 13 0 (if swapsPlanned s then (nextSwapAt s - s.op) / (3600 * second) else 0))
  else if off = Reg.pluStatus then
    some (putBit (rd s off) 12 (match s.plu.netAt with | some t => decide (s.op ≤ t + leaseL s) | none => false))
  else if off = Reg.panStatus then
    some (putBit (rd s off) 16 (rf s off 9 0 != 0 && s.rec'.pan.any (fun e => decide (80000000 ≤ e.2.phys))))
  else if off = Reg.ksStatus then
    some (putBit (rd s off) 4 (match s.ks.armAt with | some a => decide (s.op < a + second) | none => false))
  else if off = Reg.ksSInfo then some (W (ksInfo s ks))
  else if off = Reg.ksSKeyid then some (match (ksSlot s ks).active with | some k => k.kid | none => 0)
  else if off = Reg.ksSCheck then some (match (ksSlot s ks).active with | some k => W (checkOf k) | none => 0)
  else if off = Reg.ksSShcheck then some (match (ksSlot s ks).shadow with | some k => W (checkOf k) | none => 0)
  else if off = Reg.ksSShkeyid then some (match (ksSlot s ks).shadow with | some k => k.kid | none => 0)
  else if off = Reg.panOptime then some (W (opHours s % 2 ^ 24))
  else if off = Reg.panOptimeMs then some (W (s.op % (3600 * second) / msec))
  else if off = Reg.panWearCnt then some (wearCnt s)
  else if off = Reg.panWearInfo then some (wearInfo s)
  else if off = Reg.fioBiState then some (bits 32 (fun i => biState s (Fin.ofNat 32 i)))
  else if off = Reg.fioBiRaw then some (bits 32 (fun i => (getIn s (Fin.ofNat 32 i)).raw))
  else match seek2 (Reg.cluLMode 0 0) 0x10000 8 4 1024 off with
  | some (c, k) => if k % 32 < 24 then none else some (loopRead s (Fin.ofNat 8 c) (Fin.ofNat 32 (k / 32)) (k % 32) false)
  | none => match seek (Reg.cluSticky 0) 0x10000 8 off with
  | some c => some (bits 32 (fun i => rf s (Reg.cluLStat c i) 5 0 != 0))
  | none => match seek (Reg.cluInjact 0) 0x10000 8 off with
  | some c => some (bits 32 (fun i => (getLoop s (Fin.ofNat 8 c) (Fin.ofNat 32 i)).com.inj.isSome))
  | none => match seek (Reg.smaDStatus 0) 0x10 4 off with
  | some ch => some (putBit (rd s off) 1 (atQuota true (roll true (cycleOf s) (getArb s (16 + ch))) 6))
  | none => match seek (Reg.hifVInfo 0) 4 64 off with
  | some v => some ((rd s off &&& 0xFFFF0000) ||| W (vfGen s (Fin.ofNat 64 v) + 256 * b2n (vfExists s (Fin.ofNat 64 v))
      + 512 * b2n (rb s (Reg.hifMbxInfo v) 24) + 1024 * b2n (rb s (Reg.hifMbxInfo v) 25)))
  | none => match seek (Reg.logCurWin 0) 4 256 off with
  | some i => some (cursorWord s (rd s Reg.logCurSeq).toNat i)
  | none => match seek (Reg.logRawWin 0) 4 16384 off with
  | some i => some (logWord s (rf s Reg.logRawSect 11 0 * 65536 + 4 * i))
  | none => none

/-- What a VF register shows, where it is not the stored word (R248, R249, R328). -/
def viewVf (s : State) (v : Fin 64) (off : Nat) : Option Word :=
  if off = Reg.vfId v then some (W (v + 256 * vfGen s v))
  else if off = Reg.vfState v then some (W (tState s v))
  else if off = Reg.vfSeq v then some (rd s Reg.cmtSeq)
  else if off = Reg.vfSeqtickLo v then some (rd s Reg.cmtLastLo)
  else if off = Reg.vfSeqtickHi v then some (rd s Reg.cmtLastHi)
  else if off = Reg.vfLogStatus v then some (rd s Reg.logStatus)
  else if off = Reg.vfLogFirst v then some (rd s Reg.logFirst)
  else if off = Reg.vfLogLast v then some (rd s Reg.logLast)
  else match seek (Reg.vfLogCurWin v 0) 4 256 off with
  | some i => some (cursorWord s (rd s (Reg.vfLogCurSeq v)).toNat i)
  | none => match seek (Reg.vfLogRawWin v 0) 4 256 off with
  | some i => some (logWord s (rf s (Reg.vfLogRawaddr v) 27 10 * 1024 + 4 * i))
  | none => match seek (Reg.vfId v + 0x1000) 4 128 off with
  | some i => some (rd s (Reg.hifMbxOut v i))
  | none => match seek (Reg.vfId v + 0x1200) 4 128 off with
  | some i => some (rd s (Reg.hifMbxIn v i))
  | none => none

/-- The windows that answer in Fault-halt (R342): GLB, HC and LOG. -/
def answers (s : State) (off : Nat) : Bool := hcSt s != 3 || off / 0x100000 == 0 || off / 0x100000 == 1 || off / 0x100000 == 17

/-- What a read of a register returns (R11, R360): 0 for a reserved offset, a write-only register, a VF that does not exist, and every
window but three in Fault-halt. -/
def readReg (s : State) (off : Nat) : Word :=
  match regAt off with
  | none => 0
  | some f =>
    if f.acc = .wo || !answers s off then 0
    else if 0x100000000 ≤ off then
      let v : Fin 64 := Fin.ofNat 64 ((off - 0x100000000) / 0x40000)
      if vfExists s v then (viewVf s v off).getD (rd s off) else 0
    else if off < 0xB00000 then (viewLow s off).getD (rd s off)
    else (viewHigh s off).getD (rd s off)

/-- A read of a register with its effect: CLU_CAP_RDDATA takes two samples and moves its pointer (R230, R361). -/
def readWord (s : State) (off : Nat) : Word × State :=
  match (List.range 16).find? (fun k => Reg.cluCapRddata (k / 2) (k % 2) == off) with
  | some k =>
    let s := if answers s off then doCapRead (Fin.ofNat 8 (k / 2)) (Fin.ofNat 2 k) s else s
    (readReg s off, s)
  | none => (readReg s off, s)

/-- A read request of `n` words (R361): word by word in ascending order; none, with no effect, where it crosses a 64-byte boundary. The
table of commands has no row for a host's read. -/
def readRequest (s : State) (off n : Nat) : Option (List Word) × State :=
  if off % 4 ≠ 0 ∨ 64 < off % 64 + 4 * n then (none, s)
  else
    let (l, s) := (List.range n).foldl (fun (acc : List Word × State) i =>
      let (w, s) := readWord acc.2 (off + 4 * i)
      (acc.1 ++ [w], s)) ([], s)
    (some l, s)

/-! ## What a write does: stored words (R11, R12) -/

/-- What clearing IRQ bits clears with them. -/
def clearedWith (s : State) (off : Nat) (v : Word) : State :=
  if off = Reg.timeIrq ∧ bitOf v 3 then wb s Reg.timeEdgeInfo 31 false
  else if off = Reg.fioIrq ∧ bitOf v 1 then wb s Reg.fioEdgeInfo 31 false
  else match seek (Reg.arrCIrq 0) 0x10000 8 off, (List.range 17).find? (fun u => Reg.hdlUIrq u == off) with
  | some c, _ => if bitOf v 4 then wf s (Reg.arrCShuttle c) 31 16 0 else s
  | none, some u =>
    let s := if bitOf v 2 then wb s (Reg.hdlUEvtInfo u) 31 false else s
    if bitOf v 4 then wb s (Reg.hdlUStatus u) 16 false else s
  | none, none => s

/-- A write to a register by its access code; fields the module maintains keep their bits. -/
def storeReg (s : State) (off : Nat) (v : Word) : State :=
  match regAt off with
  | none => s
  | some f =>
    let m := W f.mask
    let x := (rd s off &&& ~~~ m) ||| (v &&& m)
    match f.acc with
    | .rw => if irqRegs.contains (off - 4) || (0x100000000 ≤ off && (off - 4) % 0x40000 == 0x18) then writeIrqen s off x else wr s off x
    | .rwp => wrp s off x
    | .w1c => clearedWith (wr s off (rd s off &&& ~~~ (v &&& m))) off (v &&& m)
    | .w1s => wr s off (rd s off ||| (v &&& m))
    | _ => s

/-! ## What a write does: block by block -/

/-- Do something when a bit of the written word is 1. -/
def onBit (v : Word) (i : Nat) (f : State → State) (s : State) : State := if bitOf v i then f s else s

def writeTime (off : Nat) (v : Word) (s : State) : State :=
  if off = Reg.timeCtrl then doTimeCtrlWrite v s
  else if off = Reg.timePtpcfg then doTimePtpcfgWrite v s
  else if off = Reg.timeTickcfg then doTimeTickcfgWrite v s
  else if off = Reg.timePrio then doTimePrioWrite v s
  else if off = Reg.timePpsout then
    let s := storeReg s off v
    if bitOf v 0 then s else modTime s (fun t => { t with pps := false })
  else if off = Reg.timeLatch then doTimeLatch v s.now s
  else if off = Reg.timeSetGo then doTimeSetGo v s.now s
  else if off = Reg.timeEdgePop then doTimeEdgePop v s
  else storeReg s off v

/-- SWC_PCPMAP: classes above 4 are stored as 4. -/
def clipClasses (v : Word) : Word := (List.range 8).foldl (fun w p => setFld w (3 * p + 2) (3 * p) (min 4 (fld v (3 * p + 2) (3 * p)))) 0

def writeSwc (off : Nat) (v : Word) (s : State) : State :=
  if off = Reg.swcOvfCfg then doSwcOvfCfgWrite v s
  else if off = Reg.swcPcpmap then storeReg s off (clipClasses v)
  else if off = Reg.swcFdbCmd then
    onBit v 31 (fun s => match fld v 1 0 with | 0 => doFdbRead s | 1 => doFdbWriteStatic s | 2 => doFdbDelete s | _ => doFdbFlushLearned s) s
  else if off = Reg.swcVlanCtl then onBit v 31 doVlanRead (onBit v 30 doVlanWrite (wr s off (v &&& 0xC000000F)))
  else storeReg s off v

def writePort (off : Nat) (v : Word) (s : State) : State :=
  let n := (off - 0x400000) / 0x1000
  if n < 144 then
    let p : Fin 144 := Fin.ofNat 144 n
    if off = Reg.swcPCfg p then doSwcPCfgWrite p v s
    else if off = Reg.swcPMacsec p then doSwcPMacsecWrite p v s
    else if off = Reg.swcPFencectl p then onBit v 0 (doFenceRelease p) s
    else if off = Reg.swcPLatch p then doSwcPLatch p v s.now s
    else storeReg s off v
  else s

def writeCol (off : Nat) (v : Word) (s : State) : State :=
  if off = Reg.colMatchCmd then
    onBit v 31 (fun s => match fld v 1 0 with | 0 => doColMatchRead s | 1 => doColMatchWrite s | 2 => doColMatchInvalidate s | _ => matchRej s) s
  else match seek (Reg.colPairmode 0) 4 5 off with
  | some i => doColPairmodeWrite (Fin.ofNat 5 i) v s
  | none => storeReg s off v

def writeLoom (off : Nat) (v : Word) (s : State) : State :=
  if off = Reg.loomCtrl then doLoomCtrlWrite v s
  else if off = Reg.loomTransit then doLoomTransitWrite v s
  else if off = Reg.loomPbGo then onBit v 1 doPbStop (onBit v 0 doPbStart s)
  else if 0x610000 ≤ off then
    let w : Fin 512 := Fin.ofNat 512 ((off - 0x610000) / 0x40)
    if off = Reg.loomWCfg w then doLoomWCfgWrite w v s
    else match regAt off with
    | some ⟨_, _, .rw, m⟩ => warpRegWrite s w off (v &&& W m)
    | _ => s
  else storeReg s off v

def writeHdl (off : Nat) (v : Word) (s : State) : State :=
  let u : Fin 17 := if 0x7F8000 ≤ off then 16 else Fin.ofNat 17 ((off - 0x700000) / 0x10000)
  if off = Reg.hdlUCtrl u then doHdlUCtrlWrite u v s
  else if off = Reg.hdlUEvtPop u then onBit v 0 (doEvtPop u) s
  else if off = Reg.hdlUKload u then onBit v 31 (doKernelLoad u v) s
  else if off = Reg.hdlUSmdata u then doStateWordWrite u v s
  else match seek (Reg.hdlUWarp u 0) 4 32 off with
  | some j => doHdlBindingWrite u (Fin.ofNat 32 j) v s
  | none => match seek (Reg.hdlGMemb u 0) 0x20 8 off, seek (Reg.hdlGCfg u 0) 0x20 8 off, seek (Reg.hdlGVsel u 0) 0x20 8 off with
  | some g, _, _ => doGateWrite u (Fin.ofNat 8 g) .memb v s
  | _, some g, _ => doGateWrite u (Fin.ofNat 8 g) .cfg v s
  | _, _, some g => doGateVselWrite u (Fin.ofNat 8 g) v s
  | none, none, none => storeReg s off v

def writeTru (off : Nat) (v : Word) (s : State) : State :=
  if off = Reg.truCtrl then doTruCtrlWrite v s
  else if off = Reg.truRetx then doTruRetxWrite v s
  else if off = Reg.truSlotCmd then
    onBit v 31 (fun s => match fld v 1 0 with | 0 => doSlotRead s | 1 => doSlotWrite s | 2 => doSlotClear s | _ => truRej s) s
  else storeReg s off v

/-- CMT_T_CMD: an unknown code answers 5. -/
def tenantCmd (t : Fin 64) (v : Word) (s : State) : State :=
  match fld v 2 0 with
  | 1 => doStart t s | 2 => doStop t s | 3 => doEnterTest t s | 4 => doLeaveTest t s | 5 => doFence t s | 6 => doUnfence t s
  | _ => if t = 0 then s else answer s t 5

def writeCmt (off : Nat) (v : Word) (s : State) : State :=
  if off = Reg.cmtCfg then doCmtCfgWrite v s
  else if off = Reg.cmtDopGo then onBit v 1 doDopCancel (onBit v 0 doDopSubmit s)
  else match seek2 (Reg.cmtTCmd 0) 0x40 64 4 16 off with
  | some (t, 0) => onBit v 31 (tenantCmd (Fin.ofNat 64 t) v) s
  | some (t, 4) => doCmtTTolWrite (Fin.ofNat 64 t) v s
  | some (0, _) => s
  | _ => match dopRegs.find? (fun e => e.1 == off) with
    | some (_, _, set) => modDop s (dopIdx s) (set v)
    | none => storeReg s off v

def writeClu (off : Nat) (v : Word) (s : State) : State :=
  let c : Fin 8 := Fin.ofNat 8 ((off - 0xB00000) / 0x10000)
  if off = Reg.cluInjCmd c then onBit v 31 (doInjCmd c v) s
  else match seek (Reg.cluLMode c 0) 4 1024 off with
  | some k => doLoopWordWrite c (Fin.ofNat 32 (k / 32)) (Fin.ofNat 32 (k % 32)) v s
  | none => match seek (Reg.cluLOwn c 0) 4 32 off, seek (Reg.cluSgMemb c 0) 8 8 off with
  | some i, _ => doCluLOwnWrite c (Fin.ofNat 32 i) v s
  | _, some k => doCluSgMembWrite c (Fin.ofNat 8 k) v s
  | none, none => match seek (Reg.cluCapCtrl c 0) 0x40 2 off, seek (Reg.cluCapCmd c 0) 0x40 2 off with
  | some n, _ => doCluCapCtrlWrite c (Fin.ofNat 2 n) v s
  | _, some n => onBit v 1 (doCapStop c (Fin.ofNat 2 n)) (onBit v 0 (doCapArm c (Fin.ofNat 2 n)) s)
  | none, none => storeReg s off v

def writeSma (off : Nat) (v : Word) (s : State) : State :=
  match seek (Reg.smaBClr 0) 0x10 16 off, seek (Reg.smaDClr 0) 0x10 4 off, seek2 (Reg.smaPtSize 0 0) 0x40 64 8 8 off with
  | some b, _, _ => doSmaBClr (Fin.ofNat 16 b) v s
  | _, some ch, _ => doSmaDClr (Fin.ofNat 4 ch) v s
  | _, _, some (t, j) => doPartitionEntryWrite (Fin.ofNat 64 t) (Fin.ofNat 8 j) v s
  | none, none, none => storeReg s off v

/-- A write of a queue pair's registers: its configuration only while it is disabled (R253). -/
def writeQueue (f : Fin 64) (q : Fin 16) (off : Nat) (v : Word) (s : State) : State :=
  if off = qCtrl f q then doQueueEnable f q v s else if rb s (qCtrl f q) 0 then s else storeReg s off v

def writeHif (off : Nat) (v : Word) (s : State) : State :=
  if off = Reg.hifGrOpen then onBit v 31 (doGrantOpen v) s
  else if off = Reg.hifGrClose then onBit v 1 doGrantDiscard (onBit v 0 doGrantCommit s)
  else if off = Reg.hifTCmd then if bitOf v 31 && bitOf v 8 then doUnload (Fin.ofNat 64 (fld v 5 0)) s else s
  else match seek (Reg.hifOwnGpub 0) 4 256 off, seek (Reg.hifOwnSpub 0) 4 32 off, seek (Reg.hifOwnCore 0) 4 16 off with
  | some i, _, _ => doOwnershipWrite .gpub (Fin.ofNat 256 i) v s
  | _, some i, _ => doOwnershipWrite .spub (Fin.ofNat 256 i) v s
  | _, _, some i => doOwnershipWrite .core (Fin.ofNat 256 i) v s
  | none, none, none => match seek2 (Reg.hifQSqbLo 0) 0x20 16 4 8 off, seek (Reg.hifDbCqHead 0) 8 16 off with
  | some (q, _), _ => writeQueue 0 (Fin.ofNat 16 q) off v s
  | _, some q => doDbCqHead 0 (Fin.ofNat 16 q) (fld v 11 0) s
  | none, none => match seek (Reg.hifMbxDb 0) 0x800 64 off with
  | some f => onBit v 1 (doMbxSend (Fin.ofNat 64 f)) (onBit v 0 (doMbxAck (Fin.ofNat 64 f)) s)
  | none => storeReg s off v

/-- PLU_CMD (R277, R284, R287): an unknown code answers 4. -/
def pairCmd (v : Word) (s : State) : State :=
  match fld v 2 0 with
  | 1 => doPairSwap s | 2 => doPairFence s | 3 => doPairUnfence s.now s | 4 => doSolo s.now s | 5 => doLeaveSolo s
  | _ => pluAnswer s 4

def writePlu (off : Nat) (v : Word) (s : State) : State :=
  if off = Reg.pluCmd then onBit v 31 (pairCmd v) s
  else if off = Reg.pluLease then doPluLeaseWrite v s
  else if off = Reg.pluEpoch then doPluEpochWrite v s
  else if off = Reg.pluTClass0 then doPluTClassWrite 0 v s
  else if off = Reg.pluTClass1 then doPluTClassWrite 1 v s
  else if off = Reg.pluCkpt then if 8 ≤ fld v 10 0 ∧ fld v 10 0 ≤ 1024 then storeReg s off v else s
  else if off = Reg.pluSwap then if fld v 13 0 ≤ 8760 then storeReg s off v else s
  else storeReg s off v

/-- KS_CMD (R300): code [3:0], slot [13:4]; code 0 is unknown. -/
def keyCmd (v : Word) (s : State) : State :=
  let slot : Fin 1024 := Fin.ofNat 1024 (fld v 13 4)
  match fld v 3 0 with
  | 1 => doKsGen slot s | 2 => doKsUnwrap slot s | 3 => doKsPubimp slot s | 4 => doKsDerive slot s | 5 => doKsSwap slot s
  | 6 => doKsDiscard slot s | 7 => doKsErase slot s | 8 => doKsReadpub slot s | 9 => doKsSign slot s | 10 => doKsVerify slot s
  | 11 => doKsHmac slot s | 12 => doKsHmacv slot s | 13 => doKsOwner slot s | 14 => doProvArm s.now s | 15 => doProvConfirm s.now s
  | _ => ksRun s false (fun s => ksNo s 11)

def writeKs (off : Nat) (v : Word) (s : State) : State :=
  if off = Reg.ksCmd then onBit v 31 (keyCmd v) s
  else if off = Reg.ksBCmd then
    onBit v 31 (fun s => match fld v 1 0 with | 0 => doBindingRead s | 1 => doBindingWrite s | 2 => doBindingClear s | _ => s) s
  else match seek (Reg.ksOwn 0) 4 256 off with
  | some i => doKsOwnWrite (Fin.ofNat 256 i) v s
  | none => storeReg s off v

/-- LOG_CMD or VF_LOG_CMD of a function: a confirm takes an arm of an earlier write (R320). -/
def logCmd (f : Fin 64) (v : Word) (s : State) : State :=
  onBit v 1 (doClearArm f s.now) (onBit v 2 (doClearConfirm f s.now) (onBit v 0 (doLogFlush f) s))

def writeLog (off : Nat) (v : Word) (s : State) : State :=
  if off = Reg.logCmd then logCmd 0 v s
  else if off = Reg.logFreeze then doLogFreezeWrite 0 v s.now s
  else if off = Reg.logCurAdv then onBit v 0 (doLogCurAdv 0) s
  else storeReg s off v

def writeArc (off : Nat) (v : Word) (s : State) : State :=
  if off = Reg.arcXferCmd then onBit v 0 (doArchiveTransfer v) s
  else if off = Reg.arcFmt then onBit v 31 (fun s => if bitOf v 2 then doFormatAll s else doFormatDrive (Fin.ofNat 4 (fld v 1 0)) s) s
  else storeReg s off v

/-- FIO_BI_CFG fields in range (R340). -/
def biCfgOk (v : Word) : Bool := fld v 6 2 ≤ 20 && (fld v 10 7 == 0 || (1 ≤ fld v 18 11 && 1 ≤ fld v 26 19))

def writeFio (off : Nat) (v : Word) (s : State) : State :=
  if off = Reg.fioEdgePop then onBit v 0 doFioEdgePop s
  else match seek (Reg.fioBiCfg 0) 4 32 off, seek (Reg.fioBcOwn 0) 4 4 off, seek (Reg.fioBiGrant 0) 4 64 off with
  | some _, _, _ => if biCfgOk v then withInputs (fun s => storeReg s off v) s else raise s Reg.fioIrq 9
  | _, some i, _ => doBcOwnWrite (Fin.ofNat 4 i) v s
  | _, _, some t => doFioBiGrantWrite (Fin.ofNat 64 t) v s
  | none, none, none => match seek (Reg.fioBcStatus 0 + 8) 0x10 16 off with
  | some k => onBit v 0 (doClrLatch (Fin.ofNat 16 k)) s
  | none => if off = Reg.fioCtrl then evalAll (withInputs (fun s => storeReg s off v) s)
    else if (seek (Reg.fioBcCfg 0) 4 16 off).isSome then evalAll (storeReg s off v) else storeReg s off v

/-- HC_CMD (R356): units 0 to 71 name physical cores, 72 to 88 Heddle units 0 to 16; an unknown code or unit answers 3. -/
def healthCmd (v : Word) (s : State) : State :=
  let unit := fld v 14 8
  let force := bitOf v 16
  let bad := wr s Reg.hcCmdRes 3
  match fld v 3 0 with
  | 1 => if unit < 72 then doRetireCore (Fin.ofNat 72 unit) force s else bad
  | 2 => if unit < 17 then doRetireHeddleUnit (Fin.ofNat 17 unit) force s else bad
  | 3 => if unit < 72 then doShadowNow (.core (Fin.ofNat 72 unit)) s
    else if unit < 89 then doShadowNow (.heddle (Fin.ofNat 17 (unit - 72))) s else bad
  | 4 => doClearDead s
  | 5 => doHcReset s.now s
  | 6 => doClearCause s
  | _ => bad

def writeHc (off : Nat) (v : Word) (s : State) : State :=
  if off = Reg.hcCmd then onBit v 31 (healthCmd v) s else storeReg s off v

/-- One 32-bit write to the register windows of PF BAR0 (R358, R361): a write in Fault-halt reaches only GLB, HC and LOG. -/
def pfWrite (s : State) (off : Nat) (v : Word) : State :=
  if (regAt off).isNone || !answers s off then s
  else match off / 0x100000 with
  | 1 => writeHc off v s
  | 2 => writeTime off v s
  | 3 => writeSwc off v s
  | 4 => writePort off v s
  | 5 => writeCol off v s
  | 6 => writeLoom off v s
  | 7 => writeHdl off v s
  | 8 => writeTru off v s
  | 10 => writeCmt off v s
  | 11 => writeClu off v s
  | 12 => writeSma off v s
  | 13 => writeHif off v s
  | 14 => writePlu off v s
  | 15 => writeKs off v s
  | 17 => writeLog off v s
  | 18 => writeArc off v s
  | 19 => writeFio off v s
  | _ => storeReg s off v

/-- One 32-bit write to the VF BAR0 of an existing VF (R248, R251): a frozen outbound buffer, the committed-image window and undefined
offsets refuse it. -/
def vfWrite (s : State) (v : Fin 64) (a : Nat) (x : Word) : State :=
  let off := Reg.vfId v + a
  if 0x1000 ≤ a ∧ a < 0x1200 then
    if rb s (Reg.vfMbStat v) 0 then violation s v else wr s (Reg.hifMbxOut v ((a - 0x1000) / 4)) x
  else if 0x1200 ≤ a ∧ a < 0x1400 then s
  else if (regAt off).isNone ∨ 0x40000 ≤ a then violation s v
  else if off = Reg.dbMbSend v then onBit x 0 (doDbMbSend v) s
  else if off = Reg.dbMbAck v then onBit x 0 (doDbMbAck v) s
  else if off = Reg.vfLogCmd v then logCmd v x s
  else if off = Reg.vfLogFreeze v then doLogFreezeWrite v x s.now s
  else if off = Reg.vfLogCurAdv v then onBit x 0 (doLogCurAdv v) s
  else match seek2 (Reg.vfQSqbLo v 0) 0x20 16 4 8 off, seek (Reg.dbCqHead v 0) 8 16 off with
  | some (q, _), _ => writeQueue v (Fin.ofNat 16 q) off x s
  | _, some q => doDbCqHead v (Fin.ofNat 16 q) (fld x 11 0) s
  | none, none => storeReg s off x

/-- One word at its place: a word whose byte enables are not all set is discarded (R361). -/
def writeWord (who : Writer) (s : State) (off : Nat) (w : BusWord) : State :=
  if w.be ≠ 0xF then s
  else match who with
  | .fn f => if f = 0 then pfWrite s off w.data else if vfExists s f ∧ hcSt s ≠ 3 then vfWrite s f off w.data else s
  | .image => pfWrite s off w.data
  | .bus => s

/-- REGISTER_WRITE (R361): a request of up to 64 bytes, word by word in ascending order; one that crosses a 64-byte boundary has no
effect. The management bus writes no register (R365); an entry of a submission queue reaches the module with DB_SQ_TAIL's own
command. -/
def doRegisterWrite (who : Writer) (off : Nat) (ws : List BusWord) (s : State) : State :=
  if off % 4 ≠ 0 ∨ 64 < off % 64 + 4 * ws.length then s
  else (ws.zipIdx).foldl (fun s e => writeWord who s (off + 4 * e.2) e.1) s

/-- A byte of the committed-image window of a VF: none where the tenant holds no read permission on it (R250). -/
def windowByte (s : State) (v : Fin 64) (i : Nat) : Option Byte :=
  let a := rf s (Reg.vfCiwBase v) 24 12 * 4096 + i
  if i < 196608 ∧ inPartition s v a 1 false then some (smPeek s a) else none

/-- A read request of `n` bytes in the committed-image window of an existing VF (R248, R250): its bytes, 0 for those the tenant may not
read; a request that holds such a byte breaks the VF's bounds (R262) and counts once in VF_CIW_OOB. The table of commands has no
row for a host's read. -/
def windowRead (s : State) (v : Fin 64) (i n : Nat) : List Byte × State :=
  if !vfExists s v then (List.replicate n 0, s) else
  let bs := (List.range n).map (fun k => windowByte s v (i + k))
  let s := if bs.all (·.isSome) then s else violation (bump s (Reg.vfCiwOob v)) v
  (bs.map (·.getD 0), if bs.any (·.isSome) then askBanks s 11 (linesOf (rf s (Reg.vfCiwBase v) 24 12 * 4096 + i) n) else s)

/-- A read request of `n` bytes through the State Memory aperture (R206, R207). -/
def apertureRead (s : State) (off n : Nat) : List Byte × State := (smRead s off n, askBanks s 11 (linesOf off n))

def execRegisterWrite (who : Writer) (off : Nat) (ws : List BusWord) (s : State) := ok (doRegisterWrite who off ws s)

end Sys2Proof.Machine
end

