-- ==== Sys2Proof/Machine/Bus.lean ====
section
/-!
DEFINITION. The management bus (R362 to R367) and the lanes of the pair link (R271, R286).
-/
namespace Sys2Proof.Machine

/-! ## Transactions (R364, R365) -/

/-- One bit of the SMBus CRC-8, polynomial x⁸ + x² + x + 1. -/
def pecStep (c : Byte) : Byte := if c.getLsbD 7 then (c <<< 1) ^^^ 7 else c <<< 1
/-- The packet error code of a transaction's bytes. -/
def pec (l : List Byte) : Byte :=
  l.foldl (fun c b => pecStep (pecStep (pecStep (pecStep (pecStep (pecStep (pecStep (pecStep (c ^^^ b))))))))) 0

/-- The module's 7-bit address with the read or write bit. -/
def busAddr (read : Bool) : Byte := BitVec.ofNat 8 ((0x58 + Config.geoAddr % 8) * 2 + b2n read)

/-- The commands of R365. -/
def busCodes : List Byte := [0x01, 0x02, 0x03, 0x10, 0x11, 0x12, 0x20, 0x21, 0x22]

/-- What a read command answers: status, length, data and the packet error code over every octet of the transaction. -/
def busAnswer (s : State) (b : BusCmd) (status : Nat) (data : List Byte) : State :=
  let sent := [BitVec.ofNat 8 status, BitVec.ofNat 8 data.length] ++ data
  emit s (.bus (sent ++ [pec ([busAddr false, b.code] ++ b.data ++ [busAddr true] ++ sent)]))

/-- A read command: its length octet is 0; the bus is served on standby power. -/
def busRead (s : State) (b : BusCmd) (available : Bool) (data : List Byte) : State :=
  if !s.hc.standby then s
  else if !busCodes.contains b.code then busAnswer s b 1 []
  else if b.data ≠ [0] then busAnswer s b 2 []
  else if !available then busAnswer s b 4 []
  else busAnswer s b 0 data

def busStatus (s : State) (r : Nat) : State := modHc s (fun h => { h with busStatus := r })

/-- A write command of `n` payload octets: `work` is run on a well-formed one and its status kept for STATUS_READ. -/
def busWrite (s : State) (b : BusCmd) (n : Nat) (available : Bool) (work : List Byte → State → Nat × State) : State :=
  if !s.hc.standby then s
  else if pec ([busAddr false, b.code] ++ b.data) ≠ b.pec then busStatus s 3
  else if !busCodes.contains b.code then busStatus s 1
  else if b.data.length ≠ n + 1 ∨ (b.data.headD 0).toNat ≠ n then busStatus s 2
  else if !available then busStatus s 4
  else
    let (r, s) := work (b.data.drop 1) s
    busStatus s r

/-! ## Reads (R365, R367) -/

def words (s : State) (l : List Nat) : List Byte := l.flatMap (fun off => toLe 4 (rd s off).toNat)

def doInventory (b : BusCmd) (s : State) : State := busRead s b true (words s ((List.range 8).map (4 * ·)))
def doAsset (b : BusCmd) (s : State) : State := busRead s b true (words s ((List.range 8).map Reg.glbAsset))

/-- The highest of the die sensors (R354). -/
def dieTemp (s : State) : Word :=
  (List.range 13).foldl (fun (w : Word) i =>
    let x := rd s (Reg.hcTemp (3 + i))
    if (w.setWidth 16).toInt < (x.setWidth 16).toInt then x else w) (rd s (Reg.hcTemp 2))

/-- HEALTH: on standby power alone only HC_STATE and HC_RESET_CAUSE are not 0. -/
def doHealth (b : BusCmd) (s : State) : State :=
  let head := words s [Reg.hcState, Reg.hcResetCause]
  let rest := toLe 4 (rd s Reg.hcFault).toNat ++ toLe 4 (opHours s % 2 ^ 24) ++ toLe 4 (rd s Reg.panPwrcyc).toNat
    ++ toLe 2 (rd s (Reg.hcTemp 0)).toNat ++ toLe 2 (dieTemp s).toNat ++ toLe 2 ((viewHigh s Reg.pluStatus).getD 0).toNat
  busRead s b true (head ++ (if s.hc.mainOn then rest else List.replicate 18 0))

/-- The log can be read (R367): main power is good and the log has finished R321, or the module is in Fault-halt or in the power-fail
sequence. -/
def logServed (s : State) : Bool :=
  s.hc.mainOn && (warned s || hcSt s == 3 || (decide (1 ≤ s.hc.stage) && !s.rec'.recovering))

def doLogInfo (b : BusCmd) (s : State) : State :=
  busRead s b (logServed s) (words s [Reg.logGen, Reg.logFirst, Reg.logLast, Reg.logStatus])

/-- LOG_SEL: a byte offset that is not a multiple of 32 is refused. -/
def doLogSel (b : BusCmd) (s : State) : State :=
  busWrite s b 4 (logServed s) (fun l s =>
    let v := W (leNat l)
    if fld v 31 16 % 32 ≠ 0 then (6, s)
    else (0, modHc s (fun h => { h with busSector := fld v 11 0, busOffset := fld v 31 16 })))

/-- LOG_READ: 32 octets at the selector, which advances and carries into the next sector. -/
def doLogRead (b : BusCmd) (s : State) : State :=
  let a := s.hc.busSector * 65536 + s.hc.busOffset
  let s' := busRead s b (logServed s) (logBytes s a 32)
  if s.hc.standby && busCodes.contains b.code && b.data == [0] && logServed s then
    let n := (a + 32) % (4096 * 65536)
    modHc s' (fun h => { h with busSector := n / 65536, busOffset := n % 65536 })
  else s'

def doPwrState (b : BusCmd) (s : State) : State :=
  busRead s b true (toLe 4 (b2n s.hc.standby + 2 * b2n s.hc.mainGood + 4 * b2n s.hc.mainOn + 8 * b2n (hcSt s == 2) + 16 * hcSt s))

/-- STATUS_READ: a read of the address alone returns the status of the last write command. -/
def doStatusRead (s : State) : State :=
  if !s.hc.standby then s
  else
    let sent : List Byte := [BitVec.ofNat 8 s.hc.busStatus, 0]
    emit s (.bus (sent ++ [pec (busAddr true :: sent)]))

/-- BUS_TIMEOUT: the transaction in progress is discarded; none has changed anything. -/
def doBusTimeout (s : State) : State := s

/-! ## Power commands (R366) -/

/-- PWR_ARM: a code it does not list is refused. -/
def doPwrArm (b : BusCmd) (tm : Instant) (s : State) : State :=
  busWrite (toInstant s tm) b 1 true (fun l s =>
    let k := (l.headD 0).toNat
    if 1 ≤ k ∧ k ≤ 3 then (0, modHc s (fun h => { h with busArm := some (k, s.op) })) else (6, s))

/-- PWR_CONFIRM: within 1 s of the arm of the same code. -/
def confirm (s : State) (b : BusCmd) (tm : Instant) (code : Nat) (work : State → Nat × State) : State :=
  busWrite (toInstant s tm) b 1 true (fun l s =>
    match s.hc.busArm with
    | some (k, t) =>
      if k = code ∧ (l.headD 0).toNat = code ∧ s.op ≤ t + second then work (modHc s (fun h => { h with busArm := none })) else (5, s)
    | none => (5, s))

/-- Shutdown: the power-fail sequence, then the main domain held off; a sequence already running ends so. In Fault-halt the module fault
is the recorded cause (R366). -/
def shutdown (s : State) : Nat × State :=
  if !s.hc.mainOn then (0, modHc s (fun h => { h with holdOff := true }))
  else if failing s then
    if hcSt s = 4 ∧ s.hc.ending = 0 then (0, modHc s (fun h => { h with holdOff := true, mainOn := false }))
    else (0, modHc (hcSet s 2) (fun h => { h with ending := if h.ending = 3 then 3 else 1 }))
  else (0, powerFail s (if hcSt s = 3 then 3 else 1))

def doPwrShutdown (b : BusCmd) (tm : Instant) (s : State) : State := confirm s b tm 1 shutdown

def doPwrPowerOn (b : BusCmd) (tm : Instant) (s : State) : State :=
  confirm s b tm 2 (fun s =>
    if !s.hc.mainGood || s.hc.mainOn then (6, s)
    else (0, doPowerGood s.now (modHc s (fun h => { h with holdOff := false }))))

/-- Reset: as HC_CMD reset; there is none to run while the main domain is off. -/
def doPwrReset (b : BusCmd) (tm : Instant) (s : State) : State :=
  confirm s b tm 3 (fun s => if s.hc.mainOn then (0, doHcReset s.now s) else (6, s))

/-! ## Pair link lanes (R271, R286) -/

def doPairLinkLaneDown (i : Fin 4) (s : State) : State :=
  let s := wb s Reg.pluStatus (8 + i) false
  if lanesUp s = 0 then linkLost s else s
def doPairLinkLaneUp (i : Fin 4) (s : State) : State := askOut (wb s Reg.pluStatus (8 + i) true)

def execInventory (b : BusCmd) (s : State) := ok (doInventory b s)
def execAsset (b : BusCmd) (s : State) := ok (doAsset b s)
def execHealth (b : BusCmd) (s : State) := ok (doHealth b s)
def execLogInfo (b : BusCmd) (s : State) := ok (doLogInfo b s)
def execLogSel (b : BusCmd) (s : State) := ok (doLogSel b s)
def execLogRead (b : BusCmd) (s : State) := ok (doLogRead b s)
def execPwrState (b : BusCmd) (s : State) := ok (doPwrState b s)
def execPwrArm (b : BusCmd) (tm : Instant) (s : State) := ok (doPwrArm b tm s)
def execPwrShutdown (b : BusCmd) (tm : Instant) (s : State) := ok (doPwrShutdown b tm s)
def execPwrPowerOn (b : BusCmd) (tm : Instant) (s : State) := ok (doPwrPowerOn b tm s)
def execPwrReset (b : BusCmd) (tm : Instant) (s : State) := ok (doPwrReset b tm s)
def execStatusRead (s : State) := ok (doStatusRead s)
def execBusTimeout (s : State) := ok (doBusTimeout s)
def execPairLinkLaneDown (i : Fin 4) (s : State) := ok (doPairLinkLaneDown i s)
def execPairLinkLaneUp (i : Fin 4) (s : State) := ok (doPairLinkLaneUp i s)

end Sys2Proof.Machine
end

