-- ==== Sys2Proof/Machine/Control.lean ====
section
/-!
DEFINITION. Wormin control flow (op 0x40 to 0x43; R147): a taken transfer costs two cycles; its target is checked when it is
fetched.
-/
namespace Sys2Proof.Machine

/-- Transfer to a target; `link` writes g31 with the address after the instruction. -/
def jump (l : Fin 64) (t0 : Nat) (target : Word) (link : Bool) (c : Core) (s : State) : State :=
  modCore (retire s l t0 2 1 false (if link then Wr.reg 31 (c.pc + 4) else Wr.none)) l (fun k => { k with pc := target })

/-- BR and CALL: a word offset from pc; d must be 0. -/
def branch (l : Fin 64) (f : FmtU) (link : Bool) (s : State) : State :=
  runCore l (f.d == 0) f.pr [] none s (fun t0 c s => jump l t0 (c.pc + sx f.imm * 4) link c s)

/-- JR and CALLR: d must be 0; a target whose bits [1:0] are not 0 is a misaligned access. -/
def jumpReg (l : Fin 64) (f : FmtI) (link : Bool) (s : State) : State :=
  runCore l (f.d == 0) f.pr [f.s1.toNat] none s (fun t0 c s =>
    let t := c.ctx.rg f.s1.toNat + sx f.imm
    if t.toNat % 4 ≠ 0 then trap s l 2 t else jump l t0 t link c s)

def execBr (l : Fin 64) (f : FmtU) (s : State) := ok (branch l f false s)
def execCall (l : Fin 64) (f : FmtU) (s : State) := ok (branch l f true s)
def execJr (l : Fin 64) (f : FmtI) (s : State) := ok (jumpReg l f false s)
def execCallr (l : Fin 64) (f : FmtI) (s : State) := ok (jumpReg l f true s)

end Sys2Proof.Machine
end

