-- ==== Sys2Proof/Machine/Dsp.lean ====
section
/-!
DEFINITION. Wormin fixed-point and DSP instructions (op 0x10 to 0x1F; R122 to R124, R136, R137, R139).
-/
namespace Sys2Proof.Machine

/-! ## Accumulator operations (op 0x10) -/

def execMacq (x : Who) (f : FmtX) (s : State) :=
  ok (runAlu x (opX f true 2 none true true (fun c => q15 (c.rg f.s1.toNat) * q15 (c.rg f.s2.toNat))) s)
def execMacq31 (x : Who) (f : FmtX) (s : State) :=
  ok (runAlu x (opX f true 3 none true true (fun c => rne (q31 (c.rg f.s1.toNat) * q31 (c.rg f.s2.toNat)) 32)) s)
def execAccq15 (x : Who) (f : FmtX) (s : State) :=
  ok (runAlu x (opX f false 2 none true true (fun c => q15 (c.rg f.s1.toNat) * 2 ^ 15)) s)
def execAccq31 (x : Who) (f : FmtX) (s : State) :=
  ok (runAlu x (opX f false 2 none true true (fun c => rne (q31 (c.rg f.s1.toNat)) 1)) s)
def execMagsq (x : Who) (f : FmtX) (s : State) :=
  ok (runAlu x (opX f true 2 none true true (fun c =>
    q15 (c.rg f.s1.toNat) * q15 (c.rg f.s1.toNat) + q15 (c.rg f.s2.toNat) * q15 (c.rg f.s2.toNat))) s)

/-- ASHR: a shift above 39 gives 0 or −1 by sign. -/
def ashr (a : Int) (n : Nat) : Int := if 39 < n then (if a < 0 then -1 else 0) else rne a n
def execAshr (x : Who) (f : FmtX) (s : State) :=
  ok (runAlu x (opX f false 2 (some 4) true true (fun c => ashr (c.ra f.acc.toNat) ((c.rg f.s1.toNat).toNat % 64))) s)
/-- AMOV: s1 names an accumulator, 0 to 3, or 0 to 1 in a kernel. -/
def execAmov (x : Who) (f : FmtX) (s : State) :=
  ok (runAlu x (opX f false 2 (some (f.s1.toNat % 4)) (f.s1.toNat < 4) (f.s1.toNat < 2) (fun c => c.ra f.s1.toNat)) s)

/-- SDFT (R139): acc 0 or 2, only 0 in a kernel; mode 0. No chaining on either side. -/
def execSdft (x : Who) (f : FmtX) (s : State) :=
  let k := f.acc.toNat
  ok (runAlu x
    { legal := (k == 0 || k == 2) && f.mode == 0, hed := low [f.s1, f.s2] && k == 0, pr := f.pr,
      srcs := [f.s1.toNat, f.s2.toNat, 32 + k, 33 + k], chained := none, lat := 4, block := false, chainW := false,
      work := fun c =>
        let w := c.rg f.s2.toNat
        let co := q15 w
        let si := q15 (w >>> 16)
        let re := c.ra k + (c.rg f.s1.toNat).toInt * 2 ^ 15
        let im := c.ra (k + 1)
        let r := sata (rne (re * co - im * si) 15)
        let i := sata (rne (re * si + im * co) 15)
        ⟨[], [(k, ai r.1), (k + 1, ai i.1)], [], r.2 ||| i.2⟩ } s)

/-! ## Q15 and Q31 register operations (op 0x12) -/

/-- A saturated fixed-point result: Q15 is held sign-extended. -/
def fx (r : Int × Word) : Word × Word := (wi r.1, r.2)

def execMulq (x : Who) (f : FmtA) (s : State) := ok (runAlu x (opA f 2 (fun a b => fx (satq15 (rne (q15 a * q15 b) 15)))) s)
def execAddq (x : Who) (f : FmtA) (s : State) := ok (runAlu x (opA f 1 (fun a b => fx (satq15 (q15 a + q15 b)))) s)
def execSubq (x : Who) (f : FmtA) (s : State) := ok (runAlu x (opA f 1 (fun a b => fx (satq15 (q15 a - q15 b)))) s)
def execNegq (x : Who) (f : FmtA) (s : State) := ok (runAlu x (opA1 f 1 (fun a => fx (satq15 (-(q15 a))))) s)
def execAbsq (x : Who) (f : FmtA) (s : State) := ok (runAlu x (opA1 f 1 (fun a => fx (satq15 (q15 a).natAbs))) s)
def execAtan2 (x : Who) (f : FmtA) (s : State) := ok (runAlu x (opA f 6 (fun a b => (atan2 (q15 a) (q15 b), 0))) s)
def execMulq31 (x : Who) (f : FmtA) (s : State) := ok (runAlu x (opA f 3 (fun a b => fx (satq31 (rne (q31 a * q31 b) 31)))) s)
def execAddq31 (x : Who) (f : FmtA) (s : State) := ok (runAlu x (opA f 1 (fun a b => fx (satq31 (q31 a + q31 b)))) s)
def execSubq31 (x : Who) (f : FmtA) (s : State) := ok (runAlu x (opA f 1 (fun a b => fx (satq31 (q31 a - q31 b)))) s)
def execNegq31 (x : Who) (f : FmtA) (s : State) := ok (runAlu x (opA1 f 1 (fun a => fx (satq31 (-(q31 a))))) s)
def execAbsq31 (x : Who) (f : FmtA) (s : State) := ok (runAlu x (opA1 f 1 (fun a => fx (satq31 (q31 a).natAbs))) s)
def execQ31toq15 (x : Who) (f : FmtA) (s : State) := ok (runAlu x (opA1 f 1 (fun a => fx (satq15 (rne (q31 a) 16)))) s)

/-! ## Accumulator narrowing (op 0x13) -/

/-- s1 names an accumulator. -/
def opN (f : FmtA) (fn : Int → Int × Word) : AluOp :=
  { legal := f.s1.toNat < 4 && f.s2 == 0, hed := low [f.d] && f.s1.toNat < 2, pr := f.pr, srcs := [32 + f.s1.toNat], chained := none,
    lat := 2, block := false, chainW := false,
    work := fun c => let r := fx (fn (c.ra f.s1.toNat)); Wr.reg f.d.toNat r.1 r.2 }
def execRndq15 (x : Who) (f : FmtA) (s : State) := ok (runAlu x (opN f (fun a => satq15 (rne a 15))) s)
def execRndq31 (x : Who) (f : FmtA) (s : State) := ok (runAlu x (opN f (fun a => satq31 (a * 2))) s)

end Sys2Proof.Machine
end

