-- ==== Sys2Proof/Machine/FpOps.lean ====
section
/-!
DEFINITION. Wormin FP32 instructions (op 0x20 to 0x2F; R125, R140), on tick cores only.
-/
namespace Sys2Proof.Machine

def execFadd (l : Fin 64) (f : FmtA) (s : State) := ok (runFp l (opA f 3 fadd) s)
def execFsub (l : Fin 64) (f : FmtA) (s : State) := ok (runFp l (opA f 3 fsub) s)
def execFmul (l : Fin 64) (f : FmtA) (s : State) := ok (runFp l (opA f 3 fmul) s)
def execFdiv (l : Fin 64) (f : FmtA) (s : State) := ok (runFp l { opA f 12 fdiv with block := true } s)
def execFsqrt (l : Fin 64) (f : FmtA) (s : State) := ok (runFp l { opA1 f 14 fsqrt with block := true } s)
def execFmin (l : Fin 64) (f : FmtA) (s : State) := ok (runFp l (opA f 1 (fminmax false)) s)
def execFmax (l : Fin 64) (f : FmtA) (s : State) := ok (runFp l (opA f 1 (fminmax true)) s)
def execFneg (l : Fin 64) (f : FmtA) (s : State) := ok (runFp l (opA1 f 1 (fun a => (flipSign a, 0))) s)
def execFabs (l : Fin 64) (f : FmtA) (s : State) := ok (runFp l (opA1 f 1 (fun a => (a &&& 0x7FFFFFFF, 0))) s)
/-- FMAC also reads g[d]. -/
def execFmac (l : Fin 64) (f : FmtA) (s : State) :=
  ok (runFp l { opA f 4 (fun a _ => (a, 0)) with
    srcs := [f.s1.toNat, f.s2.toNat, f.d.toNat]
    work := fun c => let r := fmac (c.rg f.s1.toNat) (c.rg f.s2.toNat) (c.rg f.d.toNat); Wr.reg f.d.toNat r.1 r.2 } s)

def execFceq (l : Fin 64) (f : FmtA) (s : State) := ok (runFp l (opC f fceq) s)
def execFclt (l : Fin 64) (f : FmtA) (s : State) := ok (runFp l (opC f fclt) s)
def execFcle (l : Fin 64) (f : FmtA) (s : State) := ok (runFp l (opC f fcle) s)
def execFcun (l : Fin 64) (f : FmtA) (s : State) := ok (runFp l (opC f fcun) s)

/-- Conversions to integer, Q15 or Q31 (R125). -/
def toI (k : Nat) (lo hi : Int) (t : Bool) (a : Word) : Word × Word := let r := fToInt k lo hi t a; (wi r.1, r.2)
def i32 : Int × Int := (-2147483648, 2147483647)

def execFcvtw (l : Fin 64) (f : FmtA) (s : State) := ok (runFp l (opA1 f 2 (toI 0 i32.1 i32.2 false)) s)
def execFcvtwt (l : Fin 64) (f : FmtA) (s : State) := ok (runFp l (opA1 f 2 (toI 0 i32.1 i32.2 true)) s)
def execFcvtwu (l : Fin 64) (f : FmtA) (s : State) := ok (runFp l (opA1 f 2 (toI 0 0 4294967295 false)) s)
def execFcvtwut (l : Fin 64) (f : FmtA) (s : State) := ok (runFp l (opA1 f 2 (toI 0 0 4294967295 true)) s)
def execFcvtq15 (l : Fin 64) (f : FmtA) (s : State) := ok (runFp l (opA1 f 2 (toI 15 (-32768) 32767 false)) s)
def execFcvtq15t (l : Fin 64) (f : FmtA) (s : State) := ok (runFp l (opA1 f 2 (toI 15 (-32768) 32767 true)) s)
def execFcvtq31 (l : Fin 64) (f : FmtA) (s : State) := ok (runFp l (opA1 f 2 (toI 31 i32.1 i32.2 false)) s)
def execFcvtq31t (l : Fin 64) (f : FmtA) (s : State) := ok (runFp l (opA1 f 2 (toI 31 i32.1 i32.2 true)) s)
def execFcvtsw (l : Fin 64) (f : FmtA) (s : State) := ok (runFp l (opA1 f 2 (fun a => fOfInt 0 a.toInt)) s)
def execFcvtswu (l : Fin 64) (f : FmtA) (s : State) := ok (runFp l (opA1 f 2 (fun a => fOfInt 0 a.toNat)) s)
def execFcvtsq15 (l : Fin 64) (f : FmtA) (s : State) := ok (runFp l (opA1 f 2 (fun a => fOfInt 15 (q15 a))) s)
def execFcvtsq31 (l : Fin 64) (f : FmtA) (s : State) := ok (runFp l (opA1 f 2 (fun a => fOfInt 31 (q31 a))) s)

end Sys2Proof.Machine
end

