-- ==== Sys2Proof/Machine/System.lean ====
section
/-!
DEFINITION. Wormin system instructions of a manager image (op 0x70 to 0x73; R156).
-/
namespace Sys2Proof.Machine

/-- The core runs a manager image. -/
def isManager (s : State) (l : Fin 64) : Bool :=
  match (getTen s (ten (coreOwner s l))).image with | some im => im.manager | none => false

/-- Issue a system instruction on a PF BAR0 offset: a word address up to 0x13F_FFFF. -/
def runSys (l : Fin 64) (legal : Bool) (pr : BitVec 3) (srcs : List Nat) (addr : Ctx → Word) (s : State)
    (go : Nat → Core → Nat → State → State) : State :=
  runCore l (isManager s l && legal) pr srcs none s (fun t0 c s =>
    let a := addr c.ctx
    if 0x1400000 ≤ a.toNat ∨ a.toNat % 4 ≠ 0 then trap s l 3 a else go t0 c a.toNat s)

/-- SRD: s1 plus the immediate, with the effect of the PF's own read; the result stalls its first use for a free time of at most 1600 cycles (log entry 2). -/
def doSrd (l : Fin 64) (f : FmtI) (s : State) : State :=
  runSys l true f.pr [f.s1.toNat] (fun c => c.rg f.s1.toNat + sx f.imm) s (fun t0 _ a s =>
    let (x, s) := drawLe s 1599
    let (w, s) := readWord s a
    retire s l t0 1 (1 + x) false (Wr.reg f.d.toNat w))

/-- SWR: d must be 0; the write takes effect within a free time that SFENCE waits for. -/
def doSwr (l : Fin 64) (f : FmtA) (s : State) : State :=
  runSys l (f.d == 0) f.pr [f.s1.toNat, f.s2.toNat] (fun c => c.rg f.s1.toNat) s (fun t0 c a s =>
    let (x, s) := drawLe s 1599
    let s := modCore (retire s l t0 1 1 false Wr.none) l (fun k => { k with swr := max k.swr (t0 + 1 + x) })
    pfWrite s a (c.ctx.rg f.s2.toNat))

/-- SFENCE: d, s1, s2 must be 0. -/
def doSfence (l : Fin 64) (f : FmtA) (s : State) : State :=
  runCore l (isManager s l && f.d == 0 && f.s1 == 0 && f.s2 == 0) f.pr [] none s (fun t0 c s =>
    retire s l (max t0 c.swr) 1 1 false Wr.none)

/-- TXSWR: one transaction entry; d must be 0. -/
def doTxswr (l : Fin 64) (f : FmtA) (s : State) : State :=
  runCore l (isManager s l && f.d == 0) f.pr [f.s1.toNat, f.s2.toNat] none s (fun t0 c s =>
    unlessAborted l t0 s (fun s =>
      let a := c.ctx.rg f.s1.toNat
      if 0x1400000 ≤ a.toNat ∨ a.toNat % 4 ≠ 0 then trap s l 3 a
      else retire (stage s l (.reg a.toNat (c.ctx.rg f.s2.toNat))) l t0 1 1 false Wr.none))

def execSrd (l : Fin 64) (f : FmtI) (s : State) := ok (doSrd l f s)
def execSwr (l : Fin 64) (f : FmtA) (s : State) := ok (doSwr l f s)
def execSfence (l : Fin 64) (f : FmtA) (s : State) := ok (doSfence l f s)
def execTxswr (l : Fin 64) (f : FmtA) (s : State) := ok (doTxswr l f s)

end Sys2Proof.Machine
end

