-- ==== Sys2Proof/Machine/Tick.lean ====
section
/-!
DEFINITION. The tick (R19 to R27, R42 to R46, R185 to R209): the edge, delivery, the program window, the deadline, the swap, and
designated copies.
-/
namespace Sys2Proof.Machine

/-- The module runs its tick path: Booting or Running (R341). -/
def ticking (s : State) : Bool := hcSt s ≤ 1
def setPhase (s : State) (p : Phase) : State := modCmt s (fun c => { c with phase := p })

/-! ## The next edge (R42 to R46) -/

/-- The number the next edge has without a step or rate change; the Time Unit's first edge is the first at or after the present. -/
def nextNumber (s : State) : Nat := if s.time.ticking then s.time.tick + 1 else (s.now + period s - 1) / period s

/-- A discontinuity tick: TIME_STEPCNT, TIME_STEPK, the interrupt, the log record with the old and new numbers (R42). -/
def showStep (s : State) (old new : Nat) (k : Int) : State :=
  let s := raise (wr64 (wf s Reg.timeStepcnt 15 0 (rf s Reg.timeStepcnt 15 0 + 1)) Reg.timeStepkLo Reg.timeStepkHi (k.emod (2 ^ 48)).toNat) Reg.timeIrq 1
  logRec s Reg.timeIrq 1 0 (clkState s) [old, old / 2 ^ 32, new, new / 2 ^ 32]

/-- The Time Unit produces an edge: a pending step applies, or at a top of second a pending tick rate, and the step goes first
(R44). Answers whether the tick is a discontinuity tick. -/
def nextEdge (s : State) : Bool × State :=
  let n := nextNumber s
  let F := rateHz s
  let T := period s
  let old := s.time.tick
  let top : Bool := n % F == 0
  let s := toInstant s (n * T)
  let s := modTime s (fun t => { t with tick := n, edge := n * T, ticking := true })
  match s.time.step.filter (fun p => !p.top || top), s.time.ratePend.filter (fun _ => top) with
  | some p, _ =>
    let new := ((n : Int) + p.k).toNat
    let s := { s with now := new * T }
    let s := modTime s (fun t => { t with tick := new, edge := new * T, step := none, filt := [] })
    (true, showStep (refreshClock (slew s (p.rho.tdiv 36))) old new p.k)
  | none, some r =>
    let s := wf (modTime s (fun t => { t with ratePend := none })) Reg.timeTickcfg 1 0 r
    let new := n / F * rateHz s
    let s := wb (modTime s (fun t => { t with tick := new })) Reg.timeTickcfg 8 false
    (true, showStep s old new ((new : Int) - old - 1))
  | none, none => (false, s)

/-- Designated operations whose tick the numbering has moved past are skipped (R26). -/
def skipDops (s : State) : State :=
  (List.range 8).foldl (fun s i =>
    let d := getDop s i
    if d.status = 1 ∧ d.tick < s.time.tick then
      logRec (modDop s i (fun d => { d with status := 3 })) Reg.cmtIrq 2 0 3 [i, d.tick, d.tick / 2 ^ 32]
    else s) s

/-! ## The Loom at an edge (R19, R42, R92, R97, R99, R100, R109) -/

/-- Number of a tick a row belongs to: d before the present, 48 bits. -/
def rowTick (s : State) (d : Nat) : Nat := (s.time.tick + 2 ^ 48 - d) % 2 ^ 48

/-- block_ticks of every tenant: d + 1 + H from a discontinuity, else one less (R42). -/
def blockEdge (s : State) (disc : Bool) : State :=
  each 64 (fun t s => match (getTen s t).image with
    | some im =>
      let b := if disc then closeDelay s + 1 + im.hist else Tab.get 0 s.loom.block t - 1
      modLoom s (fun l => { l with block := Tab.put 0 l.block t b })
    | none => modLoom s (fun l => { l with block := Tab.put 0 l.block t 0 })) s

/-- The row of the edge closes, flushed up to the last flushed row. -/
def rowEdge (s : State) (disc : Bool) : State :=
  let d := closeDelay s
  let k : Int := (s.time.tick : Int) - d
  let flushed : Bool := match s.loom.flushUpTo with | some f => decide (k ≤ (f : Int)) | none => false
  let s := closeRow s (rowTick s d) flushed disc
  let reached : Bool := match s.loom.flushUpTo with | some f => decide ((f : Int) ≤ k) | none => false
  if reached then modLoom s (fun l => { l with flushUpTo := none }) else s

/-- The Loom and the gates at an edge; the discard of a step goes before the grants (R100). -/
def loomEdge (s : State) (disc : Bool) : State :=
  let chg := s.loom.delayPend
  let s := modLoom s (fun l => { l with enable := rb s Reg.loomCtrl 0, delayPend := none })
  let s := match chg with | some d => wf s Reg.loomStat 6 0 d | none => s
  let cut := disc || chg.isSome
  let s := if cut then gateFlush (discardRows s s.time.tick) else s
  let s := leaveSim (applyGrants (blockEdge s disc))
  let s := if s.loom.started then rowEdge s cut else s
  pbEdge (gateEdge s ((s.time.tick : Int) - closeDelay s)) disc

/-! ## Starts (R187, R189, R212) -/

/-- The loops of a starting tenant: state words cleared, the image's parameter words written. -/
def startLoops (s : State) (t : Fin 64) : State :=
  let s := each 8 (fun c s => each 32 (fun i s =>
    if loopOwner s c i = t then wr (modLoop s c i (fun _ => .reset)) (loopReg c i 30) 0 else s) s) s
  match (getTen s t).image with
  | some im => im.loops.foldl (fun s (e : Fin 8 × Fin 32 × List Word) =>
      if loopOwner s e.1 e.2.1 = t then e.2.2.zipIdx.foldl (fun s w => if w.2 < 23 then loopWrite s e.1 e.2.1 w.2 w.1 else s) s else s) s
  | none => s

/-- A Starting tenant at the edge of its start tick; one that a step moved past starts at the discontinuity tick. -/
def startEdge (s : State) (t : Fin 64) : State :=
  let x := getTen s t
  if t = 0 ∨ tState s t ≠ 2 ∨ s.time.tick < x.startAt then s
  else
    let st := if x.startTest then 4 else 3
    let s := if x.loopInit then startLoops s t else s
    let s := setTState (modTen s t (fun x => { x with first := true, loopInit := false })) t st
    let s := if s.time.tick = x.startAt then s else logRec s Reg.cmtIrq 1 0 st [t, s.time.tick]
    if s.hc.startTick.isSome then
      let b := match x.image with | some im => closeDelay s + 1 + im.hist | none => 0
      modLoom s (fun l => { l with block := Tab.put 0 l.block t b })
    else s

/-- What a tenant's tick starts from: nothing staged, no cause against its commit but a core still lost. -/
def freshTick (s : State) (t : Fin 64) : State :=
  let s := modTen s t (fun x => { x with
    abort := none, trapped := false, mismatch := false, retErr := false, staged := 0, first := false, errorRun := false, ran := false })
  let s := startEdge s t
  modTen s t (fun x => { x with lostTick := (coresOf s t).any (fun l => !served s l) && tActive s t })

/-- A logical core at an edge. -/
def freshCore (s : State) (l : Fin 64) : State :=
  modCore s l (fun x => { x with tended := false, entries := [], run := .idle })

/-- A physical core at an edge: a TEND of the last tick stays shown until the next edge (R210). -/
def freshPhys (s : State) (c : Fin 8) (p : Fin 9) : State :=
  if rb s (Reg.arrKStatus c p) 11 then wb s (Reg.arrKStatus c p) 11 false else wr s (Reg.arrKTendTs c p) 0

/-! ## Delivery (R93, R96, R163, R181, R192, R193, R199) -/

/-- An entry as a tenant receives it (R96): substitutes for a warp that is Absent or Rejoining, under the PNM-6 option. -/
def substituted (im : Image) (w : Nat) (e : WarpEntry) : WarpEntry :=
  if !im.pnm6 || bitOf e.status 0 then e
  else match im.subst.find? (fun x => x.1 == w) with
    | some x => { e with status := e.status ||| oneBit 11, vals := (x.2.take 16) ++ List.replicate (16 - x.2.length) 0 }
    | none => e

/-- The 80 bytes of a warp entry (R93). -/
def WarpEntry.bytes (e : WarpEntry) : List Byte :=
  toLe 4 e.status.toNat ++ toLe 4 e.word1.toNat ++ (List.range 16).flatMap (fun i => toLe 4 (e.vals.getD i 0).toNat) ++ toLe 8 e.quals.toNat

/-- The row of the tick: the newest closed one. -/
def rowNow (s : State) : Option Row := s.loom.closed.head?

/-- The entries of a row for a tenant's warps. -/
def rowEntries (s : State) (t : Fin 64) (r : Row) : List (Nat × WarpEntry) :=
  r.warps.filter (fun e => warpOwner s (Fin.ofNat 512 e.1) == t.val)

/-- The row as delivered: header words 2 and 3 are the tenant's own. -/
def rowCells (s : State) (t : Fin 64) (im : Image) (r : Row) : List Host.Cell :=
  let disc : Word := if (getTen s t).first && s.hc.startTick.isSome then 1 else 0
  let head := toLe 4 r.tick ++ toLe 4 (r.tick / 2 ^ 32 % 65536 + 65536 * r.stepcnt) ++ toLe 4 (r.flags ||| disc).toNat
    ++ toLe 4 (Tab.get 0 s.loom.block t) ++ toLe 4 r.d
  cellsAt 0 head ++ (rowEntries s t r).flatMap (fun e => cellsAt (32 + 80 * e.1) (substituted im e.1 e.2).bytes)

/-- Whether the tenant's cores start at the error-task entry (R96). -/
def errorTick (s : State) (t : Fin 64) : Bool :=
  match (getTen s t).image, rowNow s with
  | some im, some r => im.pnm6 && (rowEntries s t r).any (fun e => bitOf e.2.status 9 || bitOf e.2.status 10)
  | _, _ => false

/-- The tick block of a core (R192). -/
def tickBlock (s : State) (t l : Fin 64) : List Byte :=
  let n := s.time.tick
  let x := getTen s t
  let unc := rd s (Reg.cmtTUncom t)
  let flags := tState s t + 8 * b2n x.first + 16 * b2n x.replaced + 32 * b2n x.prevUncommitted + 64 * b2n (pbState s != 0)
  toLe 4 n ++ toLe 4 (n / 2 ^ 32 % 65536 + 65536 * rf s Reg.timeStepcnt 15 0) ++ toLe 4 flags ++ toLe 4 (unc &&& 0x3FFF000F).toNat
    ++ toLe 4 0xA800 ++ toLe 4 (imgLen s l) ++ toLe 4 (coreIdx s t l + 256 * ((coresOf s t).length - 1))
    ++ toLe 4 ((period s - s.cmt.reserve * usec) / mainCycle)

/-- Byte j of a run of mark registers. -/
def markByte (s : State) (reg : Nat → Nat) (j : Nat) : Byte := BitVec.ofNat 8 (rf s (reg (j / 4)) (8 * (j % 4) + 7) (8 * (j % 4)))

/-- Valid bindings of a tenant's warps: unit, slot, warp. -/
def boundOf (s : State) (t : Fin 64) : List (Fin 17 × Nat × Fin 512) :=
  (List.finRange 16).flatMap (fun (u : Fin 16) => (List.range 32).filterMap (fun j =>
    let b := bindWord s u j
    if bValid b ∧ warpOwner s (bWarp b) = t then some (Fin.ofNat 17 u.val, j, bWarp b) else none))

/-- Gates of a tenant: unit, gate. -/
def gatesOf (s : State) (t : Fin 64) : List (Fin 17 × Nat) :=
  (List.finRange 16).flatMap (fun (u : Fin 16) => (List.range 8).filterMap (fun g =>
    if gateOwner s u g = t then some (Fin.ofNat 17 u.val, g) else none))

/-- Marks and state-reset flags as a tenant receives them. -/
def markCells (s : State) (t : Fin 64) : List Host.Cell :=
  let bs := boundOf s t
  let gs := gatesOf s t
  let reset (u : Fin 17) : Bool := (getUnit s u).resetDue
  let m := bs.foldl (fun m e => poke m (0xA440 + e.2.2.val) (peek m (0xA440 + e.2.2.val) ||| markByte s (Reg.hdlUMark e.1) e.2.1)) []
  let m := gs.foldl (fun m e => poke m (0xA640 + 8 * e.1.val + e.2) (markByte s (Reg.hdlUGmark e.1) e.2)) m
  let flag (m : List Host.Cell) (a b : Nat) : List Host.Cell := poke m a (peek m a ||| BitVec.ofNat 8 (2 ^ b))
  let m := bs.foldl (fun m e => if reset e.1 then flag m (0xA6C0 + e.2.2.val / 8) (e.2.2.val % 8) else m) m
  gs.foldl (fun m e => if reset e.1 then flag m (0xA700 + e.1.val) e.2 else m) m

/-- A GOOSE subscription's status word. -/
def subWord (x : GooseSub) : Word :=
  W (b2n x.valid + 2 * b2n x.expired + 4 * b2n x.test + 8 * b2n x.sim + 16 * b2n x.ndsCom + 32 * b2n x.tagFail
    + 256 * min 255 x.changes + 65536 * (x.stNum % 65536))

/-- The word of an input-map item (R193); what is not granted to the tenant reads 0. -/
def imageWord (s : State) (t : Fin 64) (i : MapItem) : Word :=
  let mine (g : Fin 2048) : Bool := Tab.get 0 s.hif.subOwner g == t.val
  let grant := rd s (Reg.fioBiGrant t)
  match i with
  | .gooseStatus g => if mine g then subWord (getSub s g) else 0
  | .gooseMember g m => if mine g then (getSub s g).members.getD m 0 else 0
  | .inputs => bits 32 (fun i => bitOf grant i && biBefore s (Fin.ofNat 32 i))
  | .changes => bits 32 (fun i => bitOf grant i && changedBefore s (Fin.ofNat 32 i))
  | .pair => W (pairState s + 4 * b2n (leaseHeld s || pairState s == 2))
  | .clock => rd s Reg.timeState
  | .otherType => 0

/-- The delivery area of a core. -/
def deliveryCells (s : State) (t l : Fin 64) (im : Image) : List Host.Cell :=
  (match rowNow s with | some r => rowCells s t im r | none => [])
    ++ cellsAt 0xA400 (tickBlock s t l) ++ markCells s t
    ++ cellsAt 0xA800 (im.map.flatMap (fun i => toLe 4 (imageWord s t i).toNat))

/-- Cells of a memory in a range, moved to another base. -/
def moveCells (m : List Host.Cell) (src n dst : Nat) : List Host.Cell :=
  (m.filter (fun e => src ≤ e.1 && e.1 < src + n)).map (fun e => (e.1 - src + dst, e.2))

/-- Deliver to one core; `restore` writes the copy of the last commit back into its retained region, which the Shuttle reads from
State Memory. Until a swap has written the initial values of a start, the copy is the image's (R187). -/
def deliverCore (s : State) (t : Fin 64) (im : Image) (restore : Bool) (l : Fin 64) : State :=
  let area := deliveryCells s t l im
  let init := match coreImage s l with | some ci => cellsAt 0x7C000 (ci.retained.take 0x4000) | none => []
  let kept := if !restore then (getCore s l).mem.filter (fun e => 0x7C000 ≤ e.1)
    else if (getTen s t).initDue then init else moveCells s.mem (retainedAt l) 0x4000 0x7C000
  let s := if restore then askBanks s 8 (linesOf (retainedAt l) 0x4000) else s
  modCore s l (fun k => { k with mem := area ++ kept })

/-- Marks delivered are cleared. -/
def clearMarks (s : State) (t : Fin 64) : State :=
  let zero (s : State) (reg : Nat → Nat) (j : Nat) : State := wf s (reg (j / 4)) (8 * (j % 4) + 7) (8 * (j % 4)) 0
  let s := (boundOf s t).foldl (fun s e => zero s (Reg.hdlUMark e.1) e.2.1) s
  (gatesOf s t).foldl (fun s e => zero s (Reg.hdlUGmark e.1) e.2) s

/-- Delivery to an active tenant. -/
def deliverTenant (s : State) (t : Fin 64) : State :=
  match (getTen s t).image with
  | some im =>
    if !tActive s t then s
    else
      let x := getTen s t
      let s := modTen s t (fun x => { x with errorRun := errorTick s t })
      clearMarks ((coresOf s t).foldl (fun s l => if served s l then deliverCore s t im (x.first || x.replaced || x.prevUncommitted) l
        else s) s) t
  | none => s

/-- The Shuttle of a cluster with an active core: the time of its delivery is free within 3 µs (R20, R210). -/
def shuttleTime (s : State) (c : Fin 8) : State :=
  if (List.range 8).any (fun k => tActive s (ten (coreOwner s (Fin.ofNat 64 (8 * c.val + k))))) then
    let (x, s) := drawLe s 3000
    let r := Reg.arrCShuttle c
    wf (wf s r 15 0 x) r 31 16 (max x (rf s r 31 16))
  else s

/-- Change counts of inputs and subscriptions start again at an edge (R193); state-reset flags have been delivered (R181). -/
def clearChanges (s : State) : State :=
  let inp := (s.fio.inp.map (fun e => (e.1, { e.2 with
    changed := thisCycle s e.2.accAt, changedOld := false }))).filter (fun e => e.2 ≠ FioIn.reset)
  let sub := (s.sw.sub.map (fun e => (e.1, { e.2 with changes := 0 }))).filter (fun e => e.2 ≠ GooseSub.reset)
  let unit := (s.hdl.unit.map (fun e => (e.1, { e.2 with resetDue := false }))).filter (fun e => e.2 ≠ HUnit.reset)
  { s with fio := { s.fio with inp := inp }, sw := { s.sw with sub := sub }, hdl := { s.hdl with unit := unit } }

/-- What an uncommitted or skipped commit phase leaves behind: working loop states, the CLUs' queues, and the cores' requests at the
arbiters, which their loads have abandoned (R152, R220). -/
def dropTick (s : State) : State :=
  let loop := (s.clu.loop.map (fun e => (e.1, { e.2 with wrk := none, taken := false, trig := false }))).filter (fun e => e.2 ≠ LoopBox.reset)
  dropRequests { s with clu := { s.clu with loop := loop, busyTo := [], resolved := [], maxWait := [] } }
    (fun k r => if k < 16 then decide (r.port < 8) else r.port == 2 && r.core != 64)

/-- TICK_EDGE: the next edge of the tick generator. It has no effect in Fault-halt. -/
def doTickEdge (s : State) : State :=
  if hcSt s = 3 then s
  else
    let (disc, s) := nextEdge s
    let s := if disc then skipDops s else s
    let s := modCmt s (fun c => { c with reserve := rf s Reg.cmtCfg 5 0 })
    let s := dropTick (loomEdge (settleAll s) disc)
    let s := each 8 (fun c s => spareTakes s c) s
    let s := each 64 (fun l s => freshCore s l) s
    let s := each 8 (fun c s => each 9 (fun p s => freshPhys s c p) s) s
    let s := each 64 (fun t s => if t = 0 then s else freshTick s t) s
    let s := heddleEdge (each 8 (fun c s => shadowEdge s c) s)
    let s := pluEdge s
    if ticking s then setPhase (clearChanges (each 8 (fun c s => shuttleTime s c) (each 64 (fun t s => deliverTenant s t) s))) .delivered
    else clearChanges s

/-! ## The program window (R111, R130, R186, R341, R347) -/

/-- A core's state at the opening of its window. -/
def openCore (s : State) (t l : Fin 64) (ci : CoreImage) : State :=
  let err := (getTen s t).errorRun
  let fs := if (getTen s t).initDue then 0 else smWord s (savedFsAt l)
  modCore s l (fun k => { k with
    ctx := ⟨(if err && ci.entry != 0 then [(30, 0x7C000), (31, ci.entry)] else [(30, 0x7C000)]), [], 1, fs⟩
    pc := (if err then ci.errorEntry else ci.entry) &&& 0xFFFFFFFC
    cyc := 4800
    run := .running
    ready := []
    chain := []
    outst := []
    pf := []
    clu := 0
    cluEnd := 0
    swr := 0
    scr := []
    epoch := k.epoch + 1
    entries := []
    tended := false
    haltAt := none })

/-- Booting ends when the window of the start tick opens (R341). -/
def bootEnds (s : State) : State :=
  match s.hc.startTick with
  | some n =>
    if n ≤ s.time.tick ∧ hcSt s = 0 then
      wr (modHc (hcSet s 1) (fun h => { h with startTick := none })) Reg.hcBootMs (W (min 4095 ((s.op - s.hc.bootAt) / msec)))
    else s
  | none => s

/-- A spare that shadows a core runs in lockstep in this window (R347), for 4800 ticks and not while the two are under test. -/
def lockstepOpens (s : State) (c : Fin 8) : State :=
  modSpare s c (fun x => { x with lockstep := mayRotate s c && shadowed s c != 15 && decide (x.ticks < 4800) })

/-- PROGRAM_WINDOW_OPEN: 3 µs after the edge. -/
def doProgramWindowOpen (s : State) : State :=
  if s.cmt.phase ≠ .delivered then s
  else
    let s := toInstant s (s.time.edge + 3 * usec)
    let s := each 8 (fun c s => each 9 (fun p s => wr s (Reg.arrKSmwait c p) 0) s) s
    let s := each 64 (fun t s => if t = 0 ∨ !tActive s t then s
      else (coresOf s t).foldl (fun s l => match coreImage s l with
        | some ci => if served s l then openCore s t l ci else s
        | none => s) (modTen s t (fun x => { x with ran := true }))) s
    setPhase (each 8 (fun c s => lockstepOpens s c) (bootEnds s)) .window

/-- WATCHDOG: a running core that has used its budget of cycles since its window opened traps (R130); it has when its next issue
slot, or the present, lies past them. -/
def doWatchdog (l : Fin 64) (s : State) : State :=
  let c := getCore s l
  match watchdogEnd s l with
  | some w => if c.run = .running ∧ w ≤ max c.cyc ((s.now - s.time.edge) / mainCycle) then watchdogTrap s l w else s
  | none => s

/-! ## The deadline (R21, R187, R190, R196, R197, R201, R202) -/

/-- A core's TEND has reached the Commit Unit by the deadline. -/
def barrierIn (s : State) (t : Fin 64) : Bool :=
  let ls := coresOf s t
  let bar := if ls.all (fun l => l.val / 8 == (ls.headD 0).val / 8) then 10 else 34
  ls.all (fun l => let k := getCore s l; k.run == .ended && k.tended && decide ((k.cyc + bar) * mainCycle ≤ deadlineAt s))

/-- Why an active tenant does not commit (R196, R201): none when it commits. Of several causes a lost core goes first, then a
mismatch, an abort, the deadline. -/
def uncommitted (s : State) (t : Fin 64) : Option Nat :=
  let x := getTen s t
  if x.lostTick then some 4
  else if x.mismatch then some 5
  else match x.abort with
    | some c => some c
    | none => if !barrierIn s t then some 1 else if x.retErr then some 6 else none

/-- An entry taken at the deadline: memory writes go to the line shadow, the others to the swap. -/
def takeEntry (s : State) (t : Nat) (e : Entry) : State :=
  match e with
  | .mem off b => shadowWrite s off b.length (cellsAt off b)
  | _ => modCmt s (fun c => { c with updates := c.updates ++ [(t, e)] })

/-- The retained region and fs of a core go to its copies (R199). -/
def copyRetained (s : State) (l : Fin 64) : State :=
  let k := getCore s l
  let s := shadowWrite s (retainedAt l) 0x4000 (moveCells k.mem 0x7C000 0x4000 (retainedAt l))
  shadowWrite s (savedFsAt l) 4 (cellsAt (savedFsAt l) (toLe 4 k.ctx.fs.toNat))

/-- A tenant commits: its entries in core order (R151), then its cores' copies. -/
def commitTenant (s : State) (t : Fin 64) : State :=
  let ls := coresOf s t
  let s := ls.foldl (fun s l => (getCore s l).entries.foldl (fun s e => takeEntry s t e) s) s
  modTen (ls.foldl copyRetained s) t (fun x => { x with committing := true, prevUncommitted := false, replaced := false, fallbackDone := false, initDue := false })

/-- The tenant's fallback transaction in place of what it staged (R190). -/
def fallbackTenant (s : State) (t : Fin 64) : State :=
  let s := match (getTen s t).image with
    | some im => im.fallback.foldl (fun s e => takeEntry s t e) s
    | none => s
  let s := modCmt s (fun c => { c with fallbacks := c.fallbacks ++ [t.val] })
  modTen s t (fun x => { x with fallbackDue := false, fallbackDone := true, committing := false })

/-- The tolerance after a tick (R202): the window with this tick in it; consec and in_window are shown. Answers whether the
tolerance is exceeded. -/
def tolerate (s : State) (t : Fin 64) (good : Bool) : Bool × State :=
  let w := (good :: (getTen s t).window).take (rateHz s)
  let consec := (w.takeWhile (! ·)).length
  let inWin := (w.filter (! ·)).length
  let s := modTen s t (fun x => { x with window := w })
  let s := wr s (Reg.cmtTUncom t) (W (min 15 consec + 65536 * inWin))
  (rf s (Reg.cmtTTol t) 3 0 < consec || rf s (Reg.cmtTTol t) 15 8 < inWin, s)

/-- enter_test and leave_test take effect (R187). -/
def testCommands (s : State) (t : Fin 64) : State :=
  let p := (getTen s t).pend
  let s := if p.contains .enterTest ∧ tState s t = 3 then setTState s t 4
    else if p.contains .leaveTest ∧ tState s t = 4 then setTState s t 3 else s
  wb (modTen s t (fun x => { x with pend := x.pend.filter (· == .stop) })) (Reg.cmtTState t) 4 false

/-- An uncommitted tick is recorded with its cause and counted (R201, R202). -/
def countUncommitted (s : State) (t : Fin 64) (c : Nat) : Bool × State :=
  let s := raise (bump (wr s (Reg.cmtTLastcause t) (W c)) (Reg.cmtTUncTotal t)) Reg.cmtIrq 1
  tolerate (modTen s t (fun x => { x with prevUncommitted := true, committing := false })) t false

/-- A Running or Test tenant at the deadline; a pending stop takes the place of its transaction. -/
def deadlineActive (s : State) (t : Fin 64) : State :=
  if (getTen s t).pend.contains .stop then enterStopped (fallbackTenant s t) t
  else
    let s := testCommands s t
    match uncommitted s t with
    | none => let (_, s) := tolerate s t true; commitTenant s t
    | some c =>
      let (tooMany, s) := countUncommitted s t c
      if tooMany then setTState (wf (fallbackTenant s t) (Reg.cmtTState t) 10 8 2) t 5 else s

/-- A Faulted tenant at the deadline: its fallback, or a pending stop once the fallback is in place. -/
def deadlineFaulted (s : State) (t : Fin 64) : State :=
  let x := getTen s t
  let s := if x.trapped then wr s (Reg.cmtTLastcause t) 7 else s
  let s := wb (modTen s t (fun x => { x with committing := false, pend := x.pend.filter (· == .stop) })) (Reg.cmtTState t) 4 false
  if x.fallbackDue then fallbackTenant s t else if x.pend.contains .stop then enterStopped s t else s

/-- A Fenced tenant at the deadline: the tick in which it was fenced ends uncommitted, with cause 7 after a trap and 4 after the loss
of a core without a spare (R201, R204). -/
def deadlineFenced (s : State) (t : Fin 64) : State :=
  let x := getTen s t
  let s := if x.trapped then wr s (Reg.cmtTLastcause t) 7
    else if x.lostTick then (countUncommitted s t 4).2 else s
  modTen s t (fun x => { x with committing := false })

/-- A fallback that is due and not yet committed, of a tenant that has left Fenced before its commit phase too (R190). -/
def lateFallback (s : State) (t : Fin 64) : State :=
  if (getTen s t).fallbackDue then fallbackTenant s t else modTen s t (fun x => { x with committing := false })

/-- A tenant at the deadline; whether it is in Test is fixed with its commit (R191). -/
def deadlineTenant (s : State) (t : Fin 64) : State :=
  let s := match tState s t with
    | 3 => deadlineActive s t
    | 4 => deadlineActive s t
    | 5 => deadlineFaulted s t
    | 6 => lateFallback (deadlineFenced s t) t
    | _ => lateFallback s t
  modTen s t (fun x => { x with inTest := tState s t == 4 })

/-- Entries staged in the tick, and their maximum (R211). -/
def countEntries (s : State) (t : Fin 64) : State :=
  let n := (getTen s t).staged
  let r := Reg.cmtTEntries t
  wf (wf s r 10 0 n) r 26 16 (max n (rf s r 26 16))

/-- Cores not at TEND stop (R132); what was staged is no longer needed. -/
def stopLate (s : State) (l : Fin 64) : State :=
  if (getCore s l).run = .running then modCore s l (fun k => { k with run := .stopped, entries := [] })
  else modCore s l (fun k => { k with entries := [] })

/-- DEADLINE: barriers are sampled, the committing tenants fixed, and their transactions applied to the line shadow. A watchdog that
has run out by then has trapped (R130, R132). -/
def doDeadline (s : State) : State :=
  if s.cmt.phase ≠ .window ∨ !ticking s then s
  else
    let s := each 64 (fun l s => doWatchdog l s) (toInstant s (s.time.edge + deadlineAt s))
    let s := pluDeadline (wb s Reg.cmtStatus 0 true)
    let s := each 64 (fun t s => if t = 0 then s else countEntries s t) s
    let s := each 64 (fun t s => if t = 0 then s else deadlineTenant s t) s
    let s := cluDeadline (each 64 (fun l s => stopLate s l) s)
    let (x, s) := drawLe s 5500
    setPhase (wf (wf s Reg.cmtPhase 15 0 x) Reg.cmtPhase 31 16 (max x (rf s Reg.cmtPhase 31 16))) .applied

/-! ## The swap (R18, R177, R190, R191, R194, R197 to R199, R205, R206) -/

def spliceStretch (m : List Host.Cell) (e : Nat × Nat × List Host.Cell) : List Host.Cell := spliceMem m e.1 e.2.1 e.2.2

/-- The lines of the shadow become committed content in one cycle; those not already on their way are asked to be written back to
their banks. -/
def swapMemory (s : State) : State :=
  let sh : List (Nat × Nat × List Host.Cell) := s.cmt.shadow
  let lines : List Nat := ((sh.flatMap (fun (e : Nat × Nat × List Host.Cell) => linesOf e.1 e.2.1)).eraseDups).filter
    (fun a => !s.cmt.writeBack.contains a)
  let pages : List Nat := (sh.flatMap (fun e => (List.range ((e.1 + e.2.1 + 4095) / 4096 - e.1 / 4096)).map (e.1 / 4096 + ·))).eraseDups
  let s := askBanks { s with mem := sh.foldl spliceStretch s.mem } 9 lines
  let s := modPlu s (fun p => { p with dirty := p.dirty ++ pages.filter (fun n => !p.dirty.contains n) })
  modCmt s (fun c => { c with shadow := [], writeBack := c.writeBack ++ lines })

/-- The initial values of a started tenant's retained copies, its saved fs 0 (R187). -/
def initCopies (s : State) (t : Fin 64) : State :=
  if !(getTen s t).initDue then s
  else
    let s := (coresOf s t).foldl (fun s l => match coreImage s l with
      | some ci => shadowWrite (shadowWrite s (retainedAt l) 0x4000 (cellsAt (retainedAt l) (ci.retained.take 0x4000))) (savedFsAt l) 4 []
      | none => s) s
    modTen s t (fun x => { x with initDue := false })

/-- Accepted aperture writes, at most 1024 a swap, after the tenants' entries. -/
def swapAperture (s : State) : State :=
  let l := s.cmt.aperture
  let s := (l.take 1024).foldl (fun s e => shadowWrite s e.1 e.2.length (cellsAt e.1 e.2)) s
  modCmt s (fun c => { c with aperture := c.aperture.drop 1024 })

/-- Set bits of every quality word of a publication. -/
def markQuality (s : State) (p : Nat) (f : Word → Word) : State :=
  (List.range (pubMembers p)).foldl (fun s m => pubEntry s p m true (f (Tab.get 0 (getPub s p).data (2 * m + 1)))) s

/-- Publications a commit's entries name. -/
def touchedPubs (ups : List (Nat × Entry)) : List Nat :=
  (ups.filterMap (fun e => match e.2 with | .pub p _ _ _ => some p | _ => none)).eraseDups

/-- Publication entries, the quality of Test tenants and fallbacks, and the verdict on each publication concerned. -/
def swapPubs (s : State) (ups : List (Nat × Entry)) (falls tests : List Nat) : State :=
  let touched := touchedPubs ups
  let fallPubs := falls.flatMap (pubsOf s)
  let testPubs := tests.flatMap (pubsOf s)
  let all := (touched ++ fallPubs ++ testPubs).eraseDups
  let before := all.map (fun p => (p, dataset (getPub s p) p))
  let s := ups.foldl (fun s e => match e.2 with | .pub p m q v => pubEntry s p m q v | _ => s) s
  let s := fallPubs.foldl (fun s p => markQuality s p (fun q => setFld q 1 0 1)) s
  let s := testPubs.foldl (fun s p => markQuality s p (fun q => q ||| oneBit 11)) s
  before.foldl (fun s e => pubVerdict s e.1 e.2 (touched.contains e.1) (fallPubs.contains e.1)) s

/-- Arming entries, then the slots of tenants in fallback. -/
def swapArms (s : State) (ups : List (Nat × Entry)) (falls : List Nat) : State :=
  falls.foldl disarmAll (ups.foldl (fun s e => match e.2 with | .arm i d => armEntry s i d | _ => s) s)

/-- The levels the outputs hold from a swap on are those of a Test commit, or no longer (R191). -/
def holdTests (s : State) : State :=
  each 64 (fun t s => let x := getTen s t; if x.heldTest = x.inTest then s else setTen s t { x with heldTest := x.inTest }) s

/-- Output entries; a fallback de-energises the channels it does not name. The outputs follow when every level is in place. -/
def swapOuts (s : State) (ups : List (Nat × Entry)) (falls : List Nat) : State :=
  let s := ups.foldl (fun s e => match e.2 with | .out k o v => commitOut s k o v | _ => s) s
  let named (t : Nat) (k : Fin 16) : Bool := ups.any (fun e => e.1 == t && (match e.2 with | .out j _ _ => j == k | _ => false))
  let s := falls.foldl (fun s t => each 16 (fun k s =>
    if bcOwner s k = t ∧ !named t k then commitOut (commitOut s k .trip false) k .close false else s) s) s
  evalAll (each 16 (fun k s => timeClose s k) (holdTests s))

/-- Loop words and registers, in entry order. -/
def swapWords (s : State) (ups : List (Nat × Entry)) : State :=
  let s := ups.foldl (fun s e => match e.2 with | .loopWord c i j v => loopWrite s c i j v | _ => s) s
  ups.foldl (fun s e => match e.2 with | .reg off v => pfWrite s off v | _ => s) s

/-- Functions named in the owner bytes of a word that differ from another's. -/
def changedOwners (a b : Word) : List Nat :=
  (List.range 4).flatMap (fun j =>
    let x := fld a (8 * j + 5) (8 * j)
    let y := fld b (8 * j + 5) (8 * j)
    if x = y then [] else [x, y])

/-- One accepted ownership write takes effect (R212, R261, R332): the tenants concerned learn of it, a channel's latches clear, a loop is
cleared, a core's new owner's sections reach its memory. -/
def ownChange (s : State) (off : Nat) (v : Word) : State :=
  let old := rd s off
  let s := wr s off v
  match seek (Reg.fioBiGrant 0) 4 64 off, seek2 (Reg.cluLOwn 0 0) 0x10000 8 4 32 off with
  | some t, _ => if old = v then s else grantChg s t
  | none, some (c, i) =>
    if old = v then s else grantChg (grantChg (clearLoop s (Fin.ofNat 8 c) (Fin.ofNat 32 i)) (fld old 5 0)) (fld v 5 0)
  | none, none =>
    let s := match seek (Reg.fioBcOwn 0) 4 4 off with
      | some i => (List.range 4).foldl (fun s j =>
          if fld old (8 * j + 5) (8 * j) = fld v (8 * j + 5) (8 * j) then s else bcOwnerChanged s (Fin.ofNat 16 (4 * i + j))) s
      | none => s
    let ts := (changedOwners old v).eraseDups
    let s := match seek (Reg.hifOwnCore 0) 4 16 off with | some _ => ts.foldl loadCores s | none => s
    ts.foldl grantChg s

/-- Accepted ownership and partition writes take effect (R172, R233, R261). -/
def swapOwners (s : State) : State :=
  let l := s.cmt.waiting
  let slots := (s.tru.slot.flatMap (fun e => match e.2.nextOwner with
    | some o => if o = e.2.owner then [] else [e.2.owner, o]
    | none => [])).eraseDups
  let s := modCmt (slots.foldl grantChg (slotOwners s)) (fun c => { c with waiting := [] })
  let s := l.foldl (fun s e => ownChange s e.1 e.2) s
  let chg := (List.range 64).filter (fun t => (List.range 8).any (fun j =>
    Tab.get (0, 0) s.cmt.part (8 * t + j) != Tab.get (0, 0) s.cmt.partNext (8 * t + j)))
  chg.foldl grantChg (modCmt s (fun c => { c with part := c.partNext }))

/-- Put bytes in the line shadow where they differ from the committed content. -/
def shadowBytes (s : State) (a : Nat) (b : List Byte) : State := if smRead s a b.length = b then s else shadowWrite s a b.length (cellsAt a b)

/-- The commit area as the swap leaves it (R205), with the swap count it leaves. -/
def commitArea (s : State) : State :=
  let n := s.time.tick
  let hi := n / 2 ^ 32 % 65536 + 65536 * rf s Reg.timeStepcnt 15 0
  let seq := (rd s Reg.cmtSeq + 1).toNat
  let base := 0x1EFF100
  let s := shadowBytes s base (toLe 4 seq ++ toLe 4 n ++ toLe 4 hi)
  each 64 (fun t s =>
    if t = 0 then s
    else
      let a := base + 0x20 * t.val
      let c := (getTen s t).committing
      let s := if c then shadowBytes (shadowBytes s a (toLe 4 n ++ toLe 4 hi)) (a + 12) (toLe 4 seq) else s
      shadowBytes s (a + 8) (toLe 4 (tState s t + 8 * b2n c))) s

/-- Vector 3 of a committing tenant's VF, every commit_div-th commit (R256). -/
def commitVector (s : State) (t : Fin 64) : State :=
  let div := rf s (Reg.vfCfg t) 7 0
  let n := Tab.get 0 s.hif.commits t + 1
  if div = 0 then s
  else if div ≤ n then raiseVf (modHif s (fun h => { h with commits := Tab.put 0 h.commits t 0 })) t 3
  else modHif s (fun h => { h with commits := Tab.put 0 h.commits t n })

/-- The registers of a commit: sequence number, tick of the last commit phase, of each tenant's last commit. -/
def showCommit (s : State) : State :=
  let n := s.time.tick
  let hi := n / 2 ^ 32 % 65536 + 65536 * rf s Reg.timeStepcnt 15 0
  let s := wr (wr (bump s Reg.cmtSeq) Reg.cmtLastLo (W n)) Reg.cmtLastHi (W hi)
  each 64 (fun t s => if (getTen s t).committing then
      commitVector (wr (wr s (Reg.cmtTLastLo t) (W n)) (Reg.cmtTLastHi t) (W hi)) t
    else s) s

/-- SWAP: D + 5.5 µs. -/
def doSwap (s : State) : State :=
  if s.cmt.phase ≠ .applied ∨ !ticking s then s
  else
    let s := toInstant s (s.time.edge + deadlineAt s + 5 * usec + 500 * nsec)
    let ups := s.cmt.updates
    let falls := s.cmt.fallbacks
    let commits (t : Nat) : Bool := (getTen s (ten t)).committing && t != 0
    let tests := (List.range 64).filter (fun t => commits t && (getTen s (ten t)).inTest)
    let s := swapMemory (commitArea (pluApply (swapAperture (each 64 (fun t s => initCopies s t) s))))
    let s := swapOuts (swapArms (swapPubs s ups falls tests) ups falls) ups falls
    let s := swapWords s ups
    -- a register entry may have reset the module
    if s.cmt.phase ≠ .applied then s
    else
      let s := pluSwap (showCommit (swapOwners (cluSwap s commits)))
      evalAll (modCmt s (fun c => { c with phase := .swapped, updates := [], fallbacks := [] }))

/-! ## The background interval (R27, R208, R209) -/

/-- The source lines of a designated copy are read at the Commit Unit's rank (R27, R240). -/
def askCopy (s : State) (d : Dop) : State :=
  let lines := d.list.flatMap (fun e => linesOf e.1 e.2.2)
  (List.range 16).foldl (fun s b => match inBank b lines with
    | [] => s
    | a :: l => request s b ⟨9, 1, cycleOf s, 2 * (l.length + 1), 0, 0, a⟩) s

/-- COMMIT_COMPLETE: D + 6 µs; the operation designated for this tick starts. -/
def doCommitComplete (s : State) : State :=
  if s.cmt.phase ≠ .swapped then s
  else
    let s := toInstant s (s.time.edge + deadlineAt s + 6 * usec)
    let s := setPhase (wb s Reg.cmtStatus 0 false) .idle
    match (List.range 8).find? (fun i => (getDop s i).status == 1 && (getDop s i).tick == s.time.tick) with
    | some i => askCopy (wb (modCmt s (fun c => { c with copying := some i })) Reg.cmtStatus 2 true) (getDop s i)
    | none => s

/-- DOP_COPY_DONE: once every source line has been read, every destination line changes at one swap. -/
def doDopCopyDone (s : State) : State :=
  match s.cmt.copying with
  | none => s
  | some i =>
    let s := complete s 9 1
    if !s.cmt.shadow.isEmpty then s else
    let d := getDop s i
    let img := s.mem
    let s := d.list.foldl (fun s e => shadowWrite s e.2.1 e.2.2 (moveCells img e.1 e.2.2 e.2.1)) s
    let s := swapMemory (shadowBytes s 0x1EFF100 (toLe 4 (rd s Reg.cmtSeq + 1).toNat))
    let s := bump s Reg.cmtSeq
    let s := modDop (modCmt s (fun c => { c with copying := none })) i (fun d => { d with status := 2 })
    let s := raise (wb s Reg.cmtStatus 2 false) Reg.cmtIrq 2
    logRec s Reg.cmtIrq 1 0 2 [i, b2n d.settings, d.tick, d.tick / 2 ^ 32]

def execTickEdge (s : State) := ok (doTickEdge s)
def execProgramWindowOpen (s : State) := ok (doProgramWindowOpen s)
def execWatchdog (l : Fin 64) (s : State) := ok (doWatchdog l s)
def execDeadline (s : State) := ok (doDeadline s)
def execSwap (s : State) := ok (doSwap s)
def execCommitComplete (s : State) := ok (doCommitComplete s)
def execDopCopyDone (s : State) := ok (doDopCopyDone s)

end Sys2Proof.Machine
end

