-- ==== Sys2Proof/Machine/Dispatch.lean ====
section
/-!
DEFINITION. The dispatch of the commands: one arm per constructor of Instr, each one direct call of that command's meaning.
-/
namespace Sys2Proof.Machine

def exec (i : Instr) (s : State) : Host.Outcome State Fault Refusal :=
  match i with
  | .add x f => Sys2Proof.Machine.execAdd x f s
  | .sub x f => Sys2Proof.Machine.execSub x f s
  | .and x f => Sys2Proof.Machine.execAnd x f s
  | .or x f => Sys2Proof.Machine.execOr x f s
  | .xor x f => Sys2Proof.Machine.execXor x f s
  | .sll x f => Sys2Proof.Machine.execSll x f s
  | .srl x f => Sys2Proof.Machine.execSrl x f s
  | .sra x f => Sys2Proof.Machine.execSra x f s
  | .min x f => Sys2Proof.Machine.execMin x f s
  | .max x f => Sys2Proof.Machine.execMax x f s
  | .minu x f => Sys2Proof.Machine.execMinu x f s
  | .maxu x f => Sys2Proof.Machine.execMaxu x f s
  | .adds x f => Sys2Proof.Machine.execAdds x f s
  | .subs x f => Sys2Proof.Machine.execSubs x f s
  | .addus x f => Sys2Proof.Machine.execAddus x f s
  | .subus x f => Sys2Proof.Machine.execSubus x f s
  | .mul x f => Sys2Proof.Machine.execMul x f s
  | .mulh x f => Sys2Proof.Machine.execMulh x f s
  | .mulhu x f => Sys2Proof.Machine.execMulhu x f s
  | .abss x f => Sys2Proof.Machine.execAbss x f s
  | .clz x f => Sys2Proof.Machine.execClz x f s
  | .popc x f => Sys2Proof.Machine.execPopc x f s
  | .sexb x f => Sys2Proof.Machine.execSexb x f s
  | .sexh x f => Sys2Proof.Machine.execSexh x f s
  | .zexh x f => Sys2Proof.Machine.execZexh x f s
  | .addi x f => Sys2Proof.Machine.execAddi x f s
  | .andi x f => Sys2Proof.Machine.execAndi x f s
  | .ori x f => Sys2Proof.Machine.execOri x f s
  | .xori x f => Sys2Proof.Machine.execXori x f s
  | .slli x f => Sys2Proof.Machine.execSlli x f s
  | .srli x f => Sys2Proof.Machine.execSrli x f s
  | .srai x f => Sys2Proof.Machine.execSrai x f s
  | .lui x f => Sys2Proof.Machine.execLui x f s
  | .llo x f => Sys2Proof.Machine.execLlo x f s
  | .ceq x f => Sys2Proof.Machine.execCeq x f s
  | .cne x f => Sys2Proof.Machine.execCne x f s
  | .clt x f => Sys2Proof.Machine.execClt x f s
  | .cle x f => Sys2Proof.Machine.execCle x f s
  | .cltu x f => Sys2Proof.Machine.execCltu x f s
  | .cleu x f => Sys2Proof.Machine.execCleu x f s
  | .ctst x f => Sys2Proof.Machine.execCtst x f s
  | .cmpi x f => Sys2Proof.Machine.execCmpi x f s
  | .pand x f => Sys2Proof.Machine.execPand x f s
  | .por x f => Sys2Proof.Machine.execPor x f s
  | .pxor x f => Sys2Proof.Machine.execPxor x f s
  | .pandn x f => Sys2Proof.Machine.execPandn x f s
  | .pfrom x f => Sys2Proof.Machine.execPfrom x f s
  | .pto x f => Sys2Proof.Machine.execPto x f s
  | .div l f => Sys2Proof.Machine.execDiv l f s
  | .divu l f => Sys2Proof.Machine.execDivu l f s
  | .rem l f => Sys2Proof.Machine.execRem l f s
  | .remu l f => Sys2Proof.Machine.execRemu l f s
  | .rdsr l f => Sys2Proof.Machine.execRdsr l f s
  | .clrf l f => Sys2Proof.Machine.execClrf l f s
  | .macq x f => Sys2Proof.Machine.execMacq x f s
  | .macq31 x f => Sys2Proof.Machine.execMacq31 x f s
  | .accq15 x f => Sys2Proof.Machine.execAccq15 x f s
  | .accq31 x f => Sys2Proof.Machine.execAccq31 x f s
  | .magsq x f => Sys2Proof.Machine.execMagsq x f s
  | .ashr x f => Sys2Proof.Machine.execAshr x f s
  | .amov x f => Sys2Proof.Machine.execAmov x f s
  | .sdft x f => Sys2Proof.Machine.execSdft x f s
  | .mulq x f => Sys2Proof.Machine.execMulq x f s
  | .addq x f => Sys2Proof.Machine.execAddq x f s
  | .subq x f => Sys2Proof.Machine.execSubq x f s
  | .negq x f => Sys2Proof.Machine.execNegq x f s
  | .absq x f => Sys2Proof.Machine.execAbsq x f s
  | .atan2 x f => Sys2Proof.Machine.execAtan2 x f s
  | .mulq31 x f => Sys2Proof.Machine.execMulq31 x f s
  | .addq31 x f => Sys2Proof.Machine.execAddq31 x f s
  | .subq31 x f => Sys2Proof.Machine.execSubq31 x f s
  | .negq31 x f => Sys2Proof.Machine.execNegq31 x f s
  | .absq31 x f => Sys2Proof.Machine.execAbsq31 x f s
  | .q31toq15 x f => Sys2Proof.Machine.execQ31toq15 x f s
  | .rndq15 x f => Sys2Proof.Machine.execRndq15 x f s
  | .rndq31 x f => Sys2Proof.Machine.execRndq31 x f s
  | .fadd l f => Sys2Proof.Machine.execFadd l f s
  | .fsub l f => Sys2Proof.Machine.execFsub l f s
  | .fmul l f => Sys2Proof.Machine.execFmul l f s
  | .fdiv l f => Sys2Proof.Machine.execFdiv l f s
  | .fsqrt l f => Sys2Proof.Machine.execFsqrt l f s
  | .fmin l f => Sys2Proof.Machine.execFmin l f s
  | .fmax l f => Sys2Proof.Machine.execFmax l f s
  | .fneg l f => Sys2Proof.Machine.execFneg l f s
  | .fabs l f => Sys2Proof.Machine.execFabs l f s
  | .fmac l f => Sys2Proof.Machine.execFmac l f s
  | .fceq l f => Sys2Proof.Machine.execFceq l f s
  | .fclt l f => Sys2Proof.Machine.execFclt l f s
  | .fcle l f => Sys2Proof.Machine.execFcle l f s
  | .fcun l f => Sys2Proof.Machine.execFcun l f s
  | .fcvtw l f => Sys2Proof.Machine.execFcvtw l f s
  | .fcvtwt l f => Sys2Proof.Machine.execFcvtwt l f s
  | .fcvtwu l f => Sys2Proof.Machine.execFcvtwu l f s
  | .fcvtwut l f => Sys2Proof.Machine.execFcvtwut l f s
  | .fcvtq15 l f => Sys2Proof.Machine.execFcvtq15 l f s
  | .fcvtq15t l f => Sys2Proof.Machine.execFcvtq15t l f s
  | .fcvtq31 l f => Sys2Proof.Machine.execFcvtq31 l f s
  | .fcvtq31t l f => Sys2Proof.Machine.execFcvtq31t l f s
  | .fcvtsw l f => Sys2Proof.Machine.execFcvtsw l f s
  | .fcvtswu l f => Sys2Proof.Machine.execFcvtswu l f s
  | .fcvtsq15 l f => Sys2Proof.Machine.execFcvtsq15 l f s
  | .fcvtsq31 l f => Sys2Proof.Machine.execFcvtsq31 l f s
  | .lb l f => Sys2Proof.Machine.execLb l f s
  | .lbu l f => Sys2Proof.Machine.execLbu l f s
  | .lh l f => Sys2Proof.Machine.execLh l f s
  | .lhu l f => Sys2Proof.Machine.execLhu l f s
  | .lw l f => Sys2Proof.Machine.execLw l f s
  | .ld l f => Sys2Proof.Machine.execLd l f s
  | .sb l f => Sys2Proof.Machine.execSb l f s
  | .sh l f => Sys2Proof.Machine.execSh l f s
  | .sw l f => Sys2Proof.Machine.execSw l f s
  | .sd l f => Sys2Proof.Machine.execSd l f s
  | .la l f => Sys2Proof.Machine.execLa l f s
  | .sa l f => Sys2Proof.Machine.execSa l f s
  | .pfsm l f => Sys2Proof.Machine.execPfsm l f s
  | .waitsm l f => Sys2Proof.Machine.execWaitsm l f s
  | .lrow l f sel => Sys2Proof.Machine.execLrow l f sel s
  | .limg l f => Sys2Proof.Machine.execLimg l f s
  | .br l f => Sys2Proof.Machine.execBr l f s
  | .call l f => Sys2Proof.Machine.execCall l f s
  | .jr l f => Sys2Proof.Machine.execJr l f s
  | .callr l f => Sys2Proof.Machine.execCallr l f s
  | .tend l f => Sys2Proof.Machine.execTend l f s
  | .txw l f => Sys2Proof.Machine.execTxw l f s
  | .txwd l f => Sys2Proof.Machine.execTxwd l f s
  | .txpub l f quality => Sys2Proof.Machine.execTxpub l f quality s
  | .txout l f => Sys2Proof.Machine.execTxout l f s
  | .txarm l f disarm => Sys2Proof.Machine.execTxarm l f disarm s
  | .txabort l f => Sys2Proof.Machine.execTxabort l f s
  | .ceval l f => Sys2Proof.Machine.execCeval l f s
  | .cset l f => Sys2Proof.Machine.execCset l f s
  | .csett l f => Sys2Proof.Machine.execCsett l f s
  | .cget l f => Sys2Proof.Machine.execCget l f s
  | .cinj l f => Sys2Proof.Machine.execCinj l f s
  | .hget x f => Sys2Proof.Machine.execHget x f s
  | .hld x f => Sys2Proof.Machine.execHld x f s
  | .hst x f => Sys2Proof.Machine.execHst x f s
  | .trip x f => Sys2Proof.Machine.execTrip x f s
  | .tripbc x f => Sys2Proof.Machine.execTripbc x f s
  | .hmark x f => Sys2Proof.Machine.execHmark x f s
  | .hpass x f => Sys2Proof.Machine.execHpass x f s
  | .srd l f => Sys2Proof.Machine.execSrd l f s
  | .swr l f => Sys2Proof.Machine.execSwr l f s
  | .sfence l f => Sys2Proof.Machine.execSfence l f s
  | .txswr l f => Sys2Proof.Machine.execTxswr l f s
  | .registerWrite who off ws => Sys2Proof.Machine.execRegisterWrite who off ws s
  | .wearRemap word => Sys2Proof.Machine.execWearRemap word s
  | .frameReceive p f tm => Sys2Proof.Machine.execFrameReceive p f tm s
  | .tagVerdict frame => Sys2Proof.Machine.execTagVerdict frame s
  | .egressDequeue p tm => Sys2Proof.Machine.execEgressDequeue p tm s
  | .frameSent p tm => Sys2Proof.Machine.execFrameSent p tm s
  | .pfcRepeat => Sys2Proof.Machine.execPfcRepeat s
  | .swcPCfgWrite p v => Sys2Proof.Machine.execSwcPCfgWrite p v s
  | .swcPMacsecWrite p v => Sys2Proof.Machine.execSwcPMacsecWrite p v s
  | .blockLock p tm => Sys2Proof.Machine.execBlockLock p tm s
  | .trainingTimeout p => Sys2Proof.Machine.execTrainingTimeout p s
  | .lossOfLock p => Sys2Proof.Machine.execLossOfLock p s
  | .verifyAttemptTimeout p => Sys2Proof.Machine.execVerifyAttemptTimeout p s
  | .verifyResponse p => Sys2Proof.Machine.execVerifyResponse p s
  | .fenceAutoRelease p tm => Sys2Proof.Machine.execFenceAutoRelease p tm s
  | .fenceRelease p => Sys2Proof.Machine.execFenceRelease p s
  | .swcPLatch p v tm => Sys2Proof.Machine.execSwcPLatch p v tm s
  | .fdbRead => Sys2Proof.Machine.execFdbRead s
  | .fdbWriteStatic => Sys2Proof.Machine.execFdbWriteStatic s
  | .fdbDelete => Sys2Proof.Machine.execFdbDelete s
  | .fdbFlushLearned => Sys2Proof.Machine.execFdbFlushLearned s
  | .fdbAgeOut mac vid tm => Sys2Proof.Machine.execFdbAgeOut mac vid tm s
  | .vlanWrite => Sys2Proof.Machine.execVlanWrite s
  | .vlanRead => Sys2Proof.Machine.execVlanRead s
  | .swcOvfCfgWrite v => Sys2Proof.Machine.execSwcOvfCfgWrite v s
  | .colMatchRead => Sys2Proof.Machine.execColMatchRead s
  | .colMatchWrite => Sys2Proof.Machine.execColMatchWrite s
  | .colMatchInvalidate => Sys2Proof.Machine.execColMatchInvalidate s
  | .colPairmodeWrite k v => Sys2Proof.Machine.execColPairmodeWrite k v s
  | .dupEntryForget pair mac tm => Sys2Proof.Machine.execDupEntryForget pair mac tm s
  | .tickEdge => Sys2Proof.Machine.execTickEdge s
  | .programWindowOpen => Sys2Proof.Machine.execProgramWindowOpen s
  | .watchdog l => Sys2Proof.Machine.execWatchdog l s
  | .deadline => Sys2Proof.Machine.execDeadline s
  | .swap => Sys2Proof.Machine.execSwap s
  | .commitComplete => Sys2Proof.Machine.execCommitComplete s
  | .dopCopyDone => Sys2Proof.Machine.execDopCopyDone s
  | .arbiterGrant b => Sys2Proof.Machine.execArbiterGrant b s
  | .quotaWindow => Sys2Proof.Machine.execQuotaWindow s
  | .ddr5Grant ch => Sys2Proof.Machine.execDdr5Grant ch s
  | .pairLinkWriteReceive bytes => Sys2Proof.Machine.execPairLinkWriteReceive bytes s
  | .creditReturn bytes => Sys2Proof.Machine.execCreditReturn bytes s
  | .partitionEntryWrite t j v => Sys2Proof.Machine.execPartitionEntryWrite t j v s
  | .smaBClr b v => Sys2Proof.Machine.execSmaBClr b v s
  | .smaDClr ch v => Sys2Proof.Machine.execSmaDClr ch v s
  | .uncorrectableError loc => Sys2Proof.Machine.execUncorrectableError loc s
  | .ddr5ChannelLost ch => Sys2Proof.Machine.execDdr5ChannelLost ch s
  | .historyWrite => Sys2Proof.Machine.execHistoryWrite s
  | .historyRebuildDone => Sys2Proof.Machine.execHistoryRebuildDone s
  | .loopbackAsdu stream => Sys2Proof.Machine.execLoopbackAsdu stream s
  | .pbStart => Sys2Proof.Machine.execPbStart s
  | .pbStop => Sys2Proof.Machine.execPbStop s
  | .loomCtrlWrite v => Sys2Proof.Machine.execLoomCtrlWrite v s
  | .loomTransitWrite v => Sys2Proof.Machine.execLoomTransitWrite v s
  | .loomWCfgWrite w v => Sys2Proof.Machine.execLoomWCfgWrite w v s
  | .recordDispatch u => Sys2Proof.Machine.execRecordDispatch u s
  | .recordExit u id => Sys2Proof.Machine.execRecordExit u id s
  | .releaseRequest tm => Sys2Proof.Machine.execReleaseRequest tm s
  | .vbaHoldEnd tm => Sys2Proof.Machine.execVbaHoldEnd tm s
  | .retransmission pub tm => Sys2Proof.Machine.execRetransmission pub tm s
  | .goosePublish pub tm => Sys2Proof.Machine.execGoosePublish pub tm s
  | .svPublish pub => Sys2Proof.Machine.execSvPublish pub s
  | .slotRead => Sys2Proof.Machine.execSlotRead s
  | .slotWrite => Sys2Proof.Machine.execSlotWrite s
  | .slotClear => Sys2Proof.Machine.execSlotClear s
  | .truCtrlWrite v => Sys2Proof.Machine.execTruCtrlWrite v s
  | .truRetxWrite v => Sys2Proof.Machine.execTruRetxWrite v s
  | .kernelLoad u v => Sys2Proof.Machine.execKernelLoad u v s
  | .hdlBindingWrite u j v => Sys2Proof.Machine.execHdlBindingWrite u j v s
  | .gateWrite u g reg v => Sys2Proof.Machine.execGateWrite u g reg v s
  | .gateVselWrite u g v => Sys2Proof.Machine.execGateVselWrite u g v s
  | .stateWordWrite u v => Sys2Proof.Machine.execStateWordWrite u v s
  | .hdlUCtrlWrite u v => Sys2Proof.Machine.execHdlUCtrlWrite u v s
  | .evtPop u => Sys2Proof.Machine.execEvtPop u s
  | .shadowPeriodStart => Sys2Proof.Machine.execShadowPeriodStart s
  | .shadowCopyDone => Sys2Proof.Machine.execShadowCopyDone s
  | .bistComplete place sparePass activePass => Sys2Proof.Machine.execBistComplete place sparePass activePass s
  | .heddleRestoreDone => Sys2Proof.Machine.execHeddleRestoreDone s
  | .coreLost l => Sys2Proof.Machine.execCoreLost l s
  | .spareReady c => Sys2Proof.Machine.execSpareReady c s
  | .coreShadowRotation c => Sys2Proof.Machine.execCoreShadowRotation c s
  | .start t => Sys2Proof.Machine.execStart t s
  | .stop t => Sys2Proof.Machine.execStop t s
  | .enterTest t => Sys2Proof.Machine.execEnterTest t s
  | .leaveTest t => Sys2Proof.Machine.execLeaveTest t s
  | .fence t => Sys2Proof.Machine.execFence t s
  | .unfence t => Sys2Proof.Machine.execUnfence t s
  | .cmtTTolWrite t v => Sys2Proof.Machine.execCmtTTolWrite t v s
  | .cmtCfgWrite v => Sys2Proof.Machine.execCmtCfgWrite v s
  | .dopSubmit => Sys2Proof.Machine.execDopSubmit s
  | .dopCancel => Sys2Proof.Machine.execDopCancel s
  | .apertureWrite off data => Sys2Proof.Machine.execApertureWrite off data s
  | .loopWordWrite c k j v => Sys2Proof.Machine.execLoopWordWrite c k j v s
  | .cluLOwnWrite c k v => Sys2Proof.Machine.execCluLOwnWrite c k v s
  | .cluSgMembWrite c k v => Sys2Proof.Machine.execCluSgMembWrite c k v s
  | .injCmd c v => Sys2Proof.Machine.execInjCmd c v s
  | .capArm c n => Sys2Proof.Machine.execCapArm c n s
  | .capStop c n => Sys2Proof.Machine.execCapStop c n s
  | .capRead c n => Sys2Proof.Machine.execCapRead c n s
  | .cluCapCtrlWrite c n v => Sys2Proof.Machine.execCluCapCtrlWrite c n v s
  | .pcieLinkChange e => Sys2Proof.Machine.execPcieLinkChange e s
  | .vfFlr f => Sys2Proof.Machine.execVfFlr f s
  | .pfFlr => Sys2Proof.Machine.execPfFlr s
  | .numvfsChange n => Sys2Proof.Machine.execNumvfsChange n s
  | .commandAbandon f q => Sys2Proof.Machine.execCommandAbandon f q s
  | .dbMbSend f => Sys2Proof.Machine.execDbMbSend f s
  | .dbMbAck f => Sys2Proof.Machine.execDbMbAck f s
  | .mbxSend f => Sys2Proof.Machine.execMbxSend f s
  | .mbxAck f => Sys2Proof.Machine.execMbxAck f s
  | .dbSqTail f q tail entries => Sys2Proof.Machine.execDbSqTail f q tail entries s
  | .dbCqHead f q head => Sys2Proof.Machine.execDbCqHead f q head s
  | .queueEnable f q v => Sys2Proof.Machine.execQueueEnable f q v s
  | .nop f q => Sys2Proof.Machine.execNop f q s
  | .imgPut f q data hostErr => Sys2Proof.Machine.execImgPut f q data hostErr s
  | .imgLoad f q img => Sys2Proof.Machine.execImgLoad f q img s
  | .ciRead f q => Sys2Proof.Machine.execCiRead f q s
  | .ciReadAttempt f q intervened => Sys2Proof.Machine.execCiReadAttempt f q intervened s
  | .queueCompletion f q => Sys2Proof.Machine.execQueueCompletion f q s
  | .grantOpen v => Sys2Proof.Machine.execGrantOpen v s
  | .grantCommit => Sys2Proof.Machine.execGrantCommit s
  | .grantDiscard => Sys2Proof.Machine.execGrantDiscard s
  | .ownershipWrite tab k v => Sys2Proof.Machine.execOwnershipWrite tab k v s
  | .unload t => Sys2Proof.Machine.execUnload t s
  | .configRecordWritten => Sys2Proof.Machine.execConfigRecordWritten s
  | .leaseRenewal tm => Sys2Proof.Machine.execLeaseRenewal tm s
  | .renewal path m tm => Sys2Proof.Machine.execRenewal path m tm s
  | .acknowledgement path m tm => Sys2Proof.Machine.execAcknowledgement path m tm s
  | .yield path m tm => Sys2Proof.Machine.execYield path m tm s
  | .ready path m tm => Sys2Proof.Machine.execReady path m tm s
  | .refuse path m tm => Sys2Proof.Machine.execRefuse path m tm s
  | .swapFailed path m tm => Sys2Proof.Machine.execSwapFailed path m tm s
  | .leaseExpiry tm => Sys2Proof.Machine.execLeaseExpiry tm s
  | .takeover tm => Sys2Proof.Machine.execTakeover tm s
  | .takeoverQuietCheck tm => Sys2Proof.Machine.execTakeoverQuietCheck tm s
  | .quietChange qp qn tm => Sys2Proof.Machine.execQuietChange qp qn tm s
  | .restoreComplete => Sys2Proof.Machine.execRestoreComplete s
  | .checkpointPageReceive item => Sys2Proof.Machine.execCheckpointPageReceive item s
  | .checkpointClose c => Sys2Proof.Machine.execCheckpointClose c s
  | .checkpointSent => Sys2Proof.Machine.execCheckpointSent s
  | .plannedSwapDue => Sys2Proof.Machine.execPlannedSwapDue s
  | .pairSwap => Sys2Proof.Machine.execPairSwap s
  | .pairFence => Sys2Proof.Machine.execPairFence s
  | .pairUnfence tm => Sys2Proof.Machine.execPairUnfence tm s
  | .solo tm => Sys2Proof.Machine.execSolo tm s
  | .leaveSolo => Sys2Proof.Machine.execLeaveSolo s
  | .pluEpochWrite v => Sys2Proof.Machine.execPluEpochWrite v s
  | .pluTClassWrite k v => Sys2Proof.Machine.execPluTClassWrite k v s
  | .pluLeaseWrite v => Sys2Proof.Machine.execPluLeaseWrite v s
  | .ksGen slot => Sys2Proof.Machine.execKsGen slot s
  | .ksUnwrap slot => Sys2Proof.Machine.execKsUnwrap slot s
  | .ksPubimp slot => Sys2Proof.Machine.execKsPubimp slot s
  | .ksDerive slot => Sys2Proof.Machine.execKsDerive slot s
  | .ksSwap slot => Sys2Proof.Machine.execKsSwap slot s
  | .ksDiscard slot => Sys2Proof.Machine.execKsDiscard slot s
  | .ksErase slot => Sys2Proof.Machine.execKsErase slot s
  | .ksReadpub slot => Sys2Proof.Machine.execKsReadpub slot s
  | .ksSign slot => Sys2Proof.Machine.execKsSign slot s
  | .ksVerify slot => Sys2Proof.Machine.execKsVerify slot s
  | .ksHmac slot => Sys2Proof.Machine.execKsHmac slot s
  | .ksHmacv slot => Sys2Proof.Machine.execKsHmacv slot s
  | .ksOwner slot => Sys2Proof.Machine.execKsOwner slot s
  | .provArm tm => Sys2Proof.Machine.execProvArm tm s
  | .provConfirm tm => Sys2Proof.Machine.execProvConfirm tm s
  | .provArmExpiry tm => Sys2Proof.Machine.execProvArmExpiry tm s
  | .ksCommandDone => Sys2Proof.Machine.execKsCommandDone s
  | .ksBindingRead => Sys2Proof.Machine.execKsBindingRead s
  | .ksBindingWrite => Sys2Proof.Machine.execKsBindingWrite s
  | .ksBindingClear => Sys2Proof.Machine.execKsBindingClear s
  | .ksOwnWrite k v => Sys2Proof.Machine.execKsOwnWrite k v s
  | .keyRecordSaved => Sys2Proof.Machine.execKeyRecordSaved s
  | .tamperTrip src => Sys2Proof.Machine.execTamperTrip src s
  | .logFlush f => Sys2Proof.Machine.execLogFlush f s
  | .logFlushDone => Sys2Proof.Machine.execLogFlushDone s
  | .clearArm f tm => Sys2Proof.Machine.execClearArm f tm s
  | .clearConfirm f tm => Sys2Proof.Machine.execClearConfirm f tm s
  | .sectorEraseDone => Sys2Proof.Machine.execSectorEraseDone s
  | .logFreezeWrite f v tm => Sys2Proof.Machine.execLogFreezeWrite f v tm s
  | .freezeTimeout f tm => Sys2Proof.Machine.execFreezeTimeout f tm s
  | .logCurAdv f => Sys2Proof.Machine.execLogCurAdv f s
  | .logReadVerify sector idx crcOk => Sys2Proof.Machine.execLogReadVerify sector idx crcOk s
  | .counterPersist c => Sys2Proof.Machine.execCounterPersist c s
  | .archiveValueWritten ok => Sys2Proof.Machine.execArchiveValueWritten ok s
  | .archiveIndexWritten ok => Sys2Proof.Machine.execArchiveIndexWritten ok s
  | .driveRemove d => Sys2Proof.Machine.execDriveRemove d s
  | .driveInsert d drv => Sys2Proof.Machine.execDriveInsert d drv s
  | .formatDrive d => Sys2Proof.Machine.execFormatDrive d s
  | .formatAll => Sys2Proof.Machine.execFormatAll s
  | .archiveTransfer v => Sys2Proof.Machine.execArchiveTransfer v s
  | .transferDone hostErr => Sys2Proof.Machine.execTransferDone hostErr s
  | .biTransition k level tm => Sys2Proof.Machine.execBiTransition k level tm s
  | .debounceExpiry k tm => Sys2Proof.Machine.execDebounceExpiry k tm s
  | .chatterRelease k tm => Sys2Proof.Machine.execChatterRelease k tm s
  | .fioEdgePop => Sys2Proof.Machine.execFioEdgePop s
  | .fioBiGrantWrite t v => Sys2Proof.Machine.execFioBiGrantWrite t v s
  | .bcOwnWrite k v => Sys2Proof.Machine.execBcOwnWrite k v s
  | .inhibitTimer k tm => Sys2Proof.Machine.execInhibitTimer k tm s
  | .minTripExpiry k tm => Sys2Proof.Machine.execMinTripExpiry k tm s
  | .currentLimit k o ma tm => Sys2Proof.Machine.execCurrentLimit k o ma tm s
  | .limitTimeout k o tm => Sys2Proof.Machine.execLimitTimeout k o tm s
  | .retryTimeout k o tm => Sys2Proof.Machine.execRetryTimeout k o tm s
  | .clrLatch k => Sys2Proof.Machine.execClrLatch k s
  | .supplyChange g cls quarterVolts => Sys2Proof.Machine.execSupplyChange g cls quarterVolts s
  | .supervisionPulse k o tm => Sys2Proof.Machine.execSupervisionPulse k o tm s
  | .supervisionPulseEnd k o above12V tm => Sys2Proof.Machine.execSupervisionPulseEnd k o above12V tm s
  | .lowCurrentTimeout k tm o => Sys2Proof.Machine.execLowCurrentTimeout k tm o s
  | .announceReceive p m tm => Sys2Proof.Machine.execAnnounceReceive p m tm s
  | .syncReceive p gm offset tm => Sys2Proof.Machine.execSyncReceive p gm offset tm s
  | .pdelayReceive p delay tm => Sys2Proof.Machine.execPdelayReceive p delay tm s
  | .ptpTransmit p kind tm => Sys2Proof.Machine.execPtpTransmit p kind tm s
  | .announceTimeout tm => Sys2Proof.Machine.execAnnounceTimeout tm s
  | .referenceLost tm => Sys2Proof.Machine.execReferenceLost tm s
  | .ppsInEdge tm => Sys2Proof.Machine.execPpsInEdge tm s
  | .irigBFrame m tm => Sys2Proof.Machine.execIrigBFrame m tm s
  | .slewDone tm => Sys2Proof.Machine.execSlewDone tm s
  | .holdoverSpecExpiry tm => Sys2Proof.Machine.execHoldoverSpecExpiry tm s
  | .ppsOut => Sys2Proof.Machine.execPpsOut s
  | .ppsOutEnd => Sys2Proof.Machine.execPpsOutEnd s
  | .timeCtrlWrite v => Sys2Proof.Machine.execTimeCtrlWrite v s
  | .timePtpcfgWrite v => Sys2Proof.Machine.execTimePtpcfgWrite v s
  | .timeTickcfgWrite v => Sys2Proof.Machine.execTimeTickcfgWrite v s
  | .timeLatch v tm => Sys2Proof.Machine.execTimeLatch v tm s
  | .timeSetGo v tm => Sys2Proof.Machine.execTimeSetGo v tm s
  | .timeEdgePop v => Sys2Proof.Machine.execTimeEdgePop v s
  | .timestampCalibration p => Sys2Proof.Machine.execTimestampCalibration p s
  | .ocxoAgeingUpdate model => Sys2Proof.Machine.execOcxoAgeingUpdate model s
  | .gooseTalExpiry g tm => Sys2Proof.Machine.execGooseTalExpiry g tm s
  | .powerGood tm => Sys2Proof.Machine.execPowerGood tm s
  | .bootImageVerified aOk bOk => Sys2Proof.Machine.execBootImageVerified aOk bOk s
  | .selfTestComplete r => Sys2Proof.Machine.execSelfTestComplete r s
  | .ddr5Trained ok => Sys2Proof.Machine.execDdr5Trained ok s
  | .keyStoreUnlock checkOk => Sys2Proof.Machine.execKeyStoreUnlock checkOk s
  | .configRestored recordOk => Sys2Proof.Machine.execConfigRestored recordOk s
  | .tenantImagesLoaded bad => Sys2Proof.Machine.execTenantImagesLoaded bad s
  | .loomStart => Sys2Proof.Machine.execLoomStart s
  | .powerFailWarning tm => Sys2Proof.Machine.execPowerFailWarning tm s
  | .powerFailReset tm => Sys2Proof.Machine.execPowerFailReset tm s
  | .railFault rail => Sys2Proof.Machine.execRailFault rail s
  | .faultRestart tm => Sys2Proof.Machine.execFaultRestart tm s
  | .thermalHold tm => Sys2Proof.Machine.execThermalHold tm s
  | .thermalRelease => Sys2Proof.Machine.execThermalRelease s
  | .retireCore p force => Sys2Proof.Machine.execRetireCore p force s
  | .retireHeddleUnit u force => Sys2Proof.Machine.execRetireHeddleUnit u force s
  | .shadowNow place => Sys2Proof.Machine.execShadowNow place s
  | .clearDead => Sys2Proof.Machine.execClearDead s
  | .hcReset tm => Sys2Proof.Machine.execHcReset tm s
  | .clearCause => Sys2Proof.Machine.execClearCause s
  | .sramScrub corrected addr => Sys2Proof.Machine.execSramScrub corrected addr s
  | .ddr5Patrol retired => Sys2Proof.Machine.execDdr5Patrol retired s
  | .pantryScrub corrected => Sys2Proof.Machine.execPantryScrub corrected s
  | .telemetryRecord r tm => Sys2Proof.Machine.execTelemetryRecord r tm s
  | .inventory b => Sys2Proof.Machine.execInventory b s
  | .asset b => Sys2Proof.Machine.execAsset b s
  | .health b => Sys2Proof.Machine.execHealth b s
  | .logInfo b => Sys2Proof.Machine.execLogInfo b s
  | .logSel b => Sys2Proof.Machine.execLogSel b s
  | .logRead b => Sys2Proof.Machine.execLogRead b s
  | .pwrState b => Sys2Proof.Machine.execPwrState b s
  | .pwrArm b tm => Sys2Proof.Machine.execPwrArm b tm s
  | .pwrShutdown b tm => Sys2Proof.Machine.execPwrShutdown b tm s
  | .pwrPowerOn b tm => Sys2Proof.Machine.execPwrPowerOn b tm s
  | .pwrReset b tm => Sys2Proof.Machine.execPwrReset b tm s
  | .statusRead => Sys2Proof.Machine.execStatusRead s
  | .busTimeout => Sys2Proof.Machine.execBusTimeout s
  | .pauseQuantaExpiry p tc => Sys2Proof.Machine.execPauseQuantaExpiry p tc s
  | .coreSelfTestTimeout c => Sys2Proof.Machine.execCoreSelfTestTimeout c s
  | .pairLinkLaneDown k => Sys2Proof.Machine.execPairLinkLaneDown k s
  | .pairLinkLaneUp k => Sys2Proof.Machine.execPairLinkLaneUp k s
  | .tamperSourceCleared src => Sys2Proof.Machine.execTamperSourceCleared src s
  | .clearArmExpiry tm => Sys2Proof.Machine.execClearArmExpiry tm s
  | .standbyPowerLoss => Sys2Proof.Machine.execStandbyPowerLoss s
  | .standbyPowerUp lidOpened lidOpen => Sys2Proof.Machine.execStandbyPowerUp lidOpened lidOpen s
  | .tempWarn sensor t16 => Sys2Proof.Machine.execTempWarn sensor t16 s
  | .qsfp28ModuleInserted cage highPower => Sys2Proof.Machine.execQsfp28ModuleInserted cage highPower s

end Sys2Proof.Machine
end

