-- ==== Sys2Proof/WellFormed.lean ====
section
/-!
DEFINITION. Which commands are well formed: an operand lies in the range that the rule naming it gives. The field widths that
the operand types already fix are not repeated here; what an ill-formed command does is not the manual's subject.
-/
namespace Sys2Proof

/-- `n` fits in `b` bits. -/
abbrev fits (b n : Nat) : Bool := decide (n < 2 ^ b)

/-- A sampled-value ASDU (R94): every value has its quality word; the counter and the synchronisation field keep their widths. -/
def SvAsdu.wf (a : SvAsdu) : Bool :=
  decide (a.quals.length = a.vals.length) && fits 16 a.smpCnt && fits 8 a.smpSynch

/-- A typed GOOSE member holds what its type admits, in at most 32 bits (R193). -/
def GooseVal.wf : GooseVal → Bool
  | .bool _ | .float _ | .word _ => true
  | .int b v => decide (0 < b.val) && decide (-(2 ^ (b.val - 1) : Int) ≤ v) && decide (v < 2 ^ (b.val - 1))
  | .uint v => fits 32 v
  | .bits l => decide (l.length ≤ 32)

/-- A GOOSE message (R66, R193): 32-bit numbers. -/
def GooseMsg.wf (m : GooseMsg) : Bool := fits 32 m.stNum && fits 32 m.sqNum && fits 32 m.talMs && m.members.all GooseVal.wf

/-- A lease message keeps the widths of its fields (R271). -/
def LeaseMsg.wf (m : LeaseMsg) : Bool :=
  fits 32 m.epoch && fits 32 m.seq && fits 32 m.echo && fits 48 m.tick && fits 32 m.ckpt

/-- An Announce data set (R33). -/
def Announce.wf (m : Announce) : Bool :=
  fits 8 m.domain && fits 8 m.prio1 && fits 8 m.cls && fits 8 m.acc && fits 16 m.variance && fits 8 m.prio2 && fits 16 m.steps

/-- A PTP message: an 8-bit domain, a 16-bit sequence number, a data set in an Announce alone. -/
def PtpMsg.wf (m : PtpMsg) : Bool :=
  fits 8 m.domain && fits 16 m.seq && (match m.ann with | some a => m.kind == .announce && a.wf | none => m.kind != .announce)

/-- What a frame carries. -/
def Payload.wf : Payload → Bool
  | .sv appid _ _ asdus => fits 16 appid && asdus.all SvAsdu.wf
  | .goose appid _ m => fits 16 appid && m.wf
  | .ptp m => m.wf
  | .verify | .respond => true
  | .pfc _ quanta => decide (quanta.length = 8) && quanta.all (fits 16)
  | .pause quanta => fits 16 quanta
  | .lease m => m.wf
  | .raw et bytes => fits 16 et && decide (bytes.length ≤ 65535)

/-- A frame: a 3-bit priority, a length in 16 bits (R63). -/
def Frame.wf (f : Frame) : Bool := fits 3 f.pcp && fits 16 f.len && f.body.wf

/-- An error names a place that exists (R343). -/
def ErrLoc.wf : ErrLoc → Bool
  | .packetBuffer cell => decide (cell < 262144)
  | .stateMemory line => decide (line < 0x2000000 / 64)
  | .ddrPage page => decide (page < 0x1000000)
  | .pantry word => decide (word < 16384)
  | .coreLocal _ | .heddle _ | .lineShadow | .loom | .tru | .retainedRead _ | .keyStore | .other _ => true

/-- A submission-queue entry keeps the widths of its fields (R253). -/
def SqEntry.wf (e : SqEntry) : Bool :=
  fits 8 e.opcode && fits 16 e.tag && fits 64 e.host && fits 32 e.off && fits 32 e.len && fits 6 e.target

/-- A checkpoint item has the octets its kind holds (R280). -/
def CkptItem.wf : CkptItem → Bool
  | .page _ data => decide (data.length = 4096)
  | .retained _ _ data => decide (data.length = 16384)
  | .loop _ params st => decide (params.length = 23) && (decide (st.length = 9) || decide (st.length = 20))
  | .pub _ stNum => fits 32 stNum
  | .slot _ _ => true
  | .tenant _ sig => decide (sig.length = 8)

/-- An item as it is sent keeps the width of its checkpoint's number (R271, R280). -/
def CkptPage.wf (p : CkptPage) : Bool := fits 32 p.seq && p.item.wf

/-- A staged image is at most 8 MiB (R266); every other defect of it is a status of IMG_LOAD. -/
def ImageLoad.wf (l : ImageLoad) : Bool := decide (l.bytes.length ≤ 0x800000)

/-- A telemetry record's readings (R354): 24 temperatures, 16 rails, 12 cages, 48 lanes. -/
def TelemetryIn.wf (r : TelemetryIn) : Bool :=
  decide (r.temps.length = 24) && decide (r.rails.length = 16) && decide (r.cages.length = 12) && decide (r.lanes.length = 48)

/-- A management-bus command carries at most a length octet and 32 octets of payload (R364, R365). -/
def BusCmd.wf (b : BusCmd) (own : Byte) : Bool :=
  decide (b.data.length ≤ 33) && (b.code == own || !([0x01, 0x02, 0x03, 0x10, 0x11, 0x12, 0x20, 0x21, 0x22] : List Byte).contains b.code)

/-- Well-formed commands. -/
def Instr.wf : Instr → Bool
  | .registerWrite _ off ws => decide (off % 4 = 0) && decide (1 ≤ ws.length) && decide (ws.length ≤ 16)
  | .frameReceive _ f _ => f.wf
  | .pairLinkWriteReceive bytes => decide (bytes ≤ 262144)
  | .creditReturn bytes => decide (bytes ≤ 262144)
  | .uncorrectableError loc => loc.wf
  | .apertureWrite off data => decide (0 < data.length) && decide (off + data.length ≤ 0x2000000)
  | .dbSqTail _ _ tail entries => decide (tail < 4096) && decide (entries.length ≤ 4096) && entries.all SqEntry.wf
  | .dbCqHead _ _ head => decide (head < 4096)
  | .imgPut _ _ data _ => decide (data.length ≤ 0x100000)
  | .imgLoad _ _ img => img.wf
  | .renewal _ m _ => m.wf && decide (m.kind = .renewal)
  | .acknowledgement _ m _ => m.wf && decide (m.kind = .ack)
  | .yield _ m _ => m.wf && decide (m.kind = .yld)
  | .ready _ m _ => m.wf && decide (m.kind = .ready)
  | .refuse _ m _ => m.wf && decide (m.kind = .refuse)
  | .swapFailed _ m _ => m.wf && decide (m.kind = .swapFailed)
  | .checkpointPageReceive item => item.wf
  | .checkpointClose c => decide (c.seq < 2 ^ 32)
  | .driveInsert _ drv => decide (drv.width ≤ 4) && decide (1 ≤ drv.rate) && decide (drv.rate ≤ 5)
  | .currentLimit _ _ ma _ => decide (ma < 65536)
  | .supplyChange _ _ q => decide (q < 4096)
  | .announceReceive _ m _ => m.wf
  | .selfTestComplete r => r.cores.all (fun c => decide (c < 72)) && r.units.all (fun u => decide (u < 17))
  | .ddr5Patrol pages => pages.all (fun p => decide (p < 0x1000000))
  | .telemetryRecord r _ => r.wf
  | .inventory b => b.wf 0x01
  | .asset b => b.wf 0x02
  | .health b => b.wf 0x03
  | .logInfo b => b.wf 0x10
  | .logSel b => b.wf 0x11
  | .logRead b => b.wf 0x12
  | .pwrState b => b.wf 0x20
  | .pwrArm b _ => b.wf 0x21
  | .pwrShutdown b _ => b.wf 0x22
  | .pwrPowerOn b _ => b.wf 0x22
  | .pwrReset b _ => b.wf 0x22
  | .add _ _ | .sub _ _ | .and _ _ | .or _ _ | .xor _ _ | .sll _ _ | .srl _ _ | .sra _ _ | .min _ _ | .max _ _
  | .minu _ _ | .maxu _ _ | .adds _ _ | .subs _ _ | .addus _ _ | .subus _ _ | .mul _ _ | .mulh _ _ | .mulhu _ _
  | .abss _ _ | .clz _ _ | .popc _ _ | .sexb _ _ | .sexh _ _ | .zexh _ _ | .addi _ _ | .andi _ _ | .ori _ _ | .xori _ _
  | .slli _ _ | .srli _ _ | .srai _ _ | .lui _ _ | .llo _ _ | .ceq _ _ | .cne _ _ | .clt _ _ | .cle _ _ | .cltu _ _
  | .cleu _ _ | .ctst _ _ | .cmpi _ _ | .pand _ _ | .por _ _ | .pxor _ _ | .pandn _ _ | .pfrom _ _ | .pto _ _
  | .div _ _ | .divu _ _ | .rem _ _ | .remu _ _ | .rdsr _ _ | .clrf _ _ | .macq _ _ | .macq31 _ _ | .accq15 _ _
  | .accq31 _ _ | .magsq _ _ | .ashr _ _ | .amov _ _ | .sdft _ _ | .mulq _ _ | .addq _ _ | .subq _ _ | .negq _ _
  | .absq _ _ | .atan2 _ _ | .mulq31 _ _ | .addq31 _ _ | .subq31 _ _ | .negq31 _ _ | .absq31 _ _ | .q31toq15 _ _
  | .rndq15 _ _ | .rndq31 _ _ | .fadd _ _ | .fsub _ _ | .fmul _ _ | .fdiv _ _ | .fsqrt _ _ | .fmin _ _ | .fmax _ _
  | .fneg _ _ | .fabs _ _ | .fmac _ _ | .fceq _ _ | .fclt _ _ | .fcle _ _ | .fcun _ _ | .fcvtw _ _ | .fcvtwt _ _
  | .fcvtwu _ _ | .fcvtwut _ _ | .fcvtq15 _ _ | .fcvtq15t _ _ | .fcvtq31 _ _ | .fcvtq31t _ _ | .fcvtsw _ _
  | .fcvtswu _ _ | .fcvtsq15 _ _ | .fcvtsq31 _ _ | .lb _ _ | .lbu _ _ | .lh _ _ | .lhu _ _ | .lw _ _ | .ld _ _
  | .sb _ _ | .sh _ _ | .sw _ _ | .sd _ _ | .la _ _ | .sa _ _ | .pfsm _ _ | .waitsm _ _ | .lrow _ _ _ | .limg _ _
  | .br _ _ | .call _ _ | .jr _ _ | .callr _ _ | .tend _ _ | .txw _ _ | .txwd _ _ | .txpub _ _ _ | .txout _ _
  | .txarm _ _ _ | .txabort _ _ | .ceval _ _ | .cset _ _ | .csett _ _ | .cget _ _ | .cinj _ _ | .hget _ _ | .hld _ _
  | .hst _ _ | .trip _ _ | .tripbc _ _ | .hmark _ _ | .hpass _ _ | .srd _ _ | .swr _ _ | .sfence _ _ | .txswr _ _
  | .wearRemap _ | .tagVerdict _ | .egressDequeue _ _ | .frameSent _ _ | .pfcRepeat | .swcPCfgWrite _ _
  | .swcPMacsecWrite _ _ | .blockLock _ _ | .trainingTimeout _ | .lossOfLock _ | .verifyAttemptTimeout _
  | .verifyResponse _ | .fenceAutoRelease _ _ | .fenceRelease _ | .swcPLatch _ _ _ | .fdbRead | .fdbWriteStatic
  | .fdbDelete | .fdbFlushLearned | .fdbAgeOut _ _ _ | .vlanWrite | .vlanRead | .swcOvfCfgWrite _ | .colMatchRead
  | .colMatchWrite | .colMatchInvalidate | .colPairmodeWrite _ _ | .dupEntryForget _ _ _ | .tickEdge
  | .programWindowOpen | .watchdog _ | .deadline | .swap | .commitComplete | .dopCopyDone | .arbiterGrant _
  | .quotaWindow | .ddr5Grant _ | .partitionEntryWrite _ _ _ | .smaBClr _ _ | .smaDClr _ _ | .ddr5ChannelLost _
  | .historyWrite | .historyRebuildDone | .loopbackAsdu _ | .pbStart | .pbStop | .loomCtrlWrite _ | .loomTransitWrite _
  | .loomWCfgWrite _ _ | .recordDispatch _ | .recordExit _ _ | .releaseRequest _ | .vbaHoldEnd _ | .retransmission _ _
  | .goosePublish _ _ | .svPublish _ | .slotRead | .slotWrite | .slotClear | .truCtrlWrite _ | .truRetxWrite _
  | .kernelLoad _ _ | .hdlBindingWrite _ _ _ | .gateWrite _ _ _ _ | .gateVselWrite _ _ _ | .stateWordWrite _ _
  | .hdlUCtrlWrite _ _ | .evtPop _ | .shadowPeriodStart | .shadowCopyDone | .bistComplete _ _ _ | .heddleRestoreDone
  | .coreLost _ | .spareReady _ | .coreShadowRotation _ | .start _ | .stop _ | .enterTest _ | .leaveTest _ | .fence _
  | .unfence _ | .cmtTTolWrite _ _ | .cmtCfgWrite _ | .dopSubmit | .dopCancel | .loopWordWrite _ _ _ _
  | .cluLOwnWrite _ _ _ | .cluSgMembWrite _ _ _ | .injCmd _ _ | .capArm _ _ | .capStop _ _ | .capRead _ _
  | .cluCapCtrlWrite _ _ _ | .pcieLinkChange _ | .vfFlr _ | .pfFlr | .numvfsChange _ | .commandAbandon _ _
  | .dbMbSend _ | .dbMbAck _ | .mbxSend _ | .mbxAck _ | .queueEnable _ _ _ | .nop _ _ | .ciRead _ _
  | .ciReadAttempt _ _ _ | .queueCompletion _ _ | .grantOpen _ | .grantCommit | .grantDiscard | .ownershipWrite _ _ _
  | .unload _ | .configRecordWritten | .leaseRenewal _ | .leaseExpiry _ | .takeover _ | .takeoverQuietCheck _
  | .quietChange _ _ _ | .restoreComplete | .checkpointSent | .plannedSwapDue | .pairSwap | .pairFence | .pairUnfence _
  | .solo _ | .leaveSolo | .pluEpochWrite _ | .pluTClassWrite _ _ | .pluLeaseWrite _ | .ksGen _ | .ksUnwrap _
  | .ksPubimp _ | .ksDerive _ | .ksSwap _ | .ksDiscard _ | .ksErase _ | .ksReadpub _ | .ksSign _ | .ksVerify _
  | .ksHmac _ | .ksHmacv _ | .ksOwner _ | .provArm _ | .provConfirm _ | .provArmExpiry _ | .ksCommandDone
  | .ksBindingRead | .ksBindingWrite | .ksBindingClear | .ksOwnWrite _ _ | .keyRecordSaved | .tamperTrip _
  | .logFlush _ | .logFlushDone | .clearArm _ _ | .clearConfirm _ _ | .sectorEraseDone | .logFreezeWrite _ _ _
  | .freezeTimeout _ _ | .logCurAdv _ | .logReadVerify _ _ _ | .counterPersist _ | .archiveValueWritten _
  | .archiveIndexWritten _ | .driveRemove _ | .formatDrive _ | .formatAll | .archiveTransfer _ | .transferDone _
  | .biTransition _ _ _ | .debounceExpiry _ _ | .chatterRelease _ _ | .fioEdgePop | .fioBiGrantWrite _ _
  | .bcOwnWrite _ _ | .inhibitTimer _ _ | .minTripExpiry _ _ | .limitTimeout _ _ _ | .retryTimeout _ _ _ | .clrLatch _
  | .supervisionPulse _ _ _ | .supervisionPulseEnd _ _ _ _ | .lowCurrentTimeout _ _ _ | .syncReceive _ _ _ _
  | .pdelayReceive _ _ _ | .ptpTransmit _ _ _ | .announceTimeout _ | .referenceLost _ | .ppsInEdge _ | .irigBFrame _ _
  | .slewDone _ | .holdoverSpecExpiry _ | .ppsOut | .ppsOutEnd | .timeCtrlWrite _ | .timePtpcfgWrite _
  | .timeTickcfgWrite _ | .timeLatch _ _ | .timeSetGo _ _ | .timeEdgePop _ | .timestampCalibration _
  | .ocxoAgeingUpdate _ | .gooseTalExpiry _ _ | .powerGood _ | .bootImageVerified _ _ | .ddr5Trained _
  | .keyStoreUnlock _ | .configRestored _ | .tenantImagesLoaded _ | .loomStart | .powerFailWarning _
  | .powerFailReset _ | .railFault _ | .faultRestart _ | .thermalHold _ | .thermalRelease | .retireCore _ _
  | .retireHeddleUnit _ _ | .shadowNow _ | .clearDead | .hcReset _ | .clearCause | .sramScrub _ _ | .pantryScrub _
  | .statusRead | .busTimeout | .pauseQuantaExpiry _ _ | .coreSelfTestTimeout _ | .pairLinkLaneDown _
  | .pairLinkLaneUp _ | .tamperSourceCleared _ | .clearArmExpiry _ | .standbyPowerLoss | .standbyPowerUp _ _
  | .tempWarn _ _ | .qsfp28ModuleInserted _ _
      => true

end Sys2Proof
end

