-- ==== Sys2Proof/Safety.lean ====
section
/-!
DEFINITION. The terms in which claims about the block are stated: when a core issues an instruction, what an instruction may
change, the results the instruction reference gives, and the invariant that every step keeps.
-/
namespace Sys2Proof.Machine

/-! ## Frames -/

/-- The parts of the state. -/
inductive Part where
  | regs | now | op | time | port | sw | loom | core | ten | cmt | spare | arb | plu | recorder | arc | hif | hdl | tru | clu | fio | ks | hc | mem | ddr | out | freeCtr | pending
deriving DecidableEq, Repr

/-- A part is the same in two states. -/
def Part.same (s t : State) : Part → Prop
  | .regs => t.regs = s.regs
  | .now => t.now = s.now
  | .op => t.op = s.op
  | .time => t.time = s.time
  | .port => t.port = s.port
  | .sw => t.sw = s.sw
  | .loom => t.loom = s.loom
  | .core => t.core = s.core
  | .ten => t.ten = s.ten
  | .cmt => t.cmt = s.cmt
  | .spare => t.spare = s.spare
  | .arb => t.arb = s.arb
  | .plu => t.plu = s.plu
  | .recorder => t.rec' = s.rec'
  | .arc => t.arc = s.arc
  | .hif => t.hif = s.hif
  | .hdl => t.hdl = s.hdl
  | .tru => t.tru = s.tru
  | .clu => t.clu = s.clu
  | .fio => t.fio = s.fio
  | .ks => t.ks = s.ks
  | .hc => t.hc = s.hc
  | .mem => t.mem = s.mem
  | .ddr => t.ddr = s.ddr
  | .out => t.out = s.out
  | .freeCtr => t.freeCtr = s.freeCtr
  | .pending => t.pending = s.pending

/-- Every part but those named is unchanged. -/
def KeepsBut (ps : List Part) (s t : State) : Prop := ∀ p, p ∉ ps → p.same s t

/-- Every register but those named is unchanged. -/
def KeepsRegsBut (offs : List Nat) (s t : State) : Prop := ∀ off, off ∉ offs → rd t off = rd s off

/-! ## Fault-halt (R342) -/

/-- The commands that reach the block through a register window that is silent in Fault-halt: writes of registers, and triggers. -/
def silentRow : Instr → Bool
  | .swcPCfgWrite .. | .swcPMacsecWrite .. | .fenceRelease .. | .swcPLatch .. | .fdbRead .. | .fdbWriteStatic .. | .fdbDelete ..
  | .fdbFlushLearned .. | .vlanWrite .. | .vlanRead .. | .swcOvfCfgWrite .. | .colMatchRead .. | .colMatchWrite ..
  | .colMatchInvalidate .. | .colPairmodeWrite .. | .partitionEntryWrite .. | .smaBClr .. | .smaDClr .. | .pbStart ..
  | .pbStop .. | .loomCtrlWrite .. | .loomTransitWrite .. | .loomWCfgWrite .. | .slotRead .. | .slotWrite .. | .slotClear ..
  | .truCtrlWrite .. | .truRetxWrite .. | .kernelLoad .. | .hdlBindingWrite .. | .gateWrite .. | .gateVselWrite ..
  | .stateWordWrite .. | .hdlUCtrlWrite .. | .evtPop .. | .start .. | .stop .. | .enterTest .. | .leaveTest .. | .fence ..
  | .unfence .. | .cmtTTolWrite .. | .cmtCfgWrite .. | .dopSubmit .. | .dopCancel .. | .apertureWrite .. | .loopWordWrite ..
  | .cluLOwnWrite .. | .cluSgMembWrite .. | .injCmd .. | .capArm .. | .capStop .. | .capRead .. | .cluCapCtrlWrite ..
  | .dbMbSend .. | .dbMbAck .. | .mbxSend .. | .mbxAck .. | .dbSqTail .. | .dbCqHead .. | .queueEnable .. | .grantOpen ..
  | .grantCommit .. | .grantDiscard .. | .ownershipWrite .. | .unload .. | .pairSwap .. | .pairFence .. | .pairUnfence ..
  | .solo .. | .leaveSolo .. | .pluEpochWrite .. | .pluTClassWrite .. | .pluLeaseWrite .. | .ksGen .. | .ksOwner ..
  | .provArm .. | .provConfirm .. | .ksBindingRead .. | .ksBindingWrite .. | .ksBindingClear .. | .ksOwnWrite ..
  | .formatDrive .. | .formatAll .. | .archiveTransfer .. | .fioEdgePop .. | .fioBiGrantWrite .. | .bcOwnWrite .. | .clrLatch ..
  | .timeCtrlWrite .. | .timePtpcfgWrite .. | .timeTickcfgWrite .. | .timeLatch .. | .timeSetGo .. | .timeEdgePop ..
  | .ksUnwrap .. | .ksPubimp .. | .ksDerive .. | .ksSwap .. | .ksDiscard .. | .ksErase .. | .ksReadpub .. | .ksSign ..
  | .ksVerify .. | .ksHmac .. | .ksHmacv .. => true
  | _ => false

/-! ## Issuing an instruction (R114, R126, R128) -/

/-- All that an instruction of a core can wait for comes in time: its issue slot, every register and every chained accumulator, before
the core's watchdog budget runs out, if it has one (R130), and at all (R241). -/
def InTime (s : State) (l : Fin 64) : Prop :=
  ∀ b, watchdogEnd s l = some b ∨ b = never →
    (getCore s l).cyc < b ∧ (∀ i, Tab.get 0 (getCore s l).ready i < b) ∧ ∀ k, Tab.get 0 (getCore s l).chain k < b

/-- A core fetches: it runs, no trap of its tenant is stopping it (R131), what it waits for comes in time, and its pc lies in its code
region. -/
def Fetches (s : State) (l : Fin 64) : Prop :=
  (getCore s l).run = .running ∧ (getCore s l).haltAt = none ∧ InTime s l ∧ inCode s l (getCore s l).pc.toNat = true

/-- A core issues an instruction whose predicate field is `pr`, and the predicate is true. -/
def Issues (s : State) (l : Fin 64) (pr : BitVec 3) : Prop := Fetches s l ∧ (getCore s l).ctx.rp pr.toNat = true

/-- The core has reached the cycle in which an instruction issues; nothing else has changed. -/
def AtIssue (s : State) (l : Fin 64) (s' : State) : Prop :=
  ∃ n, (getCore s l).cyc ≤ n ∧ s' = setCore s l { getCore s l with cyc := n }

/-- The instruction takes a trap as it issues, with an address; or one for which the rules give no address. -/
def Traps (i : Instr) (s : State) (l : Fin 64) (cause : Nat) (a : Word) : Prop :=
  ∃ s', AtIssue s l s' ∧ exec i s = .next (trap s' l cause a)
def TrapsData (i : Instr) (s : State) (l : Fin 64) : Prop := ∃ s', AtIssue s l s' ∧ exec i s = .next (trapData s' l)

/-- The next state of an instruction that only computes: nothing but the core changes, and of the core only its registers, when
they are ready, its cycle count, by at least the cycles the instruction blocks, and its pc, by one word. -/
def CoreComputes (i : Instr) (l : Fin 64) (cost : Nat) (s : State) (res : Ctx → Ctx → Prop) : Prop :=
  ∃ c : Core, exec i s = .next (setCore s l c) ∧
    c = { getCore s l with ctx := c.ctx, ready := c.ready, chain := c.chain, cyc := c.cyc, pc := (getCore s l).pc + 4 } ∧
    (getCore s l).cyc + cost ≤ c.cyc ∧ res (getCore s l).ctx c.ctx

/-- The next state of an instruction that reads a memory, the Loom or a register: its core moves one word on with the result,
keeping its local memory; no other core, no committed byte, no tenant and no queue changes. -/
def CoreReads (i : Instr) (l : Fin 64) (s : State) (res : Ctx → Ctx → Prop) : Prop :=
  ∃ t, exec i s = .next t ∧ res (getCore s l).ctx (getCore t l).ctx ∧ (getCore t l).pc = (getCore s l).pc + 4 ∧
    (getCore t l).mem = (getCore s l).mem ∧ (getCore t l).scr = (getCore s l).scr ∧ (getCore t l).run = (getCore s l).run ∧
    (∀ k, k ≠ l → getCore t k = getCore s k) ∧ t.mem = s.mem ∧ t.ten = s.ten ∧ t.loom = s.loom ∧ t.pending = s.pending

/-- The next state of a transfer of control: the core's pc is the target, at least two cycles on; nothing else changes but what
`res` says of its registers. -/
def CoreJumps (i : Instr) (l : Fin 64) (s : State) (target : Word) (res : Ctx → Ctx → Prop) : Prop :=
  ∃ c : Core, exec i s = .next (setCore s l c) ∧
    c = { getCore s l with ctx := c.ctx, ready := c.ready, cyc := c.cyc, pc := target } ∧
    (getCore s l).cyc + 2 ≤ c.cyc ∧ res (getCore s l).ctx c.ctx

/-- The next state of a store of `n` bytes of a value at a local address: exactly those bytes of the core's local memory take the
value, least significant first; nothing else changes but the core's pc and cycle count. -/
def CoreStores (i : Instr) (l : Fin 64) (s : State) (a n v : Nat) : Prop :=
  ∃ c : Core, exec i s = .next (setCore s l c) ∧
    c = { getCore s l with scr := c.scr, mem := c.mem, cyc := c.cyc, pc := (getCore s l).pc + 4 } ∧
    (getCore s l).cyc < c.cyc ∧
    ∀ x, localByte (setCore s l c) l x =
      if a ≤ x ∧ x < a + n then BitVec.ofNat 8 (v / 256 ^ (x - a)) else localByte s l x

/-- The next state of an instruction that stages one transaction entry: the core holds it behind its earlier ones, the tenant has
staged one more; nothing else changes but the core's pc and cycle count. -/
def CoreStages (i : Instr) (l : Fin 64) (s : State) (e : Entry) : Prop :=
  let t := ten (coreOwner s l)
  ∃ c : Core, exec i s = .next (setCore (setTen s t { getTen s t with staged := (getTen s t).staged + 1 }) l c) ∧
    c = { getCore s l with entries := (getCore s l).entries ++ [e], cyc := c.cyc, pc := (getCore s l).pc + 4 } ∧
    (getCore s l).cyc < c.cyc

/-- The tenant of a core may stage an entry: its transaction is not aborted and its reservation is not used up (R149, R150). -/
def MayStage (s : State) (l : Fin 64) : Prop :=
  aborted s (coreOwner s l) = false ∧ (getTen s (ten (coreOwner s l))).staged < reservation s (coreOwner s l)

/-- The core issues the instruction as one of a manager image (R156). -/
def IssuesSystem (s : State) (l : Fin 64) (pr : BitVec 3) : Prop := Issues s l pr ∧ isManager s l = true

/-- A record stands in a stage of a Heddle unit whose instruction's predicate is true for it (R133, R134). -/
def InStage (s : State) (u : Fin 17) (id : Nat) (pr : BitVec 3) (r : HRec) : Prop :=
  getRec s u id = some r ∧ r.stage < 128 ∧ r.settle.ctx.rp pr.toNat = true

/-- The next state of an instruction that only computes, in a stage: what it writes joins the record's results still in their
stages, to be seen `lat` stages on; the record stands in the next stage; nothing else changes. Whatever context the results
land in, they do `res` to it. `s1` is the state with the instruction's own effect. -/
def StageActs (i : Instr) (u : Fin 17) (lat : Nat) (s s1 : State) (r : HRec) (res : Ctx → Ctx → Prop) : Prop :=
  ∃ w : Wr, exec i s = .next (setRec s1 u { r.settle with pend := r.settle.pend ++ [(r.stage + lat, w)], stage := r.stage + 1 }) ∧
    ∀ c, res c (c.apply w)

/-- An instruction in a stage that does nothing but compute. -/
def StageComputes (i : Instr) (u : Fin 17) (lat : Nat) (s : State) (r : HRec) (res : Ctx → Ctx → Prop) : Prop :=
  StageActs i u lat s s r res

/-! ## Results (R110, R112) -/

/-- General register `d` takes a value, g0 discards it; sticky flags are added; nothing else of the context changes. -/
def RegResult (d : Nat) (v fl : Word) (c c' : Ctx) : Prop :=
  (∀ i, c'.rg i = if i = d ∧ d ≠ 0 then v else c.rg i) ∧ (∀ k, c'.ra k = c.ra k) ∧ c'.p = c.p ∧ c'.fs = c.fs ||| fl

/-- Predicate `d` takes a value, p0 discards it; sticky flags are added. -/
def PredResult (d : Nat) (v : Bool) (fl : Word) (c c' : Ctx) : Prop :=
  (∀ i, c'.rg i = c.rg i) ∧ (∀ k, c'.ra k = c.ra k) ∧
    (∀ i, i < 8 → c'.rp i = if i = d ∧ d ≠ 0 then v else c.rp i) ∧ c'.fs = c.fs ||| fl

/-- Accumulator `k` takes a value; sticky flags are added. -/
def AccResult (k : Nat) (v : Int) (fl : Word) (c c' : Ctx) : Prop :=
  (∀ i, c'.rg i = c.rg i) ∧ (∀ j, c'.ra j = if j = k then v else c.ra j) ∧ c'.p = c.p ∧ c'.fs = c.fs ||| fl

/-- Nothing of the context changes. -/
def NoResult (c c' : Ctx) : Prop :=
  (∀ i, c'.rg i = c.rg i) ∧ (∀ k, c'.ra k = c.ra k) ∧ c'.p = c.p ∧ c'.fs = c.fs

/-- Two registers take the halves of an 8-byte value, the first one even (R115). -/
def PairResult (d n : Nat) (c c' : Ctx) : Prop :=
  (∀ i, c'.rg i = if i = d ∧ d ≠ 0 then BitVec.ofNat 32 n else if i = d + 1 then BitVec.ofNat 32 (n / 2 ^ 32) else c.rg i) ∧
    (∀ k, c'.ra k = c.ra k) ∧ c'.p = c.p ∧ c'.fs = c.fs

/-! ## Values as the rules give them (R121 to R124) -/

/-- A value clamped to a range. -/
def clamped (lo hi x : Int) : Int := max lo (min hi x)
/-- A flag that sets when a value lies outside a range. -/
def flagOutside (lo hi : Int) (fl : Word) (x : Int) : Word := if lo ≤ x ∧ x ≤ hi then 0 else fl

/-- A saturated signed 32-bit integer with fs.iov (bit 3). -/
def signedSat (x : Int) : Word × Word :=
  (BitVec.ofInt 32 (clamped (-2 ^ 31) (2 ^ 31 - 1) x), flagOutside (-2 ^ 31) (2 ^ 31 - 1) 8 x)
/-- A saturated unsigned 32-bit integer with fs.iov. -/
def unsignedSat (x : Int) : Word × Word :=
  (BitVec.ofInt 32 (clamped 0 (2 ^ 32 - 1) x), flagOutside 0 (2 ^ 32 - 1) 8 x)
/-- A Q15 result, sign-extended, with fs.sat (bit 0). -/
def q15Sat (x : Int) : Word × Word :=
  (BitVec.ofInt 32 (clamped (-2 ^ 15) (2 ^ 15 - 1) x), flagOutside (-2 ^ 15) (2 ^ 15 - 1) 1 x)
/-- A Q31 result with fs.sat. -/
def q31Sat (x : Int) : Word × Word :=
  (BitVec.ofInt 32 (clamped (-2 ^ 31) (2 ^ 31 - 1) x), flagOutside (-2 ^ 31) (2 ^ 31 - 1) 1 x)
/-- An accumulator result with fs.ova (bit 1). -/
def accSat (x : Int) : Int × Word := (clamped (-2 ^ 39) (2 ^ 39 - 1) x, flagOutside (-2 ^ 39) (2 ^ 39 - 1) 2 x)

/-- The integer nearest to x / 2^k, the even one of two equally near: `n` is it. -/
def NearestEven (x : Int) (k : Nat) (n : Int) : Prop :=
  2 * (x - n * 2 ^ k).natAbs < 2 ^ k ∨ (2 * (x - n * 2 ^ k).natAbs = 2 ^ k ∧ n % 2 = 0)

/-! ## The instruction groups of the reference (R136) -/

/-- Register operations of op 0x00 with two operands: latency, and the value g[d] takes of g[s1] and g[s2]. -/
def integerOps : List ((Who → FmtA → Instr) × Nat × (Word → Word → Word)) :=
  [(.add, 1, fun a b => a + b), (.sub, 1, fun a b => a - b), (.and, 1, fun a b => a &&& b), (.or, 1, fun a b => a ||| b),
   (.xor, 1, fun a b => a ^^^ b), (.sll, 1, fun a b => a <<< (b.toNat % 32)), (.srl, 1, fun a b => a >>> (b.toNat % 32)),
   (.sra, 1, fun a b => a.sshiftRight (b.toNat % 32)), (.min, 1, fun a b => if a.slt b then a else b),
   (.max, 1, fun a b => if a.slt b then b else a), (.minu, 1, fun a b => if a.ult b then a else b),
   (.maxu, 1, fun a b => if a.ult b then b else a), (.mul, 3, fun a b => a * b),
   (.mulh, 3, fun a b => BitVec.ofInt 32 (a.toInt * b.toInt / 2 ^ 32)),
   (.mulhu, 3, fun a b => BitVec.ofNat 32 (a.toNat * b.toNat / 2 ^ 32))]

/-- Saturating register operations of op 0x00: value and fs.iov. -/
def saturatingOps : List ((Who → FmtA → Instr) × (Word → Word → Word × Word)) :=
  [(.adds, fun a b => signedSat (a.toInt + b.toInt)), (.subs, fun a b => signedSat (a.toInt - b.toInt)),
   (.addus, fun a b => unsignedSat ((a.toNat : Int) + b.toNat)), (.subus, fun a b => unsignedSat ((a.toNat : Int) - b.toNat))]

/-- Register operations of op 0x00 with one operand, s2 being 0. -/
def unaryOps : List ((Who → FmtA → Instr) × (Word → Word × Word)) :=
  [(.abss, fun a => signedSat a.toInt.natAbs), (.clz, fun a => (BitVec.ofNat 32 (if a = 0 then 32 else 31 - a.toNat.log2), 0)),
   (.popc, fun a => (BitVec.ofNat 32 ((List.range 32).countP a.getLsbD), 0)),
   (.sexb, fun a => ((a.setWidth 8).signExtend 32, 0)), (.sexh, fun a => ((a.setWidth 16).signExtend 32, 0)),
   (.zexh, fun a => (BitVec.ofNat 32 (a.toNat % 2 ^ 16), 0))]

/-- Immediate operations that take any imm12. -/
def immediateOps : List ((Who → FmtI → Instr) × (Word → BitVec 12 → Word)) :=
  [(.addi, fun a i => a + i.signExtend 32), (.andi, fun a i => a &&& i.setWidth 32), (.ori, fun a i => a ||| i.setWidth 32),
   (.xori, fun a i => a ^^^ i.setWidth 32)]

/-- Immediate shifts: imm12 below 32. -/
def shiftImmOps : List ((Who → FmtI → Instr) × (Word → Nat → Word)) :=
  [(.slli, fun a n => a <<< n), (.srli, fun a n => a >>> n), (.srai, fun a n => a.sshiftRight n)]

/-- Comparisons into a predicate. -/
def compareOps : List ((Who → FmtA → Instr) × (Word → Word → Bool)) :=
  [(.ceq, fun a b => a == b), (.cne, fun a b => a != b), (.clt, fun a b => decide (a.toInt < b.toInt)),
   (.cle, fun a b => decide (a.toInt ≤ b.toInt)), (.cltu, fun a b => decide (a.toNat < b.toNat)),
   (.cleu, fun a b => decide (a.toNat ≤ b.toNat)), (.ctst, fun a b => a &&& b != 0)]

/-- Predicate logic. -/
def predicateOps : List ((Who → FmtA → Instr) × (Bool → Bool → Bool)) :=
  [(.pand, fun a b => a && b), (.por, fun a b => a || b), (.pxor, fun a b => a ^^ b), (.pandn, fun a b => a && !b)]

/-- Integer division (R121): value and fs bits, dz being bit 2 and iov bit 3. -/
def divideOps : List ((Fin 64 → FmtA → Instr) × (Word → Word → Word × Word)) :=
  [(.div, fun a b => if b = 0 then (if a.toInt < 0 then 0x80000000 else 0x7FFFFFFF, 4)
      else if a.toInt = -2 ^ 31 ∧ b.toInt = -1 then (0x7FFFFFFF, 8) else (BitVec.ofInt 32 (a.toInt.tdiv b.toInt), 0)),
   (.divu, fun a b => if b = 0 then (0xFFFFFFFF, 4) else (BitVec.ofNat 32 (a.toNat / b.toNat), 0)),
   (.rem, fun a b => if b = 0 then (a, 4) else (BitVec.ofInt 32 (a.toInt.tmod b.toInt), 0)),
   (.remu, fun a b => if b = 0 then (a, 4) else (BitVec.ofNat 32 (a.toNat % b.toNat), 0))]

/-- What op 0x10 combines into the accumulator (R136): latency, whether s2 is an operand (otherwise it is 0), and r from g[s1]
and g[s2]. -/
def accumulateOps : List ((Who → FmtX → Instr) × Nat × Bool × (Word → Word → Int)) :=
  [(.macq, 2, true, fun a b => q15 a * q15 b), (.macq31, 3, true, fun a b => rne (q31 a * q31 b) 32),
   (.accq15, 2, false, fun a _ => q15 a * 2 ^ 15), (.accq31, 2, false, fun a _ => rne (q31 a) 1),
   (.magsq, 2, true, fun a b => q15 a ^ 2 + q15 b ^ 2)]

/-- Q15 and Q31 register operations with two operands: latency, value and fs.sat. -/
def fixedOps : List ((Who → FmtA → Instr) × Nat × (Word → Word → Word × Word)) :=
  [(.mulq, 2, fun a b => q15Sat (rne (q15 a * q15 b) 15)), (.addq, 1, fun a b => q15Sat (q15 a + q15 b)),
   (.subq, 1, fun a b => q15Sat (q15 a - q15 b)), (.mulq31, 3, fun a b => q31Sat (rne (q31 a * q31 b) 31)),
   (.addq31, 1, fun a b => q31Sat (q31 a + q31 b)), (.subq31, 1, fun a b => q31Sat (q31 a - q31 b))]

/-- Q15 and Q31 register operations with one operand, s2 being 0. -/
def fixedUnaryOps : List ((Who → FmtA → Instr) × (Word → Word × Word)) :=
  [(.negq, fun a => q15Sat (-(q15 a))), (.absq, fun a => q15Sat (q15 a).natAbs), (.negq31, fun a => q31Sat (-(q31 a))),
   (.absq31, fun a => q31Sat (q31 a).natAbs), (.q31toq15, fun a => q15Sat (rne (q31 a) 16))]

/-- Accumulator narrowing: s1 names an accumulator, s2 is 0. -/
def narrowOps : List ((Who → FmtA → Instr) × (Int → Word × Word)) :=
  [(.rndq15, fun a => q15Sat (rne a 15)), (.rndq31, fun a => q31Sat (a * 2))]

/-! ## FP32 as IEEE 754 and R125 give it, of the words alone -/

/-- A NaN; a signalling one; an infinity; a finite word. -/
def FNan (w : Word) : Prop := fld w 30 23 = 255 ∧ fld w 22 0 ≠ 0
def FSig (w : Word) : Prop := FNan w ∧ bitOf w 22 = false
def FInf (w : Word) : Prop := fld w 30 23 = 255 ∧ fld w 22 0 = 0
def FFin (w : Word) : Prop := fld w 30 23 ≠ 255

/-- The exact value of a finite word: a whole number of units of 2^-149. -/
def fUnits (w : Word) : Int :=
  (if bitOf w 31 then -1 else 1) *
    (if fld w 30 23 = 0 then (fld w 22 0 : Int) else ((fld w 22 0 + 2 ^ 23) * 2 ^ (fld w 30 23 - 1) : Nat))

/-- `r` with sign `neg` is the exact n / d units rounded to nearest, ties to even, and `fl` the flags that raises: beyond the largest
finite number and half a unit of its last place, infinity with fs.of and fs.nx; else fs.nx when inexact, and fs.uf with it when
tiny: certainly so where the value rounded to 24 bits lies below 2^-126, never from 2^-126 on (log entry 10). -/
def Rounded (n : Int) (d : Nat) (neg : Bool) (r fl : Word) : Prop :=
  bitOf r 31 = neg ∧
  ((2 ^ 25 - 1) * 2 ^ 252 * d ≤ n.natAbs → FInf r ∧ fl = 0x140) ∧
  (n.natAbs < (2 ^ 25 - 1) * 2 ^ 252 * d →
    FFin r ∧
    (∀ w, FFin w → (n - fUnits r * d).natAbs ≤ (n - fUnits w * d).natAbs ∧
      ((n - fUnits r * d).natAbs = (n - fUnits w * d).natAbs → fUnits w = fUnits r ∨ bitOf r 0 = false)) ∧
    (n = fUnits r * d → fl = 0) ∧
    (n ≠ fUnits r * d → (fl = 0x100 ∨ fl = 0x180) ∧ (4 * n.natAbs < (2 ^ 25 - 1) * d → fl = 0x180) ∧
      (2 ^ 23 * d ≤ n.natAbs → fl = 0x100)))

/-- The answer of an operation to operands one of which is a NaN: the canonical NaN, with fs.nv for a signalling one. -/
def NanAnswer (l : List Word) (r fl : Word) : Prop :=
  r = 0x7FC00000 ∧ ((∃ x ∈ l, FSig x) → fl = 0x10) ∧ ((∀ x ∈ l, ¬ FSig x) → fl = 0)

/-- FADD of two words. -/
def FpSum (a b r fl : Word) : Prop :=
  (FNan a ∨ FNan b → NanAnswer [a, b] r fl) ∧
  (FInf a → FInf b → (a = b → r = a ∧ fl = 0) ∧ (a ≠ b → r = 0x7FC00000 ∧ fl = 0x10)) ∧
  (FInf a → FFin b → r = a ∧ fl = 0) ∧ (FFin a → FInf b → r = b ∧ fl = 0) ∧
  (FFin a → FFin b → Rounded (fUnits a + fUnits b) 1
    (decide (fUnits a + fUnits b < 0) || (bitOf a 31 && bitOf b 31 && fUnits a + fUnits b == 0)) r fl)

/-- FSUB: the sum with the second operand's sign turned; a NaN's sign says nothing. -/
def FpDifference (a b r fl : Word) : Prop := FpSum a (b ^^^ 0x80000000) r fl

/-- FMUL of two words. -/
def FpProduct (a b r fl : Word) : Prop :=
  let neg := bitOf a 31 ^^ bitOf b 31
  (FNan a ∨ FNan b → NanAnswer [a, b] r fl) ∧
  ((FInf a ∧ FFin b ∧ fUnits b = 0 ∨ FFin a ∧ fUnits a = 0 ∧ FInf b) → r = 0x7FC00000 ∧ fl = 0x10) ∧
  ((FInf a ∧ (FInf b ∨ FFin b ∧ fUnits b ≠ 0) ∨ FFin a ∧ fUnits a ≠ 0 ∧ FInf b) → FInf r ∧ bitOf r 31 = neg ∧ fl = 0) ∧
  (FFin a → FFin b → Rounded (fUnits a * fUnits b) (2 ^ 149) neg r fl)

/-- FDIV of two words. -/
def FpQuotient (a b r fl : Word) : Prop :=
  let neg := bitOf a 31 ^^ bitOf b 31
  (FNan a ∨ FNan b → NanAnswer [a, b] r fl) ∧
  ((FInf a ∧ FInf b ∨ FFin a ∧ fUnits a = 0 ∧ FFin b ∧ fUnits b = 0) → r = 0x7FC00000 ∧ fl = 0x10) ∧
  (FInf a → FFin b → FInf r ∧ bitOf r 31 = neg ∧ fl = 0) ∧
  (FFin a → FInf b → fUnits r = 0 ∧ FFin r ∧ bitOf r 31 = neg ∧ fl = 0) ∧
  (FFin a → fUnits a ≠ 0 → FFin b → fUnits b = 0 → FInf r ∧ bitOf r 31 = neg ∧ fl = 0x20) ∧
  (FFin a → FFin b → fUnits b ≠ 0 → Rounded (fUnits a * 2 ^ 149 * (fUnits b).sign) (fUnits b).natAbs neg r fl)

/-- FMAC: a times b plus c, rounded once. -/
def FpFused (a b c r fl : Word) : Prop :=
  let neg := bitOf a 31 ^^ bitOf b 31
  let prodInf := FInf a ∧ (FInf b ∨ FFin b ∧ fUnits b ≠ 0) ∨ FFin a ∧ fUnits a ≠ 0 ∧ FInf b
  let x := fUnits a * fUnits b + fUnits c * 2 ^ 149
  ((FInf a ∧ FFin b ∧ fUnits b = 0 ∨ FFin a ∧ fUnits a = 0 ∧ FInf b) → r = 0x7FC00000 ∧ (¬ FNan c → fl = 0x10)) ∧
  (FNan a ∨ FNan b → NanAnswer [a, b, c] r fl) ∧
  ((prodInf ∨ FFin a ∧ FFin b) → FNan c → NanAnswer [c] r fl) ∧
  (prodInf → FInf c → (bitOf c 31 = neg → r = c ∧ fl = 0) ∧ (bitOf c 31 ≠ neg → r = 0x7FC00000 ∧ fl = 0x10)) ∧
  (prodInf → FFin c → FInf r ∧ bitOf r 31 = neg ∧ fl = 0) ∧
  (FFin a → FFin b → FInf c → r = c ∧ fl = 0) ∧
  (FFin a → FFin b → FFin c → Rounded x (2 ^ 149) (decide (x < 0) || (neg && bitOf c 31 && x == 0)) r fl)

/-- FSQRT: of a finite positive word the nearest number to the root, which no two numbers are equally near. -/
def FpRoot (a r fl : Word) : Prop :=
  (FNan a → NanAnswer [a] r fl) ∧
  ((FInf a ∨ FFin a ∧ fUnits a ≠ 0) → bitOf a 31 = true → r = 0x7FC00000 ∧ fl = 0x10) ∧
  (FInf a → bitOf a 31 = false → r = a ∧ fl = 0) ∧
  (FFin a → fUnits a = 0 → r = a ∧ fl = 0) ∧
  (FFin a → 0 < fUnits a →
    let x := fUnits a * 2 ^ 149
    FFin r ∧ 0 < fUnits r ∧
    (∀ w, FFin w → fUnits r < fUnits w → 4 * x ≤ (fUnits r + fUnits w) ^ 2) ∧
    (∀ w, FFin w → 0 ≤ fUnits w → fUnits w < fUnits r → (fUnits r + fUnits w) ^ 2 ≤ 4 * x) ∧
    fl = (if fUnits r ^ 2 = x then 0 else 0x100))

/-- The order of two words that are no NaN: -infinity, the finite ones by value, +infinity. -/
def FpBelow (a b : Word) : Prop :=
  (FInf a ∧ bitOf a 31 = true ∧ a ≠ b) ∨ (FInf b ∧ bitOf b 31 = false ∧ a ≠ b) ∨ (FFin a ∧ FFin b ∧ fUnits a < fUnits b)

/-- FMIN and FMAX: minimumNumber and maximumNumber, -0 below +0. -/
def FpExtreme (most : Bool) (a b r fl : Word) : Prop :=
  ((FSig a ∨ FSig b) → fl = 0x10) ∧ (¬ FSig a → ¬ FSig b → fl = 0) ∧
  (FNan a → FNan b → r = 0x7FC00000) ∧ (FNan a → ¬ FNan b → r = b) ∧ (¬ FNan a → FNan b → r = a) ∧
  (¬ FNan a → ¬ FNan b →
    ((FpBelow a b ∨ FFin a ∧ FFin b ∧ fUnits a = 0 ∧ fUnits b = 0 ∧ bitOf a 31 = true) → r = if most then b else a) ∧
    ((FpBelow b a ∨ FFin a ∧ FFin b ∧ fUnits a = 0 ∧ fUnits b = 0 ∧ bitOf b 31 = true) → r = if most then a else b) ∧ (r = a ∨ r = b))

/-- A comparison of two words: what it answers without a NaN; the flags a NaN raises. -/
def FpCompares (holds : Prop) (quiet : Bool) (a b : Word) (r : Bool) (fl : Word) : Prop :=
  (FNan a ∨ FNan b → r = false ∧ ((quiet = false ∨ FSig a ∨ FSig b) → fl = 0x10) ∧
    (quiet = true → ¬ FSig a → ¬ FSig b → fl = 0)) ∧
  (¬ FNan a → ¬ FNan b → (r = true ↔ holds) ∧ fl = 0)

/-- Conversion of a word times 2^k to an integer of a range: to nearest, ties to even, or toward zero; what lies outside gives the
nearer end with fs.nv, a NaN 0 with fs.nv. -/
def FpToInt (k : Nat) (lo hi : Int) (toZero : Bool) (a : Word) (r fl : Word) : Prop :=
  (FNan a → r = 0 ∧ fl = 0x10) ∧
  (FInf a → r = BitVec.ofInt 32 (if bitOf a 31 then lo else hi) ∧ fl = 0x10) ∧
  (FFin a → ∃ n : Int,
    (toZero = false → NearestEven (fUnits a * 2 ^ k) 149 n) ∧
    (toZero = true → n = (fUnits a * 2 ^ k).tdiv (2 ^ 149)) ∧
    (n < lo → r = BitVec.ofInt 32 lo ∧ fl = 0x10) ∧ (hi < n → r = BitVec.ofInt 32 hi ∧ fl = 0x10) ∧
    (lo ≤ n → n ≤ hi → r = BitVec.ofInt 32 n ∧ fl = if fUnits a * 2 ^ k = n * 2 ^ 149 then 0 else 0x100))

/-- Conversion of an integer times 2^-k to FP32. -/
def FpFromInt (k : Nat) (x : Int) (r fl : Word) : Prop := Rounded (x * 2 ^ (149 - k)) 1 (decide (x < 0)) r fl

/-- FP32 operations with two operands: the cycles each uses at least, and its result. -/
def floatOps : List ((Fin 64 → FmtA → Instr) × Nat × (Word → Word → Word → Word → Prop)) :=
  [(.fadd, 1, FpSum), (.fsub, 1, FpDifference), (.fmul, 1, FpProduct), (.fdiv, 12, FpQuotient), (.fmin, 1, FpExtreme false),
   (.fmax, 1, FpExtreme true)]

/-- FP32 operations and conversions with one operand, s2 being 0. -/
def floatUnaryOps : List ((Fin 64 → FmtA → Instr) × Nat × (Word → Word → Word → Prop)) :=
  [(.fsqrt, 14, FpRoot), (.fneg, 1, fun a r fl => r = a ^^^ 0x80000000 ∧ fl = 0),
   (.fabs, 1, fun a r fl => r = a &&& 0x7FFFFFFF ∧ fl = 0),
   (.fcvtw, 1, FpToInt 0 (-2 ^ 31) (2 ^ 31 - 1) false), (.fcvtwt, 1, FpToInt 0 (-2 ^ 31) (2 ^ 31 - 1) true),
   (.fcvtwu, 1, FpToInt 0 0 (2 ^ 32 - 1) false), (.fcvtwut, 1, FpToInt 0 0 (2 ^ 32 - 1) true),
   (.fcvtq15, 1, FpToInt 15 (-2 ^ 15) (2 ^ 15 - 1) false), (.fcvtq15t, 1, FpToInt 15 (-2 ^ 15) (2 ^ 15 - 1) true),
   (.fcvtq31, 1, FpToInt 31 (-2 ^ 31) (2 ^ 31 - 1) false), (.fcvtq31t, 1, FpToInt 31 (-2 ^ 31) (2 ^ 31 - 1) true),
   (.fcvtsw, 1, fun a => FpFromInt 0 a.toInt), (.fcvtswu, 1, fun a => FpFromInt 0 a.toNat),
   (.fcvtsq15, 1, fun a => FpFromInt 15 (q15 a)), (.fcvtsq31, 1, fun a => FpFromInt 31 (q31 a))]

/-- FP32 comparisons into a predicate: what each tests, and whether a quiet NaN raises nothing. -/
def floatCompareOps : List ((Fin 64 → FmtA → Instr) × Bool × (Word → Word → Prop)) :=
  [(.fceq, true, fun a b => a = b ∨ FFin a ∧ FFin b ∧ fUnits a = fUnits b), (.fclt, false, FpBelow),
   (.fcle, false, fun a b => FpBelow a b ∨ a = b ∨ FFin a ∧ FFin b ∧ fUnits a = fUnits b)]

/-- Loads: size, whether the destination field is admissible, and what the number read does to the context (R141). -/
def loadOps : List ((Fin 64 → FmtM → Instr) × Nat × (BitVec 5 → Prop) × (BitVec 5 → Nat → Ctx → Ctx → Prop)) :=
  [(.lb, 1, fun _ => True, fun d n => RegResult d.toNat ((BitVec.ofNat 8 n).signExtend 32) 0),
   (.lbu, 1, fun _ => True, fun d n => RegResult d.toNat (BitVec.ofNat 32 n) 0),
   (.lh, 2, fun _ => True, fun d n => RegResult d.toNat ((BitVec.ofNat 16 n).signExtend 32) 0),
   (.lhu, 2, fun _ => True, fun d n => RegResult d.toNat (BitVec.ofNat 32 n) 0),
   (.lw, 4, fun _ => True, fun d n => RegResult d.toNat (BitVec.ofNat 32 n) 0),
   (.ld, 8, fun d => d.toNat % 2 = 0, fun d n => PairResult d.toNat n),
   (.la, 8, fun d => d.toNat < 4, fun d n => AccResult d.toNat (BitVec.ofNat 40 n).toInt 0)]

/-- Stores: size, whether the source field is admissible, and the number stored (R141). -/
def storeOps : List ((Fin 64 → FmtM → Instr) × Nat × (BitVec 5 → Prop) × (BitVec 5 → Ctx → Nat)) :=
  [(.sb, 1, fun _ => True, fun d c => (c.rg d.toNat).toNat), (.sh, 2, fun _ => True, fun d c => (c.rg d.toNat).toNat),
   (.sw, 4, fun _ => True, fun d c => (c.rg d.toNat).toNat),
   (.sd, 8, fun d => d.toNat % 2 = 0, fun d c => (c.rg d.toNat).toNat + 2 ^ 32 * (c.rg (d.toNat + 1)).toNat),
   (.sa, 8, fun d => d.toNat < 4, fun d c => (BitVec.ofInt 64 (c.ra d.toNat)).toNat)]

/-! ## Registers -/

/-- The ranges of TIME_PTPCFG (R54): Sync, Announce, announce timeout, Delay_Req and qualification count. -/
def PtpcfgInRange (v : Word) : Prop :=
  let sg (hi lo : Nat) : Int := (BitVec.ofNat 4 (fld v hi lo)).toInt
  (-4 ≤ sg 3 0 ∧ sg 3 0 ≤ 1) ∧ (-3 ≤ sg 7 4 ∧ sg 7 4 ≤ 4) ∧ 2 ≤ fld v 11 8 ∧ (-4 ≤ sg 15 12 ∧ sg 15 12 ≤ 5) ∧
    4 ≤ fld v 23 16 ∧ fld v 23 16 ≤ 64

/-! ## The Key Store (R288, R300) -/

/-- A key command takes its effect when it is written: it runs, and will post a status, a check value and output octets; only the
parts named may change. -/
def KeyRuns (c : Instr) (s : State) (ps : List Part) (status : Nat) (check : Option Nat) (out : Option (List Byte)) (t : State) :
    Prop :=
  exec c s = .next t ∧ t.ks.run = some ⟨status, check, out, s.ks.owner, rd s Reg.ksOwnerkey, false⟩ ∧ rb t Reg.ksStatus 0 = true ∧
    KeepsBut ps s t

/-- Every slot but one holds what it held. -/
def SlotsBut (slot : Nat) (s t : State) : Prop := ∀ j, j ≠ slot → ksSlot t j = ksSlot s j

/-- A slot takes a value of a type and use into its shadow: its active value, if any, has them too, and a 65th elliptic-curve
value is not taken (R288, R294). -/
def TakesShadow (s : State) (slot typ use : Nat) : Prop :=
  3 ≤ slot ∧ (∀ a, (ksSlot s slot).active = some a → a.typ = typ ∧ a.use = use) ∧ (isEc typ = true → ecCount s slot < 64)

/-! ## Queue pairs (R253) -/

/-- The command of a queue pair that runs next: the oldest of the generation in force that has no status yet. -/
def RunsNext (s : State) (f : Fin 64) (q : Fin 16) (pre : List QCmd) (c : QCmd) (post : List QCmd) : Prop :=
  (getQ s f q).cmds = pre ++ c :: post ∧ (∀ x ∈ pre, ¬ (x.gen = vfGen s f ∧ x.status = none)) ∧ c.gen = vfGen s f ∧ c.status = none

end Sys2Proof.Machine
end

