-- ==== Sys2Proof/Certificates/Slice0/Obligations.lean ====
section
/-!
DEFINITION. The statements for the provers. Those marked as the model's choice in their docstrings rest on the log entry they
name; every other one follows the rule of spec/ it cites.
-/
open Sys2Proof Sys2Proof.Machine

/-- R121, R136 (reference of op 0x00 to 0x09): the results, flags and frame of the integer instructions on a tick core.
Completes `add`, `sub`, `and`, `or`, `xor`, `sll`, `srl`, `sra`, `min`, `max`, `minu`, `maxu`, `adds`, `subs`, `addus`, `subus`,
`mul`, `mulh`, `mulhu`, `abss`, `clz`, `popc`, `sexb`, `sexh`, `zexh`, `addi`, `andi`, `ori`, `xori`, `slli`, `srli`, `srai`,
`lui`, `llo`. -/
def Obligations.IntegerRegisterInstructions : Prop :=
  ∀ (l : Fin 64) (s : State),
    (∀ f : FmtA, Issues s l f.pr →
      let a := (getCore s l).ctx.rg f.s1.toNat
      let b := (getCore s l).ctx.rg f.s2.toNat;
      (∀ e ∈ integerOps, CoreComputes (e.1 (.core l) f) l 1 s (RegResult f.d.toNat (e.2.2 a b) 0)) ∧
      (∀ e ∈ saturatingOps, CoreComputes (e.1 (.core l) f) l 1 s (RegResult f.d.toNat (e.2 a b).1 (e.2 a b).2)) ∧
      (∀ e ∈ unaryOps, f.s2 = 0 → CoreComputes (e.1 (.core l) f) l 1 s (RegResult f.d.toNat (e.2 a).1 (e.2 a).2))) ∧
    (∀ f : FmtI, Issues s l f.pr →
      let a := (getCore s l).ctx.rg f.s1.toNat;
      (∀ e ∈ immediateOps, CoreComputes (e.1 (.core l) f) l 1 s (RegResult f.d.toNat (e.2 a f.imm) 0)) ∧
      (∀ e ∈ shiftImmOps, f.imm.toNat < 32 → CoreComputes (e.1 (.core l) f) l 1 s (RegResult f.d.toNat (e.2 a f.imm.toNat) 0))) ∧
    (∀ f : FmtU, Issues s l f.pr →
      CoreComputes (.lui (.core l) f) l 1 s (RegResult f.d.toNat (f.imm ++ 0#15) 0) ∧
      (f.imm.toNat < 2 ^ 15 → CoreComputes (.llo (.core l) f) l 1 s
        (RegResult f.d.toNat (((getCore s l).ctx.rg f.d.toNat).extractLsb' 15 17 ++ f.imm.setWidth 15) 0)))

/-- R136 (op 0x0A to 0x0C), R110: compares and predicate logic on a tick core. Completes `ceq`, `cne`, `clt`, `cle`, `cltu`,
`cleu`, `ctst`, `pand`, `por`, `pxor`, `pandn`, `pfrom`, `pto`, `cmpi`. -/
def Obligations.CompareAndPredicateInstructions : Prop :=
  ∀ (l : Fin 64) (s : State),
    (∀ f : FmtA, Issues s l f.pr →
      let c := (getCore s l).ctx
      let a := c.rg f.s1.toNat
      let b := c.rg f.s2.toNat;
      (f.d.toNat < 8 → ∀ e ∈ compareOps, CoreComputes (e.1 (.core l) f) l 1 s (PredResult f.d.toNat (e.2 a b) 0)) ∧
      (f.d.toNat < 8 → f.s1.toNat < 8 → f.s2.toNat < 8 → ∀ e ∈ predicateOps,
        CoreComputes (e.1 (.core l) f) l 1 s (PredResult f.d.toNat (e.2 (c.rp f.s1.toNat) (c.rp f.s2.toNat)) 0)) ∧
      (f.d.toNat < 8 → f.s2 = 0 → CoreComputes (.pfrom (.core l) f) l 1 s (PredResult f.d.toNat (a != 0) 0)) ∧
      (f.s1.toNat < 8 → f.s2 = 0 → CoreComputes (.pto (.core l) f) l 1 s
        (RegResult f.d.toNat (if c.rp f.s1.toNat then 1 else 0) 0))) ∧
    (∀ f : FmtI, Issues s l f.pr →
      let a := ((getCore s l).ctx.rg f.s1.toNat).toInt
      let b := f.imm.toInt
      let d := f.d.toNat % 8;
      (f.d.toNat / 8 = 0 → CoreComputes (.cmpi (.core l) f) l 1 s (PredResult d (decide (a = b)) 0)) ∧
      (f.d.toNat / 8 = 1 → CoreComputes (.cmpi (.core l) f) l 1 s (PredResult d (decide (a ≠ b)) 0)) ∧
      (f.d.toNat / 8 = 2 → CoreComputes (.cmpi (.core l) f) l 1 s (PredResult d (decide (a < b)) 0)) ∧
      (f.d.toNat / 8 = 3 → CoreComputes (.cmpi (.core l) f) l 1 s (PredResult d (decide (a > b)) 0)))

/-- R121, R136, R110, R112: division, reading special registers, clearing flags. Completes `div`, `divu`, `rem`, `remu`, `rdsr`,
`clrf`. -/
def Obligations.DivisionAndSpecialRegisters : Prop :=
  ∀ (l : Fin 64) (s : State),
    (∀ f : FmtA, Issues s l f.pr →
      let a := (getCore s l).ctx.rg f.s1.toNat
      let b := (getCore s l).ctx.rg f.s2.toNat
      ∀ e ∈ divideOps, CoreComputes (e.1 l f) l 18 s (RegResult f.d.toNat (e.2 a b).1 (e.2 a b).2)) ∧
    (∀ f : FmtI, Issues s l f.pr → f.s1 = 0 →
      (f.imm = 0 → CoreComputes (.rdsr l f) l 1 s (RegResult f.d.toNat (getCore s l).pc 0)) ∧
      (f.imm = 1 → CoreComputes (.rdsr l f) l 1 s (RegResult f.d.toNat (getCore s l).ctx.fs 0)) ∧
      (f.imm = 2 → CoreComputes (.rdsr l f) l 1 s (RegResult f.d.toNat (BitVec.ofNat 32 s.time.tick) 0)) ∧
      (f.imm = 3 → CoreComputes (.rdsr l f) l 1 s (RegResult f.d.toNat (BitVec.ofNat 32 (getCore s l).cyc) 0)) ∧
      (f.d = 0 → f.imm.toNat < 2 ^ 10 → CoreComputes (.clrf l f) l 1 s (fun c c' =>
        (∀ i, c'.rg i = c.rg i) ∧ (∀ k, c'.ra k = c.ra k) ∧ c'.p = c.p ∧ c'.fs = c.fs &&& ~~~ (f.imm.setWidth 32))))

/-- R123, R124, R127, R136, R139: accumulators on a tick core. Completes `macq`, `macq31`, `accq15`, `accq31`, `magsq`, `ashr`,
`amov`, `sdft`, `rndq15`, `rndq31`. -/
def Obligations.AccumulatorInstructions : Prop :=
  ∀ (l : Fin 64) (s : State),
    (∀ f : FmtX, Issues s l f.pr →
      let c := (getCore s l).ctx
      let a := c.rg f.s1.toNat
      let b := c.rg f.s2.toNat
      let acc := c.ra f.acc.toNat
      let sets (i : Instr) (r : Int) : Prop :=
        (f.mode = 0 → CoreComputes i l 1 s (AccResult f.acc.toNat (accSat r).1 (accSat r).2)) ∧
        (f.mode = 1 → CoreComputes i l 1 s (AccResult f.acc.toNat (accSat (acc + r)).1 (accSat (acc + r)).2)) ∧
        (f.mode = 2 → CoreComputes i l 1 s (AccResult f.acc.toNat (accSat (acc - r)).1 (accSat (acc - r)).2)) ∧
        (f.mode = 3 → CoreComputes i l 1 s (AccResult f.acc.toNat (accSat (-r)).1 (accSat (-r)).2))
      (∀ e ∈ accumulateOps, (e.2.2.1 = false → f.s2 = 0) → sets (e.1 (.core l) f) (e.2.2.2 a b)) ∧
      (f.s2 = 0 → a.toNat % 64 < 40 → sets (.ashr (.core l) f) (rne acc (a.toNat % 64))) ∧
      (f.s2 = 0 → 40 ≤ a.toNat % 64 → sets (.ashr (.core l) f) (if acc < 0 then -1 else 0)) ∧
      (f.s2 = 0 → f.s1.toNat < 4 → sets (.amov (.core l) f) (c.ra f.s1.toNat)) ∧
      (f.mode = 0 → (f.acc = 0 ∨ f.acc = 2) →
        let re := acc + a.toInt * 2 ^ 15
        let im := c.ra (f.acc.toNat + 1)
        let x := accSat (rne (re * q15 b - im * q15 (b >>> 16)) 15)
        let y := accSat (rne (re * q15 (b >>> 16) + im * q15 b) 15)
        CoreComputes (.sdft (.core l) f) l 1 s (fun c c' =>
          (∀ i, c'.rg i = c.rg i) ∧ c'.p = c.p ∧ c'.fs = c.fs ||| (x.2 ||| y.2) ∧
          ∀ k, c'.ra k = if k = f.acc.toNat then x.1 else if k = f.acc.toNat + 1 then y.1 else c.ra k))) ∧
    (∀ f : FmtA, Issues s l f.pr → f.s1.toNat < 4 → f.s2 = 0 →
      let acc := (getCore s l).ctx.ra f.s1.toNat
      ∀ e ∈ narrowOps, CoreComputes (e.1 (.core l) f) l 1 s (RegResult f.d.toNat (e.2 acc).1 (e.2 acc).2))

/-- R122, R123, R124, R136: fixed-point register instructions on a tick core, and the rounding they use. The value ATAN2 writes
elsewhere is free within its 2 LSB (log entry 2). Completes `mulq`, `addq`, `subq`, `mulq31`, `addq31`, `subq31`, `negq`,
`absq`, `negq31`, `absq31`, `q31toq15`, `atan2`. -/
def Obligations.FixedPointInstructions : Prop :=
  (∀ (l : Fin 64) (f : FmtA) (s : State), Issues s l f.pr →
    let a := (getCore s l).ctx.rg f.s1.toNat
    let b := (getCore s l).ctx.rg f.s2.toNat;
    (∀ e ∈ fixedOps, CoreComputes (e.1 (.core l) f) l 1 s (RegResult f.d.toNat (e.2.2 a b).1 (e.2.2 a b).2)) ∧
    (∀ e ∈ fixedUnaryOps, f.s2 = 0 → CoreComputes (e.1 (.core l) f) l 1 s (RegResult f.d.toNat (e.2 a).1 (e.2 a).2)) ∧
    (q15 a = 0 → q15 b = 0 → CoreComputes (.atan2 (.core l) f) l 1 s (RegResult f.d.toNat 0 0)) ∧
    (q15 a = 0 → q15 b < 0 → CoreComputes (.atan2 (.core l) f) l 1 s (RegResult f.d.toNat (BitVec.ofInt 32 (-32768)) 0)) ∧
    (∃ v, CoreComputes (.atan2 (.core l) f) l 1 s (RegResult f.d.toNat v 0))) ∧
  (∀ (x : Int) (k : Nat), NearestEven x k (rne x k))

/-- R125, R140: FP32 on a tick core. Completes, with its own effect, every FP32 instruction: `fadd`, `fsub`, `fmul`, `fdiv`,
`fmin`, `fmax`, `fmac`, `fsqrt`, `fneg`, `fabs`, `fcvtw`, `fcvtwt`, `fcvtwu`, `fcvtwut`, `fcvtq15`, `fcvtq15t`, `fcvtq31`,
`fcvtq31t`, `fcvtsw`, `fcvtswu`, `fcvtsq15`, `fcvtsq31`, `fceq`, `fclt`, `fcle`, `fcun`. -/
def Obligations.FloatInstructions : Prop :=
  ∀ (l : Fin 64) (f : FmtA) (s : State), Issues s l f.pr →
    let a := (getCore s l).ctx.rg f.s1.toNat
    let b := (getCore s l).ctx.rg f.s2.toNat
    let d := (getCore s l).ctx.rg f.d.toNat;
    (∀ e ∈ floatOps, ∃ r fl, CoreComputes (e.1 l f) l e.2.1 s (RegResult f.d.toNat r fl) ∧ e.2.2 a b r fl) ∧
    (f.s2 = 0 → ∀ e ∈ floatUnaryOps, ∃ r fl, CoreComputes (e.1 l f) l e.2.1 s (RegResult f.d.toNat r fl) ∧ e.2.2 a r fl) ∧
    (∃ r fl, CoreComputes (.fmac l f) l 1 s (RegResult f.d.toNat r fl) ∧ FpFused a b d r fl) ∧
    (f.d.toNat < 8 →
      (∀ e ∈ floatCompareOps, ∃ r fl, CoreComputes (e.1 l f) l 1 s (PredResult f.d.toNat r fl) ∧
        FpCompares (e.2.2 a b) e.2.1 a b r fl) ∧
      (∃ r fl, CoreComputes (.fcun l f) l 1 s (PredResult f.d.toNat r fl) ∧ (r = true ↔ FNan a ∨ FNan b) ∧
        ((FSig a ∨ FSig b) → fl = 0x10) ∧ (¬ FSig a → ¬ FSig b → fl = 0)))

/-- R133, R134, R136: the instructions that only compute, in a stage of a Heddle unit. -/
def Obligations.KernelStageInstructions : Prop :=
  ∀ (u : Fin 17) (id : Nat) (s : State) (r : HRec),
    let c := r.settle.ctx;
    (∀ f : FmtA, InStage s u id f.pr r →
      let a := c.rg f.s1.toNat
      let b := c.rg f.s2.toNat
      let x : Who := .record u id;
      (f.d.toNat < 16 → f.s1.toNat < 16 → f.s2.toNat < 16 →
        (∀ e ∈ integerOps, StageComputes (e.1 x f) u e.2.1 s r (RegResult f.d.toNat (e.2.2 a b) 0)) ∧
        (∀ e ∈ saturatingOps, StageComputes (e.1 x f) u 1 s r (RegResult f.d.toNat (e.2 a b).1 (e.2 a b).2)) ∧
        (∀ e ∈ fixedOps, StageComputes (e.1 x f) u e.2.1 s r (RegResult f.d.toNat (e.2.2 a b).1 (e.2.2 a b).2)) ∧
        (∃ v, StageComputes (.atan2 x f) u 6 s r (RegResult f.d.toNat v 0)) ∧
        (f.s2 = 0 →
          (∀ e ∈ unaryOps, StageComputes (e.1 x f) u 1 s r (RegResult f.d.toNat (e.2 a).1 (e.2 a).2)) ∧
          (∀ e ∈ fixedUnaryOps, StageComputes (e.1 x f) u 1 s r (RegResult f.d.toNat (e.2 a).1 (e.2 a).2)))) ∧
      (f.d.toNat < 8 → f.s1.toNat < 16 → f.s2.toNat < 16 → ∀ e ∈ compareOps,
        StageComputes (e.1 x f) u 1 s r (PredResult f.d.toNat (e.2 a b) 0)) ∧
      (f.d.toNat < 8 → f.s1.toNat < 8 → f.s2.toNat < 8 → ∀ e ∈ predicateOps,
        StageComputes (e.1 x f) u 1 s r (PredResult f.d.toNat (e.2 (c.rp f.s1.toNat) (c.rp f.s2.toNat)) 0)) ∧
      (f.d.toNat < 8 → f.s1.toNat < 16 → f.s2 = 0 → StageComputes (.pfrom x f) u 1 s r (PredResult f.d.toNat (a != 0) 0)) ∧
      (f.d.toNat < 16 → f.s1.toNat < 8 → f.s2 = 0 →
        StageComputes (.pto x f) u 1 s r (RegResult f.d.toNat (if c.rp f.s1.toNat then 1 else 0) 0)) ∧
      (f.d.toNat < 16 → f.s1.toNat < 2 → f.s2 = 0 → ∀ e ∈ narrowOps,
        StageComputes (e.1 x f) u 2 s r (RegResult f.d.toNat (e.2 (c.ra f.s1.toNat)).1 (e.2 (c.ra f.s1.toNat)).2))) ∧
    (∀ f : FmtI, InStage s u id f.pr r → f.s1.toNat < 16 →
      let a := c.rg f.s1.toNat
      let x : Who := .record u id;
      (f.d.toNat < 16 →
        (∀ e ∈ immediateOps, StageComputes (e.1 x f) u 1 s r (RegResult f.d.toNat (e.2 a f.imm) 0)) ∧
        (f.imm.toNat < 32 → ∀ e ∈ shiftImmOps, StageComputes (e.1 x f) u 1 s r (RegResult f.d.toNat (e.2 a f.imm.toNat) 0))) ∧
      (∃ v, StageComputes (.cmpi x f) u 1 s r (PredResult (f.d.toNat % 8) v 0))) ∧
    (∀ f : FmtU, InStage s u id f.pr r → f.d.toNat < 16 →
      StageComputes (.lui (.record u id) f) u 1 s r (RegResult f.d.toNat (f.imm ++ 0#15) 0) ∧
      (f.imm.toNat < 2 ^ 15 → ∃ v, StageComputes (.llo (.record u id) f) u 1 s r (RegResult f.d.toNat v 0))) ∧
    (∀ f : FmtX, InStage s u id f.pr r → f.acc.toNat < 2 → f.s1.toNat < 16 → f.s2.toNat < 16 → f.mode = 1 →
      let acc := c.ra f.acc.toNat
      ∀ e ∈ accumulateOps, (e.2.2.1 = false → f.s2 = 0) →
        let v := accSat (acc + e.2.2.2 (c.rg f.s1.toNat) (c.rg f.s2.toNat))
        StageComputes (e.1 (.record u id) f) u e.2.1 s r (AccResult f.acc.toNat v.1 v.2))

/-- R114, R117, R118, R141: every load, in both memories, and its two traps. Completes `lb`, `lbu`, `lh`, `lhu`, `lw`, `ld`,
`la`. -/
def Obligations.LoadsReadWhatMemoryHolds : Prop :=
  ∀ (l : Fin 64) (f : FmtM) (s : State), Issues s l f.pr → ∀ e ∈ loadOps, e.2.2.1 f.d →
    let n := e.2.1
    let a := effAddr (getCore s l).ctx f n;
    (a.toNat % n = 0 → a.toNat + n ≤ 0x80000 →
      CoreComputes (e.1 l f) l 1 s (e.2.2.2 f.d (leNat (localBytes s l a.toNat n)))) ∧
    (a.toNat % n = 0 → 0x10000000 ≤ a.toNat → a.toNat + n ≤ 0x12000000 →
      inPartition s (ten (coreOwner s l)) (a.toNat - 0x10000000) n false = true →
      CoreReads (e.1 l f) l s (e.2.2.2 f.d (leNat (smRead s (a.toNat - 0x10000000) n)))) ∧
    (a.toNat % n ≠ 0 → Traps (e.1 l f) s l 2 a) ∧
    (a.toNat % n = 0 → mayLoad s l a.toNat n = false → Traps (e.1 l f) s l 3 a)

/-- R114, R115, R141: every store, with its frame over the core's local memory, and its two traps. Completes `sb`, `sh`, `sw`,
`sd`, `sa`. -/
def Obligations.StoresWriteExactlyTheirBytes : Prop :=
  ∀ (l : Fin 64) (f : FmtM) (s : State), Issues s l f.pr → ∀ e ∈ storeOps, e.2.2.1 f.d →
    let n := e.2.1
    let a := effAddr (getCore s l).ctx f n;
    (a.toNat % n = 0 → codeEnd s l ≤ a.toNat → a.toNat + n ≤ 0x80000 →
      CoreStores (e.1 l f) l s a.toNat n (e.2.2.2 f.d (getCore s l).ctx)) ∧
    (a.toNat % n ≠ 0 → Traps (e.1 l f) s l 2 a) ∧
    (a.toNat % n = 0 → (a.toNat < codeEnd s l ∨ 0x80000 < a.toNat + n) → Traps (e.1 l f) s l 3 a)

/-- R143 to R146, R239. Completes `pfsm`, `waitsm`, `lrow`, `limg`. -/
def Obligations.PrefetchAndRowLoads : Prop :=
  ∀ (l : Fin 64) (s : State),
    (∀ f : FmtM, Issues s l f.pr →
      let a := effAddr (getCore s l).ctx f 32
      a.toNat % 32 = 0 → 0x10000000 ≤ a.toNat → a.toNat + 32 ≤ 0x12000000 →
      inPartition s (ten (coreOwner s l)) (a.toNat - 0x10000000) 32 false = true →
      (∃ h : Nat, (h = 0 ∨ (15 ≤ h ∧ h ≤ 134)) ∧ CoreReads (.pfsm l f) l s (RegResult f.d.toNat (BitVec.ofNat 32 h) 0)) ∧
      (∃ t, exec (.pfsm l f) s = .next t ∧ a.toNat - 0x10000000 ∈ (getCore t l).pf.map (·.1)) ∧
      (getArb s (bankOf (a.toNat - 0x10000000)) = .reset → (getCore s l).outst = [] →
        CoreReads (.pfsm l f) l s (RegResult f.d.toNat 30 0))) ∧
    (∀ f : FmtA, Issues s l f.pr → f.s1 = 0 → f.s2 = 0 →
      let c := getCore s l
      let last := (c.outst.map (·.2)).foldl max c.cyc
      CoreComputes (.waitsm l f) l (last - c.cyc + 1) s (RegResult f.d.toNat (BitVec.ofNat 32 (last - c.cyc)) 0)) ∧
    (∀ (f : FmtA) (sel : BitVec 7), Issues s l f.pr → sel.toNat ≤ 21 →
      let w := (getCore s l).ctx.rg f.s1.toNat
      let age := ((getCore s l).ctx.rg f.s2.toNat).toNat;
      (∀ h : w.toNat < 512, warpOwner s ⟨w.toNat, h⟩ = coreOwner s l → age < rateHz s → (age = 0 ∨ ∃ c < 4, rb s Reg.hcDdr c = true) →
        CoreReads (.lrow l f sel) l s (RegResult f.d.toNat
          (match rowAt s ⟨w.toNat, h⟩ age with
            | some r => rowWord r (Tab.get .zero r.warps w.toNat) sel.toNat
            | none => if sel = 16 then 2 else 0) 0)) ∧
      (∀ h : w.toNat < 512, warpOwner s ⟨w.toNat, h⟩ = coreOwner s l → age < rateHz s →
        ∃ v, CoreReads (.lrow l f sel) l s (RegResult f.d.toNat v 0)) ∧
      ((rateHz s ≤ age ∨ ∀ h : w.toNat < 512, warpOwner s ⟨w.toNat, h⟩ ≠ coreOwner s l) →
        TrapsData (.lrow l f sel) s l)) ∧
    (∀ f : FmtI, Issues s l f.pr →
      let i := (getCore s l).ctx.rg f.s1.toNat + f.imm.signExtend 32
      0 ≤ i.toInt → i.toInt < imgLen s l →
      CoreComputes (.limg l f) l 1 s
        (RegResult f.d.toNat (BitVec.ofNat 32 (leNat (localBytes s l (0xA800 + 4 * i.toNat) 4))) 0))

/-- R147 with R127: control flow. Completes `br`, `call`, `jr`, `callr`. -/
def Obligations.ControlTransfers : Prop :=
  ∀ (l : Fin 64) (s : State),
    let pc := (getCore s l).pc;
    (∀ f : FmtU, Fetches s l → f.d = 0 →
      (Issues s l f.pr → CoreJumps (.br l f) l s (pc + f.imm.signExtend 32 * 4) NoResult ∧
        CoreJumps (.call l f) l s (pc + f.imm.signExtend 32 * 4) (RegResult 31 (pc + 4) 0)) ∧
      ((getCore s l).ctx.rp f.pr.toNat = false →
        exec (.br l f) s = .next (setCore s l { getCore s l with cyc := (getCore s l).cyc + 1, pc := pc + 4 }) ∧
        exec (.call l f) s = .next (setCore s l { getCore s l with cyc := (getCore s l).cyc + 1, pc := pc + 4 }))) ∧
    (∀ f : FmtI, Issues s l f.pr → f.d = 0 →
      let t := (getCore s l).ctx.rg f.s1.toNat + f.imm.signExtend 32;
      (t.toNat % 4 = 0 → CoreJumps (.jr l f) l s t NoResult ∧ CoreJumps (.callr l f) l s t (RegResult 31 (pc + 4) 0)) ∧
      (t.toNat % 4 ≠ 0 → Traps (.jr l f) s l 2 t ∧ Traps (.callr l f) s l 2 t)) ∧
    (∀ i w, encodeWormin i = some (.core l, w) → (getCore s l).run = .running → (getCore s l).haltAt = none → InTime s l →
      inCode s l pc.toNat = false → Traps i s l 3 pc)

/-- R117, R148 to R150, R153, R156: staging, its bound and its abort. Completes `txw`, `txwd`, `txpub`, `txout`, `txarm`,
`csett`, `txswr`, `txabort`. -/
def Obligations.TransactionInstructionsStageOneEntry : Prop :=
  ∀ (l : Fin 64) (s : State),
    let own := coreOwner s l;
    (MayStage s l →
      (∀ f : FmtM, Issues s l f.pr →
        let c := (getCore s l).ctx
        let a := (effAddr c f 4).toNat
        let b := (effAddr c f 8).toNat;
        (a % 4 = 0 → 0x10000000 ≤ a → a + 4 ≤ 0x12000000 → inPartition s (ten own) (a - 0x10000000) 4 true = true →
          CoreStages (.txw l f) l s (.mem (a - 0x10000000) (toLe 4 (c.rg f.d.toNat).toNat))) ∧
        (b % 8 = 0 → f.d.toNat % 2 = 0 → 0x10000000 ≤ b → b + 8 ≤ 0x12000000 →
          inPartition s (ten own) (b - 0x10000000) 8 true = true →
          CoreStages (.txwd l f) l s
            (.mem (b - 0x10000000) (toLe 8 ((c.rg f.d.toNat).toNat + 2 ^ 32 * (c.rg (f.d.toNat + 1)).toNat))))) ∧
      (∀ f : FmtA, Issues s l f.pr → f.d = 0 →
        let v := (getCore s l).ctx.rg f.s1.toNat
        let x := (getCore s l).ctx.rg f.s2.toNat;
        (∀ q, fld v 15 11 = 0 → fld v 31 22 = 0 → fld v 10 0 < 1152 → pubOwner s (fld v 10 0) = own →
          fld v 21 16 < pubMembers (fld v 10 0) →
          CoreStages (.txpub l f q) l s (.pub (fld v 10 0) (fld v 21 16) q x)) ∧
        (∀ k : Fin 16, fld v 3 0 = k → fld v 31 5 = 0 → bcOwner s k = own →
          CoreStages (.txout l f) l s (.out k (if bitOf v 4 then .close else .trip) (bitOf x 0))) ∧
        (∀ dis, f.s2 = 0 → fld v 31 12 = 0 → (getSlot s (fld v 11 0)).owner = own →
          CoreStages (.txarm l f dis) l s (.arm (fld v 11 0) dis)) ∧
        (∀ c i j, cluOperand s l v = some (c, i, j) → loopWritable j = true →
          CoreStages (.csett l f) l s (.loopWord c i (Fin.ofNat 32 j) x)) ∧
        (isManager s l = true → v.toNat < 0x1400000 → v.toNat % 4 = 0 →
          CoreStages (.txswr l f) l s (.reg v.toNat x)))) ∧
    (∀ f : FmtM, Issues s l f.pr → aborted s own = false → reservation s own ≤ (getTen s (ten own)).staged →
      let a := (effAddr (getCore s l).ctx f 4).toNat
      a % 4 = 0 → 0x10000000 ≤ a → a + 4 ≤ 0x12000000 → inPartition s (ten own) (a - 0x10000000) 4 true = true →
      ∃ c : Core, exec (.txw l f) s = .next (setCore (setTen s (ten own) { getTen s (ten own) with abort := some 3 }) l c) ∧
        c = { getCore s l with cyc := c.cyc, pc := (getCore s l).pc + 4 }) ∧
    (∀ f : FmtA, Issues s l f.pr → f.d = 0 → f.s1 = 0 → f.s2 = 0 → aborted s own = false →
      ∃ c : Core, exec (.txabort l f) s = .next (setCore (setTen s (ten own) { getTen s (ten own) with abort := some 2 }) l c) ∧
        c = { getCore s l with cyc := c.cyc, pc := (getCore s l).pc + 4 }) ∧
    (∀ f : FmtM, Issues s l f.pr → aborted s own = true →
      CoreComputes (.txw l f) l 1 s NoResult ∧ (f.d.toNat % 2 = 0 → CoreComputes (.txwd l f) l 1 s NoResult))

/-- R152. Completes `tend`. -/
def Obligations.TendEndsTheProgram : Prop :=
  ∀ (l : Fin 64) (f : FmtA) (s : State), f.d = 0 → f.s1 = 0 → f.s2 = 0 →
    (Issues s l f.pr → ∃ t, exec (.tend l f) s = .next t ∧
      (getCore t l).run = .ended ∧ (getCore t l).tended = true ∧ (getCore s l).cluEnd ≤ (getCore t l).cyc ∧
      (getCore s l).cyc ≤ (getCore t l).cyc ∧ (getCore t l).outst = [] ∧ (getCore t l).pf = [] ∧
      (getCore t l).ctx = (getCore s l).ctx ∧ (getCore t l).entries = (getCore s l).entries ∧
      (getCore t l).mem = (getCore s l).mem ∧ (∀ k, k ≠ l → getCore t k = getCore s k) ∧ t.mem = s.mem ∧
      t.pending = s.pending) ∧
    (Fetches s l → (getCore s l).ctx.rp f.pr.toNat = false → exec (.tend l f) s =
      .next (setCore s l { getCore s l with cyc := (getCore s l).cyc + 1, pc := (getCore s l).pc + 4 }))

/-- R153, R213, R214, R216, R220, R227; log entry 39 for a request in a tick that does not commit. Completes `ceval`, `cset`, `cget`,
`cinj`. -/
def Obligations.ControlLoopInstructions : Prop :=
  ∀ (l : Fin 64) (f : FmtA) (s : State), Issues s l f.pr →
    let v := (getCore s l).ctx.rg f.s1.toNat
    let x := (getCore s l).ctx.rg f.s2.toNat;
    (∀ c i j, cluOperand s l v = some (c, i, j) →
      (∃ t cand fl, exec (.ceval l f) s = .next t ∧ RegResult f.d.toNat (BitVec.ofInt 32 cand) fl (getCore s l).ctx (getCore t l).ctx ∧
        (fl = 0 ∨ fl = 0x200) ∧
        ((getLoop s c i).wrk = none → tActive s (ten (loopOwner s c i)) = true →
          cand = (evalLoop (loopPar s c i) (getLoop s c i).start (q15 x)).st.cand) ∧
        ((getLoop s c i).wrk = none → tActive s (ten (loopOwner s c i)) = false → cand = (getLoop s c i).com.cand) ∧
        (∀ c' i', (getLoop t c' i').com = (getLoop s c' i').com) ∧ t.mem = s.mem ∧ ∀ k, k ≠ l → getCore t k = getCore s k) ∧
      (f.d = 0 → j < 23 → ∃ t, exec (.cset l f) s = .next t ∧ rd t (loopReg c i j) = loopMask j x ∧
        (getCore t l).pc = (getCore s l).pc + 4 ∧ t.mem = s.mem ∧ ∀ k, k ≠ l → getCore t k = getCore s k) ∧
      (f.s2 = 0 → j ≠ 23 → CoreReads (.cget l f) l s (RegResult f.d.toNat (loopRead s c i j true) 0)) ∧
      (f.d = 0 → fld x 2 0 = 0 → ∃ t, exec (.cinj l f) s = .next t ∧
        getLoop t c i = { getLoop s c i with req := some none, taken := false } ∧ (getCore t l).pc = (getCore s l).pc + 4 ∧ t.mem = s.mem) ∧
      (f.d = 0 → fld x 2 0 = 1 → ∃ t g, exec (.cinj l f) s = .next t ∧
        getLoop t c i = { getLoop s c i with req := some (some g), taken := false } ∧ g.kind = 1 ∧ g.phase = 0 ∧ g.k = 0 ∧ (getCore t l).pc = (getCore s l).pc + 4 ∧ t.mem = s.mem)) ∧
    (cluOperand s l v = none → TrapsData (.ceval l f) s l ∧
      (f.d = 0 → TrapsData (.cset l f) s l ∧ TrapsData (.cinj l f) s l) ∧
      (f.s2 = 0 → TrapsData (.cget l f) s l))

/-- R154, R155, R159, R162, R163, R171. Completes `hget`, `hld`, `hst`, `trip`, `tripbc`, `hmark`, `hpass`. -/
def Obligations.HeddleInstructions : Prop :=
  ∀ (u : Fin 17) (id : Nat) (s : State) (r : HRec),
    let x : Who := .record u id
    let q := r.settle
    let moved (t : State) : Prop := ∃ r', getRec t u id = some r' ∧ r'.stage = r.stage + 1;
    (∀ f : FmtI, InStage s u id f.pr r →
      let n := f.imm.toNat
      let test := tState s (ten r.owner) = 4;
      (f.s1 = 0 → n < 64 → f.d.toNat < 16 → StageComputes (.hget x f) u 1 s r (RegResult f.d.toNat (Tab.get 0 r.words n) 0)) ∧
      (f.d = 0 → f.s1 = 0 → (getSlot s n).sim = r.sim → (test → r.sim = true) →
        StageActs (.trip x f) u 1 s (modHdl (bump s (Reg.hdlUTripreq u)) (fun h => { h with
          reqs := queueReq h.reqs ⟨u, unitGen s u, n, r.owner, r.policy, r.deciding, r.verify, s.op⟩ })) r NoResult) ∧
      (f.d = 0 → f.s1 = 0 → ((getSlot s n).sim ≠ r.sim ∨ test ∧ (getSlot s n).sim = false) →
        StageActs (.trip x f) u 1 s (tripRej (bump s (Reg.hdlUTripreq u)) u) r NoResult) ∧
      (∀ h : n < 16, f.d = 0 → f.s1 = 0 → ∃ t, exec (.tripbc x f) s = .next t ∧ moved t ∧ t.mem = s.mem ∧ t.core = s.core ∧
        (r.sim = false → ¬ test → bcOwner s ⟨n, h⟩ = r.owner → rb s Reg.fioStatus 16 = false → rb t Reg.fioTripbc n = true) ∧
        ((r.sim = true ∨ test ∨ bcOwner s ⟨n, h⟩ ≠ r.owner) →
          t.fio = s.fio ∧ rb t Reg.fioTripbc n = rb s Reg.fioTripbc n ∧ rb t (Reg.hdlUIrq u) 1 = true)) ∧
      (f.d = 0 → f.s1 = 0 → n < 256 →
        let off := if r.group then Reg.hdlUGmark u (r.slot / 4) else Reg.hdlUMark u (r.slot / 4)
        StageActs (.hmark x f) u 1 s (wr s off (rd s off ||| BitVec.ofNat 32 (n * 256 ^ (r.slot % 4)))) r NoResult) ∧
      (f.d = 0 → f.s1 = 0 → n < 256 → ∃ t, exec (.hpass x f) s = .next t ∧ moved t ∧ t.mem = s.mem ∧ t.core = s.core ∧
        ((getUnit s u).events.length < 256 →
          ∃ e, (getUnit t u).events = (getUnit s u).events ++ [e] ∧ e.code = n ∧ e.stage = r.stage ∧ e.group = r.group) ∧
        (256 ≤ (getUnit s u).events.length →
          (getUnit t u).events = (getUnit s u).events ∧ rd t (Reg.hdlUEvtDrop u) = rd s (Reg.hdlUEvtDrop u) + 1))) ∧
    (∀ f : FmtM, InStage s u id f.pr r → f.d.toNat < 16 →
      let w := f.off.toNat % 64
      let old := stateWord s u r w
      let g := q.ctx.rg f.d.toNat
      let puts (new : Word) : State :=
        modStage s u (fun y => { y with sm := Tab.put 0 y.sm ((r.stage * 32 + r.slot) * 64 + w) new })
      let hst := Instr.hst x f;
      (f.base = 0 → f.off.toNat < 64 → StageComputes (.hld x f) u 1 s r (RegResult f.d.toNat old 0)) ∧
      (f.off.toNat < 64 →
        (f.base = 0 → StageActs hst u 1 s (puts g) r NoResult) ∧
        (f.base = 1 → StageActs hst u 1 s (puts g) r (RegResult f.d.toNat old 0)) ∧
        (f.base = 2 → StageActs hst u 1 s (puts (old + g)) r (RegResult f.d.toNat (old + g) 0)) ∧
        (f.base = 3 → let v := q31Sat (q31 old + q31 g); StageActs hst u 1 s (puts v.1) r (RegResult f.d.toNat v.1 v.2)) ∧
        (f.base = 4 → let v := if old.toInt < g.toInt then g else old; StageActs hst u 1 s (puts v) r (RegResult f.d.toNat v 0)) ∧
        (f.base = 5 → let v := if g.toInt < old.toInt then g else old; StageActs hst u 1 s (puts v) r (RegResult f.d.toNat v 0)) ∧
        (f.base = 6 → g = 0 → StageActs hst u 1 s (puts 0) r (RegResult f.d.toNat 0 0)) ∧
        (f.base = 6 → g ≠ 0 → old ≠ 0xFFFFFFFF → StageActs hst u 1 s (puts (old + 1)) r (RegResult f.d.toNat (old + 1) 0)) ∧
        (f.base = 6 → g ≠ 0 → old = 0xFFFFFFFF → StageActs hst u 1 s (puts old) r (RegResult f.d.toNat old 8))) ∧
      (f.base = 7 → 64 ≤ f.off.toNat → f.off.toNat < 2048 →
        let v := q31Sat (q31 old - rne (q31 old) (f.off.toNat / 64) + q31 g)
        StageActs hst u 1 s (puts v.1) r (RegResult f.d.toNat v.1 v.2))) ∧
    (∀ l : Fin 64, Fetches s l → ∀ (f : FmtI) (m : FmtM),
      ∀ i ∈ [.hget (.core l) f, .trip (.core l) f, .tripbc (.core l) f, .hmark (.core l) f, .hpass (.core l) f, .hld (.core l) m,
        .hst (.core l) m], Traps i s l 1 0)

/-- R156, R130. Completes `srd`, `swr`, `sfence`. -/
def Obligations.SystemInstructions : Prop :=
  ∀ (l : Fin 64) (s : State),
    (∀ f : FmtI, IssuesSystem s l f.pr →
      let a := ((getCore s l).ctx.rg f.s1.toNat + f.imm.signExtend 32).toNat;
      (a < 0x1400000 → a % 4 = 0 → CoreReads (.srd l f) l s (RegResult f.d.toNat (readWord s a).1 0) ∧
        ∃ t, exec (.srd l f) s = .next t ∧ t.regs = (readWord s a).2.regs) ∧
      ((0x1400000 ≤ a ∨ a % 4 ≠ 0) → Traps (.srd l f) s l 3 (BitVec.ofNat 32 a))) ∧
    (∀ f : FmtA, IssuesSystem s l f.pr → f.d = 0 →
      let a := ((getCore s l).ctx.rg f.s1.toNat).toNat
      let v := (getCore s l).ctx.rg f.s2.toNat;
      (a < 0x1400000 → a % 4 = 0 → ∃ c n, exec (.swr l f) s = .next (pfWrite (setCore { s with freeCtr := n } l c) a v) ∧
        c = { getCore s l with cyc := c.cyc, swr := c.swr, pc := (getCore s l).pc + 4 } ∧ (getCore s l).swr ≤ c.swr) ∧
      ((0x1400000 ≤ a ∨ a % 4 ≠ 0) → Traps (.swr l f) s l 3 (BitVec.ofNat 32 a)) ∧
      (f.s1 = 0 → f.s2 = 0 → CoreComputes (.sfence l f) l ((getCore s l).swr - (getCore s l).cyc) s NoResult)) ∧
    (∀ (f : FmtA) (g : FmtI), Fetches s l → isManager s l = false →
      ∀ i ∈ [.srd l g, .swr l f, .sfence l f, .txswr l f], Traps i s l 1 0)

/-- R128: the predicate field of the instruction's word selects; a false predicate leaves everything. R131, R132: a core that does
not run, or that a trap halts. -/
def Obligations.FalsePredicateHasNoEffect : Prop :=
  ∀ (i : Instr) (l : Fin 64) (w : Word) (s : State), encodeWormin i = some (.core l, w) →
    ((getCore s l).run ≠ .running → exec i s = .next s) ∧
    (∀ h, (getCore s l).run = .running → (getCore s l).haltAt = some h → h < (getCore s l).cyc →
      (∀ b, watchdogEnd s l = some b → h < b) →
      exec i s = .next (setCore s l { getCore s l with run := .stopped })) ∧
    (Fetches s l → (getCore s l).ctx.rp (w.extractLsb' 0 3).toNat = false →
      Traps i s l 1 0 ∨
      ∃ n, (getCore s l).cyc < n ∧ exec i s = .next (setCore s l { getCore s l with cyc := n, pc := (getCore s l).pc + 4 }))

/-- R118: committed memory is the same after every instruction of a window. -/
def Obligations.NoInstructionChangesStateMemory : Prop :=
  ∀ (i : Instr) (x : Who) (w : Word) (s t : State), encodeWormin i = some (x, w) → opField w ≠ 0x71 →
    exec i s = .next t → t.mem = s.mem

/-- R126, R129: encode and decode are inverse to each other, in both directions. -/
def Obligations.WorminEncodingRoundTrip : Prop :=
  (∀ (i : Instr) (x : Who) (w : Word), encodeWormin i = some (x, w) → decodeWormin x w = some i) ∧
  (∀ (i : Instr) (x : Who) (w : Word), decodeWormin x w = some i → encodeWormin i = some (x, w))

/-- R58, R60, R62, R69, R77, R371: port state. Completes `swcPCfgWrite`, `swcPMacsecWrite`, `blockLock`, `trainingTimeout`, `lossOfLock`,
`fenceRelease`, `fenceAutoRelease`, `verifyAttemptTimeout`, `verifyResponse`, `qsfp28ModuleInserted`. -/
def Obligations.PortStateCommands : Prop :=
  ∀ (s : State) (p : Fin 144) (v : Word) (tm : Instant),
    (hcSt s ≠ 3 → pState s p = 0 → bitOf v 0 = true → fld v 2 1 ≠ 3 → (p.val < 96 ∨ fld v 2 1 ≠ 0) →
      (∀ q ∈ cageMates p, rb s (Reg.swcPCfg q) 0 = false) →
      ∃ t, exec (.swcPCfgWrite p v) s = .next t ∧ pState t p = 1 ∧ rd t (Reg.swcPCfg p) = v &&& 0x1FF ∧
        KeepsBut [.regs, .recorder, .arb, .out] s t) ∧
    (hcSt s ≠ 3 → (fld v 2 1 = 3 ∨ (96 ≤ p.val ∧ fld v 2 1 = 0)) →
      exec (.swcPCfgWrite p v) s = .next (wb s (Reg.swcPStatus p) 4 true)) ∧
    (hcSt s ≠ 3 → bitOf v 0 = true → fastPath s p = true →
      exec (.swcPMacsecWrite p v) s = .next (wb s (Reg.swcPStatus p) 4 true)) ∧
    (hcSt s ≠ 3 → (bitOf v 0 = false ∨ fastPath s p = false) →
      ∃ t, exec (.swcPMacsecWrite p v) s = .next t ∧ rd t (Reg.swcPMacsec p) = v &&& 0x7F ∧
        KeepsBut [.regs, .recorder, .arb, .out] s t) ∧
    (pState s p = 1 → (getPort s p).lowPower = false →
      ∃ t, exec (.blockLock p tm) s = .next t ∧ pState t p = 2 ∧ rb t (Reg.swcPStatus p) 3 = true ∧
        (rb s (Reg.swcPCfg p) 6 = true → rf t (Reg.swcPPreempt p) 1 0 = 1 ∧ rf t (Reg.swcPPreempt p) 7 4 = 1 ∧
          ∃ l, t.out = .frame p (portFrame s p 0 64 .verify) (max s.now tm) :: l) ∧ KeepsBut [.regs, .now, .op, .out] s t) ∧
    (pState s p = 1 → ∃ t, exec (.trainingTimeout p) s = .next t ∧
      Tab.get 0 (getPort t p).cnt 46 = (Tab.get 0 (getPort s p).cnt 46 + 1) % 2 ^ 40 ∧ pState t p = 1 ∧
      KeepsBut [.regs, .port, .out] s t) ∧
    (pState s p = 2 → ∃ t, exec (.lossOfLock p) s = .next t ∧ pState t p = 1 ∧ (getPort t p).trips = [] ∧
      (getPort t p).wire = none ∧ KeepsBut [.regs, .port, .sw, .recorder, .arb, .out] s t) ∧
    (hcSt s ≠ 3 → pState s p = 3 → ∃ t, exec (.fenceRelease p) s = .next t ∧ pState t p = 2 ∧ KeepsBut [.regs, .port, .recorder, .arb, .out] s t) ∧
    (pState s p = 3 → rb s (Reg.swcPFence p) 31 = true →
      let clean := (getPort s p).lastErr + rf s (Reg.swcPFence p) 30 24 * second ≤ s.op + (tm - s.now);
      (clean → ∃ t, exec (.fenceAutoRelease p tm) s = .next t ∧ pState t p = 2 ∧
        KeepsBut [.regs, .now, .op, .port, .recorder, .arb, .out] s t) ∧
      (¬ clean → exec (.fenceAutoRelease p tm) s = .next (toInstant s tm))) ∧
    (rf s (Reg.swcPPreempt p) 1 0 = 1 →
      (rf s (Reg.swcPPreempt p) 7 4 < 3 → ∃ t, exec (.verifyAttemptTimeout p) s = .next t ∧
        rf t (Reg.swcPPreempt p) 7 4 = rf s (Reg.swcPPreempt p) 7 4 + 1 ∧ rf t (Reg.swcPPreempt p) 1 0 = 1 ∧
        t.out = (if pState s p = 3 then s.out else .frame p (portFrame s p 0 64 .verify) s.now :: s.out) ∧ KeepsBut [.regs, .out] s t) ∧
      (3 ≤ rf s (Reg.swcPPreempt p) 7 4 → ∃ t, exec (.verifyAttemptTimeout p) s = .next t ∧
        rf t (Reg.swcPPreempt p) 1 0 = 3 ∧ rb t Reg.swcIrq 1 = true ∧ KeepsBut [.regs, .out] s t) ∧
      exec (.verifyResponse p) s = .next (wf s (Reg.swcPPreempt p) 1 0 2)) ∧
    (∀ cage : Fin 12, 96 ≤ p.val → (p.val - 96) / 4 = cage.val → pState s p = 2 →
      ∃ t, exec (.qsfp28ModuleInserted cage true) s = .next t ∧ pState t p = 1 ∧ (getPort t p).lowPower = true ∧
        KeepsBut [.regs, .port, .sw, .recorder, .arb, .out] s t)

/-- R71, R73 to R76, R80: egress and pause. Completes `egressDequeue`, `frameSent`, `pfcRepeat`, `ptpTransmit`, `pauseQuantaExpiry`,
`swcPLatch`, `swcOvfCfgWrite`. -/
def Obligations.EgressAndPauseCommands : Prop :=
  ∀ (s : State) (p : Fin 144) (tm : Instant),
    (hcSt s ≠ 3 →
      (∀ x xs, 2 ≤ pState s p → (getPort s p).wire = none → (getPort s p).trips = x :: xs → pubMuted s x.pub = false →
        ∃ t, exec (.egressDequeue p tm) s = .next t ∧
          t.out = (if pState s p = 4 then s.out else .frame p (tripOut s x).frame (max s.now tm) :: s.out) ∧
          (getPort t p).wire = some (.trip (tripOut s x)) ∧ (getPort t p).trips = xs ∧ (∀ q, q ≠ p → getPort t q = getPort s q) ∧
          KeepsBut [.now, .op, .port, .out] s t) ∧
      (∀ id f x, pState s p ≠ 4 → (getPort s p).wire = some (.stored id f) → stored s id = some x → x.refs = 1 →
        ∃ t, exec (.frameSent p tm) s = .next t ∧ (getPort t p).wire = none ∧ stored t id = none ∧ Tab.get 0 (getPort t p).cnt 16 = (Tab.get 0 (getPort s p).cnt 16 + 1) % 2 ^ 40 ∧
          KeepsBut [.regs, .now, .op, .port, .sw, .out] s t) ∧
      (s.sw.pausing = true → ∃ t, exec .pfcRepeat s = .next t ∧
        t.sw.pausing = decide (resumeThr s ≤ s.sw.ovfBytes) ∧ KeepsBut [.regs, .port, .sw, .out] s t) ∧
      (rb s Reg.timeCtrl 0 = true → ptpRole s p = .master → pState s p = 2 → pairMode s (pairOf p) = 0 →
        (poolUse s 1).1 < 8192 → (poolUse s 1).2 < 4096 →
        ∃ t x m, exec (.ptpTransmit p .sync tm) s = .next t ∧ stored t s.sw.nextFrame = some x ∧ x.tc = 5 ∧ x.refs = 1 ∧
          x.frame.src = macOf s p ∧ x.frame.body = .ptp m ∧ m.kind = .sync ∧ m.source = portIdentity s p ∧
          m.domain = rf s Reg.timePrio 23 16 ∧ KeepsBut [.regs, .now, .op, .time, .port, .sw] s t)) ∧
    (∀ tc : Fin 5, ∃ t, exec (.pauseQuantaExpiry p tc) s = .next t ∧
      (∀ k : Fin 5, (getPort t p).paused.getLsbD k = (decide (k ≠ tc) && (getPort s p).paused.getLsbD k)) ∧
      (∀ q, q ≠ p → getPort t q = getPort s q) ∧ KeepsBut [.port] s t) ∧
    (∀ (v : Word) (i : Fin 64), hcSt s ≠ 3 → bitOf v 0 = true → ∃ t, exec (.swcPLatch p v tm) s = .next t ∧
      rd t (Reg.swcPCnt p (2 * i)) = BitVec.ofNat 32 (Tab.get 0 (getPort s p).cnt i) ∧
      rd t (Reg.swcPCnt p (2 * i + 1)) = BitVec.ofNat 32 (Tab.get 0 (getPort s p).cnt i / 2 ^ 32) ∧
      rd t (Reg.swcPLatchSec p) = BitVec.ofNat 32 (secOf (max s.now tm)) ∧
      (getPort t p).cnt = (if bitOf v 1 then [] else (getPort s p).cnt) ∧ KeepsBut [.regs, .now, .op, .port] s t) ∧
    (∀ v : Word,
      let pause := fld v 12 8
      let spill := fld v 29 24
      let good := 1 ≤ pause ∧ pause ≤ 16 ∧ fld v 20 16 < pause ∧ 8 ≤ spill ∧ spill ≤ 42;
      (hcSt s ≠ 3 → good → ∃ t, exec (.swcOvfCfgWrite v) s = .next t ∧ rd t Reg.swcOvfCfg = v &&& 0x3F1F1F01 ∧
        KeepsBut [.regs, .port, .sw, .recorder, .arb, .out] s t) ∧
      (hcSt s ≠ 3 → ¬ good → exec (.swcOvfCfgWrite v) s = .next (raise s Reg.swcIrq 6)))

/-- R65, R70, R82: the tables of the Colander and the switch core. Completes `fdbRead`, `fdbWriteStatic`, `fdbDelete`,
`fdbFlushLearned`, `fdbAgeOut`, `vlanWrite`, `vlanRead`, `colPairmodeWrite`, `dupEntryForget`, `colMatchRead`, `colMatchWrite`,
`colMatchInvalidate`. -/
def Obligations.ForwardingAndMatchTables : Prop :=
  ∀ (s : State) (tm : Instant),
    let k := fdbKey s
    let idx := rf s Reg.colMatchIdx 11 0;
    (∀ mac vid e, rf s Reg.swcFdbAge 15 0 ≠ 0 → fdbFind s vid mac = some e → e.static = false →
      e.at' + rf s Reg.swcFdbAge 15 0 * second ≤ s.op + (tm - s.now) →
      ∃ t, exec (.fdbAgeOut mac vid tm) s = .next t ∧ fdbFind t vid mac = none ∧ KeepsBut [.now, .op, .sw] s t) ∧
    (∀ pair mac, ∃ t, exec (.dupEntryForget pair mac tm) s = .next t ∧
      (∀ e, e ∈ t.sw.dup ↔ e ∈ s.sw.dup ∧ ¬ (e.pair = pair ∧ e.mac = mac ∧
        e.at' + rf s Reg.colDupcfg 15 0 * msec ≤ s.op + (tm - s.now))) ∧ KeepsBut [.regs, .now, .op, .sw] s t) ∧
    (hcSt s ≠ 3 →
      (∀ e, fdbFind s k.1 k.2 = some e →
        (∃ t, exec .fdbRead s = .next t ∧ rd t Reg.swcFdbData = e.data ∧ rb t Reg.swcFdbStat 1 = false ∧ KeepsBut [.regs] s t) ∧
        (∃ t, exec .fdbDelete s = .next t ∧ fdbFind t k.1 k.2 = none ∧ (∀ v m, (v, m) ≠ k → fdbFind t v m = fdbFind s v m) ∧
          KeepsBut [.regs, .sw] s t)) ∧
      (fdbFind s k.1 k.2 = none →
        (∃ t, exec .fdbRead s = .next t ∧ rb t Reg.swcFdbStat 1 = true ∧ KeepsBut [.regs] s t) ∧
        (∃ t, exec .fdbDelete s = .next t ∧ rb t Reg.swcFdbStat 1 = true ∧ KeepsBut [.regs] s t)) ∧
      ((fdbFind s k.1 k.2 ≠ none ∨ bucketFull s k.1 k.2 = false) → ∃ t, exec .fdbWriteStatic s = .next t ∧
        fdbFind t k.1 k.2 = some ⟨k.1, k.2, rd s Reg.swcFdbData, true, 0⟩ ∧
        (∀ v m, (v, m) ≠ k → fdbFind t v m = fdbFind s v m) ∧ KeepsBut [.regs, .sw] s t) ∧
      (fdbFind s k.1 k.2 = none → bucketFull s k.1 k.2 = true → ∃ t, exec .fdbWriteStatic s = .next t ∧
        rb t Reg.swcFdbStat 2 = true ∧ KeepsBut [.regs] s t) ∧
      (∃ t, exec .fdbFlushLearned s = .next t ∧ (∀ e, e ∈ t.sw.fdb ↔ e ∈ s.sw.fdb ∧ e.static = true) ∧
        KeepsBut [.regs, .sw] s t) ∧
      (1 ≤ vlanIdx s → vlanIdx s ≤ 4094 → ∃ t, exec .vlanWrite s = .next t ∧
        vlanOf t (BitVec.ofNat 12 (vlanIdx s)) =
          some ⟨bitmap144 s Reg.swcVlanMem, bitmap144 s Reg.swcVlanUntag, rd s Reg.swcVlanCtl &&& 0xF⟩ ∧
        KeepsBut [.regs, .sw] s t) ∧
      (∀ i < 5, let v := (vlanOf s (BitVec.ofNat 12 (vlanIdx s))).getD ⟨0, 0, 0⟩
        ∃ t, exec .vlanRead s = .next t ∧ rd t (Reg.swcVlanMem i) = BitVec.ofNat 32 (v.mem.toNat / 2 ^ (32 * i)) ∧
        rd t (Reg.swcVlanUntag i) = BitVec.ofNat 32 (v.untag.toNat / 2 ^ (32 * i)) ∧
        rf t Reg.swcVlanCtl 3 0 = fld v.ctl 3 0 ∧ KeepsBut [.regs] s t) ∧
      (∀ (i : Fin 5) (v : Word),
        let n := if i = 4 then 8 else 16
        let modes := (List.range n).map (fun j => fld v (2 * j + 1) (2 * j))
        let hsr := ((List.finRange 72).filter (fun q => q.val / 16 ≠ i.val ∧ pairMode s q = 2)).length + (modes.filter (· == 2)).length;
        ((3 ∈ modes ∨ 16 < hsr) → exec (.colPairmodeWrite i v) s = .next (raise s Reg.colIrq 0)) ∧
        (3 ∉ modes → hsr ≤ 16 → ∃ t, exec (.colPairmodeWrite i v) s = .next t ∧
          rd t (Reg.colPairmode i) = (if i = 4 then v &&& 0xFFFF else v) ∧ KeepsBut [.regs, .recorder, .arb, .out] s t)) ∧
      (idx ≤ 2559 → ∃ t, exec .colMatchRead s = .next t ∧
        rd t Reg.colKeyMacLo = BitVec.ofNat 32 (getMatch s idx).mac.toNat ∧ rd t Reg.colKeyGrp = BitVec.ofNat 32 (getMatch s idx).grp.toNat ∧
        rd t Reg.colKeyIdlen = BitVec.ofNat 32 (getMatch s idx).id.length ∧ KeepsBut [.regs] s t) ∧
      (512 ≤ idx → idx ≤ 2559 → s.hif.session = none →
        (∃ t, exec .colMatchWrite s = .next t ∧ getMatch t idx = keyEntry s true ∧ (∀ j, j ≠ idx → getMatch t j = getMatch s j) ∧
          KeepsBut [.regs, .sw] s t) ∧
        (∃ t, exec .colMatchInvalidate s = .next t ∧ getMatch t idx = { getMatch s idx with valid := false } ∧
          (∀ j, j ≠ idx → getMatch t j = getMatch s j) ∧ KeepsBut [.regs, .sw] s t)) ∧
      (∀ x, s.hif.session = some x → idx ≤ 2559 → (512 ≤ idx ∨ x.kind = 0) →
        (macsecForbids s idx (keyEntry s (512 ≤ idx)) = false → ∃ t, exec .colMatchWrite s = .next t ∧
          t.hif.session = some { x with entries := Tab.ins x.entries idx (keyEntry s (512 ≤ idx)) } ∧ KeepsBut [.regs, .hif] s t) ∧
        (∃ t, exec .colMatchInvalidate s = .next t ∧
          t.hif.session = some { x with entries := Tab.ins x.entries idx { heldMatch s idx with valid := false } } ∧
          KeepsBut [.regs, .hif] s t)) ∧
      (idx < 512 → (∀ x, s.hif.session = some x → x.kind ≠ 0) →
        exec .colMatchWrite s = .next (raise (wb s Reg.colMatchStat 1 true) Reg.colIrq 0) ∧
        exec .colMatchInvalidate s = .next (raise (wb s Reg.colMatchStat 1 true) Reg.colIrq 0)))

/-- R63, R76, R106, R169, R170, R193: reception. Completes `frameReceive`, `loopbackAsdu`, `tagVerdict`, `gooseTalExpiry`. -/
def Obligations.ReceptionCommands : Prop :=
  ∀ (s : State) (p : Fin 144) (f : Frame) (tm : Instant),
    let maxLen := if rb s (Reg.swcPCfg p) 5 then 9216 else 1522
    let good := 64 ≤ f.len ∧ f.len ≤ maxLen ∧ f.fcsErr = false ∧ f.symErr = false;
    (hcSt s ≠ 3 →
      (pState s p < 2 ∨ pState s p = 4 → exec (.frameReceive p f tm) s = .next (toInstant s tm)) ∧
      (2 ≤ pState s p → pState s p ≠ 4 → f.len < 64 → exec (.frameReceive p f tm) s = .next (count (toInstant s tm) p 33)) ∧
      (2 ≤ pState s p → pState s p ≠ 4 → maxLen < f.len → exec (.frameReceive p f tm) s = .next (count (toInstant s tm) p 34)) ∧
      (pState s p = 3 → good → exec (.frameReceive p f tm) s = .next (count (toInstant s tm) p 44)) ∧
      (∀ quanta, pState s p = 2 → good → f.reasmErr = false → f.body = .pause quanta →
        ∃ t, exec (.frameReceive p f tm) s = .next t ∧ (getPort t p).paused = (if quanta = 0 then 0 else 31) ∧
          (∀ q, q ≠ p → getPort t q = getPort s q) ∧ KeepsBut [.regs, .now, .op, .port, .out] s t) ∧
      (∀ appid m (g : Fin 2048) other, pState s p = 2 → good → f.reasmErr = false → f.body = .goose appid true m →
        rb s (Reg.swcPMacsec p) 0 = false → pairMode s (pairOf p) = 0 → rb s (Reg.swcPPvid p) 12 = false →
        entriesFor s p f (frameVid s p f) appid (some m.goCbRef) 512 2560 = ([512 + g.val], other) → tagOk s 2 g f.tag = true →
        ∃ t, exec (.frameReceive p f tm) s = .next t ∧ (getSub t g).valid = true ∧ (getSub t g).expired = false ∧
          (getSub t g).stNum = m.stNum ∧ (getSub t g).sqNum = m.sqNum ∧ (getSub t g).members = m.members.map GooseVal.toWord ∧
          (getSub t g).until' = s.op + (tm - s.now) + m.talMs * msec ∧
          (getSub t g).changes = (if (getSub s g).seen = true ∧ (getSub s g).stNum ≠ m.stNum
            then min 255 ((getSub s g).changes + 1) else (getSub s g).changes) ∧
          (∀ h, h ≠ g → getSub t h = getSub s h) ∧ KeepsBut [.regs, .now, .op, .port, .sw, .arb, .freeCtr, .out] s t) ∧
      (∀ (stream w : Fin 512) sim a ts rest, s.loom.pbLoop = (stream.val, w.val, sim, a, ts) :: rest →
        let s' := { s with loom := { s.loom with pbLoop := rest } };
        (a.dsLen = 8 * (warpCfg s w).nvals → exec (.loopbackAsdu stream) s = .next (deliverAsdu s' w 0 sim a ts true none)) ∧
        (a.dsLen ≠ 8 * (warpCfg s w).nvals → exec (.loopbackAsdu stream) s = .next (raise (bump s' Reg.colMalformed) Reg.colIrq 2)))) ∧
    (∀ c x rest, s.sw.checks = x :: rest → x.id = c → (∀ y ∈ rest, y.id ≠ c) → (∀ r ∈ s.hdl.acted, r.deciding ≠ c) →
      ∃ t, exec (.tagVerdict c) s = .next t ∧ t.sw.checks = rest ∧ verdictOf t c = some x.ok ∧
        (∀ n w z, rowSlot t n w = some z → z.chk ≠ some c) ∧
        (∀ u : Fin 17, x.ok = false → x.unit = some u.val → rd t (Reg.hdlUAuthfail u) = rd s (Reg.hdlUAuthfail u) + 1) ∧
        (x.unit = none → t.regs = s.regs) ∧
        KeepsBut [.regs, .sw, .loom, .hdl, .out] s t) ∧
    (∀ g : Fin 2048, (getSub s g).valid = true → (getSub s g).until' ≤ s.op + (tm - s.now) → ∃ t, exec (.gooseTalExpiry g tm) s = .next t ∧
      getSub t g = { getSub s g with valid := false, expired := true } ∧ (∀ h, h ≠ g → getSub t h = getSub s h) ∧
      KeepsBut [.now, .op, .sw] s t)

/-- R85, R87, R90, R106: placing a sample. Completes `loopbackAsdu`. -/
def Obligations.SamplesArePlacedAtTheirTick : Prop :=
  ∀ (s : State) (stream w : Fin 512) (a : SvAsdu) (ts : Instant) (rest : List (Nat × Nat × Bool × SvAsdu × Instant)) (n : Nat),
    let c := warpCfg s w
    let m := s.time.tick + (if edgeDue s then 1 else 0)
    hcSt s ≠ 3 → s.loom.pbLoop = (stream.val, w.val, false, a, ts) :: rest → boundAt s w = none →
    a.dsLen = 8 * c.nvals → inCutCycle s = false → a.confRev = c.confRev → a.smpCnt < c.ratio * rateHz s → rb s (Reg.loomWState w) 3 = false →
    s.loom.started = true → s.loom.enable = true → c.valid = true → c.ratio ≠ 0 → a.smpCnt % c.ratio = 0 →
    timeAligned s w a = true → tickByTime (rateHz s) c.ratio ts a.smpCnt = n → s.loom.flushUpTo = none →
    (m < n + closeDelay s → n ≤ m + 8 → rowSlot s n w = none →
      ∃ t x, exec (.loopbackAsdu stream) s = .next t ∧ rowSlot t n w = some x ∧ x.vals = a.vals ∧ x.smpCnt = a.smpCnt % 2 ^ 16 ∧
        x.au = false ∧ x.sim = false ∧ x.playback = true ∧ x.conflict = false ∧ x.quals = packQuals a.quals ∧
        (∀ n' w', (n', w') ≠ (n, w) → rowSlot t n' w' = rowSlot s n' w') ∧ KeepsBut [.regs, .loom] s t) ∧
    (∀ x, m < n + closeDelay s → n ≤ m + 8 → rowSlot s n w = some x →
      ∃ t y, exec (.loopbackAsdu stream) s = .next t ∧ rowSlot t n w = some y ∧ y.vals = x.vals ∧ y.quals = x.quals ∧
        y.conflict = (x.conflict || decide (x.vals ≠ a.vals ∨ x.quals ≠ packQuals a.quals)) ∧
        rd t (Reg.loomWDup w) = rd s (Reg.loomWDup w) + 1 ∧
        (∀ n' w', (n', w') ≠ (n, w) → rowSlot t n' w' = rowSlot s n' w') ∧ KeepsBut [.regs, .loom, .out] s t) ∧
    (n + closeDelay s ≤ m → ∃ t, exec (.loopbackAsdu stream) s = .next t ∧
      rd t (Reg.loomWLate w) = rd s (Reg.loomWLate w) + 1 ∧ rb t Reg.loomIrq 2 = true ∧
      (∀ n' w', rowSlot t n' w' = rowSlot s n' w') ∧ KeepsBut [.regs, .loom, .out] s t)

/-- R91, R92, R97, R101, R103, R108, R109, R260: the Loom's commands. Completes `historyWrite`, `historyRebuildDone`, `pbStart`,
`pbStop`, `loomCtrlWrite`, `loomTransitWrite`, `loomWCfgWrite`. -/
def Obligations.LoomCommands : Prop :=
  ∀ (s : State) (v : Word) (w : Fin 512),
    (∀ i rest, s.loom.histDue = i :: rest → ∃ t, exec .historyWrite s = .next t ∧ t.loom = { s.loom with histDue := rest } ∧
      KeepsBut [.regs, .loom, .arb, .arc, .out, .freeCtr] s t) ∧
    (∃ t, exec .historyRebuildDone s = .next t ∧ t.loom.closed.length ≤ 1 ∧ t.loom.histDue = [] ∧ t.loom.openRows = s.loom.openRows ∧
      KeepsBut [.regs, .loom, .arb, .arc, .out, .freeCtr] s t) ∧
    (hcSt s ≠ 3 → pbState s = 0 →
      (pbCheck s = 0 → ∃ t, exec .pbStart s = .next t ∧ pbState t = 1 ∧ rf t Reg.loomPbStatus 6 4 = 0 ∧ KeepsBut [.regs] s t) ∧
      (pbCheck s ≠ 0 → ∃ t, exec .pbStart s = .next t ∧ pbState t = 0 ∧ rf t Reg.loomPbStatus 6 4 = pbCheck s ∧
        rb t Reg.loomIrq 4 = true ∧ KeepsBut [.regs, .out] s t)) ∧
    (hcSt s ≠ 3 → pbState s ≠ 0 → exec .pbStop s = .next { s with loom := { s.loom with pbStop := true } }) ∧
    (hcSt s ≠ 3 →
      let d := fld v 7 1
      let same := d = rf s Reg.loomCtrl 7 1
      let free := allIdle s = true ∧ pbState s = 0 ∧ allCovered s (rf s Reg.loomTransit 15 0) d = true;
      (1 ≤ d → d ≤ 64 → (same ∨ free) → ∃ t, exec (.loomCtrlWrite v) s = .next t ∧ rd t Reg.loomCtrl = v &&& 0x3FF ∧
        rb t Reg.loomStat 8 = false ∧ t.loom.delayPend = (if same then s.loom.delayPend else some d) ∧
        KeepsBut [.regs, .loom, .recorder, .arb, .out] s t) ∧
      (¬ (1 ≤ d ∧ d ≤ 64 ∧ (same ∨ free)) → exec (.loomCtrlWrite v) s = .next (wb s Reg.loomStat 8 true))) ∧
    (hcSt s ≠ 3 → allCovered s (fld v 15 0) (nextDelay s) = true → ∃ t, exec (.loomTransitWrite v) s = .next t ∧
      rd t Reg.loomTransit = v &&& 0xFFFF ∧ rb t Reg.loomStat 12 = false ∧ KeepsBut [.regs, .recorder, .arb, .out] s t) ∧
    (hcSt s ≠ 3 → allCovered s (fld v 15 0) (nextDelay s) = false → ∃ t, exec (.loomTransitWrite v) s = .next t ∧
      rd t Reg.loomTransit = rd s Reg.loomTransit ∧ rb t Reg.loomStat 12 = true ∧ rb t Reg.loomIrq 4 = true ∧
      KeepsBut [.regs, .out] s t) ∧
    (∀ x, hcSt s ≠ 3 → s.hif.session = some x → x.kind = 0 → x.obj = w.val → ∃ t, exec (.loomWCfgWrite w v) s = .next t ∧
      (∃ y, t.hif.session = some y ∧ Tab.get 0 y.held (Reg.loomWCfg w) = v &&& 0x3F7FFF ∧ y.obj = x.obj ∧ y.kind = x.kind ∧
        ∀ k, k ≠ Reg.loomWCfg w → Tab.get 0 y.held k = Tab.get 0 x.held k) ∧ KeepsBut [.hif] s t) ∧
    (hcSt s ≠ 3 → inSession s 0 w = false →
      ((v ^^^ rd s (Reg.loomWCfg w)) &&& 0x3F5FFF ≠ 0 → exec (.loomWCfgWrite w v) s = .next (wb s (Reg.loomWState w) 4 true)) ∧
      ((v ^^^ rd s (Reg.loomWCfg w)) &&& 0x3F5FFF = 0 → ∃ t, exec (.loomWCfgWrite w v) s = .next t ∧
        rd t (Reg.loomWCfg w) = putBit (rd s (Reg.loomWCfg w)) 13 (bitOf v 13) ∧
        ((getWarp t w).simLeave = true ↔ ((getWarp s w).simLeave = true ∨
          (rb s (Reg.loomWCfg w) 13 = true ∧ bitOf v 13 = false))) ∧ KeepsBut [.regs, .loom] s t))

/-- R158, R160, R162 to R164, R179, R181: records, stage state, events, the spare unit. Completes `recordDispatch`, `recordExit`,
`stateWordWrite`, `evtPop`, `shadowPeriodStart`, `shadowCopyDone`, `heddleRestoreDone`. -/
def Obligations.HeddleRecordCommands : Prop :=
  ∀ (s : State) (n : Fin 16) (u : Fin 17) (v : Word),
    let k : Fin 17 := n.castSucc;
    (hcSt s ≠ 3 →
      (∀ r rest, (getUnit s k).queue = r :: rest → r.group = false → tActive s (ten r.owner) = true →
        bValid (bindWord s n r.slot) = true → (bWarp (bindWord s n r.slot)).val = r.warp →
        (rb s (Reg.hdlUCtrl n) 0 = true → unitRole s n ≠ 3 → s.hdl.restoring ≠ some n.val →
          ∃ t, exec (.recordDispatch n) s = .next t ∧ (getUnit t k).queue = rest ∧
            (getUnit t k).flight = (getUnit s k).flight ++
              [{ r with id := (getUnit s k).nextId, gen := unitGen s n, stage := 0, ctx := .reset, pend := [] }] ∧
            rd t (Reg.hdlURecords n) = rd s (Reg.hdlURecords n) + 1 ∧ (∀ j, j ≠ k → getUnit t j = getUnit s j) ∧
            KeepsBut [.regs, .hdl] s t) ∧
        (rb s (Reg.hdlUCtrl n) 0 = false ∨ unitRole s n = 3 ∨ s.hdl.restoring = some n.val →
          ∃ t, exec (.recordDispatch n) s = .next t ∧ (getUnit t k).queue = rest ∧ (getUnit t k).flight = (getUnit s k).flight ∧
            rd t (Reg.hdlURatedrop n) = rd s (Reg.hdlURatedrop n) + 1 ∧ KeepsBut [.regs, .hdl] s t)) ∧
      (∀ id r, getRec s k id = some r → s.hdl.comparing = false →
        let fs := ({ r with stage := 128 } : HRec).settle.ctx.fs
        ∃ t, exec (.recordExit n id) s = .next t ∧ getRec t k id = none ∧
          (∀ i, i ≠ id → getRec t k i = getRec s k i) ∧
          rd t (Reg.hdlUKflags n) = rd s (Reg.hdlUKflags n) |||
            W ((b2n (bitOf fs 0) + 2 * b2n (bitOf fs 1) + 4 * b2n (bitOf fs 3)) * 2 ^ (3 * r.kernel)) ∧
          KeepsBut [.regs, .hdl, .out] s t)) ∧
    (hcSt s ≠ 3 →
      let a := rd s (Reg.hdlUSmaddr u)
      let key := smKey (fld a 6 0) (fld a 11 7) (fld a 17 12)
      ∃ t, exec (.stateWordWrite u v) s = .next t ∧ Tab.get 0 (getUnit t u).sm key = v ∧ Tab.get 0 (getUnit t u).mirror key = v ∧
        (∀ i, i ≠ key → Tab.get 0 (getUnit t u).sm i = Tab.get 0 (getUnit s u).sm i) ∧
        (∀ j, j ≠ u → j ≠ 16 → getUnit t j = getUnit s j) ∧
        (u ≠ 16 → if shadows s u then (getUnit t 16).sm = (getUnit t u).sm else getUnit t 16 = getUnit s 16) ∧
        KeepsBut [.hdl, .arb, .freeCtr] s t) ∧
    (∀ e es, hcSt s ≠ 3 → (getUnit s u).events = e :: es → es.length < 256 → ∃ t, exec (.evtPop u) s = .next t ∧ (getUnit t u).events = es ∧
      rd t (Reg.hdlUEvtData0 u) = W (e.code + 256 * e.stage + 32768 * e.obj + 16777216 * b2n e.group) ∧
      rd t (Reg.hdlUEvtData1 u) = e.word2 ∧ rf t (Reg.hdlUEvtInfo u) 8 0 = es.length ∧ rb t (Reg.hdlUEvtInfo u) 30 = true ∧
      KeepsBut [.regs, .hdl] s t) ∧
    (hcSt s ≠ 3 → (getUnit s u).events = [] → exec (.evtPop u) s = .next (wb s (Reg.hdlUEvtInfo u) 30 false)) ∧
    (∀ x, rb s (Reg.hdlUCtrl 16) 1 = true → unitRole s 16 ≠ 3 → s.hdl.restoring = none → rb s (Reg.hdlUStatus 16) 18 = false →
      (unitRole s 16 = 2 → 4800 ≤ s.hdl.shadowTicks) → nextShadow s = some x → ∃ t, exec .shadowPeriodStart s = .next t ∧ unitRole t 16 = 2 ∧ rf t (Reg.hdlUStatus 16) 6 2 = x ∧
        rb t (Reg.hdlUStatus 16) 7 = true ∧ t.hdl.comparing = false ∧ t.hdl.shadowTicks = 0 ∧
        (getUnit t 16).kernels = (getUnit s (Fin.ofNat 17 x)).kernels ∧ (getUnit t 16).sm = (getUnit s (Fin.ofNat 17 x)).sm ∧ KeepsBut [.regs, .hdl] s t) ∧
    (rb s (Reg.hdlUStatus 16) 7 = true → ∃ t, exec .shadowCopyDone s = .next t ∧ rb t (Reg.hdlUStatus 16) 7 = false ∧
      t.hdl = { s.hdl with comparing := true, compareFrom := (getUnit s (Fin.ofNat 17 (rf s (Reg.hdlUStatus 16) 6 2))).nextId } ∧
      KeepsBut [.regs, .hdl] s t) ∧
    (s.hdl.restoring = some n.val → ∃ t, exec .heddleRestoreDone s = .next t ∧
      getUnit t k = { getUnit s k with sm := (getUnit s k).mirror, resetDue := true } ∧ t.hdl.restoring = none ∧
      rb t (Reg.hdlUStatus n) 16 = true ∧ KeepsBut [.regs, .hdl] s t)

/-- R157, R161, R162, R165, R166, R179, R260: what the manager loads into a unit. Completes `kernelLoad`, `hdlBindingWrite`,
`gateWrite`, `gateVselWrite`, `hdlUCtrlWrite`. -/
def Obligations.HeddleConfigurationCommands : Prop :=
  ∀ (s : State) (u : Fin 17) (v : Word),
    (hcSt s ≠ 3 → u.val ≠ 16 →
      (let k := fld v 2 0
        let own := fld v 8 3
        let t' := (List.range 128).map (fun i => rd s (Reg.hdlUKtab u i));
        (bitOf v 31 = true → own ≠ 0 → tState s (ten own) ≤ 1 → (∀ i, i < 128 → stageFault s own (rd s (Reg.hdlUKtab u i)) = 0) →
          placed (t' :: ((getUnit s u).kernels.filter (fun e => e.1 ≠ k)).map (·.2)) (wMax s u) = true →
          (∀ j, j < 32 → bValid (bindWord s u j) = true → bKernel (bindWord s u j) = k →
            warpOwner s (bWarp (bindWord s u j)) = own) →
          (∀ g, g < 8 → gateEn s u g = true → gateKernel s u g = k → gateOwner s u g = own) →
          ∃ t, exec (.kernelLoad u v) s = .next t ∧ kernelOf t u k = t' ∧ kernelOwner t u k = own ∧
            (∀ j, j < 8 → j ≠ k → kernelOf t u j = kernelOf s u j ∧ kernelOwner t u j = kernelOwner s u j) ∧
            rb t (Reg.hdlUStatus u) 17 = false ∧ KeepsBut [.regs, .hdl] s t) ∧
        (bitOf v 31 = true → (own = 0 ∨ 1 < tState s (ten own)) → ∃ t, exec (.kernelLoad u v) s = .next t ∧
          rf t (Reg.hdlUKstat u) 7 4 = 2 ∧ rb t (Reg.hdlUStatus u) 17 = true ∧ kernelOwner t u k = kernelOwner s u k ∧
          KeepsBut [.regs] s t)) ∧
      (∀ j : Fin 32,
        (∀ x, s.hif.session = some x → x.kind = 0 → x.obj = (bWarp (v &&& 0xFFFF)).val →
          ∃ t, exec (.hdlBindingWrite u j v) s = .next t ∧
            (∃ y, t.hif.session = some y ∧ Tab.get 0 y.held (Reg.hdlUWarp u j) = v &&& 0xFFFF) ∧ KeepsBut [.hif] s t) ∧
        (s.hif.session = none → ∃ t, exec (.hdlBindingWrite u j v) s = .next t ∧ rd t (Reg.hdlUWarp u j) = rd s (Reg.hdlUWarp u j) ∧
          rb t (Reg.hdlUStatus u) 17 = true ∧ rf t (Reg.hdlUKstat u) 7 4 ≠ 0 ∧ KeepsBut [.regs] s t)) ∧
      (∀ (g : Fin 8) (reg : GateReg),
        let off := match reg with | .memb => Reg.hdlGMemb u g | .cfg => Reg.hdlGCfg u g
        let x := match reg with | .memb => v | .cfg => v &&& 0xF;
        (gateFault (wr s off x) u g = 0 → ∃ t, exec (.gateWrite u g reg v) s = .next t ∧ rd t off = x ∧
          rb t (Reg.hdlUStatus u) 17 = false ∧
          (gateEn s u g = false → gateEn t u g = true → ∀ i j, i < 128 → j < 64 → Tab.get 0 (getUnit t u).sm (smKey i g j) = 0) ∧
          KeepsBut [.regs, .hdl, .out] s t) ∧
        (gateFault (wr s off x) u g ≠ 0 → ∃ t, exec (.gateWrite u g reg v) s = .next t ∧ rd t off = rd s off ∧
          rf t (Reg.hdlUKstat u) 7 4 = gateFault (wr s off x) u g ∧ rb t (Reg.hdlUStatus u) 17 = true ∧ KeepsBut [.regs] s t) ∧
        exec (.gateVselWrite u g v) s = .next (wr s (Reg.hdlGVsel u g) (v &&& 0xFFFFFF))) ∧
      exec (.hdlUCtrlWrite u v) s = .next (wr s (Reg.hdlUCtrl u) (v &&& 3))) ∧
    exec (.kernelLoad 16 v) s = .next s ∧ (∀ j, exec (.hdlBindingWrite 16 j v) s = .next s) ∧
    (∀ g reg, exec (.gateWrite 16 g reg v) s = .next s) ∧
    (hcSt s ≠ 3 → (bitOf v 1 = true ∨ unitRole s 16 ≠ 2) → exec (.hdlUCtrlWrite 16 v) s = .next (wr s (Reg.hdlUCtrl 16) (v &&& 3))) ∧
    (hcSt s ≠ 3 → bitOf v 1 = false → unitRole s 16 = 2 → ∃ t, exec (.hdlUCtrlWrite 16 v) s = .next t ∧ rd t (Reg.hdlUCtrl 16) = v &&& 3 ∧
      unitRole t 16 = 0 ∧ rb t (Reg.hdlUStatus 16) 7 = false ∧ t.hdl = { s.hdl with comparing := false } ∧
      KeepsBut [.regs, .hdl] s t)

/-- R15, R18, R170 to R173, R175, R177, R184, R380: the Trip Release Unit. Completes `releaseRequest`, `vbaHoldEnd`, `retransmission`,
`slotRead`, `slotWrite`, `slotClear`, `truCtrlWrite`, `truRetxWrite`. -/
def Obligations.TripReleaseUnitCommands : Prop :=
  ∀ (s : State) (tm : Instant) (v : Word),
    (hcSt s ≠ 3 →
      (∀ r rest, s.hdl.reqs = r :: rest →
        let x := getSlot s r.slot;
        (r.gen = unitGen s r.unit → r.policy = 0 → truOn s = true → x.owner = r.tenant → x.st = 2 → pubMuted s x.pub = false →
          ∃ t, exec (.releaseRequest tm) s = .next t ∧ t.hdl.reqs = rest ∧ (getSlot t r.slot).st = 3 ∧
            (getPub t x.pub).stNum = ((getPub s x.pub).stNum + 1) % 2 ^ 32 ∧ (getPub t x.pub).sqNum = 0 ∧
            (getPub t x.pub).hold = some r.slot ∧ rd t Reg.truReleases = rd s Reg.truReleases + 1 ∧
            (∀ p, p ∈ portsOf s x.pgrp → (pState s p = 2 ∨ pState s p = 3) →
              ∃ y ∈ (getPort t p).trips, y.slot = some r.slot ∧ y.pub = x.pub) ∧
            KeepsBut [.regs, .now, .op, .port, .sw, .hdl, .tru, .out] s t) ∧
        (r.gen ≠ unitGen s r.unit → ∃ t, exec (.releaseRequest tm) s = .next t ∧ t.hdl.reqs = rest ∧
          rd t Reg.truStale = rd s Reg.truStale + 1 ∧ KeepsBut [.regs, .now, .op, .hdl] s t) ∧
        (r.gen = unitGen s r.unit → r.policy = 2 → ∃ t, exec (.releaseRequest tm) s = .next t ∧ t.hdl.reqs = rest ∧
          t.hdl.holds = s.hdl.holds ++ [{ r with tm := s.op + (tm - s.now) }] ∧ KeepsBut [.now, .op, .hdl] s t) ∧
        (r.gen = unitGen s r.unit → r.policy ≠ 2 → r.unit < 17 → truOn s = true → x.st = 1 →
          ∃ t, exec (.releaseRequest tm) s = .next t ∧ rd t Reg.truRejects = rd s Reg.truRejects + 1 ∧
            KeepsBut [.regs, .now, .op, .hdl, .out] s t)) ∧
      (∀ r rest, s.hdl.holds = r :: rest →
        let due := r.tm + 112 * mainCycle ≤ s.op + (tm - s.now);
        (due → r.gen = unitGen s r.unit → (∀ c ∈ r.verify, verdictOf s c = some true) → r.policy = 2 → truOn s = true →
          (getSlot s r.slot).owner = r.tenant → (getSlot s r.slot).st = 2 →
          ∃ t, exec (.vbaHoldEnd tm) s = .next t ∧ t.hdl.holds = rest ∧ (getSlot t r.slot).st = 3 ∧
            KeepsBut [.regs, .now, .op, .port, .sw, .hdl, .tru, .out] s t) ∧
        (due → r.gen = unitGen s r.unit → (∃ c ∈ r.verify, verdictOf s c ≠ some true) →
          ∃ t, exec (.vbaHoldEnd tm) s = .next t ∧ t.hdl.holds = rest ∧
            rd t Reg.truVbaDrop = rd s Reg.truVbaDrop + 1 ∧ KeepsBut [.regs, .now, .op, .recorder, .arb, .hdl, .out] s t) ∧
        (due → r.gen ≠ unitGen s r.unit → ∃ t, exec (.vbaHoldEnd tm) s = .next t ∧ t.hdl.holds = rest ∧
          rd t Reg.truStale = rd s Reg.truStale + 1 ∧ KeepsBut [.regs, .now, .op, .hdl] s t) ∧
        (¬ due → exec (.vbaHoldEnd tm) s = .next (toInstant s tm))) ∧
      (∀ (p : Fin 1024) i, (getPub s p).hold = some i → truOn s = true → pubMuted s p = false →
        (getPub s p).nextAt ≤ s.op + (tm - s.now) → ∃ t, exec (.retransmission p tm) s = .next t ∧ (getPub t p).sqNum = ((getPub s p).sqNum + 1) % 2 ^ 32 ∧
          (getPub t p).stNum = (getPub s p).stNum ∧ (getPub t p).hold = some i ∧
          (getPub t p).nextAt = s.op + (tm - s.now) + retxGap s ((getPub s p).step + 1) ∧ (getSlot t i).st = (getSlot s i).st ∧
          KeepsBut [.regs, .now, .op, .port, .sw, .tru, .out] s t)) ∧
    (hcSt s ≠ 3 → let i := slotIdx s;
      (∃ t, exec .slotRead s = .next t ∧ rd t Reg.truSCfg = (getSlot s i).cfg ∧ rd t Reg.truSLen = (getSlot s i).len ∧
        rd t Reg.truSOfs = (getSlot s i).ofs ∧ rd t Reg.truSTofs = (getSlot s i).tofs ∧
        (∀ j, j < 128 → rd t (Reg.truTemplate j) = W (leNat (((getSlot s i).template.drop (4 * j)).take 4))) ∧
        KeepsBut [.regs] s t) ∧
      (rb s Reg.truSCfg 24 = true → slotGood s = true → ∃ t, exec .slotWrite s = .next t ∧ (getSlot t i).st = 1 ∧
        (getSlot t i).cfg = rd s Reg.truSCfg ∧ (getSlot t i).owner = (getSlot s i).owner ∧
        (getSlot t i).template = (stagedTemplate s).take (rf s Reg.truSLen 8 0) ∧
        (∀ j, j ≠ i → getSlot t j = getSlot s j) ∧ rb t Reg.hifStatus 16 = true ∧ KeepsBut [.regs, .tru] s t) ∧
      (rb s Reg.truSCfg 24 = true → slotGood s = false → exec .slotWrite s = .next (raise s Reg.truIrq 5)) ∧
      (slotFree s i = true → ∃ t, exec .slotClear s = .next t ∧ getSlot t i = .reset ∧ (∀ j, j ≠ i → getSlot t j = getSlot s j) ∧
        rb t Reg.hifStatus 16 = true ∧ KeepsBut [.regs, .tru] s t) ∧
      (slotFree s i = false → exec .slotClear s = .next (raise s Reg.truIrq 5))) ∧
    (hcSt s ≠ 3 → ∃ t, exec (.truCtrlWrite v) s = .next t ∧ rd t Reg.truCtrl = v &&& 1 ∧ KeepsBut [.regs, .recorder, .arb, .out] s t) ∧
    (hcSt s ≠ 3 → fld v 9 0 ≠ 0 → fld v 25 16 ≠ 0 → fld v 25 16 ≤ 1000 → ∃ t, exec (.truRetxWrite v) s = .next t ∧
      rd t Reg.truRetx = v &&& 0x3FF03FF ∧ KeepsBut [.regs, .recorder, .arb, .out] s t) ∧
    (hcSt s ≠ 3 → (fld v 9 0 = 0 ∨ fld v 25 16 = 0 ∨ 1000 < fld v 25 16) → exec (.truRetxWrite v) s = .next (raise s Reg.truIrq 5))

/-- R177, R190, R194, R275: the publishers. Completes `goosePublish`, `svPublish`. -/
def Obligations.PublicationCommands : Prop :=
  ∀ (s : State) (tm : Instant) (p : Fin 1024) (q : Fin 128), hcSt s ≠ 3 →
    ((getPub s p).hold = none → (getPub s p).nextAt ≤ s.op + (tm - s.now) → (getPub s p).restored = false → ∃ t, exec (.goosePublish p tm) s = .next t ∧
      (getPub t p).sqNum = ((getPub s p).sqNum + 1) % 2 ^ 32 ∧ (getPub t p).stNum = (getPub s p).stNum ∧
      (getPub t p).nextAt = s.op + (tm - s.now) + retxGap s ((getPub s p).step + 1) ∧
      (pubMuted s p = true → t.port = s.port ∧ t.sw = s.sw) ∧ KeepsBut [.regs, .now, .op, .port, .sw, .tru, .out] s t) ∧
    ((getPub s p).hold ≠ none ∨ s.op + (tm - s.now) < (getPub s p).nextAt → exec (.goosePublish p tm) s = .next (toInstant s tm)) ∧
    (∃ t, exec (.svPublish q) s = .next t ∧
      (getPub t (1024 + q)).smpCnt = ((getPub s (1024 + q)).smpCnt + 1) % rateHz s ∧
      (∀ i, i ≠ 1024 + q.val → getPub t i = getPub s i) ∧
      (pubMuted s (1024 + q) = true → t.port = s.port ∧ t.sw = s.sw) ∧ KeepsBut [.regs, .port, .sw, .tru, .out] s t)

/-- R309 to R311, R315 to R317, R353: the Pantry and log memory. Completes `wearRemap`, `counterPersist`, `logFlush`, `logFlushDone`,
`logCurAdv`, `logReadVerify`. -/
def Obligations.PantryAndLogCommands : Prop :=
  ∀ (s : State) (f : Fin 64),
    (∀ w, let free := rf s Reg.panStatus 9 0;
      80000000 ≤ (getPan s w).phys → 0 < free → ∃ t, exec (.wearRemap w) s = .next t ∧
        getPan t w = { getPan s w with phys := 0, remaps := (getPan s w).remaps + 1 } ∧
        rf t Reg.panStatus 9 0 = free - 1 ∧ rd t Reg.panRemaps = rd s Reg.panRemaps + 1 ∧ rb t Reg.panIrq 1 = true ∧
        (free = 1 → rb t Reg.panIrq 3 = true) ∧ (∀ k, k ≠ w → getPan t k = getPan s k) ∧ KeepsBut [.regs, .recorder, .out] s t) ∧
    (∀ c, counterDue c s = false → exec (.counterPersist c) s = .next s) ∧
    (s.rec'.panOp + 360 * second ≤ s.op → ∃ t, exec (.counterPersist .opTime) s = .next t ∧ t.rec'.panOp = s.op ∧
      (getPan t (panKey 4096)).wear = (getPan s (panKey 4096)).wear + 1 ∧ KeepsBut [.regs, .recorder, .arb, .out] s t) ∧
    (s.rec'.panCyc ≠ rf s Reg.panPwrcyc 23 0 → ∃ t, exec (.counterPersist .pwrCyc) s = .next t ∧ t.rec'.panCyc = rf s Reg.panPwrcyc 23 0 ∧
      t.rec'.panOp = s.rec'.panOp ∧ (getPan t (panKey 4097)).wear = (getPan s (panKey 4097)).wear + 1 ∧
      KeepsBut [.regs, .recorder, .arb, .out] s t) ∧
    (s.rec'.panLost ≠ (rd s Reg.panLogLost).toNat → s.rec'.lostAt + 10 * second ≤ s.op →
      ∃ t, exec (.counterPersist .logLost) s = .next t ∧ t.rec'.panLost = (rd s Reg.panLogLost).toNat ∧ t.rec'.lostAt = s.op ∧
      (getPan t (panKey 4099)).wear = (getPan s (panKey 4099)).wear + 1 ∧ KeepsBut [.regs, .recorder, .arb, .out] s t) ∧
    (let res := if f = 0 then Reg.logCmdRes else Reg.vfLogRes f;
      (frozen s = true → exec (.logFlush f) s = .next (wr s res 2)) ∧
      (frozen s = false → s.rec'.flushing = none → s.rec'.ring ≠ [] → ∃ t, exec (.logFlush f) s = .next t ∧ rd t res = 0 ∧
        t.rec' = { s.rec' with flushing := some s.rec'.ring.length } ∧ rb t Reg.logStatus 20 = true ∧
        KeepsBut [.regs, .recorder, .arb] s t) ∧
      (∀ n, frozen s = false → s.rec'.flushing = some n → ∃ t, exec (.logFlush f) s = .next t ∧ rd t res = 0 ∧
        t.rec' = { s.rec' with flushAgain := true } ∧ KeepsBut [.regs, .recorder] s t)) ∧
    (∀ r rest k, s.rec'.flushing = some 1 → s.rec'.flushAgain = false → s.rec'.ring = r :: rest → recordSector s = some k → s.rec'.clearStep ≠ 1 →
      failing s = false → rest.length < 64 → (∀ x ∈ rest, x.severity < 3) → ∃ t, exec .logFlushDone s = .next t ∧ t.rec'.ring = rest ∧
        t.rec'.flushing = none ∧ (getSec t k).recs = (getSec s k).recs ++ [r] ∧ rd t Reg.logLast = W r.seq ∧
        rf t Reg.logStatus 10 0 = rest.length ∧ rb t Reg.logIrq 0 = true ∧ (∀ j, j ≠ k → getSec t j = getSec s j) ∧ s.now ≤ t.now ∧
        KeepsBut [.regs, .now, .op, .cmt, .arb, .plu, .recorder, .out, .freeCtr] s t) ∧
    exec (.logCurAdv f) s = .next (bump s (if f = 0 then Reg.logCurSeq else Reg.vfLogCurSeq f) 16) ∧
    (∀ (k : Fin 4096) (i : Fin 1023), i.val < (getSec s k).recs.length → rb s Reg.logStatus 16 = false →
      s.rec'.ring.length < 1024 → ∃ t r, exec (.logReadVerify k i false) s = .next t ∧ t.rec'.ring = s.rec'.ring ++ [r] ∧
        r.seq = max 1 (rd s Reg.logNext).toNat ∧ r.severity = 2 ∧ r.cls = 1 ∧ KeepsBut [.regs, .recorder, .arb, .out] s t)

/-- R318 to R321: freezing and clearing the log. Completes `logFreezeWrite`, `freezeTimeout`, `clearArm`, `clearArmExpiry`,
`clearConfirm`, `sectorEraseDone`. -/
def Obligations.LogFreezeAndClearCommands : Prop :=
  ∀ (s : State) (f : Fin 64) (v : Word) (tm : Instant),
    let res := if f = 0 then Reg.logCmdRes else Reg.vfLogRes f
    let off := if f = 0 then Reg.logFreeze else Reg.vfLogFreeze f
    (bitOf v 0 = true → ∃ t, exec (.logFreezeWrite f v tm) s = .next t ∧ rb t off 0 = true ∧ frozen t = true ∧
      Tab.get 0 t.rec'.freezeAt f = s.op + (tm - s.now) ∧
      (s.rec'.ring.length < 960 → failing s = false → t.rec'.flushing = none) ∧
      t.rec'.ring = s.rec'.ring ∧ KeepsBut [.regs, .now, .op, .recorder] s t) ∧
    (bitOf v 0 = false → rb s off 0 = true → (∀ e ∈ s.rec'.freezeAt, e.1 = f.val) →
      ∃ t, exec (.logFreezeWrite f v tm) s = .next t ∧ rb t off 0 = false ∧ frozen t = false ∧ t.rec'.ring = s.rec'.ring ∧
        KeepsBut [.regs, .now, .op, .recorder, .arb] s t) ∧
    (∀ a rest, s.rec'.freezeAt = (f.val, a) :: rest → a + 10 * second ≤ s.op + (tm - s.now) →
      ∃ t, exec (.freezeTimeout f tm) s = .next t ∧ rb t off 0 = false ∧ t.rec'.ring = s.rec'.ring ∧
        KeepsBut [.regs, .now, .op, .recorder, .arb] s t) ∧
    (clearRefusal s f = 0 → ∃ t, exec (.clearArm f tm) s = .next t ∧ t.rec' = { s.rec' with armBy := some f, armAt := s.op + (tm - s.now) } ∧
      rb t Reg.logStatus 18 = true ∧ rd t res = 0 ∧ KeepsBut [.regs, .now, .op, .recorder] s t) ∧
    (clearRefusal s f ≠ 0 →
      exec (.clearArm f tm) s = .next (wr (toInstant s tm) res (W (clearRefusal s f))) ∧
      exec (.clearConfirm f tm) s = .next (wr (toInstant s tm) res (W (clearRefusal s f)))) ∧
    (s.rec'.armBy ≠ none → s.rec'.armAt + second ≤ s.op + (tm - s.now) → ∃ t, exec (.clearArmExpiry tm) s = .next t ∧
      t.rec' = { s.rec' with armBy := none } ∧ rb t Reg.logStatus 18 = false ∧ KeepsBut [.regs, .now, .op, .recorder] s t) ∧
    (clearRefusal s f = 0 → s.rec'.armBy = some f → s.op + (tm - s.now) ≤ s.rec'.armAt + second → ∃ t,
      exec (.clearConfirm f tm) s = .next t ∧ t.rec'.clearing =
        some (f.val, vfGen s f, (rd s Reg.logGen).toNat, (rd s Reg.logFirst).toNat, (rd s Reg.logLast).toNat) ∧
      t.rec'.armBy = none ∧ rd t res = 0 ∧ rb t Reg.logStatus 18 = false ∧ rb t Reg.logStatus 19 = true ∧
      (s.rec'.ring = [] → (s.rec'.erase = [] → t.rec'.erase = [0] ∧ rd t Reg.logErased = W (readySectors t)) ∧
        (∀ k l, s.rec'.erase = k :: l → k ≠ 0 → t.rec'.erase = k :: 0 :: l.filter (· != 0))) ∧ KeepsBut [.regs, .now, .op, .recorder, .arb] s t) ∧
    (clearRefusal s f = 0 → (s.rec'.armBy ≠ some f ∨ s.rec'.armAt + second < s.op + (tm - s.now)) →
      exec (.clearConfirm f tm) s = .next (wr (toInstant s tm) res 4)) ∧
    (∀ k rest, s.rec'.erase = k :: rest → s.rec'.clearing = none → k ∉ rest →
      (k ≠ 0 ∨ (∃ e ∈ s.rec'.sectors, e.1 ∉ k :: rest ∧ ∃ h, e.2.header = some h ∧ W h.1 = rd s Reg.logGen) →
        ∃ t, exec .sectorEraseDone s = .next t ∧
          getSec t k = ⟨none, false, true, false, []⟩ ∧ t.rec'.erase = rest ∧ rd t Reg.logErased = W (readySectors t) ∧
          t.rec'.ring = s.rec'.ring ∧
          (∀ j l, rest = j :: l → (getSec t j).begun = true ∧ (getSec t j).erased = false) ∧ KeepsBut [.regs, .recorder] s t) ∧
      (k = 0 → (∀ e ∈ s.rec'.sectors, e.1 ∈ rest ∨ e.2.header = none) → s.rec'.ring.length < 1024 →
        ∃ t r, exec .sectorEraseDone s = .next t ∧ getSec t 0 = ⟨none, false, true, false, []⟩ ∧ t.rec'.ring = r :: s.rec'.ring ∧
          r.cls = 5 ∧ r.severity = 1 ∧ r.data.getLast? = some 1 ∧ KeepsBut [.regs, .arb, .recorder, .out] s t))

/-- R322 to R327: the waveform archive. Completes `archiveValueWritten`, `archiveIndexWritten`, `driveRemove`, `driveInsert`,
`formatDrive`, `formatAll`, `archiveTransfer`, `transferDone`. -/
def Obligations.ArchiveCommands : Prop :=
  ∀ (s : State) (d : Fin 4) (v : Word),
    (∀ r rest, s.arc.staging = some r :: rest → r.gap = false → s.arc.stage = .value →
      (∃ t, exec (.archiveValueWritten true) s = .next t ∧ t.arc = { s.arc with stage := .index } ∧
        KeepsBut [.arc, .arb, .freeCtr] s t) ∧
      ∃ t, exec (.archiveValueWritten false) s = .next t ∧ t.arc = { s.arc with staging := some { r with gap := true } :: rest } ∧
        KeepsBut [.regs, .arc, .out] s t) ∧
    (∀ r rest, s.arc.staging = r :: rest → (gapRow r = true ∨ s.arc.stage = .index) → ∃ t, exec (.archiveIndexWritten true) s = .next t ∧
      arcSlot t (arcHead s) = ⟨rd64 s Reg.arcSeqLo Reg.arcSeqHi, gapRow r, true, r⟩ ∧
      (∀ n, n ≠ arcHead s → arcSlot t n = arcSlot s n) ∧
      rd64 t Reg.arcSeqLo Reg.arcSeqHi = (rd64 s Reg.arcSeqLo Reg.arcSeqHi + 1) % 2 ^ 64 ∧
      t.arc.staging = (if rb t Reg.arcStatus 8 then [] else rest) ∧ KeepsBut [.regs, .arc, .out] s t) ∧
    ((getDrive s d).present = true → ∃ t, exec (.driveRemove d) s = .next t ∧ serves t d = false ∧
      (getDrive t d).sblock = (getDrive s d).sblock ∧ rb t Reg.arcStatus d = false ∧ rb t Reg.arcIrq 0 = true ∧
      (∀ e : Fin 4, e ≠ d → getDrive t e = getDrive s e) ∧ KeepsBut [.regs, .arc, .out] s t) ∧
    (∀ x : DriveInfo, (getDrive s d).present = false →
      let fits := (x.lba = 512 ∨ x.lba = 4096) ∧ x.metadata = false
      ∃ t, exec (.driveInsert d x) s = .next t ∧
      getDrive t d = ⟨true, if fits then x.sblock else none, if fits then driveSlots x.capacity else 0, x.width, x.rate, x.critical⟩ ∧ rb t Reg.arcStatus d = true ∧ rb t Reg.arcIrq 0 = true ∧
      t.arc.slots = s.arc.slots ∧ t.arc.staging = s.arc.staging ∧ KeepsBut [.regs, .arc, .out] s t) ∧
    (hcSt s ≠ 3 → (getDrive s d).present = false → exec (.formatDrive d) s = .next (wr s Reg.arcFmtRes 5)) ∧
    (hcSt s ≠ 3 → (getDrive s d).present = true →
      let r := (driveRange s d).getD (rangesEnd s, (getDrive s d).slots / 1024 * 1024);
      (r.2 ≤ (getDrive s d).slots → r.2 ≠ 0 → driveOf s (arcHead s) ≠ some d.val → r.1 + r.2 ≤ 2 ^ 33 →
        ∃ t, exec (.formatDrive d) s = .next t ∧ rd t Reg.arcFmtRes = 0 ∧
          getDrive t d = { getDrive s d with sblock := some (arcId s, r.1 / 1024, r.2 / 1024) } ∧
          (∀ n, arcSlot t n = if r.1 ≤ n ∧ n < r.1 + r.2 then .reset else arcSlot s n) ∧ KeepsBut [.regs, .arc, .out] s t)) ∧
    (hcSt s ≠ 3 → rb s Reg.loomCtrl 9 = true → exec .formatAll s = .next (wr s Reg.arcFmtRes 3)) ∧
    (hcSt s ≠ 3 → rb s Reg.loomCtrl 9 = false → (getDrive s d).present = true → (∀ e : Fin 4, (getDrive s e).slots ≤ 2 ^ 31) →
      ∃ t, exec .formatAll s = .next t ∧ rd t Reg.arcFmtRes = 0 ∧ t.arc.slots = [] ∧ t.arc.staging = [] ∧ arcHead t = 0 ∧
        rd64 t Reg.arcSeqLo Reg.arcSeqHi = 0 ∧ (∃ b, (getDrive t d).sblock = some (arcId t, b, (getDrive s d).slots / 1024)) ∧
        KeepsBut [.regs, .arc, .freeCtr] s t) ∧
    (let x := xferOf s v;
      hcSt s ≠ 3 → bitOf v 0 = true → s.arc.xfer = none → x.count ≠ 0 → x.first + x.count ≤ rd64 s Reg.arcSlotsLo Reg.arcSlotsHi →
      (∀ n ∈ x.slots, slotAvail s n = true) →
      ∃ t, exec (.archiveTransfer v) s = .next t ∧ t.arc = { s.arc with xfer := some x } ∧ rd t Reg.arcXferStat = 1 ∧
        rb t Reg.arcStatus 10 = true ∧ KeepsBut [.regs, .arc] s t) ∧
    (∀ x, s.arc.xfer = some x →
      ((∃ n ∈ x.slots, slotAvail s n = false) → ∃ t, exec (.transferDone false) s = .next t ∧ t.arc.xfer = none ∧
        rd t Reg.arcXferStat = 0x23 ∧ KeepsBut [.regs, .arc] s t) ∧
      ((∀ n ∈ x.slots, slotAvail s n = true) →
        (bitOf x.cmd 1 = true → ∃ t, exec (.transferDone false) s = .next t ∧ t.arc.xfer = none ∧ rd t Reg.arcXferStat = 2 ∧
          t.ddr = pokes s.ddr (x.dst % 2 ^ 36) ((x.slots.map (arcSlot s)).flatMap rowPart) ∧
          KeepsBut [.regs, .arc, .arb, .ddr, .out] s t) ∧
        (bitOf x.cmd 1 = false → ∃ t, exec (.transferDone true) s = .next t ∧ t.arc.xfer = none ∧ rd t Reg.arcXferStat = 0x33 ∧
          KeepsBut [.regs, .arc] s t)))

/-- R232 to R237, R240, R242, R243: arbiters, partitions, pair-link transfers. Completes `arbiterGrant`, `quotaWindow`, `ddr5Grant`,
`pairLinkWriteReceive`, `creditReturn`, `partitionEntryWrite`, `smaBClr`, `smaDClr`. -/
def Obligations.ArbiterAndTransferCommands : Prop :=
  ∀ (s : State) (b : Fin 16) (ch : Fin 4),
    let a := getArb s b
    let c := nextCycle a (cycleOf s)
    let a' := getArb s (16 + ch)
    let c' := nextCycle a' (cycleOf s)
    (∀ x, failing s = false → a.reqs = [x] → atQuota false (roll false c a) x.port = false →
      let n := burst false (roll false c a) x;
      (n = x.beats → a.held = [] → ∃ t, exec (.arbiterGrant b) s = .next t ∧ (getArb t b).reqs = [] ∧
        (getArb t b).busyTo = c + x.beats ∧ rd t (Reg.smaBGrants b) = rd s (Reg.smaBGrants b) + 1 ∧
        (∀ y, y ∈ t.cmt.writeBack ↔ y ∈ s.cmt.writeBack ∧
          ¬ (x.port = 9 ∧ x.core = 0 ∧ y ∈ (inBank b s.cmt.writeBack).take (x.beats / 2))) ∧
        (x.port = 10 → x.core = 0 → t.plu.rxBytes = s.plu.rxBytes - 32 * x.beats) ∧ (x.port ≠ 10 → t.plu = s.plu) ∧
        (∀ k, k ≠ b.val → getArb t k = getArb s k) ∧ KeepsBut [.regs, .cmt, .arb, .plu, .out, .freeCtr] s t) ∧
      (n < x.beats → ∃ t, exec (.arbiterGrant b) s = .next t ∧
        (getArb t b).reqs = [{ x with beats := x.beats - n, stamp := c, mask := 0 }] ∧ (getArb t b).busyTo = c + n ∧
        KeepsBut [.regs, .cmt, .arb, .plu, .out, .freeCtr] s t)) ∧
    (∀ x y, failing s = false → a.reqs = [x, y] → a.held = [] → x.port ≠ y.port → x.mask = 0 → y.mask = 0 →
      burst false (roll false c a) x = x.beats → burst false (roll false c a) y = y.beats → x.stamp < c → y.stamp < c →
      atQuota false (roll false c a) x.port = false → atQuota false (roll false c a) y.port = false →
      ∃ t, exec (.arbiterGrant b) s = .next t ∧
        (getArb t b).reqs = (if ahead false c y x then [{ x with mask := BitVec.ofNat 16 (2 ^ y.port) }]
          else [{ y with mask := BitVec.ofNat 16 (2 ^ x.port) }]) ∧
        rd t (Reg.smaBGrants b) = rd s (Reg.smaBGrants b) + 1 ∧ KeepsBut [.regs, .cmt, .arb, .plu, .out, .freeCtr] s t) ∧
    (a.reqs = [] → exec (.arbiterGrant b) s = .next s) ∧
    (let w := cycleOf s / 512
      ∃ t, exec .quotaWindow s = .next t ∧ t.now = (w + 1) * 512 * mainCycle ∧
      (∀ k, k < 16 → (getArb s k).reqs = [] → (getArb s k).window ≤ w →
        getArb t k = { getArb s k with used := [], window := w + 1, wasMasked := false }) ∧
      (∀ k, 16 ≤ k → getArb t k = getArb s k) ∧ KeepsBut [.regs, .now, .op, .cmt, .arb, .plu, .out, .freeCtr] s t) ∧
    (∀ x, rb s Reg.hcDdr ch = true → a'.reqs = [x] → a'.held = [] → burst true (roll true c' a') x = x.beats →
      atQuota true (roll true c' a') x.port = false →
      ∃ t, exec (.ddr5Grant ch) s = .next t ∧ (getArb t (16 + ch)).reqs = [] ∧ (getArb t (16 + ch)).busyTo = c' + x.beats * 8 ∧
        rd t (Reg.smaDGrants ch) = rd s (Reg.smaDGrants ch) + 1 ∧
        rf t (Reg.smaDMaxwait ch) 15 0 = min 0xFFFF (max ((c' - x.stamp) * 5 / 8) (rf s (Reg.smaDMaxwait ch) 15 0)) ∧
        KeepsBut [.regs, .arb] s t) ∧
    (rb s Reg.hcDdr ch = false → exec (.ddr5Grant ch) s = .next s) ∧
    (∀ n, 0 < n → s.plu.rxBytes + n ≤ 262144 → ∃ t k, exec (.pairLinkWriteReceive n) s = .next t ∧ k < 16 ∧
      t.plu = { s.plu with rxBytes := s.plu.rxBytes + n } ∧
      ⟨10, 0, cycleOf s, (n + 31) / 32, 0, 0, 0⟩ ∈ (getArb t k).reqs ++ (getArb t k).held ∧
      (∀ j, j ≠ k → getArb t j = getArb s j) ∧ KeepsBut [.plu, .arb, .freeCtr] s t) ∧
    (∀ n, (n = 0 ∨ 262144 < s.plu.rxBytes + n) → exec (.pairLinkWriteReceive n) s = .next s) ∧
    (∀ n, (s.plu.sending = none ∨ lanesUp s = 0) → ∃ t, exec (.creditReturn n) s = .next t ∧
      t.plu = { s.plu with credits := min 262144 (s.plu.credits + n) } ∧ KeepsBut [.plu] s t) ∧
    (∀ n x, s.plu.sending = some x → lanesUp s ≠ 0 →
      let have' := min 262144 (s.plu.credits + n)
      let k := min (have' / 256) (ckptBursts x - s.plu.outAsked)
      ∃ t, exec (.creditReturn n) s = .next t ∧
        t.plu = { s.plu with credits := have' - 256 * k, outAsked := s.plu.outAsked + k } ∧ KeepsBut [.plu, .arb] s t) ∧
    (∀ (f : Fin 64) (j : Fin 8) (v : Word), hcSt s ≠ 3 →
      let x := v &&& 0xE0003FFF
      let base := rd s (Reg.smaPtBase f j)
      (ptReason s f base x = 0 → ∃ t, exec (.partitionEntryWrite f j v) s = .next t ∧ rd t (Reg.smaPtSize f j) = x ∧
        rd t Reg.smaPtStat = 0 ∧ rb t Reg.hifStatus 16 = true ∧ Tab.get (0, 0) t.cmt.partNext (8 * f + j) = (if bitOf x 31 then (base, x) else (0, 0)) ∧
        t.cmt.part = s.cmt.part ∧ KeepsBut [.regs, .cmt] s t) ∧
      (ptReason s f base x ≠ 0 → ∃ t, exec (.partitionEntryWrite f j v) s = .next t ∧
        rd t Reg.smaPtStat = W (1 + 2 * ptReason s f base x) ∧ rb t Reg.smaIrq 2 = true ∧ KeepsBut [.regs, .out] s t)) ∧
    (∀ v : Word, hcSt s ≠ 3 → bitOf v 0 = true → exec (.smaBClr b v) s = .next (wr s (Reg.smaBMaxwait b) 0) ∧
      exec (.smaDClr ch v) s = .next (wr s (Reg.smaDMaxwait ch) 0)) ∧
    (∀ v : Word, bitOf v 0 = false → exec (.smaBClr b v) s = .next s ∧ exec (.smaDClr ch v) s = .next s)

/-- R30, R31, R33, R37 to R41, R44: the clock. Completes `announceReceive`, `syncReceive`, `pdelayReceive`, `announceTimeout`,
`referenceLost`, `slewDone`, `holdoverSpecExpiry`, `timestampCalibration`, `ocxoAgeingUpdate`. -/
def Obligations.ClockMessages : Prop :=
  ∀ (s : State) (p : Fin 144) (tm : Instant),
    let op' := s.op + (tm - s.now)
    let parts : List Part := [.regs, .now, .op, .time, .recorder, .arb, .out];
    (∀ m : Announce,
      (m.domain ≠ rf s Reg.timePrio 23 16 → exec (.announceReceive p m tm) s = .next (toInstant s tm)) ∧
      (m.domain = rf s Reg.timePrio 23 16 → rb s Reg.timeCtrl 0 = true → clkRole s = 1 →
        (s.time.best = none → (∀ q : Fin 144, Tab.get none s.time.heard q = none) →
          ∃ t, exec (.announceReceive p m tm) s = .next t ∧ t.time.best = some (m, p) ∧
            rd64 t Reg.timeGmidLo Reg.timeGmidHi = m.gm.toNat ∧ clkState t = clkState s ∧ KeepsBut parts s t) ∧
        (∀ q a at0, q ≠ p → s.time.best = some (a, q) → Tab.get none s.time.heard q = some (a, at0) →
          (∀ r : Fin 144, r ≠ q → Tab.get none s.time.heard r = none) → betterMaster m a = true → m.gm ≠ a.gm → clkState s = 2 →
          ∃ t, exec (.announceReceive p m tm) s = .next t ∧ t.time.best = some (m, p) ∧ clkState t = 3 ∧
            rd64 t Reg.timeGmidLo Reg.timeGmidHi = m.gm.toNat ∧ KeepsBut parts s t))) ∧
    (∀ b ofs, rb s Reg.timeCtrl 0 = true → clkRole s ≤ 1 → s.time.best = some (b, p) →
      let q := rf s Reg.timePtpcfg 23 16
      let m := meanInt ((ofs :: s.time.filt).take 8)
      let gap := (∃ x, s.time.syncAt = some x ∧ x + 2 * logInterval (rf s Reg.timePtpcfg 3 0) ≤ op') ∨
        announceOverdue (toInstant s tm) = true
      (∀ gm, gm ≠ b.gm → exec (.syncReceive p gm ofs tm) s = .next (toInstant s tm)) ∧
      (¬ gap →
        ((clkState s = 0 ∨ clkState s = 3) → s.time.qual + 1 < q → ∃ t, exec (.syncReceive p b.gm ofs tm) s = .next t ∧
          t.time = { s.time with qual := s.time.qual + 1, syncAt := some op' } ∧ KeepsBut [.now, .op, .time] s t) ∧
        (clkState s = 0 → q ≤ s.time.qual + 1 → ∃ t, exec (.syncReceive p b.gm ofs tm) s = .next t ∧ clkState t = 1 ∧
          t.time.qual = s.time.qual + 1 ∧ t.time.filt = [ofs] ∧ KeepsBut (.freeCtr :: parts) s t) ∧
        ((clkState s = 1 ∨ clkState s = 4) → m.natAbs ≤ 400 → s.time.lockRun = 15 →
          ∃ t, exec (.syncReceive p b.gm ofs tm) s = .next t ∧ clkState t = 2 ∧ rb t Reg.timeState 6 = true ∧
            KeepsBut (.freeCtr :: parts) s t) ∧
        (clkState s = 2 → 4000 < m.natAbs → s.time.overRun = 3 → ∃ t, exec (.syncReceive p b.gm ofs tm) s = .next t ∧
          clkState t = 4 ∧ KeepsBut parts s t)) ∧
      (gap → clkState s = 0 → 1 < q → ∃ t, exec (.syncReceive p b.gm ofs tm) s = .next t ∧ t.time.qual = 1 ∧ clkState t = 0 ∧
        KeepsBut [.now, .op, .time] s t)) ∧
    (∀ d, ∃ t, exec (.pdelayReceive p d tm) s = .next t ∧ Tab.get 0 t.time.linkDelay p = d ∧
      (∀ k, k ≠ p.val → Tab.get 0 t.time.linkDelay k = Tab.get 0 s.time.linkDelay k) ∧ KeepsBut [.now, .op, .time] s t) ∧
    (∀ b a at0, clkRole s ≤ 1 → s.time.best = some (b, p) → Tab.get none s.time.heard p = some (a, at0) →
      (∀ r : Fin 144, r ≠ p → Tab.get none s.time.heard r = none) →
      let due := at0 + rf s Reg.timePtpcfg 11 8 * logInterval (rf s Reg.timePtpcfg 7 4) ≤ op';
      (due → ∃ t, exec (.announceTimeout ⟨p, tm⟩) s = .next t ∧ t.time.best = none ∧ t.time.qual = 0 ∧
        (clkState s = 2 → clkState t = 3) ∧ (clkState s = 1 → clkState t = 0) ∧ (clkState s = 4 → clkState t = 3) ∧
        KeepsBut parts s t) ∧
      (¬ due → exec (.announceTimeout ⟨p, tm⟩) s = .next (toInstant s tm))) ∧
    (∀ irig : Bool, clkRole s = (if irig then 2 else 3) →
      (∀ x, (if irig then s.time.irigAt else s.time.edgeAt) = some x → x + 2 * second ≤ op') →
      ∃ t, exec (.referenceLost ⟨irig, tm⟩) s = .next t ∧ rb t Reg.timeRefstat (if irig then 1 else 0) = false ∧
        rb t Reg.timeIrq 4 = true ∧ t.time.qual = 0 ∧ (clkState s = 2 → clkState t = 3 ∧ t.time.step = none) ∧ KeepsBut parts s t) ∧
    (∃ t, exec (.slewDone tm) s = .next t ∧ t.time = { s.time with slewAdj := 0 } ∧ rb t Reg.timeState 4 = false ∧
      rd t Reg.timeFreq = BitVec.ofInt 32 s.time.rate ∧ KeepsBut [.regs, .now, .op, .time] s t) ∧
    (clkState s = 3 →
      let due := s.time.holdSince + rf s Reg.timeHoldcfg 7 0 * (60 * second) ≤ op';
      (due → ∃ t, exec (.holdoverSpecExpiry tm) s = .next t ∧ t.time.holdOk = false ∧ rb t Reg.timeState 5 = false ∧
        KeepsBut [.regs, .now, .op, .time] s t) ∧
      (¬ due → exec (.holdoverSpecExpiry tm) s = .next (toInstant s tm))) ∧
    (∃ t, exec (.timestampCalibration p) s = .next t ∧ p.val ∈ t.time.calibrated ∧
      (∀ k, k ≠ p.val → (k ∈ t.time.calibrated ↔ k ∈ s.time.calibrated)) ∧ KeepsBut [.time] s t) ∧
    (∀ m, (clkState s = 2 → s.rec'.ageAt + 24 * 3600 * second ≤ s.op → ∃ t, exec (.ocxoAgeingUpdate m) s = .next t ∧
        t.rec'.panAgeing = m ∧ t.rec'.ageAt = s.op ∧ KeepsBut [.regs, .recorder, .arb, .out] s t) ∧
      ((clkState s ≠ 2 ∨ s.op < s.rec'.ageAt + 24 * 3600 * second) → exec (.ocxoAgeingUpdate m) s = .next s))

/-- R40, R44, R46 to R55: reference inputs and the TIME registers. Completes `ppsInEdge`, `irigBFrame`, `ppsOut`, `ppsOutEnd`,
`timeCtrlWrite`, `timePtpcfgWrite`, `timeTickcfgWrite`, `timeLatch`, `timeSetGo`, `timeEdgePop`. -/
def Obligations.TimeInputsAndRegisters : Prop :=
  ∀ (s : State) (v : Word) (tm : Instant),
    let op' := s.op + (tm - s.now);
    (∀ rising, rb s Reg.timeRefin 0 = true →
      (rising = rb s Reg.timeRefin 1 → exec (.ppsInEdge ⟨rising, tm⟩) s = .next (toInstant s tm)) ∧
      (rising ≠ rb s Reg.timeRefin 1 → clkRole s ≠ 3 →
        (s.time.ring.length < 64 → ∃ t, exec (.ppsInEdge ⟨rising, tm⟩) s = .next t ∧
          t.time = { s.time with ring := s.time.ring ++ [⟨max s.now tm - nsec * rf s Reg.timeRefdly 15 0, false⟩], edgeAt := some op' } ∧
          rb t Reg.timeRefstat 0 = true ∧ KeepsBut [.regs, .now, .op, .time, .out] s t) ∧
        (64 ≤ s.time.ring.length → ∃ t, exec (.ppsInEdge ⟨rising, tm⟩) s = .next t ∧ t.time = { s.time with edgeAt := some op' } ∧
          rb t Reg.timeEdgeInfo 31 = true ∧ rb t Reg.timeIrq 3 = true ∧ KeepsBut [.regs, .now, .op, .time, .out] s t)) ∧
      (rising ≠ rb s Reg.timeRefin 1 → clkRole s = 3 → rb s Reg.timeCtrl 0 = true → s.time.timeSet = true → s.time.qual = 3 →
        clkState s = 0 → (∀ x, s.time.edgeAt = some x → op' < x + 2 * second) →
        ∃ t, exec (.ppsInEdge ⟨rising, tm⟩) s = .next t ∧ clkState t = 1 ∧ t.time.qual = 4 ∧
          KeepsBut [.regs, .now, .op, .time, .recorder, .arb, .out, .freeCtr] s t)) ∧
    (∀ m : IrigFrame, rb s Reg.timeRefin 2 = true → s.time.ring.length < 64 →
      (clkRole s ≠ 2 → ∃ t, exec (.irigBFrame m tm) s = .next t ∧
        t.time = { s.time with
          ring := s.time.ring ++ [⟨max s.now tm - nsec * rf s Reg.timeRefdly 31 16, true⟩], irigAt := some op',
          irigUtc := if m.ok then m.ext.map (fun x => (x, m.leap)) else s.time.irigUtc } ∧
        rb t Reg.timeRefstat 1 = true ∧ rf t Reg.timeRefstat 7 4 = m.quality.toNat ∧
        KeepsBut [.regs, .now, .op, .time, .out] s t) ∧
      (clkRole s = 2 → rb s Reg.timeCtrl 0 = true → m.ok = true → m.quality.toNat ≤ 4 → s.time.qual = 3 → clkState s = 0 →
        (∀ x, s.time.irigAt = some x → op' < x + 2 * second) →
        ∃ t, exec (.irigBFrame m tm) s = .next t ∧ clkState t = 1 ∧ rb t Reg.timeRefstat 2 = true ∧ t.time.qual = 4 ∧
          KeepsBut [.regs, .now, .op, .time, .recorder, .arb, .out, .freeCtr] s t)) ∧
    (rb s Reg.timePpsout 0 = true → warned s = false → ∃ t, exec .ppsOut s = .next t ∧
      t.now % second = 0 ∧ s.now ≤ t.now ∧ t.now < s.now + second ∧ t.op = s.op + (t.now - s.now) ∧
      t.time = { s.time with pps := true, ppsAt := t.op } ∧ KeepsBut [.now, .op, .time] s t) ∧
    (rb s Reg.timePpsout 0 = false ∨ warned s = true → exec .ppsOut s = .next s) ∧
    (s.time.pps = true → ∃ t, exec .ppsOutEnd s = .next t ∧
      t.op = max s.op (s.time.ppsAt + rf s Reg.timePpsout 9 1 * msec) ∧ t.now = s.now + (t.op - s.op) ∧
      t.time = { s.time with pps := false } ∧ KeepsBut [.now, .op, .time] s t) ∧
    (hcSt s ≠ 3 → fld v 3 1 < 4 → fld v 5 4 ≠ 3 → ∃ t, exec (.timeCtrlWrite v) s = .next t ∧ rd t Reg.timeCtrl = v &&& 0x7F ∧
      (bitOf v 0 = true → fld v 3 1 = clkRole s → s.time.best = none → (∀ q : Fin 144, Tab.get none s.time.heard q = none) →
        clkState t = clkState s ∧ t.time = s.time) ∧
      (bitOf v 0 = false → clkState t = 0 ∧ t.time.step = none ∧ t.time.slewAdj = 0 ∧ t.time.qual = 0 ∧ t.time.best = none) ∧
      KeepsBut [.regs, .time, .recorder, .arb, .out] s t) ∧
    (hcSt s ≠ 3 → PtpcfgInRange v → ∃ t, exec (.timePtpcfgWrite v) s = .next t ∧ rd t Reg.timePtpcfg = v &&& 0xFFFFFF ∧
      KeepsBut [.regs, .recorder, .arb, .out] s t) ∧
    (hcSt s ≠ 3 → ¬ PtpcfgInRange v → exec (.timePtpcfgWrite v) s = .next (raise s Reg.timeIrq 6)) ∧
    (hcSt s ≠ 3 → let free := allIdle s = true ∧ rf s Reg.loomPbStatus 1 0 = 0;
      (free → ∃ t, exec (.timeTickcfgWrite v) s = .next t ∧ t.time = { s.time with ratePend := some (fld v 1 0) } ∧
        rateHz t = rateHz s ∧ rb t Reg.timeTickcfg 8 = true ∧ rb t Reg.timeTickcfg 9 = false ∧
        KeepsBut [.regs, .time, .recorder, .arb, .out] s t) ∧
      (¬ free → exec (.timeTickcfgWrite v) s = .next (wb s Reg.timeTickcfg 9 true))) ∧
    (hcSt s ≠ 3 → ∃ t, exec (.timeLatch 1 tm) s = .next t ∧ rd t Reg.timeSecLo = W (secOf (max s.now tm)) ∧
      rd t Reg.timeNs = nsWord (max s.now tm) ∧ rd t Reg.timeTickLo = W s.time.tick ∧
      rd t Reg.timeTickHi = W (s.time.tick / 2 ^ 32 % 2 ^ 16) ∧ KeepsBut [.regs, .now, .op] s t) ∧
    (hcSt s ≠ 3 → let target : Nat := (rf s Reg.timeSetSecHi 15 0 * 2 ^ 32 + (rd s Reg.timeSetSecLo).toNat) * second
      let delta : Int := ((target : Int) - ((secOf (max s.now tm) + 1) * second : Nat)).tdiv 36
      (clkRole s = 3 → clkState s = 2 → 0 < delta → ∃ t, exec (.timeSetGo 1 tm) s = .next t ∧ t.time.step = none ∧
        0 < t.time.slewAdj ∧ t.time.slewAdj ≤ 800000 ∧ t.time.timeSet = true ∧ KeepsBut [.regs, .now, .op, .time, .freeCtr] s t) ∧
      ((clkState s = 0 ∨ clkRole s = 3) → clkState s ≠ 2 → 4000000 < delta.natAbs → ∃ t k rho, exec (.timeSetGo 1 tm) s = .next t ∧
        t.time.step = some ⟨k, rho, true⟩ ∧ k * period s + rho = delta * 36 ∧ -(period s : Int) < 2 * rho ∧ 2 * rho ≤ period s ∧
        t.time.timeSet = true ∧ rb t Reg.timeState 6 = true ∧ rb t Reg.timeState 7 = false ∧
        KeepsBut [.regs, .now, .op, .time] s t) ∧
      (clkState s ≠ 0 → clkRole s ≠ 3 → exec (.timeSetGo 1 tm) s = .next (wb (toInstant s tm) Reg.timeState 7 true))) ∧
    (∀ e rest, hcSt s ≠ 3 → s.time.ring = e :: rest → rest.length < 64 → ∃ t, exec (.timeEdgePop 1) s = .next t ∧
      t.time = { s.time with ring := rest } ∧ rd t Reg.timeEdgeSec = W (secOf e.stamp) ∧ rd t Reg.timeEdgeNs = nsWord e.stamp ∧
      rb t Reg.timeEdgeInfo 16 = e.irig ∧ rf t Reg.timeEdgeInfo 22 17 = rest.length ∧ rb t Reg.timeEdgeInfo 30 = true ∧
      KeepsBut [.regs, .time] s t) ∧
    (hcSt s ≠ 3 → s.time.ring = [] → ∃ t, exec (.timeEdgePop 1) s = .next t ∧ rb t Reg.timeEdgeInfo 30 = false ∧
      rf t Reg.timeEdgeInfo 22 17 = 0 ∧ KeepsBut [.regs] s t)

/-- R20, R21, R40, R42, R111, R130, R186, R197, R198, R205, R209: the phases of a tick. Completes `tickEdge`, `programWindowOpen`,
`deadline`, `swap`, `commitComplete`, `dopCopyDone`, `watchdog`. -/
def Obligations.TickPhases : Prop :=
  ∀ s : State,
    (hcSt s = 3 → exec .tickEdge s = .next s) ∧
    (hcSt s ≠ 3 → s.time.ratePend = none →
      (∀ n, s.time.step = none → n = nextNumber s → ∃ t, exec .tickEdge s = .next t ∧ t.time.tick = n ∧
        t.time.edge = n * period s ∧ t.now = max s.now (n * period s) ∧ t.cmt.reserve = rf s Reg.cmtCfg 5 0 ∧
        (∀ l, (getCore t l).run ≠ .running) ∧ (hcSt t ≤ 1 → t.cmt.phase = .delivered) ∧
        (s.plu.restart = false → t.mem = s.mem) ∧
        KeepsBut [.regs, .now, .op, .time, .port, .sw, .loom, .core, .ten, .cmt, .spare, .arb, .plu, .recorder, .arc, .hif, .hdl,
          .tru, .clu, .fio, .mem, .out, .freeCtr] s t) ∧
      (∀ p n, s.time.step = some p → p.top = false → n = ((nextNumber s : Int) + p.k).toNat →
        ∃ t, exec .tickEdge s = .next t ∧ t.time.tick = n ∧ t.time.edge = n * period s ∧ t.time.step = none ∧
          t.now = n * period s ∧ (s.plu.restart = false → t.mem = s.mem) ∧ t.ddr = s.ddr)) ∧
    (s.cmt.phase = .delivered → ∃ t, exec .programWindowOpen s = .next t ∧ t.cmt = { s.cmt with phase := .window } ∧
      t.now = max s.now (s.time.edge + 3 * usec) ∧
      (∀ l ci, coreOwner s l ≠ 0 → tActive s (ten (coreOwner s l)) = true → coreImage s l = some ci → served s l = true →
        (getCore t l).run = .running ∧ (getCore t l).cyc = 4800 ∧ (getCore t l).ctx.rg 30 = 0x7C000 ∧
        (getCore t l).pc = (if (getTen s (ten (coreOwner s l))).errorRun then ci.errorEntry else ci.entry) &&& 0xFFFFFFFC ∧
        (getCore t l).haltAt = none ∧
        (getCore t l).mem = (getCore s l).mem ∧ (getCore t l).scr = [] ∧ (getCore t l).entries = []) ∧
      (∀ f, f ≠ 0 → ((getTen t f).ran = true ↔ tActive s f = true ∨ (getTen s f).ran = true)) ∧
      KeepsBut [.regs, .now, .op, .core, .ten, .cmt, .spare, .hc] s t) ∧
    (s.cmt.phase = .window → hcSt s ≤ 1 → ∃ t, exec .deadline s = .next t ∧ t.cmt.phase = .applied ∧
      (∀ l, (getCore t l).run ≠ .running ∧ (getCore t l).entries = []) ∧ t.now = max s.now (s.time.edge + deadlineAt s) ∧
      KeepsBut [.regs, .now, .op, .port, .sw, .core, .ten, .cmt, .arb, .plu, .recorder, .clu, .out, .freeCtr] s t) ∧
    (s.cmt.phase = .applied → hcSt s ≤ 1 → (∀ x ∈ s.cmt.updates, ∀ off v, x.2 ≠ .reg off v) → s.plu.apply = [] →
      s.cmt.aperture = [] → (∀ f, (getTen s f).initDue = false) → ∃ t, exec .swap s = .next t ∧ t.cmt.phase = .swapped ∧
        t.cmt.updates = [] ∧ t.cmt.shadow = [] ∧
        (∀ a, (a < 0x1EFF100 ∨ 0x1EFF900 ≤ a) → peek t.mem a = peek (s.cmt.shadow.foldl spliceStretch s.mem) a) ∧
        KeepsBut [.regs, .now, .op, .port, .sw, .core, .ten, .cmt, .arb, .plu, .recorder, .hif, .tru, .clu, .fio, .mem, .out, .freeCtr] s t) ∧
    (s.cmt.phase = .swapped → ∃ t, exec .commitComplete s = .next t ∧ t.cmt.phase = .idle ∧ rb t Reg.cmtStatus 0 = false ∧
      ((∀ i, i < 8 → (getDop s i).status ≠ 1) → t.cmt.copying = s.cmt.copying) ∧
      (∀ i, i < 8 → (getDop s i).status = 1 → (getDop s i).tick = s.time.tick →
        (∀ j, j < 8 → j ≠ i → (getDop s j).tick ≠ s.time.tick) → t.cmt.copying = some i ∧ rb t Reg.cmtStatus 2 = true) ∧
      KeepsBut [.regs, .now, .op, .cmt, .arb] s t) ∧
    (∀ i, s.cmt.copying = some i → s.cmt.shadow = [] → ∃ t, exec .dopCopyDone s = .next t ∧ t.cmt.copying = none ∧
      (getDop t i).status = 2 ∧ rd t Reg.cmtSeq = rd s Reg.cmtSeq + 1 ∧ rb t Reg.cmtIrq 2 = true ∧
      (∀ a, (a < 0x1EFF100 ∨ 0x1EFF104 ≤ a) → peek t.mem a = peek (((getDop s i).list.map (fun e =>
        (e.2.1, e.2.2, moveCells s.mem e.1 e.2.2 e.2.1))).foldl spliceStretch s.mem) a) ∧
      KeepsBut [.regs, .now, .op, .cmt, .arb, .plu, .recorder, .mem, .out, .freeCtr] s t) ∧
    (∀ l w, (getCore s l).run = .running → watchdogEnd s l = some w →
      let c := getCore s l
      let present := (s.now - s.time.edge) / mainCycle;
      (w ≤ max c.cyc present → c.haltAt = none → ∃ t, exec (.watchdog l) s = .next t ∧ (getCore t l).run = .stopped ∧
        rd t (Reg.arrKTrap (l / 8) (physOf s l)) = 0x80000004 ∧
        (∀ k, k ∈ coresOf s (coreOwner s l) → (getCore t k).entries = [] ∧ ∃ h, (getCore t k).haltAt = some h ∧ h ≤ w + 16) ∧
        (coreOwner s l ≠ 0 → tActive s (ten (coreOwner s l)) = true → tState t (ten (coreOwner s l)) = 5 ∧
          (getTen t (ten (coreOwner s l))).fallbackDue = true) ∧
        KeepsBut [.regs, .core, .ten, .recorder, .arb, .out, .freeCtr] s t) ∧
      (∀ h, w ≤ max c.cyc present → c.haltAt = some h → h < w → exec (.watchdog l) s = .next (setCore s l { c with run := .stopped })) ∧
      (max c.cyc present < w → exec (.watchdog l) s = .next s))

/-- R187, R190, R196, R199, R201, R202: the decision of the deadline on one tenant. -/
def Obligations.CommitDecision : Prop :=
  ∀ (s : State) (f : Fin 64), tState s f = 3 → (getTen s f).pend = [] →
    let t := deadlineTenant s f
    (uncommitted s f = none → (getTen t f).committing = true ∧ (getTen t f).prevUncommitted = false ∧ tState t f = 3 ∧
      (∀ l ∈ coresOf s f, (retainedAt l, 0x4000, moveCells (getCore s l).mem 0x7C000 0x4000 (retainedAt l)) ∈ t.cmt.shadow ∧
        ∀ off b, Entry.mem off b ∈ (getCore s l).entries → (off, b.length, cellsAt off b) ∈ t.cmt.shadow) ∧
      KeepsBut [.regs, .ten, .cmt] s t) ∧
    (∀ c, uncommitted s f = some c → (getTen t f).committing = false ∧ (getTen t f).prevUncommitted = true ∧
      rd t (Reg.cmtTLastcause f) = W c ∧ rd t (Reg.cmtTUncTotal f) = rd s (Reg.cmtTUncTotal f) + 1 ∧ rb t Reg.cmtIrq 1 = true ∧
      (tState t f = 3 → t.cmt = s.cmt) ∧
      (rf s (Reg.cmtTTol f) 3 0 = 0 → tState t f = 5 ∧ rf t (Reg.cmtTState f) 10 8 = 2 ∧ (getTen t f).fallbackDone = true) ∧
      KeepsBut [.regs, .ten, .cmt, .recorder, .arb, .out] s t)

/-- R187 to R190, R202, R211, R270: the manager's commands to a tenant. Completes `start`, `stop`, `enterTest`, `leaveTest`, `fence`,
`unfence`, `cmtTTolWrite`. -/
def Obligations.TenantCommands : Prop :=
  ∀ (s : State) (f : Fin 64) (v : Word), f ≠ 0 → hcSt s ≠ 3 →
    let n := rf s (Reg.cmtTStartHi f) 15 0 * 2 ^ 32 + (rd s (Reg.cmtTStartLo f)).toNat
    let test := rb s (Reg.cmtTStartHi f) 16
    (tState s f = 1 → barred s f = false → s.time.tick + 2 ≤ n → (pbCovers s f = false ∨ test = true) → resourcesOk s f = true →
      ∃ t, exec (.start f) s = .next t ∧ tState t f = 2 ∧ rf t (Reg.cmtTState f) 7 5 = 0 ∧ (getTen t f).startAt = n ∧
        (getTen t f).startTest = test ∧ (getTen t f).window = [] ∧ (getTen t f).pend = [] ∧ (getTen t f).initDue = true ∧
        rd t (Reg.cmtTUncTotal f) = 0 ∧ rd t (Reg.cmtTEntries f) = 0 ∧ (∀ g, g ≠ f → getTen t g = getTen s g) ∧
        KeepsBut [.regs, .ten, .plu, .recorder, .arb, .out] s t) ∧
    (tState s f ≠ 1 ∨ barred s f = true → exec (.start f) s = .next (answer s f 1)) ∧
    (tState s f = 1 → barred s f = false → n < s.time.tick + 2 → exec (.start f) s = .next (answer s f 2)) ∧
    (tState s f = 1 → barred s f = false → s.time.tick + 2 ≤ n → pbCovers s f = true → test = false →
      exec (.start f) s = .next (answer s f 3)) ∧
    (tState s f = 1 → barred s f = false → s.time.tick + 2 ≤ n → (pbCovers s f = false ∨ test = true) → resourcesOk s f = false →
      exec (.start f) s = .next (answer s f 4)) ∧
    (tState s f = 2 → ∃ t, exec (.stop f) s = .next t ∧ tState t f = 1 ∧ (getTen t f).pend = [] ∧
      rf t (Reg.cmtTState f) 10 8 = 0 ∧ KeepsBut [.regs, .ten, .recorder, .arb, .out] s t) ∧
    ((tState s f = 3 ∨ tState s f = 4 ∨ (tState s f = 5 ∧ (getTen s f).fallbackDue = true)) → ∃ t, exec (.stop f) s = .next t ∧ TenantCmd.stop ∈ (getTen t f).pend ∧
      rb t (Reg.cmtTState f) 3 = true ∧ tState t f = tState s f ∧ KeepsBut [.regs, .ten] s t) ∧
    (tState s f = 5 → (getTen s f).fallbackDue = false → ∃ t, exec (.stop f) s = .next t ∧ tState t f = 1 ∧
      KeepsBut [.regs, .ten, .recorder, .arb, .out] s t) ∧
    ((tState s f ≤ 1 ∨ 6 ≤ tState s f) → exec (.stop f) s = .next (answer s f 1)) ∧
    (tState s f = 3 → barred s f = false → ∃ t, exec (.enterTest f) s = .next t ∧ TenantCmd.enterTest ∈ (getTen t f).pend ∧
      rb t (Reg.cmtTState f) 4 = true ∧ tState t f = 3 ∧ KeepsBut [.regs, .ten] s t) ∧
    (tState s f ≠ 3 ∨ barred s f = true → exec (.enterTest f) s = .next (answer s f 1)) ∧
    (tState s f = 4 → pbCovers s f = false → ∃ t, exec (.leaveTest f) s = .next t ∧ TenantCmd.leaveTest ∈ (getTen t f).pend ∧
      rb t (Reg.cmtTState f) 4 = true ∧ tState t f = 4 ∧ KeepsBut [.regs, .ten] s t) ∧
    (tState s f = 4 → pbCovers s f = true → exec (.leaveTest f) s = .next (answer s f 3)) ∧
    (tState s f ≠ 4 → exec (.leaveTest f) s = .next (answer s f 1)) ∧
    (2 ≤ tState s f → tState s f ≤ 5 → ∃ t, exec (.fence f) s = .next t ∧ tState t f = 6 ∧ rf t (Reg.cmtTState f) 10 8 = 3 ∧
      (getTen t f).pend = [] ∧ (∀ l ∈ coresOf s f, (getCore t l).run = .stopped ∧ (getCore t l).entries = []) ∧
      (∀ l, l ∉ coresOf s f → getCore t l = getCore s l) ∧
      (getTen t f).fallbackDue = !(getTen s f).fallbackDone ∧ KeepsBut [.regs, .core, .ten, .recorder, .arb, .out] s t) ∧
    (tState s f ≤ 1 ∨ 6 ≤ tState s f → exec (.fence f) s = .next (answer s f 1)) ∧
    (tState s f = 6 → (∀ l ∈ coresOf s f, served s l = true) → ∃ t, exec (.unfence f) s = .next t ∧ tState t f = 1 ∧
      KeepsBut [.regs, .ten, .recorder, .arb, .out] s t) ∧
    (tState s f = 6 → (∃ l ∈ coresOf s f, served s l = false) → exec (.unfence f) s = .next (answer s f 4)) ∧
    (tState s f ≠ 6 → exec (.unfence f) s = .next (answer s f 1)) ∧
    (tState s f = 1 → exec (.cmtTTolWrite f v) s = .next (wr s (Reg.cmtTTol f) (v &&& 0xFF0F))) ∧
    (tState s f ≠ 1 → exec (.cmtTTolWrite f v) s = .next (answer s f 1))

/-- R195, R203, R204, R206, R208, R263, R347: the Commit Unit's own commands, lost cores and spares. Completes `cmtCfgWrite`,
`dopSubmit`, `dopCancel`, `apertureWrite`, `coreLost`, `spareReady`, `coreShadowRotation`. -/
def Obligations.CommitUnitAndSpareCommands : Prop :=
  ∀ (s : State) (v : Word),
    (hcSt s ≠ 3 → let r := fld v 5 0
      let good := allIdle s = true ∧ dopScheduled s = false ∧ 8 ≤ r ∧ r ≤ 32
      (good → ∃ t, exec (.cmtCfgWrite v) s = .next t ∧ rd t Reg.cmtCfg = v &&& 0x3F ∧ rb t Reg.cmtStatus 1 = false ∧
        KeepsBut [.regs, .recorder, .arb, .out] s t) ∧
      (¬ good → exec (.cmtCfgWrite v) s = .next (raise (wb s Reg.cmtStatus 1 true) Reg.cmtIrq 4))) ∧
    (hcSt s ≠ 3 → let i := dopIdx s
      let refuse (r : Nat) : Prop :=
        exec .dopSubmit s = .next (raise (modDop s i (fun d => { d with reason := r })) Reg.cmtIrq 3)
      let d := getDop s i
      let n := fld d.tickHi 15 0 * 2 ^ 32 + d.tickLo.toNat
      let a := fld d.listAt 24 4 * 16
      let cnt := fld d.cfg 6 1 + 1
      let l := (List.range cnt).map (fun k => dopDesc s (a + 16 * k))
      let free := ∀ k, k < 8 → (getDop s k).status = 1 → (getDop s k).tick ≠ n
      let good := inPartition s 0 a (16 * cnt) false = true ∧ dopListOk s l = true
      (s.time.tick + 2 ≤ n → free → 10 ≤ s.cmt.reserve → good → d.status ≠ 1 → ∃ t, exec .dopSubmit s = .next t ∧ getDop t i = { d with tick := n, settings := bitOf d.cfg 0, list := l, status := 1, reason := 0 } ∧
          (∀ k, k ≠ i → getDop t k = getDop s k) ∧ KeepsBut [.cmt] s t) ∧
      (n < s.time.tick + 2 → refuse 1) ∧
      (s.time.tick + 2 ≤ n → ¬ free → refuse 2) ∧
      (s.time.tick + 2 ≤ n → free → s.cmt.reserve < 10 → refuse 3) ∧
      (s.time.tick + 2 ≤ n → free → 10 ≤ s.cmt.reserve → ¬ good → refuse 4) ∧
      (s.time.tick + 2 ≤ n → free → 10 ≤ s.cmt.reserve → good → d.status = 1 → refuse 5) ∧
      (d.status ≠ 1 ∨ d.tick < s.time.tick + 2 → exec .dopCancel s = .next s) ∧
      (d.status = 1 → s.time.tick + 2 ≤ d.tick → ∃ t, exec .dopCancel s = .next t ∧
        getDop t i = { d with status := 4 } ∧ KeepsBut [.cmt] s t)) ∧
    (∀ off data, hcSt s ≠ 3 → data ≠ [] →
      (inPartition s 0 off data.length true = true → ∃ t, exec (.apertureWrite off data) s = .next t ∧
        t.cmt = { s.cmt with aperture := s.cmt.aperture ++ pieces data.length off data } ∧ KeepsBut [.cmt] s t) ∧
      (inPartition s 0 off data.length true = false → ∃ t, exec (.apertureWrite off data) s = .next t ∧
        rd t Reg.hifAprejCnt = rd s Reg.hifAprejCnt + 1 ∧ rd t Reg.hifAprejAddr = W off &&& 0x1FFFFFF ∧
        rb t Reg.hifIrq 4 = true ∧ KeepsBut [.regs, .out] s t)) ∧
    (∀ l, served s l = true → (getSpare s (l / 8)).loading = none →
      let gen := rf s (Reg.arrKStatus (l / 8) (physOf s l)) 23 16;
      (spareCore s (l / 8) ≠ 15 → ∃ t, exec (.coreLost l) s = .next t ∧ (getCore t l).run = .stopped ∧ (getCore t l).lost = true ∧
        (getCore t l).entries = [] ∧ rf t (Reg.arrKStatus (l / 8) (physOf s l)) 23 16 = (gen + 1) % 256 ∧
        (getSpare t (l / 8)).loading = some l.val ∧ (getSpare t (l / 8)).ready = false ∧ physOf t l = physOf s l ∧
        (∀ k, k ≠ l → getCore t k = getCore s k) ∧
        KeepsBut [.regs, .core, .ten, .spare, .arb, .recorder, .out, .freeCtr] s t) ∧
      (spareCore s (l / 8) = 15 → ∃ t, exec (.coreLost l) s = .next t ∧ physOf t l = 15 ∧ (getCore t l).lost = true ∧
        rb t (Reg.arrCIrq (l / 8)) 3 = true ∧
        (coreOwner s l ≠ 0 → 2 ≤ tState s (ten (coreOwner s l)) → tState s (ten (coreOwner s l)) ≤ 5 →
          tState t (ten (coreOwner s l)) = 6 ∧ rf t (Reg.cmtTState (ten (coreOwner s l))) 10 8 = 4) ∧
        KeepsBut [.regs, .core, .ten, .arb, .recorder, .out] s t)) ∧
    (∀ c : Fin 8, (getSpare s c).loading ≠ none → ∃ t, exec (.spareReady c) s = .next t ∧
      getSpare t c = { getSpare s c with ready := true } ∧ (∀ k, k ≠ c.val → getSpare t k = getSpare s k) ∧ KeepsBut [.spare] s t) ∧
    (∀ c : Fin 8, mayRotate s c = true → rotationDue s c = true → ∃ t, exec (.coreShadowRotation c) s = .next t ∧
        shadowed t c = ((nextShadowCore s c).map (fun k => physOf s (Fin.ofNat 64 (8 * c.val + k)))).getD 15 ∧
        (getSpare t c).lockstep = false ∧ (getSpare t c).ticks = 0 ∧ KeepsBut [.regs, .spare, .arb, .freeCtr] s t) ∧
    (∀ c : Fin 8, mayRotate s c = false ∨ rotationDue s c = false → exec (.coreShadowRotation c) s = .next s)

/-- R244, R342, R343, R347 to R350, R353, R354, R356, R377: faults, dead units, background work. Completes `uncorrectableError`,
`ddr5ChannelLost`, `bistComplete`, `coreSelfTestTimeout`, `retireCore`, `retireHeddleUnit`, `shadowNow`, `clearDead`, `clearCause`,
`sramScrub`, `ddr5Patrol`, `pantryScrub`, `tempWarn`, `telemetryRecord`. -/
def Obligations.UnitFaultsAndRetirement : Prop :=
  ∀ (s : State) (tm : Instant),
    (runLight s = (if hcSt s = 1 then .green else .off) ∧
      faultLight s = (if hcSt s = 3 ∨ hcSt s = 4 then .red else .off) ∧
      (pairState s = 0 ∨ pairState s = 2 → pairLight s = .green) ∧ (pairState s = 1 → pairLight s = .amber) ∧
      (pairState s = 3 → pairLight s = .off)) ∧
    (hcSt s ≤ 1 → ∀ e ∈ [(ErrLoc.lineShadow, 9), (.loom, 5), (.tru, 7), (.keyStore, 14)],
      ∃ t, exec (.uncorrectableError e.1) s = .next t ∧ hcSt t = 3 ∧ rd t Reg.hcFault = W (e.2 + 256 * 4) ∧
        (∀ l, (getCore t l).run ≠ .running) ∧ gateOpen t = false ∧ pairState t = 3 ∧ t.cmt.phase = .idle ∧
        faultLight t = .red ∧ runLight t = .off ∧ pairLight t = .off ∧
        KeepsBut [.regs, .core, .ten, .cmt, .plu, .arb, .recorder, .fio, .hc, .out] s t) ∧
    (∀ (p : Fin 72) (l : Fin 64), spareCore s (p / 9) ≠ p % 9 → servedBy s (Fin.ofNat 8 (p / 9)) (p % 9) = some l →
      exec (.uncorrectableError (.coreLocal p)) s = exec (.coreLost l) s) ∧
    (∀ ch : Fin 4, rb s Reg.hcDdr ch = true → pbState s = 0 → ∃ t, exec (.ddr5ChannelLost ch) s = .next t ∧
      rb t Reg.hcDdr ch = false ∧ rb t Reg.hcIrq 3 = true ∧ rb t Reg.hcState 6 = true ∧ getArb t (16 + ch) = .reset ∧
      KeepsBut [.regs, .port, .sw, .arb, .recorder, .out] s t) ∧
    (∀ (c : Fin 8) a (sp ap : Bool), (getSpare s c).testing = some (a, spareCore s c) → a < 9 → a ≠ spareCore s c → spareCore s c < 9 →
      ∃ t, exec (.bistComplete (.cluster c) sp ap) s = .next t ∧ (getSpare t c).testing = none ∧
        (sp = false → unitIsDead t (9 * c + spareCore s c) = true ∧ (9 * c + spareCore s c) ∈ t.hc.deadList) ∧
        (ap = false → unitIsDead t (9 * c + a) = true ∧ (9 * c + a) ∈ t.hc.deadList) ∧
        (sp = false → ap = true → (getSpare s c).loading = none → servedBy s c a ≠ none → spareCore t c = 15) ∧
        (sp = true → ap = true → Tab.get [] s.hc.transient (9 * c + a) = [] → spareCore t c = spareCore s c ∧
          rf t Reg.hcVerdicts 15 0 = (rf s Reg.hcVerdicts 15 0 + 1) % 2 ^ 16 ∧ t.hc.deadList = s.hc.deadList ∧
          (getSpare t c).ticks = 4800 ∧ t.core = s.core) ∧
        KeepsBut [.regs, .core, .ten, .spare, .arb, .recorder, .hc, .out, .freeCtr] s t) ∧
    (∀ sp ap : Bool, rb s (Reg.hdlUStatus 16) 18 = true →
      let u : Fin 17 := Fin.ofNat 17 (rf s (Reg.hdlUStatus 16) 6 2);
      ∃ t, exec (.bistComplete .heddle sp ap) s = .next t ∧ (sp = false → unitIsDead t 116 = true ∧ 116 ∈ t.hc.deadList) ∧
        (ap = false → unitIsDead t (100 + u) = true ∧ (100 + u.val) ∈ t.hc.deadList) ∧
        (sp = true → ap = true → Tab.get [] s.hc.transient (100 + u) = [] → t.hc.deadList = s.hc.deadList ∧ t.hdl.shadowTicks = 4800 ∧
          rf t Reg.hcVerdicts 15 0 = (rf s Reg.hcVerdicts 15 0 + 1) % 2 ^ 16) ∧
        KeepsBut [.regs, .arb, .recorder, .hdl, .hc, .out, .freeCtr] s t) ∧
    (∀ (r : SelfTestLate) a b (l : Fin 64), (getSpare s r.cluster).testing = some (a, b) → a < 9 → servedBy s r.cluster a = some l →
      let p := toInstant s r.tm;
      ((r.sparePass = false ∨ p.op < (getSpare s r.cluster).testAt + second) → exec (.coreSelfTestTimeout r) s = .next p) ∧
      (r.sparePass = true → (getSpare s r.cluster).testAt + second ≤ p.op →
        ∃ t, exec (.coreSelfTestTimeout r) s = .next t ∧ exec (.coreLost l) p = .next t ∧
          (getCore t l).lost = true ∧ KeepsBut [.regs, .now, .op, .core, .ten, .spare, .arb, .recorder, .out, .freeCtr] s t)) ∧
    (∀ (p : Fin 72) (force : Bool),
      (unitIsDead s p = true → exec (.retireCore p force) s = .next (wr s Reg.hcCmdRes 1)) ∧
      (unitIsDead s p = false → (force = true ∨ servedBy s (Fin.ofNat 8 (p / 9)) (p % 9) = none) →
        ∃ t, exec (.retireCore p force) s = .next t ∧ rd t Reg.hcCmdRes = 0 ∧ unitIsDead t p = true ∧ p.val ∈ t.hc.deadList ∧
          rb t Reg.hcIrq 4 = true ∧ KeepsBut [.regs, .core, .ten, .spare, .arb, .recorder, .hc, .out, .freeCtr] s t) ∧
      (unitIsDead s p = false → force = false → servedBy s (Fin.ofNat 8 (p / 9)) (p % 9) ≠ none →
        (spareCore s (p / 9) = 15 ∨ (getSpare s (p / 9)).loading ≠ none) → exec (.retireCore p force) s = .next (wr s Reg.hcCmdRes 2))) ∧
    (∀ (u : Fin 17) (force : Bool),
      (unitIsDead s (100 + u) = true → exec (.retireHeddleUnit u force) s = .next (wr s Reg.hcCmdRes 1)) ∧
      (unitIsDead s (100 + u) = false → (force = true ∨ unitServed s u = 16) →
        ∃ t, exec (.retireHeddleUnit u force) s = .next t ∧ rd t Reg.hcCmdRes = 0 ∧ unitIsDead t (100 + u) = true ∧
          (100 + u.val) ∈ t.hc.deadList ∧ KeepsBut [.regs, .arb, .recorder, .hdl, .hc, .out, .freeCtr] s t) ∧
      (unitIsDead s (100 + u) = false → force = false → (unitServed s u).val ≠ 16 → (unitRole s 16 = 3 ∨ s.hdl.restoring ≠ none) →
        exec (.retireHeddleUnit u force) s = .next (wr s Reg.hcCmdRes 2))) ∧
    (∀ (p : Fin 72) l, unitIsDead s p = false → servedBy s (Fin.ofNat 8 (p / 9)) (p % 9) = some l →
      ∃ t, exec (.shadowNow (.core p)) s = .next t ∧ rd t Reg.hcCmdRes = 0 ∧ (getSpare t (p / 9)).next = some l.val ∧
        KeepsBut [.regs, .spare] s t) ∧
    (∀ u : Fin 16, unitIsDead s (100 + u) = false → ∃ t, exec (.shadowNow (.heddle (Fin.ofNat 17 u))) s = .next t ∧ rd t Reg.hcCmdRes = 0 ∧
      t.hdl = { s.hdl with next := u.val, moveNow := true } ∧ KeepsBut [.regs, .hdl] s t) ∧
    (∀ p : Fin 72, unitIsDead s p = true → exec (.shadowNow (.core p)) s = .next (wr s Reg.hcCmdRes 1)) ∧
    (∃ t, exec .clearDead s = .next t ∧ rd t Reg.hcCmdRes = 0 ∧ t.hc = { s.hc with deadList := [] } ∧
      KeepsBut [.regs, .arb, .recorder, .hc, .out] s t) ∧
    (∃ t, exec .clearCause s = .next t ∧ rd t Reg.hcResetCause = 0 ∧ rd t Reg.hcCmdRes = 0 ∧ KeepsBut [.regs] s t) ∧
    (∀ n a, ∃ t, exec (.sramScrub n a) s = .next t ∧ rd t Reg.smaEccCorr = rd s Reg.smaEccCorr + W n ∧
      (n ≠ 0 → rd t Reg.smaEccAddr = W (a % 2 ^ 25) ∧ rb t Reg.smaIrq 0 = true) ∧
      (scrubbing s = false → ∀ b : Fin 16, ∃ r ∈ (getArb t b).reqs, r.port = 13 ∧ r.beats = 65536) ∧
      (scrubbing s = true → t.arb = s.arb) ∧ KeepsBut [.regs, .arb, .out] s t) ∧
    (∀ l, ∃ t, exec (.ddr5Patrol l) s = .next t ∧ (∀ n, (n ∈ l ∨ n ∈ s.hc.pages) → n ∈ t.hc.pages) ∧
      KeepsBut [.regs, .port, .sw, .loom, .plu, .arb, .recorder, .hc, .out, .freeCtr] s t) ∧
    (∀ l w, ∃ t, exec (.pantryScrub l) s = .next t ∧ (getPan t w).wear = (getPan s w).wear + l.count w ∧
      KeepsBut [.regs, .arb, .recorder, .out] s t) ∧
    (∀ (k : Fin 24) (t16 : BitVec 16), 2 ≤ k.val → k.val ≤ 15 → 110 * 16 ≤ t16.toInt → ∃ t, exec (.tempWarn k t16) s = .next t ∧
      rd t (Reg.hcTemp k) = t16.setWidth 32 ∧ rb t Reg.hcIrq 2 = true ∧ KeepsBut [.regs, .out] s t) ∧
    (∀ r : TelemetryIn,
      let n := 2 ^ rf s Reg.hcTelSize 3 0
      let p := rf s Reg.hcTelProd 11 0
      let cons := rf s Reg.hcTelCons 11 0 % n;
      (rb s Reg.hcTelSize 8 = false → ∃ t, exec (.telemetryRecord r tm) s = .next t ∧
        (∀ k : Fin 24, rd t (Reg.hcTemp k) = W (r.temps.getD k 0 % 65536)) ∧ KeepsBut [.regs, .now, .op] s t) ∧
      (rb s Reg.hcTelSize 8 = true → (p + 1) % n ≠ cons → ∃ t, exec (.telemetryRecord r tm) s = .next t ∧
        t.out = .msix 0 21 :: .dma 0 ((rd s Reg.hcTelBaseHi).toNat * 2 ^ 32 + (rd s Reg.hcTelBaseLo).toNat + 512 * p)
          (telemetryBytes (toInstant s tm) r) :: s.out ∧ rd t Reg.hcTelProd = W ((p + 1) % n) ∧
        t.hc.telSeq = (s.hc.telSeq + 1) % 2 ^ 32 ∧ KeepsBut [.regs, .now, .op, .hc, .out] s t) ∧
      (rb s Reg.hcTelSize 8 = true → (p + 1) % n = cons → ∃ t, exec (.telemetryRecord r tm) s = .next t ∧
        rd t Reg.hcTelDrop = rd s Reg.hcTelDrop + 1 ∧ rb t Reg.hcIrq 5 = true ∧ t.hc = s.hc ∧
        KeepsBut [.regs, .now, .op, .out] s t))

/-- R264, R306, R321, R341, R344 to R346, R350, R379: start-up. Completes `powerGood`, `bootImageVerified`, `selfTestComplete`,
`ddr5Trained`, `keyStoreUnlock`, `configRestored`, `tenantImagesLoaded`, `loomStart`. -/
def Obligations.StartUpSequence : Prop :=
  ∀ (s : State) (tm : Instant),
    (s.hc.holdOff = false → booting s 0 = true → ∃ t, exec (.powerGood tm) s = .next t ∧ t.hc.stage = 1 ∧ t.hc.mainOn = true ∧
      t.hc.bootAt = t.op ∧ t.now = max s.now tm ∧ KeepsBut [.regs, .now, .op, .time, .arb, .recorder, .hc, .out] s t) ∧
    (s.hc.holdOff = false → hcSt s = 3 → s.hc.mainGood = false → ∃ t, exec (.powerGood tm) s = .next t ∧ hcSt t = 0 ∧ t.hc.stage = 1 ∧
      rd t Reg.hcResetCause = 0 ∧ t.hc.noRestart = false ∧ t.hc.mainOn = true ∧ t.mem = [] ∧ t.ddr = [] ∧
      t.op = s.hc.opHold.getD (s.op + (tm - s.now)) ∧ t.pending = s.pending) ∧
    (s.hc.holdOff = false → booting s 0 = false → ¬ (hcSt s = 3 ∧ s.hc.mainGood = false) →
      exec (.powerGood tm) s = .next (toInstant s tm)) ∧
    (s.hc.holdOff = true → exec (.powerGood tm) s =
      .next { toInstant s tm with hc := { s.hc with standby := true, mainGood := true } }) ∧
    (booting s 1 = true →
      (∀ b, exec (.bootImageVerified true b) s = .next { s with hc := { s.hc with stage := 2 } }) ∧
      (∃ t, exec (.bootImageVerified false true) s = .next t ∧ t.hc = { s.hc with stage := 2 } ∧ rb t Reg.hcState 3 = true ∧
        KeepsBut [.regs, .arb, .recorder, .hc, .out] s t) ∧
      (∃ t, exec (.bootImageVerified false false) s = .next t ∧ hcSt t = 3 ∧ t.hc.noRestart = true ∧ rd t Reg.hcFault = 1 ∧
        KeepsBut [.regs, .core, .ten, .cmt, .plu, .arb, .recorder, .fio, .hc, .out] s t)) ∧
    (∀ r : SelfTest, booting s 2 = true →
      (r.sramOk = true → ∃ t, exec (.selfTestComplete r) s = .next t ∧ t.hc.stage = 3 ∧
        (∀ c ∈ r.cores, c < 72 → unitIsDead t c = true) ∧ KeepsBut [.regs, .arb, .recorder, .hc, .out] s t) ∧
      (r.sramOk = false → ∃ t, exec (.selfTestComplete r) s = .next t ∧ hcSt t = 3 ∧ t.hc.noRestart = true ∧ t.hc.stage = 2)) ∧
    (∀ m : BitVec 4, booting s 3 = true → ∃ t, exec (.ddr5Trained m) s = .next t ∧ t.hc.stage = 4 ∧
      (∀ ch : Fin 4, rb t Reg.hcDdr ch = (m.getLsbD ch && rb s Reg.hcDdr ch)) ∧ KeepsBut [.regs, .port, .sw, .loom, .arb, .recorder, .hc, .out] s t) ∧
    (∀ r, booting s 4 = true → s.ks.root = some r → s.ks.logDue = false →
      (∃ t, exec (.keyStoreUnlock true) s = .next t ∧ t.hc.stage = 5 ∧ keyless t = false ∧ t.ks.root = some r ∧
        rd t Reg.panPwrcyc = W ((s.rec'.panCyc + 1) % 2 ^ 24) ∧ t.ks.storageKey = some (storeKey r) ∧
        (∀ x, s.ks.record = some x → x.under = storeKey r → t.ks.slot.length = x.slots.length) ∧
        (∀ x, s.ks.record = some x → x.under ≠ storeKey r → t.ks.slot = []) ∧ rd t Reg.ksTamper = s.ks.tamperRec ∧
        KeepsBut [.regs, .arb, .recorder, .ks, .hc, .out] s t) ∧
      (∃ t, exec (.keyStoreUnlock false) s = .next t ∧ t.hc.stage = 5 ∧ rb t Reg.hcState 5 = true ∧ t.ks = s.ks ∧
        KeepsBut [.regs, .arb, .recorder, .hc, .out] s t)) ∧
    (∀ b, booting s 4 = true → s.ks.root = none → s.ks.logDue = false →
      (s.ks.tamperRec = 0 → ∃ t, exec (.keyStoreUnlock b) s = .next t ∧ t.hc.stage = 5 ∧ keyless t = false ∧
        t.ks.root = some ((List.range 32).map (fun i => Config.trngByte (s.freeCtr + i))) ∧
        KeepsBut [.regs, .arb, .recorder, .ks, .hc, .out, .freeCtr] s t) ∧
      (s.ks.tamperRec ≠ 0 → ∃ t, exec (.keyStoreUnlock b) s = .next t ∧ t.hc.stage = 5 ∧ rb t Reg.hcState 5 = true ∧ t.ks = s.ks ∧
        KeepsBut [.regs, .arb, .recorder, .hc, .out] s t)) ∧
    (booting s 5 = true →
      (∀ r, s.hc.config = some r → ∃ t, exec (.configRestored true) s = .next t ∧ t.hc.stage = 6 ∧ t.sw.matchTab = r.matchTab ∧
        t.sw.fdb = r.fdb ∧ t.sw.vlan = r.vlan ∧ t.ks.bind = r.bind ∧ t.hif.subOwner = r.subs ∧ t.cmt.part = r.part ∧
        KeepsBut [.regs, .sw, .cmt, .plu, .arb, .recorder, .arc, .hif, .fio, .ks, .hc, .out] s t) ∧
      (∃ t, exec (.configRestored false) s = .next t ∧ t.hc.stage = 6 ∧ rb t Reg.hcState 4 = true ∧ t.sw = s.sw ∧
        KeepsBut [.regs, .plu, .arb, .recorder, .arc, .fio, .hc, .out] s t)) ∧
    (∀ bad, booting s 6 = true → ∃ t, exec (.tenantImagesLoaded bad) s = .next t ∧ t.hc.stage = 7 ∧
      (∀ f im, (getTen s f).image = some im → tState t f = 1 ∧ (getTen t f).image = (if f ∈ bad then none else some im)) ∧
      KeepsBut [.regs, .core, .ten, .arb, .recorder, .hdl, .tru, .hc, .out] s t) ∧
    (booting s 7 = true → s.time.ticking = true → ∃ t, exec .loomStart s = .next t ∧ t.hc.stage = 8 ∧
      t.hc.startTick = some (s.time.tick + 2) ∧ t.loom = { s.loom with started := true, flushUpTo := some (s.time.tick - 1) } ∧
      (∀ u : Fin 16, rb t (Reg.hdlUCtrl u) 0 = true) ∧ KeepsBut [.regs, .loom, .ten, .plu, .arb, .recorder, .hc, .out] s t) ∧
    (booting s 7 = false → exec .loomStart s = .next s) ∧
    (booting s 5 = false → ∀ b, exec (.configRestored b) s = .next s)

/-- R12, R55, R341, R342, R346, R351, R352, R355, R366, R367: power, faults and resets. Completes `powerFailWarning`, `powerFailReset`,
`railFault`, `faultRestart`, `thermalHold`, `thermalRelease`, `hcReset`, `standbyPowerLoss`, `standbyPowerUp`. -/
def Obligations.PowerFailAndResets : Prop :=
  ∀ (s : State) (tm : Instant),
    let o := s.op + (tm - s.now)
    let kept : List Part := [.regs, .now, .op, .time, .port, .sw, .loom, .core, .ten, .cmt, .spare, .arb, .plu, .recorder, .arc, .hif,
      .hdl, .tru, .clu, .fio, .ks, .hc, .mem, .ddr]
    (s.hc.mainOn = true → hcSt s ≤ 1 → ∃ t, exec (.powerFailWarning tm) s = .next t ∧ hcSt t = 2 ∧ t.hc.mainGood = false ∧
      t.hc.ending = 0 ∧ t.hc.warnAt = o ∧ t.cmt.phase = .idle ∧ t.cmt.shadow = [] ∧ gateOpen t = false ∧ t.arc.staging = [] ∧
      t.time.pps = false ∧ t.rec'.panOp = o ∧ (s.rec'.ring ≠ [] → t.rec'.flushing ≠ none) ∧
      KeepsBut [.regs, .now, .op, .time, .cmt, .plu, .arb, .recorder, .arc, .fio, .hc, .out] s t) ∧
    ((hcSt s = 2 ∨ hcSt s = 3 ∨ s.hc.mainOn = false) → exec (.powerFailWarning tm) s =
      .next { toInstant s tm with hc := { s.hc with mainGood := false, opHold := some (s.hc.opHold.getD o) },
                                  time := { s.time with pps := false } }) ∧
    (s.hc.mainOn = true → hcSt s = 4 → exec (.powerFailWarning tm) s = .next (toInstant s tm)) ∧
    (hcSt s = 2 → s.hc.warnAt + 10 * msec ≤ o → ∃ t, exec (.powerFailReset tm) s = .next t ∧ hcSt t = 0 ∧
      rd t Reg.hcResetCause = (if s.hc.ending = 3 then 3 else 1) ∧ t.hc.mainOn = false ∧
      t.hc.holdOff = (s.hc.holdOff || s.hc.ending == 1 || s.hc.ending == 3) ∧ t.mem = [] ∧ t.ddr = [] ∧
      t.hc.stage = 0 ∧ t.rec'.sectors = s.rec'.sectors ∧ t.ks.root = s.ks.root ∧ t.op = o ∧ KeepsBut kept s t) ∧
    (hcSt s = 4 → s.hc.ending = 2 → s.hc.warnAt + 10 * msec ≤ o → ∃ t, exec (.powerFailReset tm) s = .next t ∧ hcSt t = 4 ∧
      t.hc.ending = 0 ∧ t.mem = [] ∧ t.ddr = [] ∧ t.hc.stage = 0 ∧ t.ks.root = s.ks.root ∧ t.op = o ∧ KeepsBut kept s t) ∧
    ((failing s = false ∨ o < s.hc.warnAt + 10 * msec ∨ (hcSt s = 4 ∧ s.hc.ending ≠ 2)) → exec (.powerFailReset tm) s = .next (toInstant s tm)) ∧
    (∀ r, s.hc.mainOn = true → s.hc.mainGood = true → hcSt s ≤ 1 → ∃ t, exec (.railFault r) s = .next t ∧ hcSt t = 3 ∧ rd t Reg.hcFault = 1 ∧
      (∀ l, (getCore t l).run ≠ .running) ∧ KeepsBut [.regs, .core, .ten, .cmt, .plu, .arb, .recorder, .fio, .hc, .out] s t) ∧
    (hcSt s = 3 → s.rec'.flushing = none → s.rec'.ring = [] → rb s Reg.hcCfg 0 = true → s.hc.noRestart = false →
      ∃ t, exec (.faultRestart tm) s = .next t ∧ hcSt t = 0 ∧ rd t Reg.hcResetCause = 3 ∧ t.mem = [] ∧ t.hc.stage = 0 ∧
        KeepsBut kept s t) ∧
    (hcSt s = 1 → ∃ t, exec (.thermalHold tm) s = .next t ∧ hcSt t = 4 ∧ t.hc.ending = 2 ∧ t.hc.mainGood = s.hc.mainGood ∧
      t.cmt.phase = .idle ∧ gateOpen t = false ∧ KeepsBut [.regs, .now, .op, .time, .cmt, .plu, .arb, .recorder, .arc, .fio, .hc, .out] s t) ∧
    (hcSt s = 4 → s.hc.ending = 0 → ∃ t, exec .thermalRelease s = .next t ∧ hcSt t = 0 ∧ rd t Reg.hcResetCause = 4 ∧ KeepsBut [.regs] s t) ∧
    (hcSt s = 4 → s.hc.ending ≠ 0 → exec .thermalRelease s = .next s) ∧
    (failing s = false → ¬ (hcSt s = 3 ∧ s.hc.faultAt = o) → ∃ t, exec (.hcReset tm) s = .next t ∧ hcSt t = 0 ∧ rd t Reg.hcResetCause = 2 ∧ t.hc.noRestart = false ∧
      (∀ r < 4, s.time.ratePend = some r → rd t Reg.timeTickcfg = W r) ∧
      (s.time.ratePend = none → rd t Reg.timeTickcfg = W (rf s Reg.timeTickcfg 1 0)) ∧
      t.mem = [] ∧ t.ddr = [] ∧ KeepsBut kept s t) ∧
    ((failing s = true ∨ (hcSt s = 3 ∧ s.hc.faultAt = o)) → exec (.hcReset tm) s = .next (toInstant s tm)) ∧
    (∃ t, exec .standbyPowerLoss s = .next t ∧ t.hc.standby = false ∧ t.hc.mainOn = false ∧ t.hc.holdOff = false ∧
      t.hc.busArm = none ∧ rd t Reg.hcResetCause = 0 ∧ t.mem = [] ∧ KeepsBut kept s t) ∧
    (∀ b, exec (.standbyPowerUp false b) s = .next { s with hc := { s.hc with standby := true } }) ∧
    (∃ t, exec (.standbyPowerUp true true) s = .next t ∧ t.hc.standby = true ∧ t.ks.root = none ∧ t.ks.slot = [] ∧ t.ks.lidOpen = true ∧
      keyless t = true ∧ rb t Reg.ksTamper 0 = true ∧ rb t Reg.ksTamper 6 = true ∧ rb t Reg.ksStatus 8 = true ∧
      KeepsBut [.regs, .sw, .arb, .recorder, .ks, .hc, .out] s t) ∧
    (∃ t, exec (.standbyPowerUp true false) s = .next t ∧ t.hc.standby = true ∧ t.ks.root = none ∧ t.ks.lidOpen = false ∧
      rb t Reg.ksTamper 0 = true ∧ rb t Reg.ksTamper 6 = true ∧ rb t Reg.ksStatus 8 = false ∧
      KeepsBut [.regs, .sw, .arb, .recorder, .ks, .hc, .out] s t)

/-- R271, R286, R318, R364 to R367: the management bus, and the lanes of the pair link. Completes `inventory`, `asset`, `health`,
`pwrState`, `logInfo`, `logRead`, `logSel`, `pwrArm`, `pwrShutdown`, `pwrPowerOn`, `pwrReset`, `statusRead`, `busTimeout`,
`pairLinkLaneDown`, `pairLinkLaneUp`. -/
def Obligations.ManagementBusCommands : Prop :=
  ∀ (s : State) (b : BusCmd) (tm : Instant),
    let answer (status : Nat) (data : List Byte) : State :=
      let sent := [BitVec.ofNat 8 status, BitVec.ofNat 8 data.length] ++ data;
      { s with out := .bus (sent ++ [pec ([busAddr false, b.code] ++ b.data ++ [busAddr true] ++ sent)]) :: s.out }
    let keep (r : Nat) : State := { s with hc := { s.hc with busStatus := r } }
    let a := s.hc.busSector * 65536 + s.hc.busOffset
    let o := s.op + (tm - s.now)
    let served := s.hc.mainOn = true ∧ (warned s = true ∨ hcSt s = 3 ∨ (1 ≤ s.hc.stage ∧ s.rec'.recovering = false))
    let v := W (leNat (b.data.drop 1))
    let good := pec ([busAddr false, b.code] ++ b.data) = b.pec
    (s.hc.standby = true → b.code ∈ busCodes → b.data = [0] →
      exec (.inventory b) s = .next (answer 0 (words s [0, 4, 8, 12, 16, 20, 24, 28])) ∧
      exec (.asset b) s = .next (answer 0 (words s ((List.range 8).map Reg.glbAsset))) ∧
      (s.hc.mainOn = false → exec (.health b) s = .next (answer 0
        (toLe 4 (rd s Reg.hcState).toNat ++ toLe 4 (rd s Reg.hcResetCause).toNat ++ List.replicate 18 0))) ∧
      (s.hc.mainOn = true → exec (.health b) s = .next (answer 0
        (toLe 4 (rd s Reg.hcState).toNat ++ toLe 4 (rd s Reg.hcResetCause).toNat ++ toLe 4 (rd s Reg.hcFault).toNat ++
          toLe 4 (opHours s % 2 ^ 24) ++ toLe 4 (rd s Reg.panPwrcyc).toNat ++ toLe 2 (rd s (Reg.hcTemp 0)).toNat ++
          toLe 2 (dieTemp s).toNat ++ toLe 2 ((viewHigh s Reg.pluStatus).getD 0).toNat))) ∧
      exec (.pwrState b) s = .next (answer 0 (toLe 4 (b2n s.hc.standby + 2 * b2n s.hc.mainGood + 4 * b2n s.hc.mainOn +
        8 * b2n (hcSt s == 2) + 16 * hcSt s))) ∧
      (served → exec (.logInfo b) s = .next (answer 0 (words s [Reg.logGen, Reg.logFirst, Reg.logLast, Reg.logStatus])) ∧
        ∃ t, exec (.logRead b) s = .next t ∧ t.out = (answer 0 (logBytes s a 32)).out ∧
          t.hc.busSector * 65536 + t.hc.busOffset = (a + 32) % (4096 * 65536) ∧ KeepsBut [.hc, .out] s t) ∧
      (¬ served → ∀ c ∈ [Instr.logInfo b, .logRead b], exec c s = .next (answer 4 []))) ∧
    (s.hc.standby = true → ∀ c ∈ [Instr.inventory b, .asset b, .health b, .pwrState b, .logInfo b, .logRead b],
      (b.code ∉ busCodes → exec c s = .next (answer 1 [])) ∧ (b.code ∈ busCodes → b.data ≠ [0] → exec c s = .next (answer 2 []))) ∧
    (s.hc.standby = true →
      (¬ good → exec (.logSel b) s = .next (keep 3)) ∧ (good → b.code ∉ busCodes → exec (.logSel b) s = .next (keep 1)) ∧
      (good → b.code ∈ busCodes →
        (¬ (b.data.length = 5 ∧ b.data.headD 0 = 4) → exec (.logSel b) s = .next (keep 2)) ∧
        (b.data.length = 5 → b.data.headD 0 = 4 →
          (¬ served → exec (.logSel b) s = .next (keep 4)) ∧
          (served → fld v 31 16 % 32 ≠ 0 → exec (.logSel b) s = .next (keep 6)) ∧
          (served → fld v 31 16 % 32 = 0 → exec (.logSel b) s = .next { s with hc := { s.hc with
            busSector := fld v 11 0, busOffset := fld v 31 16, busStatus := 0 } })))) ∧
    (s.hc.standby = true → ∀ c ∈ [Instr.pwrArm b tm, .pwrShutdown b tm, .pwrPowerOn b tm, .pwrReset b tm],
      let keep' (r : Nat) : State := { toInstant s tm with hc := { s.hc with busStatus := r } };
      (¬ good → exec c s = .next (keep' 3)) ∧ (good → b.code ∉ busCodes → exec c s = .next (keep' 1)) ∧
      (good → b.code ∈ busCodes → ¬ (b.data.length = 2 ∧ b.data.headD 0 = 1) → exec c s = .next (keep' 2))) ∧
    (s.hc.standby = true → good → b.code ∈ busCodes →
      (∀ k : Byte, b.data = [1, k] → (k.toNat = 0 ∨ 3 < k.toNat) →
        exec (.pwrArm b tm) s = .next { toInstant s tm with hc := { s.hc with busStatus := 6 } }) ∧
      (∀ k : Byte, b.data = [1, k] → 1 ≤ k.toNat → k.toNat ≤ 3 → ∃ t, exec (.pwrArm b tm) s = .next t ∧
        t.hc = { s.hc with busArm := some (k.toNat, o), busStatus := 0 } ∧ KeepsBut [.now, .op, .hc] s t) ∧
      (∀ x, b.data = [1, 1] → s.hc.busArm = some (1, x) → o ≤ x + second → s.hc.mainOn = false → exec (.pwrShutdown b tm) s =
        .next { toInstant s tm with hc := { s.hc with busArm := none, holdOff := true, busStatus := 0 } }) ∧
      (∀ x, b.data = [1, 1] → s.hc.busArm = some (1, x) → o ≤ x + second → s.hc.mainOn = true → failing s = false →
        ∃ t, exec (.pwrShutdown b tm) s = .next t ∧ hcSt t = 2 ∧ t.hc.ending = (if hcSt s = 3 then 3 else 1) ∧ t.hc.busArm = none ∧ t.hc.busStatus = 0 ∧
          gateOpen t = false ∧ KeepsBut [.regs, .now, .op, .time, .cmt, .plu, .arb, .recorder, .arc, .fio, .hc, .out] s t) ∧
      (∀ x, b.data = [1, 1] → s.hc.busArm = some (1, x) → o ≤ x + second → s.hc.mainOn = true →
        (hcSt s = 2 ∨ (hcSt s = 4 ∧ s.hc.ending ≠ 0) → ∃ t, exec (.pwrShutdown b tm) s = .next t ∧ hcSt t = 2 ∧
          t.hc = { s.hc with busArm := none, ending := if s.hc.ending = 3 then 3 else 1, busStatus := 0 } ∧
          KeepsBut [.regs, .now, .op, .hc] s t) ∧
        (hcSt s = 4 → s.hc.ending = 0 → exec (.pwrShutdown b tm) s = .next { toInstant s tm with hc := { s.hc with
          busArm := none, holdOff := true, mainOn := false, busStatus := 0 } })) ∧
      (∀ x, b.data = [1, 2] → s.hc.busArm = some (2, x) → o ≤ x + second → s.hc.mainOn = false → s.hc.mainGood = true →
        booting s 0 = true → ∃ t, exec (.pwrPowerOn b tm) s = .next t ∧ t.hc.mainOn = true ∧ t.hc.holdOff = false ∧
          t.hc.stage = 1 ∧ t.hc.busStatus = 0 ∧ KeepsBut [.regs, .now, .op, .time, .arb, .recorder, .hc, .out] s t) ∧
      (∀ x, b.data = [1, 3] → s.hc.busArm = some (3, x) → o ≤ x + second → s.hc.mainOn = true → failing s = false →
        ¬ (hcSt s = 3 ∧ s.hc.faultAt = o) →
        ∃ t, exec (.pwrReset b tm) s = .next t ∧ hcSt t = 0 ∧ rd t Reg.hcResetCause = 2 ∧ t.mem = [] ∧ t.hc.busStatus = 0 ∧
          t.pending = s.pending) ∧
      (∀ x, b.data = [1, 2] → s.hc.busArm = some (2, x) → o ≤ x + second → (s.hc.mainGood = false ∨ s.hc.mainOn = true) →
        exec (.pwrPowerOn b tm) s = .next { toInstant s tm with hc := { s.hc with busArm := none, busStatus := 6 } }) ∧
      (∀ x, b.data = [1, 3] → s.hc.busArm = some (3, x) → o ≤ x + second → s.hc.mainOn = false →
        exec (.pwrReset b tm) s = .next { toInstant s tm with hc := { s.hc with busArm := none, busStatus := 6 } }) ∧
      (∀ k : Byte, b.data = [1, k] → ∀ e ∈ [(Instr.pwrShutdown b tm, 1), (.pwrPowerOn b tm, 2), (.pwrReset b tm, 3)],
        (∀ y x, s.hc.busArm = some (y, x) → y ≠ e.2 ∨ k.toNat ≠ e.2 ∨ x + second < o) →
        exec e.1 s = .next { toInstant s tm with hc := { s.hc with busStatus := 5 } })) ∧
    (s.hc.standby = true → ∃ t, exec .statusRead s = .next t ∧ t.out = .bus [BitVec.ofNat 8 s.hc.busStatus, 0,
      pec [busAddr true, BitVec.ofNat 8 s.hc.busStatus, 0]] :: s.out ∧ KeepsBut [.out] s t) ∧
    (s.hc.standby = false → exec (.inventory b) s = .next s ∧ exec (.logSel b) s = .next s ∧ exec .statusRead s = .next s ∧
      exec (.pwrArm b tm) s = .next (toInstant s tm) ∧ exec (.pwrReset b tm) s = .next (toInstant s tm)) ∧
    exec .busTimeout s = .next s ∧
    (∀ i : Fin 4,
      let d := wb s Reg.pluStatus (8 + i) false
      let u := wb s Reg.pluStatus (8 + i) true;
      (lanesUp d ≠ 0 → exec (.pairLinkLaneDown i) s = .next d) ∧
      (lanesUp d = 0 → ∃ t, exec (.pairLinkLaneDown i) s = .next t ∧ rb t Reg.pluStatus (8 + i) = false ∧ t.plu.coming = [] ∧
        t.plu.outAsked = 0 ∧ t.plu.outSent = 0 ∧ t.plu.fullAsked = false ∧ KeepsBut [.regs, .plu, .arb] s t) ∧
      (s.plu.sending = none → exec (.pairLinkLaneUp i) s = .next u) ∧
      (∃ t, exec (.pairLinkLaneUp i) s = .next t ∧ rb t Reg.pluStatus (8 + i) = true ∧ KeepsBut [.regs, .plu, .arb] s t))

/-- R10 to R12, R342, R358, R361: register writes. Completes `registerWrite`. -/
def Obligations.RegisterWrites : Prop :=
  ∀ (s : State) (who : Writer) (off : Nat),
    (∀ a b : BusWord, off % 4 = 0 → off % 64 + 8 ≤ 64 → ∃ t, exec (.registerWrite who off [a]) s = .next t ∧
      exec (.registerWrite who off [a, b]) s = exec (.registerWrite who (off + 4) [b]) t) ∧
    (∀ a : BusWord, a.be ≠ 15 → exec (.registerWrite who off [a]) s = .next s) ∧
    (∀ l : List BusWord, (off % 4 ≠ 0 ∨ 64 < off % 64 + 4 * l.length) → exec (.registerWrite who off l) s = .next s) ∧
    (∀ (f : RegFam) (v : Word), regAt off = some f → off % 4 = 0 → (off / 0x100000 = 0 ∨ off / 0x100000 = 16) → hcSt s ≠ 3 →
      let m := W f.mask
      let i : Instr := .registerWrite (.fn 0) off [⟨15, v⟩]
      (f.acc = .rw → off ≠ Reg.panIrq + 4 → ∃ t, exec i s = .next t ∧ rd t off = (rd s off &&& ~~~m) ||| (v &&& m) ∧
        KeepsBut [.regs] s t) ∧
      (f.acc = .rwp → ∃ t, exec i s = .next t ∧ rd t off = (rd s off &&& ~~~m) ||| (v &&& m) ∧
        (getPan t off).wear = (getPan s off).wear + 1 ∧ KeepsBut [.regs, .arb, .recorder, .out] s t) ∧
      (f.acc = .w1c → ∃ t, exec i s = .next t ∧ rd t off = rd s off &&& ~~~(v &&& m) ∧ KeepsBut [.regs] s t) ∧
      (f.acc = .ro → exec i s = .next s)) ∧
    (∀ v : Word, hcSt s = 3 → exec (.registerWrite (.fn 0) Reg.timeCtrl [⟨15, v⟩]) s = .next s)

/-- R360. -/
def Obligations.ReservedOffsetsReadZero : Prop :=
  ∀ (s : State) (off : Nat) (v : Word), off < 0x100000000 → regAt off = none →
    readReg s off = 0 ∧ exec (.registerWrite (.fn 0) off [⟨15, v⟩]) s = .next s

/-- R263, outside Fault-halt, in which the aperture is silent (R342). Completes `apertureWrite`. -/
def Obligations.DiscardedApertureWriteIsReported : Prop :=
  ∀ (s : State) (off : Nat) (data : List Byte), hcSt s ≠ 3 → off < 0x2000000 → data ≠ [] →
    inPartition s 0 off data.length true = false →
    ∃ t, exec (.apertureWrite off data) s = .next t ∧ rd t Reg.hifAprejCnt = rd s Reg.hifAprejCnt + 1 ∧
      rd t Reg.hifAprejAddr = W off ∧ rb t Reg.hifIrq 4 = true

/-- R288, R289, R292 to R294, R299, R300: key commands (the count of levels below the slot: log entry 42). Completes `ksGen`, `ksUnwrap`,
`ksPubimp`, `ksDerive`, `ksSwap`, `ksDiscard`, `ksErase`, `ksReadpub`, `ksSign`, `ksVerify`, `ksHmac`, `ksHmacv`, `ksOwner`. -/
def Obligations.KeyStoreCommands : Prop :=
  ∀ (s : State) (slot : Fin 1024), hcSt s ≠ 3 →
    let typ := rf s Reg.ksAttr 3 0
    let use := rf s Reg.ksAttr 5 4
    let aux := rf s Reg.ksArg 9 0
    let data := ksBytes s (rf s Reg.ksDlen 9 0)
    let wants (k : KeyVal) : Nat := if checkOf k = rf s Reg.ksCheck 23 0 then 0 else 4
    let placed (k : KeyVal) (t : State) : Prop :=
      ksSlot t slot = { ksSlot s slot with shadow := some k, verified := checkOf k == rf s Reg.ksCheck 23 0 } ∧ SlotsBut slot s t
    let all : List Instr := [.ksGen slot, .ksUnwrap slot, .ksPubimp slot, .ksDerive slot, .ksSwap slot, .ksDiscard slot,
      .ksErase slot, .ksSign slot, .ksVerify slot, .ksHmac slot, .ksHmacv slot, .ksOwner slot]
    (rb s Reg.ksStatus 0 = true → ∀ c ∈ .ksReadpub slot :: all, exec c s = .next (wf s Reg.ksRes 3 0 1)) ∧
    (rb s Reg.ksStatus 0 = false → keyless s = true → ∀ c ∈ all, ∃ t, KeyRuns c s [.regs, .ks] 7 none none t ∧
      t.ks.slot = s.ks.slot) ∧
    (rb s Reg.ksStatus 0 = false → keyless s = false →
      (TakesShadow s slot typ use → typeUseOk typ use = true → typ ≠ 6 → typ ≠ 8 →
        (let k : KeyVal := ⟨typ, use, (List.range (keyLen typ)).map (fun i => Config.trngByte (s.freeCtr + i)),
            rd s Reg.ksKeyid, none, [], [], 0, true⟩;
          ∃ t, KeyRuns (.ksGen slot) s [.regs, .ks, .freeCtr] 0 (some (checkOf k)) none t ∧ placed k t ∧
            rb t Reg.ksStatus 3 = true ∧ t.freeCtr = s.freeCtr + keyLen typ) ∧
        (∀ w, aux ≠ 0 → (ksSlot s aux).active = some w → w.use = 2 →
          (∀ v, Config.keyUnwrap w.val data = some v → v.length = keyLen typ →
            let k : KeyVal := ⟨typ, use, v, rd s Reg.ksKeyid, none, [], [], 0, false⟩;
            ∃ t, KeyRuns (.ksUnwrap slot) s [.regs, .ks] (wants k) (some (checkOf k)) none t ∧ placed k t) ∧
          ((∀ v, Config.keyUnwrap w.val data = some v → v.length ≠ keyLen typ) →
            ∃ t, KeyRuns (.ksUnwrap slot) s [.regs, .ks] 8 none none t ∧ t.ks.slot = s.ks.slot))) ∧
      (TakesShadow s slot typ use → typeUseOk typ use = true → (typ = 6 ∨ typ = 8) → data.length = keyLen typ →
        (Config.ecOnCurve data = true →
          (let k : KeyVal := ⟨typ, use, data, rd s Reg.ksKeyid, none, [], [], 0, false⟩;
            ∃ t, KeyRuns (.ksPubimp slot) s [.regs, .ks] (wants k) (some (checkOf k)) none t ∧ placed k t)) ∧
        (Config.ecOnCurve data = false → ∃ t, KeyRuns (.ksPubimp slot) s [.regs, .ks] 8 none none t ∧ t.ks.slot = s.ks.slot)) ∧
      (∀ p, TakesShadow s slot typ use → typeUseOk typ use = true → typ ≤ 4 → aux ≠ 0 → (ksSlot s aux).active = some p →
        p.use = 3 → p.typ = 4 → 1 ≤ data.length → data.length ≤ 48 →
        (8 ≤ p.depth → tooDeep s slot aux p.depth = true) ∧
        (p.depth < 8 → aux ≠ slot → childrenOf s [slot.val] = [] → tooDeep s slot aux p.depth = false) ∧
        (tooDeep s slot aux p.depth = false →
          (let k : KeyVal := ⟨typ, use, kdf p.val data (8 * keyLen typ), rd s Reg.ksKeyid, some aux, data, [], p.depth + 1, false⟩;
            ∃ t, KeyRuns (.ksDerive slot) s [.regs, .ks] (wants k) (some (checkOf k)) none t ∧ placed k t)) ∧
        (tooDeep s slot aux p.depth = true → ∃ t, KeyRuns (.ksDerive slot) s [.regs, .ks] 6 none none t ∧ t.ks.slot = s.ks.slot)) ∧
      (∀ k, 3 ≤ slot.val → (ksSlot s slot).shadow = some k →
        let sure := (ksSlot s slot).verified = true ∨ (k.gen = true ∧ checkOf k = rf s Reg.ksCheck 23 0)
        let deep (p : Nat) : Bool := tooDeep s slot p ((ksSlot s p).active.elim 0 (·.depth));
        (∀ p, sure → k.parent = some p → deep p = true → ∃ t, KeyRuns (.ksSwap slot) s [.regs, .ks] 6 none none t ∧ t.ks.slot = s.ks.slot) ∧
        (∀ p, sure → k.parent = some p → deep p = false → ∃ t, KeyRuns (.ksSwap slot) s [.regs, .ks] 0 (some (checkOf k)) none t ∧
          (ksSlot t slot).shadow = none ∧ rb t Reg.ksStatus 3 = true) ∧
        (sure → k.parent = none → ∃ t, KeyRuns (.ksSwap slot) s [.regs, .ks] 0 (some (checkOf k)) none t ∧
          ksSlot t slot = ⟨some k, none, false⟩ ∧ rb t Reg.ksStatus 3 = true ∧
          (∀ j c, j ≠ slot.val → (ksSlot s j).active = some c → c.parent = some slot.val →
            (ksSlot t j).active = some (deriveFrom k c)) ∧
          (∀ j c, j ≠ slot.val → (ksSlot s j).active = some c → c.parent = none → (ksSlot t j).active = some c)) ∧
        (¬ sure → ∃ t, KeyRuns (.ksSwap slot) s [.regs, .ks] 4 none none t ∧
          t.ks.slot = s.ks.slot)) ∧
      (3 ≤ slot.val →
        (∃ t, KeyRuns (.ksDiscard slot) s [.regs, .ks] 0 none none t ∧
          ksSlot t slot = { ksSlot s slot with shadow := none, verified := false } ∧ SlotsBut slot s t) ∧
        (hasChildren s slot = false → bound s slot = false → ∃ t, KeyRuns (.ksErase slot) s [.regs, .ks] 0 none none t ∧
          ksSlot t slot = .reset ∧ SlotsBut slot s t ∧ ownByte t Reg.ksOwn slot = 0 ∧ rb t Reg.ksStatus 3 = true) ∧
        ((hasChildren s slot = true ∨ bound s slot = true) → ∃ t, KeyRuns (.ksErase slot) s [.regs, .ks] 5 none none t ∧
          t.ks.slot = s.ks.slot)) ∧
      (∀ k, (ksSlot s slot).active = some k → isEc k.typ = true →
        ∃ t, KeyRuns (.ksReadpub slot) s [.regs, .ks] 0 (some (checkOf k)) (some (pointOf k)) t ∧ t.ks.slot = s.ks.slot) ∧
      (∀ k, slot.val ≠ 0 → (ksSlot s slot).active = some k →
        ((k.typ = 5 ∨ k.typ = 7) → k.use = 0 → (data.length = 32 ∨ data.length = 48) →
          ∃ t, KeyRuns (.ksSign slot) s [.regs, .ks, .freeCtr] 0 none
            (some ((Config.ecSign k.val data s.freeCtr).take (2 * keyLen k.typ))) t ∧ t.ks.slot = s.ks.slot) ∧
        ((k.typ = 6 ∨ k.typ = 8) → k.use = 1 → ∀ digest sig, data = digest ++ sig → (digest.length = 32 ∨ digest.length = 48) →
          sig.length = keyLen k.typ → ∃ t, KeyRuns (.ksVerify slot) s [.regs, .ks]
            (if Config.ecVerify k.val digest sig then 0 else 9) none none t ∧ t.ks.slot = s.ks.slot) ∧
        (k.typ = 3 → k.use = 0 → rf s Reg.ksDlen 9 0 ≤ 480 → ∃ t, KeyRuns (.ksHmac slot) s [.regs, .ks] 0 none
          (some ((Config.hmacSha256 k.val data).take 32)) t ∧ t.ks.slot = s.ks.slot) ∧
        (k.typ = 3 → k.use = 1 → ∀ msg tag, rf s Reg.ksDlen 9 0 ≤ 512 → data = msg ++ tag → tag.length = 32 →
          ∃ t, KeyRuns (.ksHmacv slot) s [.regs, .ks] (if (Config.hmacSha256 k.val msg).take 32 = tag then 0 else 9) none none t ∧
            t.ks.slot = s.ks.slot)) ∧
      (∀ k, 3 ≤ slot.val → (ksSlot s slot).shadow = some k → k.typ = 8 → k.use = 1 →
        let own := rf s Reg.ksArg 10 10
        let signed := ∀ e, s.ks.owner.find? (fun e => e.1 == own) = some e →
          Config.ecVerify e.2.point (Config.sha384 (k.val ++ [BitVec.ofNat 8 own] ++ toLe 4 k.kid.toNat)) data = true;
        (signed → ∃ t, KeyRuns (.ksOwner slot) s [.regs, .ks, .recorder, .arb, .out] 0 none none t ∧
          ksSlot t slot = ⟨some k, none, false⟩ ∧ SlotsBut slot s t ∧ t.ks.owner.head? = some (own, ⟨slot, k.kid, k.val⟩)) ∧
        (¬ signed → ∃ t, KeyRuns (.ksOwner slot) s [.regs, .ks] 9 none none t ∧ t.ks.slot = s.ks.slot ∧ t.ks.owner = s.ks.owner)))

/-- R295 to R297, R300 to R304, R306: provisioning, bindings, owners, completion, tamper (log entry 42). Completes `provArm`,
`provConfirm`, `provArmExpiry`, `ksCommandDone`, `ksBindingRead`, `ksBindingWrite`, `ksBindingClear`, `ksOwnWrite`,
`keyRecordSaved`, `tamperTrip`, `tamperSourceCleared`. -/
def Obligations.ProvisioningBindingsAndTamper : Prop :=
  ∀ (s : State) (tm : Instant),
    let at' := s.op + (tm - s.now)
    let kind := rf s Reg.ksBIdx 2 0
    let obj := rf s Reg.ksBIdx 15 4
    let new : KeyBinding := ⟨rd s Reg.ksBSlots &&& 0x3FFFFF, rd s Reg.ksBKida, rd s Reg.ksBKidb, if kind = 4 then ksBytes s 12 else []⟩
    (hcSt s ≠ 3 → rb s Reg.ksStatus 0 = true → ∀ c ∈ [Instr.provArm tm, .provConfirm tm],
      exec c s = .next (wf (toInstant s tm) Reg.ksRes 3 0 1)) ∧
    (hcSt s ≠ 3 → rb s Reg.ksStatus 0 = false →
      (∃ t, KeyRuns (.provArm tm) s [.regs, .now, .op, .ks] 0 none none t ∧ t.ks.armAt = some at' ∧ rb t Reg.ksStatus 4 = true) ∧
      (∀ a, keyless s = true → rf s Reg.ksStatus 12 8 = 0 → s.ks.armAt = some a → at' < a + second →
        ∃ t, exec (.provConfirm tm) s = .next t ∧
          t.ks = { s.ks with run := some ⟨0, none, none, s.ks.owner, rd s Reg.ksOwnerkey, true⟩, armAt := none } ∧
          rb t Reg.ksStatus 0 = true ∧ rb t Reg.ksStatus 4 = false ∧ keyless t = true ∧ KeepsBut [.regs, .now, .op, .ks] s t) ∧
      ((keyless s = false ∨ rf s Reg.ksStatus 12 8 ≠ 0 ∨ ∀ a, s.ks.armAt = some a → a + second ≤ at') →
        ∃ t, KeyRuns (.provConfirm tm) s [.regs, .now, .op, .ks] 12 none none t ∧ t.ks.root = s.ks.root ∧ t.ks.slot = s.ks.slot)) ∧
    (∀ a, s.ks.armAt = some a → at' < a + second → exec (.provArmExpiry tm) s = .next (toInstant s tm)) ∧
    (∀ a, s.ks.armAt = some a → a + second ≤ at' → ∃ t, exec (.provArmExpiry tm) s = .next t ∧ t.ks = { s.ks with armAt := none } ∧
      rb t Reg.ksStatus 4 = false ∧ KeepsBut [.regs, .now, .op, .ks] s t) ∧
    (s.ks.run = none → exec .ksCommandDone s = .next s) ∧
    (∀ r, s.ks.run = some r → r.prov = false → ∃ t, exec .ksCommandDone s = .next t ∧ t.ks = { s.ks with run := none } ∧
      rf t Reg.ksRes 3 0 = r.status % 16 ∧ rf t Reg.ksRes 31 8 = r.check.getD 0 % 2 ^ 24 ∧ rb t Reg.ksStatus 0 = false ∧
      rb t Reg.ksIrq 0 = true ∧
      (∀ bs, r.out = some bs → rf t Reg.ksDlen 9 0 = bs.length % 1024 ∧ ∀ i, i < 512 → i < bs.length → (ksBytes t 512)[i]? = bs[i]?) ∧
      (r.out = none → rd t Reg.ksDlen = rd s Reg.ksDlen) ∧ KeepsBut [.regs, .ks, .out] s t) ∧
    (∀ r, s.ks.run = some r → r.prov = true → r.status = 0 → r.out = none → ∃ t, exec .ksCommandDone s = .next t ∧
      t.ks.run = none ∧ keyless t = false ∧ t.ks.root = some ((List.range 32).map (fun i => Config.trngByte (s.freeCtr + i))) ∧
      t.ks.bind = [] ∧ t.ks.record = none ∧ rd t Reg.ksTamper = 0 ∧ t.ks.tamperRec = 0 ∧ rb t Reg.hcState 5 = rb s Reg.hcState 5 ∧
      rf t Reg.ksRes 3 0 = 0 ∧ rb t Reg.ksStatus 0 = false ∧ rb t Reg.ksIrq 0 = true ∧
      (s.ks.owner = [] → ∀ j, 3 ≤ j → ksSlot t j = .reset) ∧ KeepsBut [.regs, .arb, .recorder, .ks, .out, .freeCtr] s t) ∧
    (hcSt s ≠ 3 → ∃ t, exec .ksBindingRead s = .next t ∧ rd t Reg.ksBSlots = (binding s kind obj).slots ∧
      rd t Reg.ksBKida = (binding s kind obj).kidA ∧ rd t Reg.ksBKidb = (binding s kind obj).kidB ∧ KeepsBut [.regs] s t) ∧
    (hcSt s ≠ 3 → bindReason s kind obj new = 0 → ∃ t, exec .ksBindingWrite s = .next t ∧ binding t kind obj = new ∧
      (∀ k o, bindKey k o ≠ bindKey kind obj → binding t k o = binding s k o) ∧ rf t Reg.ksBStat 5 1 = 0 ∧
      rb t Reg.hifStatus 16 = true ∧ KeepsBut [.regs, .ks] s t) ∧
    (obj < bindRange kind → (kind = 4 → obj % 16 < 10) → keyless s = true → bindReason s kind obj new = 6) ∧
    (hcSt s ≠ 3 → bindReason s kind obj new ≠ 0 → ∃ t, exec .ksBindingWrite s = .next t ∧ t.ks = s.ks ∧
      rf t Reg.ksBStat 5 1 = 1 + 2 * bindReason s kind obj new ∧ rb t Reg.ksIrq 2 = true ∧ KeepsBut [.regs, .out] s t) ∧
    (hcSt s ≠ 3 → ∃ t, exec .ksBindingClear s = .next t ∧ binding t kind obj = .none ∧
      (∀ k o, bindKey k o ≠ bindKey kind obj → binding t k o = binding s k o) ∧ KeepsBut [.regs, .ks] s t) ∧
    (∀ (i : Fin 256) (v : Word), hcSt s ≠ 3 →
      let v' := v &&& (if i.val = 0 then 0x3F3F3F00 else 0x3F3F3F3F)
      let was (j : Nat) := fld (rd s (Reg.ksOwn i)) (8 * j + 5) (8 * j)
      let will (j : Nat) := fld v' (8 * j + 5) (8 * j);
      ((∀ j, j < 4 → was j = will j ∨ (ownerFree s (was j) = true ∧ ownerFree s (will j) = true)) →
        (∀ e ∈ s.ks.bind, e.2.valid = false) → exec (.ksOwnWrite i v) s =
          .next (cfgDirty { s with cmt := { s.cmt with waiting := s.cmt.waiting ++ [(Reg.ksOwn i, v')] } })) ∧
      ((∃ j, j < 4 ∧ was j ≠ will j ∧ (ownerFree s (was j) = false ∨ ownerFree s (will j) = false)) →
        exec (.ksOwnWrite i v) s = .next (raise s Reg.hifIrq 6))) ∧
    ((rb s Reg.ksStatus 3 = false ∨ s.ks.storageKey = none) → exec .keyRecordSaved s = .next s) ∧
    (∀ key, rb s Reg.ksStatus 3 = true → s.ks.storageKey = some key →
      ∃ t l, exec .keyRecordSaved s = .next t ∧ t.ks = { s.ks with record := some ⟨key, l⟩ } ∧
      (∀ e ∈ s.ks.slot, ∀ k p, e.2.active = some k → k.parent = some p → (e.1, (⟨some { k with val := [] }, none, false⟩ : KeySlot)) ∈ l) ∧
      (∀ x ∈ l, ∃ e ∈ s.ks.slot, e.1 = x.1 ∧ e.2.active ≠ none ∧ x.2.shadow = none) ∧
      (∀ e ∈ s.ks.slot, ∀ k, e.2.active = some k → k.parent = none → (e.1, (⟨some k, none, false⟩ : KeySlot)) ∈ l) ∧
      rb t Reg.ksStatus 3 = false ∧ rb t Reg.ksIrq 4 = true ∧ KeepsBut [.regs, .ks, .out] s t) ∧
    (∀ src : Fin 5,
      let falling := src.val = 2 ∧ s.hc.mainOn = true ∧ s.hc.mainGood = false;
      (falling → exec (.tamperTrip src) s = .next s) ∧
      (¬ falling → ∃ t, exec (.tamperTrip src) s = .next t ∧ t.ks.slot = [] ∧ t.ks.root = none ∧ t.ks.storageKey = none ∧
        (s.hc.mainOn = false → rb t Reg.ksTamper 5 = true) ∧ (s.hc.mainOn = true → s.hc.stage < 5 → rb t Reg.ksTamper 6 = true) ∧ t.ks.run = none ∧ keyless t = true ∧
        rb t Reg.ksTamper src = true ∧ rb t Reg.ksStatus (8 + src) = true ∧ rb t Reg.ksIrq 1 = true ∧
        (∀ i, i < 128 → rd t (Reg.ksData i) = 0) ∧ (∀ c ∈ t.sw.checks, c.ok = false) ∧ rd t Reg.ksZcnt = rd s Reg.ksZcnt + 1 ∧
        (∀ r, s.ks.run = some r → t.ks.owner = r.undoOwner ∧ rd t Reg.ksRes = 10) ∧
        t.ks.tamperRec = s.ks.tamperRec ||| rd t Reg.ksTamper ∧
        (∀ k o b, s.ks.lastBind = some (s.op, bindKey k o, b) → binding t k o = b) ∧
        KeepsBut [.regs, .sw, .arb, .recorder, .ks, .out] s t) ∧
      (∃ t, exec (.tamperSourceCleared src) s = .next t ∧ rb t Reg.ksStatus (8 + src) = false ∧ rd t Reg.ksTamper = rd s Reg.ksTamper ∧
        t.ks.root = s.ks.root ∧ KeepsBut [.regs, .ks] s t))

/-- R271 to R273, R276 to R279, R284, R285, R287: lease messages and the gate (log entry 40: the first lease, duplicates, and what a
stale renewal counts as). Completes `leaseRenewal`, `renewal`, `acknowledgement`, `yield`, `ready`, `refuse`, `swapFailed`,
`leaseExpiry`, `takeover`, `takeoverQuietCheck`, `quietChange`. -/
def Obligations.LeaseMessagesAndTheGate : Prop :=
  ∀ (s : State) (path : Path) (m : LeaseMsg) (tm : Instant),
    let o := s.op + (tm - s.now)
    let parts : List Part := [.regs, .now, .op, .port, .sw, .ten, .plu, .arb, .recorder, .fio, .out, .freeCtr]
    let sends : List Part := [.regs, .now, .op, .port, .sw, .plu, .arb, .out, .freeCtr]
    let heard : List Part := [.regs, .now, .op, .plu]
    let six : List Instr := [.renewal path m tm, .acknowledgement path m tm, .yield path m tm, .ready path m tm, .refuse path m tm,
      .swapFailed path m tm]
    let bad : Prop := path = .net ∧ (m.authentic = false ∨ netVerify s = false)
    let counts : Prop := paired s = true ∧ ¬ bad ∧ pairState s ≠ 3
    let calm : Prop := holder s = true → m.epoch ≤ epoch s
    let inForce := fld (rd s Reg.pluLease) 9 0 * msec
    -- a message leaves on the path of the one it answers, or a numbered one on both
    let answered (a : LeaseMsg) (t : State) : Prop :=
      (path = .pair → lanesUp s ≠ 0 → Out.lease .pair a (leaseOctets a) ∈ t.out) ∧
      (path = .net → netKey s = true → Out.lease .net a (leasePayload s a) ∈ t.out)
    let sent (a : LeaseMsg) (t : State) : Prop :=
      (lanesUp s ≠ 0 → Out.lease .pair a (leaseOctets a) ∈ t.out) ∧
      (rb s Reg.pluCfg 1 = true → netKey s = true → Out.lease .net a (leasePayload s a) ∈ t.out)
    (let due := ∀ e, s.plu.sent.head? = some e → 4 * e.2 + leaseL s ≤ 4 * o;
      (gateOpen s = true → paired s = true → due → ∃ t, exec (.leaseRenewal tm) s = .next t ∧ t.plu.leaseOld = none ∧
        t.plu.seq = (s.plu.seq + 1) % 2 ^ 32 ∧ t.plu.sent.head? = some (s.plu.seq, o) ∧
        rd t Reg.pluRenewTx = rd s Reg.pluRenewTx + 1 ∧ sent (message s .renewal s.plu.seq 0 0) t ∧ KeepsBut sends s t) ∧
      ((gateOpen s = false ∨ paired s = false ∨ ¬ due) → exec (.leaseRenewal tm) s = .next (toInstant s tm))) ∧
    ((paired s = false ∨ (pairState s = 3 ∧ ¬ bad)) → ∀ c ∈ six, exec c s = .next (toInstant s tm)) ∧
    (paired s = true → bad → ∀ c ∈ six, exec c s = .next (raise (bump (toInstant s tm) Reg.pluAuthfail) Reg.pluIrq 9)) ∧
    (counts → pairState s = 1 → epoch s ≤ m.epoch → ∃ t, exec (.renewal path m tm) s = .next t ∧ t.plu.heard = o ∧
      t.plu.seq = (s.plu.seq + 1) % 2 ^ 32 ∧ t.plu.leaseOld = none ∧ rb t Reg.pluStatus 5 = false ∧ pairState t = 1 ∧
      answered (message s .ack s.plu.seq m.seq 0) t ∧
      (s.plu.yielded = true → epoch s < m.epoch → t.plu.yielded = false ∧
        (o < s.plu.yieldAt + inForce / 2 → rf t Reg.pluSwapStat 18 16 = 1 ∧ rb t Reg.pluIrq 5 = true) ∧
        (s.plu.yieldAt + inForce / 2 ≤ o → rf t Reg.pluSwapStat 18 16 = 4 ∧ rb t Reg.pluIrq 6 = true)) ∧ KeepsBut parts s t) ∧
    (counts → holder s = true → m.epoch < 2 ^ 32 → (epoch s < m.epoch ∨ (moduleB s = true ∧ m.epoch = epoch s)) →
      ∃ t, exec (.renewal path m tm) s = .next t ∧ pairState t = 1 ∧ gateOpen t = false ∧ epoch t = m.epoch ∧
        rd t Reg.pluDemotions = rd s Reg.pluDemotions + 1 ∧ rb t Reg.pluIrq 2 = true ∧ KeepsBut parts s t) ∧
    (counts → holder s = true → moduleB s = false → m.epoch = epoch s → ∃ t, exec (.renewal path m tm) s = .next t ∧
      pairState t = pairState s ∧ gateOpen t = gateOpen s ∧ t.plu.leaseOld = none ∧ KeepsBut heard s t) ∧
    (counts → m.epoch < epoch s → ∃ t, exec (.renewal path m tm) s = .next t ∧ rd t Reg.pluStale = rd s Reg.pluStale + 1 ∧
      pairState t = pairState s ∧ gateOpen t = gateOpen s ∧ (pairState s = 1 → t.plu.heard = o) ∧
      answered (message s .ack s.plu.seq m.seq 0) t ∧ KeepsBut sends s t) ∧
    (counts → calm →
      (m.echo ∈ s.plu.ackNos → ∃ t, exec (.acknowledgement path m tm) s = .next t ∧ t.plu.acked = s.plu.acked ∧
        t.plu.fullNext = s.plu.fullNext ∧ rd t Reg.pluAckRx = rd s Reg.pluAckRx ∧ KeepsBut heard s t) ∧
      (∀ e, holder s = true → m.echo ∉ s.plu.ackNos → s.plu.sent.find? (fun e => e.1 == m.echo) = some e →
        ∃ t, exec (.acknowledgement path m tm) s = .next t ∧ m.echo ∈ t.plu.ackNos ∧
        t.plu.acked = some (max e.2 (s.plu.acked.getD 0)) ∧ rd t Reg.pluAckRx = rd s Reg.pluAckRx + 1 ∧
        (m.ckpt = 0 → s.plu.fullAsked = false → t.plu.fullNext = true) ∧ t.plu.fullAsked = (m.ckpt == 0) ∧ KeepsBut heard s t) ∧
      (holder s = false → m.echo ∉ s.plu.ackNos → ∃ t, exec (.acknowledgement path m tm) s = .next t ∧
        t.plu.acked = s.plu.acked ∧ rd t Reg.pluAckRx = rd s Reg.pluAckRx + 1 ∧ KeepsBut heard s t) ∧
      (s.plu.yieldTick = some m.tick →
        (∃ t, exec (.ready path m tm) s = .next t ∧ t.plu.ready = true ∧ t.plu.yieldTick = some m.tick ∧ KeepsBut heard s t) ∧
        (∃ t, exec (.refuse path m tm) s = .next t ∧ t.plu.yieldTick = none ∧ rb t Reg.pluStatus 14 = false ∧
          rf t Reg.pluSwapStat 18 16 = 2 ∧ KeepsBut heard s t))) ∧
    (counts → pairState s = 1 →
      (s.plu.take = .none → s.plu.handTick ≠ some m.tick →
        let fit := (∃ c, s.plu.store = some c ∧ c.items.all (admits s) = true) ∧ s.time.tick + 2 ≤ m.tick;
        (fit → ∃ t, exec (.yield path m tm) s = .next t ∧ t.plu.handTick = some m.tick ∧ t.plu.finalIn = false ∧
          sent (message s .ready s.plu.seq 0 m.tick) t ∧ KeepsBut parts s t) ∧
        (¬ fit → ∃ t, exec (.yield path m tm) s = .next t ∧ t.plu.handTick = s.plu.handTick ∧
          sent (message s .refuse s.plu.seq 0 m.tick) t ∧ KeepsBut sends s t)) ∧
      ((s.plu.take ≠ .none ∨ s.plu.handTick = some m.tick) → ∃ t, exec (.yield path m tm) s = .next t ∧
        t.plu.handTick = s.plu.handTick ∧ t.out = s.out ∧ KeepsBut heard s t) ∧
      (s.plu.yielded = true → gateOpen s = false → s.plu.take = .none → ∃ t, exec (.swapFailed path m tm) s = .next t ∧ pairState t = 0 ∧
        t.plu.openAt = some (s.time.tick + 1) ∧ t.plu.restart = true ∧ t.plu.yielded = false ∧ rb t Reg.pluIrq 6 = true ∧
        rf t Reg.pluSwapStat 18 16 = 4 ∧ KeepsBut [.regs, .now, .op, .plu, .arb, .recorder, .out] s t) ∧
      (s.plu.yielded = false → ∃ t, exec (.swapFailed path m tm) s = .next t ∧ pairState t = 1 ∧ KeepsBut heard s t)) ∧
    (pairState s = 0 → gateOpen s = true →
      ((∀ a, s.plu.acked = some a ∨ s.plu.opened = some a → a + leaseL s ≤ o) →
        (peerQuiet s = true → exec (.leaseExpiry tm) s = .next (wb (toInstant s tm) Reg.pluStatus 4 true)) ∧
        (peerQuiet s = false → ∃ t, exec (.leaseExpiry tm) s = .next t ∧ pairState t = 1 ∧ gateOpen t = false ∧
          rb t Reg.pluStatus 5 = true ∧ rb t Reg.pluIrq 3 = true ∧ t.plu.heard = o ∧
          KeepsBut [.regs, .now, .op, .ten, .plu, .arb, .recorder, .fio, .out] s t)) ∧
      (∀ a, s.plu.acked = some a ∨ s.plu.opened = some a → o < a + leaseL s → exec (.leaseExpiry tm) s = .next (toInstant s tm))) ∧
    ((pairState s ≠ 0 ∨ gateOpen s = false) → exec (.leaseExpiry tm) s = .next (toInstant s tm)) ∧
    (∀ qp qn : Bool,
      (paired s = false → exec (.quietChange qp qn tm) s = .next { toInstant s tm with plu := { s.plu with qp := qp, qn := qn } }) ∧
      (paired s = true → ∃ t, exec (.quietChange qp qn tm) s = .next t ∧ t.plu.qp = qp ∧ t.plu.qn = qn ∧
        rb t Reg.pluStatus 6 = (qp && !qn) ∧ rb t Reg.pluStatus 7 = (qp == qn) ∧ (qp = qn → rb t Reg.pluIrq 4 = true) ∧
        (qp = true → qn = false → KeepsBut heard s t ∧ pairState t = pairState s) ∧
        ((qp = false ∨ qn = true) → (∀ a, s.plu.acked = some a → a + leaseL s ≤ o) →
          (pairState s = 0 → gateOpen s = true → rb s Reg.pluStatus 4 = true → (∀ a, s.plu.opened = some a → a + leaseL s ≤ o) →
            pairState t = 1 ∧ gateOpen t = false ∧ rd t Reg.pluDemotions = rd s Reg.pluDemotions + 1 ∧ rb t Reg.pluIrq 2 = true ∧
            rb t Reg.pluIrq 3 = true) ∧
          (pairState s = 2 → pairState t = 1 ∧ gateOpen t = false ∧ rd t Reg.pluDemotions = rd s Reg.pluDemotions ∧
            rb t Reg.pluIrq 3 = true)) ∧
        KeepsBut [.regs, .now, .op, .ten, .plu, .arb, .recorder, .fio, .out] s t)) ∧
    (pairState s = 1 → rb s Reg.pluStatus 5 = false → s.plu.take = .none → failing s = false → s.plu.heard + leaseL s + guardG s ≤ o →
      ∃ t, exec (.takeover tm) s = .next t ∧ t.plu.take = .quietWait ∧ t.plu.takeTo = 0 ∧
        rd t Reg.pluEpoch = W (max (epoch s) (rd s Reg.pluPeerEpoch).toNat + 1) ∧ t.plu.oldEpoch = rd s Reg.pluEpoch ∧
        t.plu.takeAt = o ∧ pairState t = 1 ∧ t.plu.handTick = none ∧ (s.plu.handTick = none → t.ten = s.ten) ∧
        KeepsBut [.regs, .now, .op, .ten, .plu, .arb, .recorder, .out] s t) ∧
    ((pairState s ≠ 1 ∨ rb s Reg.pluStatus 5 = true ∨ s.plu.take ≠ .none ∨ failing s = true ∨ o < s.plu.heard + leaseL s + guardG s) →
      exec (.takeover tm) s = .next (toInstant s tm)) ∧
    ((s.plu.take ≠ .quietWait ∨ o < s.plu.takeAt + 20 * usec) → exec (.takeoverQuietCheck tm) s = .next (toInstant s tm)) ∧
    (s.plu.take = .quietWait → s.plu.takeAt + 20 * usec ≤ o →
      (peerQuiet s = false → moduleB s = true → ∃ t, exec (.takeoverQuietCheck tm) s = .next t ∧ t.plu.take = .none ∧
        rd t Reg.pluEpoch = s.plu.oldEpoch ∧ t.plu.heard = o ∧ pairState t = pairState s ∧
        KeepsBut [.regs, .now, .op, .plu, .arb, .recorder, .out] s t) ∧
      ((peerQuiet s = true ∨ moduleB s = false) → ∃ t, exec (.takeoverQuietCheck tm) s = .next t ∧ pairState t = s.plu.takeTo % 4 ∧
        rd t Reg.pluTakeovers = rd s Reg.pluTakeovers + 1 ∧ rb t Reg.pluIrq 1 = true ∧
        (s.plu.store = none → t.plu.openAt = some (s.time.tick + 3) ∧ t.plu.take = .none ∧ rb t Reg.pluStatus 15 = true) ∧
        (s.plu.store ≠ none → t.plu.take = .restoring ∧ rb t Reg.pluStatus 16 = true ∧ t.ten = s.ten) ∧
        KeepsBut [.regs, .now, .op, .ten, .plu, .arb, .recorder, .out, .freeCtr] s t))

/-- R243, R268, R277, R278, R280 to R284, R287: checkpoints, planned swaps, pair commands. Completes `checkpointPageReceive`,
`checkpointClose`, `checkpointSent`, `restoreComplete`, `plannedSwapDue`, `pairSwap`, `pairFence`, `pairUnfence`, `solo`,
`leaveSolo`, `pluEpochWrite`, `pluTClassWrite`, `pluLeaseWrite`. -/
def Obligations.CheckpointsAndPairCommands : Prop :=
  ∀ (s : State) (tm : Instant),
    let o := s.op + (tm - s.now)
    let yields (c : Instr) : Prop := ∃ t h, exec c s = .next t ∧ t.plu.yieldTick = some h ∧ s.time.tick + 4 ≤ h ∧ t.plu.ready = false ∧
      rb t Reg.pluStatus 14 = true ∧
      (let m := message s .yld s.plu.seq 0 h; lanesUp s ≠ 0 → Out.lease .pair m (leaseOctets m) ∈ t.out) ∧
      KeepsBut [.regs, .port, .sw, .plu, .arb, .out, .freeCtr] s t
    let waits (c : Instr) : Prop := ∃ t, exec c s = .next t ∧ t.plu = { s.plu with retries := 0, swapBase := s.op, swapWanted := true } ∧
      KeepsBut [.regs, .plu] s t
    let answers (c : Instr) (r : Nat) : Prop := exec c s = .next (wr s Reg.pluCmdRes (W r))
    let answersAt (c : Instr) (r : Nat) : Prop := exec c s = .next (wr (toInstant s tm) Reg.pluCmdRes (W r))
    (∀ i : CkptPage, (pairState s = 1 → ∃ t, exec (.checkpointPageReceive i) s = .next t ∧
        t.plu = { s.plu with coming := (arrived s i.seq).filter (fun x => !sameItem x i.item) ++ [i.item], comingSeq := i.seq } ∧
        KeepsBut [.plu, .arb, .freeCtr] s t) ∧
      (pairState s ≠ 1 → exec (.checkpointPageReceive i) s = .next s)) ∧
    (∀ c : CkptClose,
      let l := arrived s c.seq
      let whole := l.length = c.items ∧ (c.full = true ∨ s.plu.store ≠ none)
      let kept := (match s.plu.store with | some x => x.items | none => []).filter (fun i =>
        !c.full && (match i with | .page _ _ => true | _ => false) && !l.any (sameItem i))
      let k : Ckpt := ⟨c.seq, c.tick, c.full, kept ++ l⟩;
      (pairState s ≠ 1 → exec (.checkpointClose c) s = .next s) ∧
      (pairState s = 1 → ¬ whole → exec (.checkpointClose c) s = .next { s with plu := { s.plu with coming := [] } }) ∧
      (pairState s = 1 → whole → s.plu.handTick ≠ some (c.tick + 1) → ∃ t, exec (.checkpointClose c) s = .next t ∧
        t.plu = { s.plu with store := some k, coming := [] } ∧ rd t Reg.pluCkptSeq = W c.seq ∧ rb t Reg.pluStatus 13 = true ∧
        ((∃ i ∈ k.items, admits s i = false) → rb t Reg.pluIrq 8 = true) ∧ KeepsBut [.regs, .plu, .arb, .recorder, .out] s t) ∧
      (pairState s = 1 → whole → s.plu.handTick = some (c.tick + 1) → ∃ t, exec (.checkpointClose c) s = .next t ∧
        t.plu.store = some k ∧ rb t Reg.pluStatus 13 = true ∧ rb t Reg.pluStatus 16 = true ∧
        t.plu.finalIn = !(decide (c.tick + 1 < s.time.tick) ||
          (decide (c.tick + 1 = s.time.tick) && decide (s.time.edge + deadlineAt s < t.now))) ∧
        (∀ a, (∀ n d, CkptItem.page n d ∈ k.items → n.val ≠ a / 4096) → smPeek t a = smPeek s a) ∧
        KeepsBut [.regs, .now, .op, .cmt, .plu, .arb, .recorder, .mem, .out, .freeCtr] s t)) ∧
    (let u := settleAll s;
      (u.plu.sending = none → exec .checkpointSent s = .next u) ∧
      (∀ c, u.plu.sending = some c → u.plu.outSent < ckptBursts c → exec .checkpointSent s = .next u) ∧
      (∀ c, u.plu.sending = some c → ckptBursts c ≤ u.plu.outSent →
        let swap := u.plu.swapWanted = true ∧ pairState u = 0 ∧ gateOpen u = true
        let lastOut : Out := .closing ⟨c.seq, c.tick, c.full, c.items.length⟩;
        (¬ swap → ∃ t, exec .checkpointSent s = .next t ∧ t.plu = { u.plu with sending := none } ∧ t.out = lastOut :: u.out ∧
          rd t Reg.pluCkptSeq = W c.seq ∧ KeepsBut [.regs, .plu, .out] u t) ∧
        (swap → ∃ t h, exec .checkpointSent s = .next t ∧ t.plu.sending = none ∧ t.plu.yieldTick = some h ∧ u.time.tick + 4 ≤ h ∧
          lastOut ∈ t.out ∧ rd t Reg.pluCkptSeq = W c.seq ∧ KeepsBut [.regs, .port, .sw, .plu, .arb, .out, .freeCtr] u t))) ∧
    (∀ c, s.plu.take = .restoring → s.plu.store = some c → ∃ t, exec .restoreComplete s = .next t ∧
      t.plu.openAt = some (s.time.tick + 3) ∧ t.plu.take = .none ∧
      (∀ a, (∀ n d, CkptItem.page n d ∈ c.items → n.val ≠ a / 4096) → smPeek t a = smPeek s a) ∧
      KeepsBut [.regs, .now, .op, .cmt, .ten, .plu, .arb, .recorder, .mem, .out, .freeCtr] s t) ∧
    ((s.plu.take ≠ .restoring ∨ s.plu.store = none) → exec .restoreComplete s = .next s) ∧
    (pairState s = 0 → gateOpen s = true → rb s Reg.pluCfg 2 = true → rf s Reg.pluSwap 13 0 ≠ 0 → swapping s = false →
      s.plu.swapBase + rf s Reg.pluSwap 13 0 * 3600 * second ≤ s.op →
      (s.plu.sending = none → yields .plannedSwapDue) ∧ (s.plu.sending ≠ none → waits .plannedSwapDue)) ∧
    ((pairState s ≠ 0 ∨ gateOpen s = false ∨ swapping s = true ∨ rb s Reg.pluCfg 2 = false ∨ rf s Reg.pluSwap 13 0 = 0 ∨ s.op < s.plu.swapBase + rf s Reg.pluSwap 13 0 * 3600 * second) → exec .plannedSwapDue s = .next s) ∧
    (hcSt s ≠ 3 → pairState s = 0 → gateOpen s = true → swapping s = false →
      (rb s Reg.pluStatus 13 = true → (s.plu.sending = none → yields .pairSwap) ∧ (s.plu.sending ≠ none → waits .pairSwap)) ∧
      (rb s Reg.pluStatus 13 = false → answers .pairSwap 3)) ∧
    (hcSt s ≠ 3 → (pairState s ≠ 0 ∨ gateOpen s = false ∨ swapping s = true) → answers .pairSwap 1) ∧
    (hcSt s ≠ 3 → ∃ t, exec .pairFence s = .next t ∧ rd t Reg.pluCmdRes = 0 ∧ pairState t = 3 ∧ (pairState s ≠ 3 → gateOpen t = false) ∧
      KeepsBut [.regs, .ten, .plu, .arb, .recorder, .fio, .out] s t) ∧
    (hcSt s ≠ 3 → pairState s = 3 → ∃ t, exec (.pairUnfence tm) s = .next t ∧ rd t Reg.pluCmdRes = 0 ∧ pairState t = 1 ∧ t.plu.heard = o ∧
      rb t Reg.pluStatus 5 = false ∧ KeepsBut [.regs, .now, .op, .plu, .arb, .recorder, .out] s t) ∧
    (hcSt s ≠ 3 → pairState s ≠ 3 → answersAt (.pairUnfence tm) 1) ∧
    (hcSt s ≠ 3 → failing s = true → answersAt (.solo tm) 1) ∧
    (hcSt s ≠ 3 → failing s = false → pairState s = 0 → peerQuiet s = true → ∃ t, exec (.solo tm) s = .next t ∧ rd t Reg.pluCmdRes = 0 ∧ pairState t = 2 ∧
      gateOpen t = gateOpen s ∧ rb t Reg.pluStatus 4 = false ∧ KeepsBut [.regs, .now, .op, .arb, .recorder, .out] s t) ∧
    (hcSt s ≠ 3 → failing s = false → pairState s = 1 → s.plu.take = .none → peerQuiet s = true → ∃ t, exec (.solo tm) s = .next t ∧ rd t Reg.pluCmdRes = 0 ∧
      t.plu.take = .quietWait ∧ t.plu.takeTo = 2 ∧ rd t Reg.pluEpoch = W (max (epoch s) (rd s Reg.pluPeerEpoch).toNat + 1) ∧
      KeepsBut [.regs, .now, .op, .ten, .plu, .arb, .recorder, .out] s t) ∧
    (hcSt s ≠ 3 → failing s = false → (pairState s = 0 ∨ pairState s = 1 ∧ s.plu.take = .none) → peerQuiet s = false → answersAt (.solo tm) 2) ∧
    (hcSt s ≠ 3 → failing s = false → (2 ≤ pairState s ∨ pairState s = 1 ∧ s.plu.take ≠ .none) → answersAt (.solo tm) 1) ∧
    (hcSt s ≠ 3 → pairState s = 2 → ∃ t, exec .leaveSolo s = .next t ∧ rd t Reg.pluCmdRes = 0 ∧ pairState t = 0 ∧
      KeepsBut [.regs, .arb, .recorder, .out] s t) ∧
    (hcSt s ≠ 3 → pairState s ≠ 2 → answers .leaveSolo 1) ∧
    (∀ v : Word, hcSt s ≠ 3 →
      (pairState s = 3 → epoch s < v.toNat → ∃ t, exec (.pluEpochWrite v) s = .next t ∧ rd t Reg.pluEpoch = v ∧
        (getPan t Reg.pluEpoch).wear = (getPan s Reg.pluEpoch).wear + 1 ∧ KeepsBut [.regs, .arb, .recorder, .out] s t) ∧
      ((pairState s ≠ 3 ∨ v.toNat ≤ epoch s) → exec (.pluEpochWrite v) s = .next s) ∧
      ((∀ b, b < 32 → bitOf (rd s Reg.pluTClass1) b = bitOf v b ∨ tState s (Fin.ofNat 64 (32 + b)) ≤ 1) →
        ∃ t, exec (.pluTClassWrite 1 v) s = .next t ∧ rd t Reg.pluTClass1 = v ∧ KeepsBut [.regs, .arb, .recorder, .out] s t) ∧
      ((∃ b, b < 32 ∧ bitOf (rd s Reg.pluTClass1) b ≠ bitOf v b ∧ 1 < tState s (Fin.ofNat 64 (32 + b))) →
        exec (.pluTClassWrite 1 v) s = .next s) ∧
      ((∀ b, 0 < b → b < 32 → bitOf (rd s Reg.pluTClass0) b = bitOf v b ∨ tState s (Fin.ofNat 64 b) ≤ 1) →
        tState s 0 ≤ 1 → ∃ t, exec (.pluTClassWrite 0 v) s = .next t ∧ rd t Reg.pluTClass0 = v &&& 0xFFFFFFFE ∧
          KeepsBut [.regs, .arb, .recorder, .out] s t) ∧
      (8 ≤ fld v 9 0 ∧ fld v 9 0 ≤ 500 ∧ 5 ≤ fld v 23 16 ∧ fld v 23 16 ≤ 200 → ∃ t, exec (.pluLeaseWrite v) s = .next t ∧
        rd t Reg.pluLease = v &&& 0xFF03FF ∧ t.plu = { s.plu with leaseOld := some (leaseWord s) } ∧
        KeepsBut [.regs, .plu, .arb, .recorder, .out] s t) ∧
      ((fld v 9 0 < 8 ∨ 500 < fld v 9 0 ∨ fld v 23 16 < 5 ∨ 200 < fld v 23 16) → exec (.pluLeaseWrite v) s = .next s))

/-- R247, R248, R251, R252, R256, R258: link, resets, mailboxes. Completes `pcieLinkChange`, `pfFlr`, `numvfsChange`, `vfFlr`,
`dbMbSend`, `mbxAck`, `mbxSend`, `dbMbAck`, `commandAbandon`. -/
def Obligations.LinkResetsAndMailboxes : Prop :=
  ∀ (s : State) (f : Fin 64),
    let fresh (t : State) : Prop := ∀ g : Fin 64, g ≠ 0 → vfGen t g = (vfGen s g + 1) % 256
    let header (off n : Nat) : Prop := fld (rd s off) 9 0 = n ∧ 4 ≤ n ∧ n ≤ 512 ∧ n % 4 = 0
    let bad (off : Nat) : Prop := fld (rd s off) 9 0 < 4 ∨ 512 < fld (rd s off) 9 0 ∨ fld (rd s off) 9 0 % 4 ≠ 0
    (∀ (r : Fin 16) (w : Fin 32), ∀ e ∈ [LinkEvent.up r w, .retrain r w], ∃ t, exec (.pcieLinkChange e) s = .next t ∧
      rf t Reg.hifStatus 3 0 = r ∧ rf t Reg.hifStatus 8 4 = w ∧ rb t Reg.hifStatus 9 = true ∧ rb t Reg.hifIrq 7 = true ∧
      vfGen t f = vfGen s f ∧ KeepsBut [.regs, .out] s t) ∧
    (∃ t, exec (.pcieLinkChange .lost) s = .next t ∧ rb t Reg.hifStatus 9 = false ∧ rb t Reg.hifIrq 7 = true ∧ fresh t ∧
      KeepsBut [.regs, .out] s t) ∧
    (∃ t, exec (.pcieLinkChange .hotReset) s = .next t ∧ rb t Reg.hifIrq 7 = true ∧ fresh t ∧ KeepsBut [.regs, .out] s t) ∧
    (∃ t, exec .pfFlr s = .next t ∧ fresh t ∧ t.hif = { s.hif with session := none } ∧
      (s.hif.session ≠ none → rf t Reg.hifGrStat 5 2 = 6) ∧ t.rec'.freezeAt = Tab.del s.rec'.freezeAt 0 ∧ rb t Reg.logFreeze 0 = false ∧
      KeepsBut [.regs, .arb, .recorder, .hif] s t) ∧
    (∀ n : Fin 64, (rf s Reg.hifStatus 15 10 = n → exec (.numvfsChange n) s = .next s) ∧
      (rf s Reg.hifStatus 15 10 ≠ n → ∃ t, exec (.numvfsChange n) s = .next t ∧ rf t Reg.hifStatus 15 10 = n ∧ fresh t ∧
        KeepsBut [.regs] s t)) ∧
    (vfExists s f = true → ∃ t, exec (.vfFlr f) s = .next t ∧ vfGen t f = (vfGen s f + 1) % 256 ∧
      (∀ g, g ≠ f → vfGen t g = vfGen s g) ∧
      (∀ x, 0 < x → x < 0x40000 → Reg.vfId f + x ≠ Reg.vfState f → rd t (Reg.vfId f + x) = resetWord (Reg.vfId f + x)) ∧
      (∀ i, i < 128 → rd t (Reg.hifMbxOut f i) = 0 ∧ rd t (Reg.hifMbxIn f i) = 0) ∧ rb t (Reg.hifMbxInfo f) 24 = false ∧
      rb t (Reg.hifMbxInfo f) 25 = false ∧ (∀ q, getQ t f q = { Queue.reset with cmds := (getQ s f q).cmds }) ∧
      rb t (Reg.hifVfFlr (f / 32)) (f % 32) = true ∧ rb t Reg.hifIrq 2 = true ∧ KeepsBut [.regs, .arb, .recorder, .hif, .out] s t) ∧
    (vfExists s f = false → exec (.vfFlr f) s = .next s ∧ exec (.dbMbSend f) s = .next s ∧ exec (.dbMbAck f) s = .next s) ∧
    (hcSt s ≠ 3 → vfExists s f = true → rb s (Reg.vfMbStat f) 0 = false → ∀ n, header (Reg.hifMbxOut f 0) n → ∃ t, exec (.dbMbSend f) s = .next t ∧
      rb t (Reg.vfMbStat f) 0 = true ∧ rb t (Reg.vfMbStat f) 2 = false ∧ rf t (Reg.hifMbxInfo f) 9 0 = n ∧
      rf t (Reg.hifMbxInfo f) 17 10 = vfGen s f ∧ rf t (Reg.hifMbxInfo f) 23 18 = f ∧ rb t (Reg.hifMbxInfo f) 24 = true ∧
      rb t (Reg.hifMbPend (f / 32)) (f % 32) = true ∧ rb t Reg.hifIrq 0 = true ∧ KeepsBut [.regs, .out] s t) ∧
    (hcSt s ≠ 3 → vfExists s f = true → (rb s (Reg.vfMbStat f) 0 = true ∨ bad (Reg.hifMbxOut f 0)) →
      exec (.dbMbSend f) s = .next (wb s (Reg.vfMbStat f) 2 true)) ∧
    (hcSt s ≠ 3 → f ≠ 0 → rb s (Reg.hifMbxInfo f) 24 = true → ∃ t, exec (.mbxAck f) s = .next t ∧ rb t (Reg.vfMbStat f) 0 = false ∧
      rb t (Reg.hifMbxInfo f) 24 = false ∧ (rf s (Reg.hifMbxInfo f) 17 10 = vfGen s f → rb t (Reg.vfIrq f) 1 = true) ∧
      (rf s (Reg.hifMbxInfo f) 17 10 ≠ vfGen s f → rd t (Reg.hifVStale f) = rd s (Reg.hifVStale f) + 1 ∧ rb t Reg.hifIrq 8 = true ∧
        rd t (Reg.vfIrq f) = rd s (Reg.vfIrq f)) ∧ KeepsBut [.regs, .out] s t) ∧
    (rb s (Reg.hifMbxInfo f) 24 = false → exec (.mbxAck f) s = .next s) ∧
    (hcSt s ≠ 3 → f ≠ 0 → rb s (Reg.hifMbxInfo f) 25 = false → ∀ n, header (Reg.hifMbxIn f 0) n → ∃ t, exec (.mbxSend f) s = .next t ∧
      rb t (Reg.vfMbStat f) 1 = true ∧ rb t (Reg.hifMbxInfo f) 25 = true ∧ rb t (Reg.hifMbxInfo f) 26 = false ∧
      rb t (Reg.vfIrq f) 0 = true ∧ KeepsBut [.regs, .out] s t) ∧
    (hcSt s ≠ 3 → f ≠ 0 → (rb s (Reg.hifMbxInfo f) 25 = true ∨ bad (Reg.hifMbxIn f 0)) →
      exec (.mbxSend f) s = .next (wb s (Reg.hifMbxInfo f) 26 true)) ∧
    (rb s (Reg.hifMbxInfo f) 25 = false → exec (.dbMbAck f) s = .next s) ∧
    (hcSt s ≠ 3 → vfExists s f = true → rb s (Reg.hifMbxInfo f) 25 = true → ∃ t, exec (.dbMbAck f) s = .next t ∧ rb t (Reg.vfMbStat f) 1 = false ∧
      rb t (Reg.hifMbxInfo f) 25 = false ∧ rb t (Reg.hifMbAckd (f / 32)) (f % 32) = true ∧ rb t Reg.hifIrq 1 = true ∧
      KeepsBut [.regs, .out] s t) ∧
    (∀ q, ∃ t, exec (.commandAbandon f q) s = .next t ∧ (getQ t f q).cmds = (getQ s f q).cmds.filter (fun c => c.gen == vfGen s f) ∧
      (∀ k, k ≠ q → getQ t f k = getQ s f k) ∧
      ((∃ c ∈ (getQ s f q).cmds, c.gen ≠ vfGen s f ∧ (c.e.opcode = 1 ∨ c.e.opcode = 2)) → t.hif.staging = Tab.del s.hif.staging f) ∧
      ((∀ c ∈ (getQ s f q).cmds, c.gen ≠ vfGen s f → c.status ≠ none ∨ c.running = false) → rd t (Reg.hifVStale f) =
        rd s (Reg.hifVStale f) + W ((getQ s f q).cmds.filter (fun c => c.gen != vfGen s f && c.status.isSome)).length) ∧
      KeepsBut [.regs, .hif, .out, .freeCtr] s t)

/-- R130, R253 to R255, R258, R259, R262, R265, R266: queue pairs and their commands. Completes `queueEnable`, `dbSqTail`, `dbCqHead`,
`nop`, `imgPut`, `imgLoad`, `ciRead`, `ciReadAttempt`, `queueCompletion`. -/
def Obligations.QueuesAndImages : Prop :=
  ∀ (s : State) (f : Fin 64) (q : Fin 16),
    let old := (getQ s f q).cmds.filter (fun c => c.gen != vfGen s f)
    let fetched (e : SqEntry) : QCmd := ⟨e, vfGen s f, none, 0, 0, 0, false⟩
    let read : List Part := [.regs, .now, .op, .cmt, .plu, .arb, .hif, .out, .freeCtr]
    let inTurn (l : List QCmd) : List QCmd := settle (vfGen s f) l
    let stops (c : Instr) (r : Nat) : Prop := exec c s = .next (wr s (qStat f q) (W (2 + 256 * r)))
    let ends (c : Instr) (pre : List QCmd) (x : QCmd) (post : List QCmd) (r : Nat) (t : State) : Prop :=
      exec c s = .next t ∧ (getQ t f q).cmds = inTurn (pre ++ { x with status := some r } :: post)
    (∀ pre c post, RunsNext s f q pre c post →
      (3 < c.e.opcode → inTurn (pre ++ c :: post) = pre ++ { c with status := some 1 } :: inTurn post) ∧
      (c.e.opcode ≤ 3 → inTurn (pre ++ c :: post) = pre ++ c :: post)) ∧
    (hcSt s ≠ 3 → fnExists s f = true → rb s (qCtrl f q) 0 = false → ∀ v : Word, bitOf v 0 = true → ∃ t, exec (.queueEnable f q v) s = .next t ∧
      rb t (qCtrl f q) 0 = true ∧ getQ t f q = { Queue.reset with cmds := old } ∧
      rd t (qStat f q) = (if qSizesOk s f q then 1 else 258) ∧ KeepsBut [.regs, .hif] s t) ∧
    (hcSt s ≠ 3 → fnExists s f = true → rb s (qCtrl f q) 0 = true → ∀ v : Word, bitOf v 0 = false → ∃ t, exec (.queueEnable f q v) s = .next t ∧
      rb t (qCtrl f q) 0 = false ∧ getQ t f q = { Queue.reset with cmds := old } ∧ rd t (qStat f q) = 0 ∧
      KeepsBut [.regs, .hif] s t) ∧
    ((fnExists s f = false ∨ qRunning s f q = false) → ∀ n es,
      exec (.dbSqTail f q n es) s = .next s ∧ exec (.dbCqHead f q n) s = .next s) ∧
    (hcSt s ≠ 3 → fnExists s f = true → qRunning s f q = true →
      (∀ tail es, tail < sqSize s f q → es.length = (tail + sqSize s f q - (getQ s f q).sqTail) % sqSize s f q → cqFull s f q = false →
        ∃ t, exec (.dbSqTail f q tail es) s = .next t ∧ (getQ t f q).sqTail = tail ∧ (getQ t f q).todo = [] ∧
          (getQ t f q).cmds = inTurn ((getQ s f q).cmds ++ ((getQ s f q).todo ++ es).map fetched) ∧ KeepsBut [.hif] s t) ∧
      (∀ tail es, sqSize s f q ≤ tail → stops (.dbSqTail f q tail es) 1) ∧
      (∀ tail es, tail < sqSize s f q → es.length < (tail + sqSize s f q - (getQ s f q).sqTail) % sqSize s f q →
        ∃ t, exec (.dbSqTail f q tail es) s = .next t ∧ rd t (qStat f q) = W (2 + 256 * 9) ∧ KeepsBut [.regs, .hif] s t) ∧
      (∀ head, head < cqSize s f q → ∃ t, exec (.dbCqHead f q head) s = .next t ∧ (getQ t f q).cqHead = head ∧ KeepsBut [.hif] s t) ∧
      (∀ head, cqSize s f q ≤ head → stops (.dbCqHead f q head) 1)) ∧
    (∀ pre c post, RunsNext s f q pre c post →
      let ten' : Fin 64 := imgTenant f c
      (c.e.opcode = 0 → ∃ t, ends (.nop f q) pre c post 0 t ∧ KeepsBut [.hif] s t) ∧
      (c.e.opcode ≠ 0 → exec (.nop f q) s = .next s) ∧
      (c.e.opcode = 1 → ∀ data err,
        let len := c.e.len;
        (4096 ≤ len → len ≤ 0x100000 → len % 4096 = 0 → c.e.off % 4096 = 0 → c.e.off + len ≤ 0x800000 → ten' ≠ 0 → c.e.target ≤ 63 →
          (tState s ten' ≤ 1 → err = false → data.length = len → ∃ t, ends (.imgPut f q data err) pre c post 0 t ∧
            (∀ i, i < len → peek (Tab.get [] t.hif.staging ten') (c.e.off + i) = data.getD i 0) ∧
            (∀ a, (a < c.e.off ∨ c.e.off + len ≤ a) →
              peek (Tab.get [] t.hif.staging ten') a = peek (Tab.get [] s.hif.staging ten') a) ∧ KeepsBut [.hif] s t) ∧
          (1 < tState s ten' → ∃ t, ends (.imgPut f q data err) pre c post 2 t ∧ t.hif.staging = s.hif.staging ∧ KeepsBut [.hif] s t) ∧
          (tState s ten' ≤ 1 → (err = true ∨ data.length ≠ len) → ∃ t, ends (.imgPut f q data err) pre c post 9 t ∧
            t.hif.staging = s.hif.staging ∧ KeepsBut [.hif] s t)) ∧
        ((len < 4096 ∨ 0x100000 < len ∨ len % 4096 ≠ 0 ∨ c.e.off % 4096 ≠ 0 ∨ 0x800000 < c.e.off + len) →
          ∃ t, ends (.imgPut f q data err) pre c post 1 t ∧ t.hif.staging = s.hif.staging ∧ KeepsBut [.hif] s t)) ∧
      (c.e.opcode = 2 → ten' ≠ 0 → c.e.target ≤ 63 → ∀ x : ImageLoad,
        (1 < tState s ten' → ∃ t, ends (.imgLoad f q x) pre c post 2 t ∧ KeepsBut [.hif] s t) ∧
        (tState s ten' ≤ 1 → x.parses = false → ∃ t, ends (.imgLoad f q x) pre c post 5 t ∧ KeepsBut [.hif] s t) ∧
        (tState s ten' ≤ 1 → x.parses = true → peeks (Tab.get [] s.hif.staging ten') 0 c.e.len = x.bytes ++ x.sig →
          (imageStatus s f ten' x c.e.len = 0 → ∃ t, ends (.imgLoad f q x) pre c post 0 t ∧ (getTen t ten').image = some x.img ∧
            (getTen t ten').sig = x.sig.take 8 ∧ tState t ten' = 1 ∧ rd t (Reg.cmtTResv ten') = W x.img.reservation ∧
            rb t Reg.hifStatus 16 = true ∧ KeepsBut [.regs, .core, .ten, .arb, .plu, .recorder, .hif, .out, .freeCtr] s t) ∧
          (imageStatus s f ten' x c.e.len ≠ 0 → ∃ t, ends (.imgLoad f q x) pre c post (imageStatus s f ten' x c.e.len) t ∧
            KeepsBut [.hif] s t) ∧
          ((∃ k ∈ x.img.cores, windowCycles s < k.watchdog) → imageStatus s f ten' x c.e.len = 5) ∧
          (imageOk x.img c.e.len = true → (∀ k ∈ x.img.cores, k.watchdog ≤ windowCycles s) →
            (∀ e ∈ s.ks.owner, e.1 ≠ b2n x.img.manager) → imageStatus s f ten' x c.e.len = 4))) ∧
      (c.e.opcode = 3 →
        let ok' : Prop := 64 ≤ c.e.len ∧ c.e.len ≤ 65536 ∧ c.e.len % 64 = 0 ∧ c.e.off % 64 = 0;
        (ok' → linesReadable s f c.e.off c.e.len = true → ∃ t, exec (.ciRead f q) s = .next t ∧
          (getQ t f q).cmds = pre ++ { c with running := true } :: post ∧ KeepsBut [.hif] s t) ∧
        (ok' → linesReadable s f c.e.off c.e.len = false → ∃ t, ends (.ciRead f q) pre c post 3 t ∧
          (f ≠ 0 → rd t (Reg.vfViol f) = rd s (Reg.vfViol f) + 1) ∧ KeepsBut [.regs, .arb, .recorder, .hif, .out] s t) ∧
        (¬ ok' → ∃ t, ends (.ciRead f q) pre c post 1 t ∧ KeepsBut [.hif] s t))) ∧
    (∀ pre c post, (getQ s f q).cmds = pre ++ c :: post → (∀ x ∈ pre, ¬ (x.running = true ∧ x.status = none)) → c.running = true →
      c.status = none →
      (c.gen = vfGen s f → linesReadable s f c.e.off c.e.len = false → ∀ iv, ∃ t, exec (.ciReadAttempt f q iv) s = .next t ∧
        (getQ t f q).cmds = inTurn (pre ++ { c with status := some 3 } :: post) ∧
        (f ≠ 0 → rd t (Reg.vfViol f) = rd s (Reg.vfViol f) + 1) ∧ KeepsBut [.regs, .arb, .recorder, .hif, .out] s t) ∧
      (c.gen = vfGen s f → linesReadable s f c.e.off c.e.len = true →
        (∃ t, exec (.ciReadAttempt f q false) s = .next t ∧ t.out.head? = some (.dma f c.e.host (smRead s c.e.off c.e.len)) ∧
          (getQ t f q).cmds = inTurn (pre ++ { c with
            status := some 0
            tick := fld (rd s Reg.cmtLastHi) 15 0 * 2 ^ 32 + (rd s Reg.cmtLastLo).toNat
            stepcnt := fld (rd s Reg.cmtLastHi) 31 16 } :: post) ∧ KeepsBut read s t) ∧
        (∃ t, exec (.ciReadAttempt f q true) s = .next t ∧ (getQ t f q).cmds = inTurn (pre ++
            { c with attempts := c.attempts + 1, status := if 3 ≤ c.attempts then some 6 else none } :: post) ∧
          KeepsBut read s t)) ∧
      (c.gen ≠ vfGen s f → ∀ iv, ∃ t n, exec (.ciReadAttempt f q iv) s = .next t ∧ n ≤ c.e.len / 128 ∧
        rd t (Reg.hifVStale f) = rd s (Reg.hifVStale f) + W n ∧ (getQ t f q).cmds = inTurn (pre ++ { c with status := some 0 } :: post) ∧
        KeepsBut [.regs, .hif, .out, .freeCtr] s t)) ∧
    (∀ pre c post r, (getQ s f q).cmds = pre ++ c :: post → (∀ x ∈ pre, x.status = none) → c.status = some r →
      (c.gen = vfGen s f → rb s (qCtrl f q) 0 = true → cqFull s f q = false → ∃ t base, exec (.queueCompletion f q) s = .next t ∧
        base = (rd s (qReg f q + 0xC)).toNat * 2 ^ 32 + (rd s (qReg f q + 8)).toNat / 4096 * 4096 ∧
        (getQ t f q).cmds = pre ++ post ∧ (getQ t f q).cqTail = ((getQ s f q).cqTail + 1) % cqSize s f q ∧
        t.out = .msix f (if f = 0 then 32 + q else 16 + q) ::
          .dma f (base + 16 * (getQ s f q).cqTail) (cqEntry c r (getQ s f q).sqHead (getQ s f q).phase) :: s.out ∧
        KeepsBut [.hif, .out] s t) ∧
      (c.gen = vfGen s f → (rb s (qCtrl f q) 0 = false ∨ cqFull s f q = true) → exec (.queueCompletion f q) s = .next s) ∧
      (c.gen ≠ vfGen s f → ∃ t, exec (.queueCompletion f q) s = .next t ∧ (getQ t f q).cmds = pre ++ post ∧
        rd t (Reg.hifVStale f) = rd s (Reg.hifVStale f) + 1 ∧ KeepsBut [.regs, .hif, .out] s t))

/-- R258, R260, R261, R264, R266: grants, ownership, unload, configuration record. Completes `grantOpen`, `grantCommit`,
`grantDiscard`, `ownershipWrite`, `unload`, `configRecordWritten`. -/
def Obligations.GrantsOwnershipAndUnload : Prop :=
  ∀ s : State,
    let up := hcSt s ≠ 3
    (∀ v : Word,
      let kind := fld v 1 0
      let obj := fld v 13 2
      let none' : Prop := 1 < kind ∨ (kind = 0 ∧ 512 ≤ obj) ∨ (kind = 1 ∧ 2048 ≤ obj);
      (bitOf v 31 = false → exec (.grantOpen v) s = .next s) ∧
      (up → bitOf v 31 = true → s.hif.session ≠ none → exec (.grantOpen v) s = .next (wf s Reg.hifGrStat 5 2 1)) ∧
      (up → bitOf v 31 = true → s.hif.session = none → none' → exec (.grantOpen v) s = .next (wr s Reg.hifGrStat (W (8 + 64 * obj)))) ∧
      (up → bitOf v 31 = true → s.hif.session = none → ¬ none' → exec (.grantOpen v) s =
        .next (wr { s with hif := { s.hif with session := some ⟨kind, obj, fld v 21 16, [], []⟩ } } Reg.hifGrStat (W (1 + 64 * obj))))) ∧
    (s.hif.session = none → exec .grantCommit s = .next s ∧ exec .grantDiscard s = .next s) ∧
    (∀ x, up → s.hif.session = some x →
      let entry := getMatch (afterSession s x) (sessionIdx x)
      let warp := x.kind = 0 ∧ x.obj < 512;
      (grantReason s x = 0 → ∃ t, exec .grantCommit s = .next t ∧
        t.hif = { s.hif with session := none, granted := s.hif.granted ++ [x] } ∧ rd t Reg.hifGrStat = W (2 + 64 * x.obj) ∧
        rb t Reg.hifIrq 5 = true ∧ rb t Reg.hifStatus 16 = true ∧ (warp → rb t (Reg.loomWState x.obj) 4 = false) ∧
        KeepsBut [.regs, .hif, .out] s t) ∧
      (grantReason s x ≠ 0 → ∃ t, exec .grantCommit s = .next t ∧ t.hif = { s.hif with session := none } ∧
        rf t Reg.hifGrStat 5 2 = grantReason s x ∧ (3 ∈ grantFaults s x → rb t Reg.loomIrq 4 = true) ∧
        (warp → (3 ∈ grantFaults s x ∨ 7 ∈ grantFaults s x) → rb t (Reg.loomWState x.obj) 4 = true) ∧
        KeepsBut [.regs, .hif, .out] s t) ∧
      ((grantFaults s x = [] → grantReason s x = 0) ∧ ∀ r ∈ grantFaults s x, grantReason s x ∈ grantFaults s x ∧ grantReason s x ≤ r) ∧
      (x.tenant ≠ 0 → (entry.valid = false ∨ entry.id = [] ∨ 65 < entry.id.length) → grantReason s x = 2) ∧
      (x.tenant = 0 → x.kind = 1 → x.entries = [] → grantReason s x = 0) ∧
      (∃ t, exec .grantDiscard s = .next t ∧ t.hif = { s.hif with session := none } ∧ rf t Reg.hifGrStat 5 2 = 0 ∧
        KeepsBut [.regs, .hif] s t)) ∧
    (∀ (tab : OwnTable) (i : Fin 256) (v : Word),
      let v' := v &&& 0x3F3F3F3F
      let was (j : Nat) := fld (rd s (ownReg tab i)) (8 * j + 5) (8 * j)
      let will (j : Nat) := fld v' (8 * j + 5) (8 * j)
      let free (n : Nat) : Bool := ownerFree s n (tab == .core);
      (ownWords tab ≤ i.val → exec (.ownershipWrite tab i v) s = .next s) ∧
      (up → i.val < ownWords tab → (∀ j, j < 4 → was j = will j ∨ (free (was j) = true ∧ free (will j) = true)) →
        ∃ t, exec (.ownershipWrite tab i v) s = .next t ∧
          t.cmt = { s.cmt with waiting := s.cmt.waiting ++ [(ownReg tab i, v')] } ∧ rb t Reg.hifStatus 16 = true ∧
          KeepsBut [.regs, .cmt] s t) ∧
      (up → i.val < ownWords tab → (∃ j, j < 4 ∧ was j ≠ will j ∧ (free (was j) = false ∨ free (will j) = false)) →
        ∃ t, exec (.ownershipWrite tab i v) s = .next t ∧ rb t Reg.hifIrq 6 = true ∧ rd t (ownReg tab i) = rd s (ownReg tab i) ∧
          KeepsBut [.regs, .out] s t)) ∧
    (∀ f : Fin 64, up →
      ((f = 0 ∨ tState s f = 0) → exec (.unload f) s = .next (wr s Reg.hifTRes 2)) ∧
      (f ≠ 0 → 1 < tState s f → exec (.unload f) s = .next (wr s Reg.hifTRes 1)) ∧
      (f ≠ 0 → tState s f = 1 → ∃ t, exec (.unload f) s = .next t ∧ rd t Reg.hifTRes = 0 ∧ tState t f = 0 ∧
        (getTen t f).image = none ∧ vfGen t f = (vfGen s f + 1) % 256 ∧ rb t (Reg.vfIrq f) 5 = true ∧ rd t (Reg.cmtTResv f) = 0 ∧
        (∀ l, coreOwner t l ≠ f.val) ∧ (∀ i, i < 1024 → ownByte t Reg.hifOwnGpub i ≠ f.val ∧ ownByte t Reg.ksOwn i ≠ f.val) ∧
        (∀ j, j < 8 → rd t (Reg.smaPtSize f j) = 0) ∧ (∀ e ∈ t.cmt.waiting, e.1 ≠ Reg.fioBiGrant f) ∧ KeepsBut [.regs, .ten, .cmt, .arb, .recorder, .hif, .tru, .clu, .fio, .out] s t)) ∧
    (rb s Reg.hifStatus 16 = false → exec .configRecordWritten s = .next s) ∧
    (rb s Reg.hifStatus 16 = true → ∃ t r, exec .configRecordWritten s = .next t ∧ t.hc = { s.hc with config := some r } ∧
      r.vlan = s.sw.vlan ∧ r.bind = s.ks.bind ∧ r.part = s.cmt.partNext ∧
      (s.hif.granted = [] → r.matchTab = s.sw.matchTab ∧ r.subs = s.hif.subOwner) ∧
      (∀ f : Fin 64, (tState s f = 3 ∨ tState s f = 4) → (f.val, tState s f) ∈ r.tenants) ∧ rb t Reg.hifStatus 16 = false ∧
      KeepsBut [.regs, .hc] s t)

/-- R261, R329 to R333: binary inputs (log entry 43: a blocked edge enters once its level has lasted 1 µs; rows of silent windows outside Fault-halt). Completes `biTransition`,
`debounceExpiry`, `chatterRelease`, `fioEdgePop`, `fioBiGrantWrite`, `bcOwnWrite`. -/
def Obligations.BinaryInputCommands : Prop :=
  ∀ (s : State) (i : Fin 32) (tm : Instant),
    let at' := max s.now tm
    let o := s.op + (tm - s.now)
    let x := getIn s i
    let n := rf s (Reg.fioBiCfg i) 10 7
    let win := rf s (Reg.fioBiCfg i) 18 11 * 10 * msec
    let valid := rb s Reg.timeState 6
    let room : Prop := s.fio.edges.length < 1024
    let stable : Prop := x.rawAt + max (rf s (Reg.fioBiCfg i) 6 2 * msec) usec ≤ o
    let quiet : Prop := x.rawAt + rf s (Reg.fioBiCfg i) 26 19 * 100 * msec ≤ o
    let p := enterRaw (toInstant s tm) i
    let due : Prop := x.rawDue = true ∧ x.rawAt + usec ≤ o
    ((¬ due → p = toInstant s tm) ∧
      (due → getIn p i = { x with rawDue := false } ∧ (∀ j, j ≠ i → getIn p j = getIn s j) ∧
        ((biOn s i = false ∨ x.blocked = false) → p.fio.edges = s.fio.edges) ∧
        (biOn s i = true → x.blocked = true →
          (room → p.fio.edges = s.fio.edges ++ [⟨stamp8 x.stamp, i, x.raw, true, valid⟩] ∧ rb p Reg.fioIrq 0 = true) ∧
          (¬ room → p.fio.edges = s.fio.edges ∧ rb p Reg.fioIrq 1 = true ∧ rb p Reg.fioEdgeInfo 31 = true)) ∧
        KeepsBut [.regs, .now, .op, .fio, .out] s p)) ∧
    (∀ level : Bool, ∃ t, exec (.biTransition i level tm) s = .next t ∧ (∀ j, j ≠ i → getIn t j = getIn s j) ∧
      (∀ r st, x.before = some (level, r, st) → o < x.rawAt + usec →
        getIn t i = { x with raw := level, rawAt := r, stamp := st, before := none, rawDue := false } ∧
        t.fio.edges = s.fio.edges ∧ KeepsBut [.now, .op, .fio] s t) ∧
      ((∀ r st, x.before = some (level, r, st) → x.rawAt + usec ≤ o) →
        getIn t i = { x with
          raw := level, rawAt := o, stamp := at', before := some (x.raw, x.rawAt, x.stamp), rawDue := biOn s i && x.blocked } ∧
        t.fio.edges = p.fio.edges ∧ KeepsBut [.fio] p t)) ∧
    (biOn s i = true → x.blocked = false → biLevel s i x.raw ≠ x.acc →
      (stable → ∃ t, exec (.debounceExpiry i tm) s = .next t ∧ (getIn t i).acc = biLevel s i x.raw ∧ (getIn t i).changed = true ∧
        (p.fio.edges.length < 1024 →
          t.fio.edges = p.fio.edges ++ [⟨stamp8 x.stamp, i, biLevel s i x.raw, false, valid⟩] ∧ rb t Reg.fioIrq 0 = true) ∧
        (n = 0 → (getIn t i).blocked = false) ∧
        (0 < n → 0 < win → n ≤ (x.recent.filter (fun r => o < r + win)).length →
          (getIn t i).blocked = true ∧ rb t Reg.fioBiChatter i = true ∧ rb t Reg.fioIrq 2 = true) ∧
        KeepsBut [.regs, .now, .op, .arb, .recorder, .fio, .out] s t) ∧
      (¬ stable → exec (.debounceExpiry i tm) s = .next p)) ∧
    ((biOn s i = false ∨ x.blocked = true ∨ biLevel s i x.raw = x.acc) → exec (.debounceExpiry i tm) s = .next p) ∧
    (x.blocked = true → quiet → ∃ t, exec (.chatterRelease i tm) s = .next t ∧ (getIn t i).blocked = false ∧
      rb t Reg.fioBiChatter i = false ∧ rb t Reg.fioIrq 2 = true ∧ (getIn t i).acc = biLevel s i x.raw ∧
      (biLevel s i x.raw = x.acc → t.fio.edges = p.fio.edges) ∧
      (biLevel s i x.raw ≠ x.acc → p.fio.edges.length < 1024 → t.fio.edges = p.fio.edges ++ [⟨stamp8 x.stamp, i, biLevel s i x.raw, false, valid⟩]) ∧
      KeepsBut [.regs, .now, .op, .arb, .recorder, .fio, .out] s t) ∧
    ((x.blocked = false ∨ ¬ quiet) → exec (.chatterRelease i tm) s = .next p) ∧
    (hcSt s ≠ 3 → s.fio.edges = [] → exec .fioEdgePop s = .next (wb s Reg.fioEdgeInfo 30 false)) ∧
    (∀ e es, hcSt s ≠ 3 → s.fio.edges = e :: es → es.length < 1024 → ∃ t, exec .fioEdgePop s = .next t ∧ t.fio = { s.fio with edges := es } ∧
      rd t Reg.fioEdgeSec = W (secOf e.stamp) ∧ rd t Reg.fioEdgeNs = W (e.stamp % second / nsec) ∧ rf t Reg.fioEdgeInfo 4 0 = e.input ∧
      rb t Reg.fioEdgeInfo 5 = e.level ∧ rb t Reg.fioEdgeInfo 6 = e.blocked ∧ rb t Reg.fioEdgeInfo 7 = e.timeValid ∧
      rb t Reg.fioEdgeInfo 30 = true ∧ rb t Reg.fioEdgeInfo 31 = rb s Reg.fioEdgeInfo 31 ∧ KeepsBut [.regs, .fio] s t) ∧
    (∀ (f : Fin 64) (v : Word), hcSt s ≠ 3 →
      (f ≠ 0 → tState s f ≤ 1 → ∃ t, exec (.fioBiGrantWrite f v) s = .next t ∧
        t.cmt = { s.cmt with waiting := s.cmt.waiting ++ [(Reg.fioBiGrant f, v)] } ∧ rb t Reg.hifStatus 16 = true ∧
        KeepsBut [.regs, .cmt] s t) ∧
      (f ≠ 0 → 1 < tState s f → exec (.fioBiGrantWrite f v) s = .next (raise s Reg.fioIrq 8)) ∧
      exec (.fioBiGrantWrite 0 v) s = .next s) ∧
    (∀ (w : Fin 4) (v : Word), hcSt s ≠ 3 →
      let v' := v &&& 0x3F3F3F3F
      let was (j : Nat) := fld (rd s (Reg.fioBcOwn w)) (8 * j + 5) (8 * j)
      let will (j : Nat) := fld v' (8 * j + 5) (8 * j);
      ((∀ j, j < 4 → was j = will j ∨ (ownerFree s (was j) = true ∧ ownerFree s (will j) = true)) →
        ∃ t, exec (.bcOwnWrite w v) s = .next t ∧
          t.cmt = { s.cmt with waiting := s.cmt.waiting ++ [(Reg.fioBcOwn w, v')] } ∧ rb t Reg.hifStatus 16 = true ∧
          KeepsBut [.regs, .cmt] s t) ∧
      ((∃ j, j < 4 ∧ was j ≠ will j ∧ (ownerFree s (was j) = false ∨ ownerFree s (will j) = false)) →
        exec (.bcOwnWrite w v) s = .next (raise s Reg.fioIrq 8)))

/-- R334 to R338: breaker command channels (log entry 43: the fourth limit with the command gone, the current of an output that has just
turned on, the class from the voltage). Completes `minTripExpiry`, `inhibitTimer`, `currentLimit`, `limitTimeout`, `retryTimeout`,
`clrLatch`, `supplyChange`, `supervisionPulse`, `supervisionPulseEnd`, `lowCurrentTimeout`. -/
def Obligations.BreakerChannelCommands : Prop :=
  ∀ (s : State) (k : Fin 16) (o : BcOut) (tm : Instant),
    let at' := s.op + (tm - s.now)
    let x := getOut s k o
    let trip := getOut s k .trip
    let all : List Part := [.regs, .now, .op, .arb, .recorder, .fio, .out]
    let closeIdle : Prop := (getOut s k .close).st = .off ∧ committed s k .close = false
    let minTrip := rf s (Reg.fioBcCfg k) 10 3 * msec
    let judged (open' : Bool) (t : State) : Prop :=
      (getOut t k o).opens = (if open' then min 3 (x.opens + 1) else 0) ∧ (getOut t k o).goods = (if open' then 0 else min 3 (x.goods + 1)) ∧
      (getOut t k o).st = x.st ∧ (open' = true → 2 ≤ x.opens → rb t (Reg.fioBcStatus k) (9 + oIdx o) = true) ∧
      (open' = true → 2 ≤ x.opens → rb s (Reg.fioBcStatus k) (9 + oIdx o) = false →
        rb t (Reg.fioBcFault k) (3 + oIdx o) = true ∧ rb t Reg.fioIrq 5 = true) ∧
      (open' = false → 2 ≤ x.goods → rb t (Reg.fioBcStatus k) (9 + oIdx o) = false)
    (trip.st = .on → outCmd s k .trip = false → closeIdle →
      (trip.onAt + minTrip ≤ at' → ∃ t, exec (.minTripExpiry k tm) s = .next t ∧ (getOut t k .trip).st = .off ∧
        rb t Reg.fioOutPin (2 * k) = false ∧ rf t (Reg.fioBcOps k) 15 0 = (rf s (Reg.fioBcOps k) 15 0 + 1) % 2 ^ 16 ∧ KeepsBut all s t) ∧
      (at' < trip.onAt + minTrip → ∃ t, exec (.minTripExpiry k tm) s = .next t ∧ getOut t k .trip = trip ∧ KeepsBut all s t)) ∧
    (∀ z, (getCh s k).closeZero = some z →
      (z + 10 * msec ≤ at' → committed s k .close = false → ∃ t, exec (.inhibitTimer k tm) s = .next t ∧ inhibit t k = false ∧
        KeepsBut all s t) ∧
      (at' < z + 10 * msec → exec (.inhibitTimer k tm) s = .next (toInstant s tm))) ∧
    ((getCh s k).closeZero = none → exec (.inhibitTimer k tm) s = .next (toInstant s tm)) ∧
    (∀ ma : Nat, x.st ≠ .on → x.st ≠ .limit → exec (.currentLimit k o ma tm) s = .next (toInstant s tm)) ∧
    (∀ ma : Nat, (x.st = .on ∨ x.st = .limit) → ∃ t, exec (.currentLimit k o ma tm) s = .next t ∧
      rf t (Reg.fioBcStatus k) (16 + 8 * oIdx o + 7) (16 + 8 * oIdx o) = min 255 (ma / 2) ∧
      (getOut t k o).st = (match x.st with
        | .on => if 300 ≤ ma then .limit else .on
        | .limit => if ma < 300 then .on else .limit
        | y => y) ∧ (getOut t k o).attempts = x.attempts ∧
      (getOut t k o).lowAt = (if ma < 5 then some (x.lowAt.getD at') else none) ∧
      (let good : Prop := rb s (Reg.fioBcCfg k) (1 + oIdx o) = true ∧ x.st = .on ∧ 5 ≤ ma;
        (good → (getOut t k o).opens = 0 ∧ (getOut t k o).goods = min 3 (x.goods + 1) ∧
          (2 ≤ x.goods → rb t (Reg.fioBcStatus k) (9 + oIdx o) = false)) ∧
        (¬ good → (getOut t k o).opens = x.opens ∧ (getOut t k o).goods = x.goods)) ∧
      KeepsBut [.regs, .now, .op, .fio] s t) ∧
    (x.st = .limit → at' < x.since + 2 * msec → exec (.limitTimeout k o tm) s = .next (toInstant s tm)) ∧
    (x.st = .limit → x.since + 2 * msec ≤ at' →
      (x.attempts + 1 < 4 → ∃ t, exec (.limitTimeout k o tm) s = .next t ∧
        (getOut t k o).st = (if outCmd s k o then .retry else .off) ∧
        (getOut t k o).attempts = (if outCmd s k o then x.attempts + 1 else 0) ∧ rb t Reg.fioOutPin (2 * k + oIdx o) = false ∧
        KeepsBut all s t) ∧
      (4 ≤ x.attempts + 1 → ∃ t, exec (.limitTimeout k o tm) s = .next t ∧
        (getOut t k o).st = (if outCmd s k o then .latched else .off) ∧
        rb t (Reg.fioBcFault k) (1 + oIdx o) = true ∧ rb t Reg.fioIrq 4 = true ∧ rb t Reg.fioOutPin (2 * k + oIdx o) = false ∧
        KeepsBut all s t)) ∧
    (x.st ≠ .limit → exec (.limitTimeout k o tm) s = .next (toInstant s tm)) ∧
    (x.st = .retry → at' < x.since + 50 * msec → exec (.retryTimeout k o tm) s = .next (toInstant s tm)) ∧
    (x.st = .retry → x.since + 50 * msec ≤ at' → outCmd s k o = true → x.attempts < 4 → ∃ t, exec (.retryTimeout k o tm) s = .next t ∧ (getOut t k o).st = .on ∧
      (getOut t k o).attempts = x.attempts ∧ rb t Reg.fioOutPin (2 * k + oIdx o) = true ∧ KeepsBut [.regs, .now, .op, .fio] s t) ∧
    ((x.st ≠ .retry ∨ outCmd s k o = false ∨ 4 ≤ x.attempts) → exec (.retryTimeout k o tm) s = .next (toInstant s tm)) ∧
    (hcSt s ≠ 3 → trip.st = .latched → closeIdle →
      (outCmd s k .trip = false → ∃ t, exec (.clrLatch k) s = .next t ∧ (getOut t k .trip).st = .off ∧ (getOut t k .trip).attempts = 0 ∧
        KeepsBut [.regs, .arb, .recorder, .fio, .out] s t) ∧
      (outCmd s k .trip = true → supplyGood s k = true → ∃ t, exec (.clrLatch k) s = .next t ∧ (getOut t k .trip).st = .on ∧
        (getOut t k .trip).attempts = 0 ∧ (getOut t k .trip).onAt = s.op ∧ KeepsBut [.regs, .arb, .recorder, .fio, .out] s t)) ∧
    (∀ qv, supplyClass true qv = .reversed ∧ (qv < 72 → supplyClass false qv = .absent) ∧
      (72 ≤ qv → qv ≤ 128 → supplyClass false qv = .good) ∧ (128 < qv → supplyClass false qv = .overLimit)) ∧
    (∀ (g : Fin 4) (was : SupplyClass) (qv : Nat),
      let cls := supplyClass (was == .reversed) qv;
      ∃ t, exec (.supplyChange g was qv) s = .next t ∧
      (∀ c : SupplyClass, rb t Reg.fioStatus (supplyCode c + g) = (c == cls)) ∧
      (rb s Reg.fioStatus (supplyCode cls + g) = false → rb t Reg.fioIrq 6 = true) ∧
      (cls ≠ .good → ∀ j : Fin 16, j.val / 4 = g.val → (getOut t j .trip).st = .off ∧ (getOut t j .close).st = .off ∧
        rb t (Reg.fioBcStatus j) 11 = true) ∧
      (cls ≠ .good → ∀ j : Fin 16, j.val / 4 ≠ g.val → getCh t j = getCh s j) ∧ KeepsBut [.regs, .arb, .recorder, .fio, .out] s t) ∧
    (let may := rb s (Reg.fioBcCfg k) (1 + oIdx o) = true ∧ x.st = .off ∧ (∀ p, x.pulseAt = some p → p + 100 * msec ≤ at') ∧
        rb s Reg.fioCtrl 0 = true ∧ supplyGood s k = true ∧ rb s Reg.fioStatus 16 = false;
      (may → ∃ t, exec (.supervisionPulse k o tm) s = .next t ∧
        getOut t k o = { x with pulse := true, pulseAt := some at' } ∧ KeepsBut [.now, .op, .fio] s t) ∧
      (¬ may → exec (.supervisionPulse k o tm) s = .next (toInstant s tm))) ∧
    (∀ above,
      (∀ p, x.pulse = true → x.pulseAt = some p → p + msec ≤ at' → ∃ t, exec (.supervisionPulseEnd k o above tm) s = .next t ∧
        (getOut t k o).pulse = false ∧ judged above t ∧ KeepsBut all s t) ∧
      ((x.pulse = false ∨ ∀ p, x.pulseAt = some p → at' < p + msec) →
        exec (.supervisionPulseEnd k o above tm) s = .next (toInstant s tm))) ∧
    (let low := rb s (Reg.fioBcCfg k) (1 + oIdx o) = true ∧ x.st = .on ∧ ∃ l, x.lowAt = some l ∧ l + 10 * msec ≤ at';
      (low → ∃ t, exec (.lowCurrentTimeout k tm o) s = .next t ∧ judged true t ∧ (getOut t k o).lowAt = some at' ∧ KeepsBut all s t) ∧
      (¬ low → exec (.lowCurrentTimeout k tm o) s = .next (toInstant s tm)))

/-- R212, R214, R220, R221, R223, R227, R229 to R231: the registers of the control law units. Completes `loopWordWrite`, `cluLOwnWrite`,
`cluSgMembWrite`, `injCmd`, `capArm`, `capStop`, `capRead`, `cluCapCtrlWrite`. -/
def Obligations.ControlLawRegisters : Prop :=
  ∀ (s : State) (c : Fin 8) (i : Fin 32) (v : Word), hcSt s ≠ 3 →
    (∀ j : Fin 32,
      (j.val ∈ [1, 2, 3, 5, 11, 12, 13, 14, 19, 20, 21, 22] →
        exec (.loopWordWrite c i j v) s = .next (wr s (loopReg c i j) ((v.setWidth 16).signExtend 32))) ∧
      (j.val = 6 ∨ j.val = 7 → exec (.loopWordWrite c i j v) s = .next (wr s (loopReg c i j) v)) ∧
      (j.val = 0 → exec (.loopWordWrite c i j v) s = .next (wr s (loopReg c i j) (v &&& 0x1F))) ∧
      (j.val = 4 → exec (.loopWordWrite c i j v) s = .next (wr s (loopReg c i j) (v &&& 1))) ∧
      (j.val = 15 → exec (.loopWordWrite c i j v) s = .next (wr s (loopReg c i j) (v &&& 0xFFFFFF))) ∧
      (j.val ∈ [8, 9, 10, 16, 17, 18] → exec (.loopWordWrite c i j v) s = .next (wr s (loopReg c i j) (v &&& 0xFFFFF))) ∧
      (j.val = 30 → exec (.loopWordWrite c i j v) s = .next (wr s (loopReg c i j) (rd s (loopReg c i j) &&& ~~~ (v &&& 0x3F)))) ∧
      ((j.val ∈ [23, 24, 25, 26, 27, 28, 29, 31]) → exec (.loopWordWrite c i j v) s = .next s)) ∧
    ((fld v 5 0 = loopOwner s c i ∨ ownerFree s (loopOwner s c i) = true ∧ ownerFree s (fld v 5 0) = true) →
      ∃ t, exec (.cluLOwnWrite c i v) s = .next t ∧ loopOwner t c i = loopOwner s c i ∧ rb t Reg.hifStatus 16 = true ∧
        t.cmt = { s.cmt with waiting := s.cmt.waiting ++ [(Reg.cluLOwn c i, BitVec.ofNat 32 (fld v 5 0))] } ∧
        KeepsBut [.regs, .cmt] s t) ∧
    (fld v 5 0 ≠ loopOwner s c i → (ownerFree s (loopOwner s c i) = false ∨ ownerFree s (fld v 5 0) = false) →
      exec (.cluLOwnWrite c i v) s = .next (raise s Reg.hifIrq 6)) ∧
    (∀ k : Fin 8,
      (∀ own, own ≠ 0 → ownerFree s own = true → ((List.finRange 32).filter (fun j : Fin 32 => bitOf v j.val)).length ≤ 8 →
        (∀ j : Fin 32, bitOf v j = true → loopOwner s c j = own ∧ ∀ g, rb s (Reg.cluSgMemb c g) j = true → g = k) →
        (∀ j ∈ members s c k, ownerFree s (loopOwner s c j) = true) → ∃ t, exec (.cluSgMembWrite c k v) s = .next t ∧
          rd t (Reg.cluSgMemb c k) = v ∧ rb t (Reg.cluSgStat c k) 9 = false ∧ KeepsBut [.regs] s t) ∧
      ((∃ j : Fin 32, bitOf v j = true ∧ (loopOwner s c j = 0 ∨ ownerFree s (loopOwner s c j) = false)) →
        exec (.cluSgMembWrite c k v) s = .next (wb s (Reg.cluSgStat c k) 9 true))) ∧
    (bitOf v 31 = false → exec (.injCmd c v) s = .next s) ∧
    (bitOf v 31 = true →
      let l : Fin 32 := Fin.ofNat 32 (fld v 4 0)
      let kind := fld (rd s (Reg.cluInjWord c)) 2 0
      let test : Prop := tState s (ten (loopOwner s c l)) = 4
      let f1 := (loopWord s c l 7).toNat
      let dur := fld (loopWord s c l 15) 23 0
      let order := fld (rd s (Reg.cluInjWord c)) 7 4
      let bad : Prop := kind = 2 ∧ ((loopWord s c l 6).toNat = 0 ∨ f1 = 0 ∨ dur < 2) ∨
        kind = 3 ∧ (order < 7 ∨ 15 < order ∨ f1 % 65536 = 0);
      ((5 ≤ kind ∨ bad ∨ ¬ test) → ∃ t, exec (.injCmd c v) s = .next t ∧ rd t (Reg.cluInjRes c) = 1 ∧ rb t (Reg.cluIrq c) 5 = true ∧
        bitOf (loopWord t c l 30) 5 = true ∧ KeepsBut [.regs, .out] s t) ∧
      (test → kind = 0 → ∃ t, exec (.injCmd c v) s = .next t ∧ rd t (Reg.cluInjRes c) = 0 ∧
        getLoop t c l = { getLoop s c l with req := some none, taken := false } ∧
        KeepsBut [.regs, .clu] s t) ∧
      (test → 1 ≤ kind → kind ≤ 4 → ¬ bad → ∃ t g, exec (.injCmd c v) s = .next t ∧ rd t (Reg.cluInjRes c) = 0 ∧
        getLoop t c l = { getLoop s c l with req := some (some g), taken := false } ∧ g.fresh = true ∧ g.kind = kind ∧ g.amp = q15 (loopWord s c l 5) ∧ g.f0 = (loopWord s c l 6).toNat ∧
        g.dur = dur ∧ g.f1 = f1 ∧ (kind = 3 → g.order = order ∧ g.lfsr = 2 ^ order - 1) ∧ g.phase = 0 ∧ g.k = 0 ∧ KeepsBut [.regs, .clu] s t)) ∧
    (∀ n : Fin 2,
      (capArmed s c n = false → capRunning s c n = false →
        (∃ t, exec (.capArm c n) s = .next t ∧ capArmed t c n = true ∧ capRunning t c n = false ∧ getCap t c n = .reset ∧
          rf t (Reg.cluCapStat c n) 16 0 = 0 ∧ KeepsBut [.regs, .clu] s t) ∧
        exec (.cluCapCtrlWrite c n v) s = .next (wr s (Reg.cluCapCtrl c n) (v &&& 0xFF03FF))) ∧
      ((capArmed s c n = true ∨ capRunning s c n = true) → exec (.capArm c n) s = .next s ∧ exec (.cluCapCtrlWrite c n v) s = .next s) ∧
      (capRunning s c n = true → rb s (Reg.cluCapCtrl c n) 8 = true →
        (rf s (Reg.cluCapPost c n) 15 0 = 0 → ∃ t, exec (.capStop c n) s = .next t ∧ capRunning t c n = false ∧
          rb t (Reg.cluCapStat c n) 19 = true ∧ rb t (Reg.cluIrq c) (3 + n) = true ∧ t.clu = s.clu ∧ KeepsBut [.regs, .out] s t) ∧
        (rf s (Reg.cluCapPost c n) 15 0 ≠ 0 → ∃ t, exec (.capStop c n) s = .next t ∧
          getCap t c n = { getCap s c n with post := some (rf s (Reg.cluCapPost c n) 15 0) } ∧ KeepsBut [.clu] s t)) ∧
      ((capRunning s c n = false ∨ rb s (Reg.cluCapCtrl c n) 8 = false) → exec (.capStop c n) s = .next s) ∧
      (∀ p, rf s (Reg.cluCapRdptr c n) 15 0 = 2 * p → ∃ t, exec (.capRead c n) s = .next t ∧
        rd t (Reg.cluCapRddata c n) = W (((getCap s c n).buf.getD (2 * p) 0).toNat + 65536 * ((getCap s c n).buf.getD (2 * p + 1) 0).toNat) ∧
        rd t (Reg.cluCapRdptr c n) = W ((2 * p + 2) % 65536) ∧ KeepsBut [.regs] s t))

/-- R219. -/
def Obligations.SecondEvaluationReturnsTheFirst : Prop :=
  ∀ (s : State) (l : Fin 64) (f : FmtA) (c : Fin 8) (i : Fin 32) (j : Nat) (x : LoopSt), Issues s l f.pr →
    cluOperand s l ((getCore s l).ctx.rg f.s1.toNat) = some (c, i, j) → (getLoop s c i).wrk = some x →
    ∃ t, exec (.ceval l f) s = .next t ∧
      RegResult f.d.toNat (BitVec.ofInt 32 x.cand) 0 (getCore s l).ctx (getCore t l).ctx ∧
      (∃ y, getLoop t c i = { getLoop s c i with wrk := some { x with stat := y } } ∧ y = x.stat ||| 32) ∧
      bitOf (loopRead t c i 30 true) 13 = true ∧ (∀ c' i', (c', i') ≠ (c, i) → getLoop t c' i' = getLoop s c' i') ∧
      (∀ k, k ≠ l → getCore t k = getCore s k) ∧ KeepsBut [.core, .clu] s t

/-- The block's step (log entry 1); R342: silent windows. -/
def Obligations.StepRunsFrontCommand : Prop :=
  (∀ (s : State) (c : Instr) (rest : List Instr), s.pending = c :: rest → step s = exec c { s with pending := rest }) ∧
  (∀ s : State, s.pending = [] → step s = .next s) ∧
  (∀ (c : Instr) (s : State), ∃ t, exec c s = .next t) ∧
  (∀ (c : Instr) (s : State), silentRow c = true → hcSt s = 3 → exec c s = .next s)

/-- R11, R51, R109, R184, R187, R210, R231, R245, R287, R288, R307, R341: reset. -/
def Obligations.ResetState : Prop :=
  let s := State.reset;
  hcSt s = 0 ∧ s.pending = [] ∧ s.mem = [] ∧ s.ddr = [] ∧ Memory.wf s.mem = true ∧ Memory.wf s.ddr = true ∧ keyless s = true ∧
  (∀ l, (getCore s l).run ≠ .running) ∧ (∀ f, tState s f = 0) ∧ (∀ c i j, j < 23 → loopWord s c i j = 0) ∧
  rd s Reg.timeCtrl = 0x41 ∧ rd s Reg.timeTickcfg = 1 ∧ rd s Reg.loomCtrl = 0x115 ∧
  (∀ c : Fin 8, rd s (Reg.arrCMap c) = 0x76543210) ∧ rd s Reg.cmtCfg = 0x10 ∧ rd s Reg.pluLease = 0x140030 ∧ rd s Reg.ksStatus = 2

/-- The invariant of the byte memories (R118, R198, R206, R280, R322; log entry 1 for the queue). -/
def Obligations.EveryStepKeepsTheMemoriesCanonical : Prop :=
  ∀ s t : State, Memory.wf s.mem = true → Memory.wf s.ddr = true → step s = .next t →
    Memory.wf t.mem = true ∧ Memory.wf t.ddr = true ∧ t.pending = s.pending.tail
end

