-- ==== Sys2Proof/Laws/Tab.lean ====
section
/-!
SUPPORT. Laws of sparse tables: what a lookup gives after an update, and that every update keeps the canonical form.
-/
namespace Sys2Proof

variable {α : Type}

@[simp] theorem Tab.get_nil (d : α) (k : Nat) : Tab.get d [] k = d := rfl

theorem Tab.get_cons (d : α) (e : Nat × α) (t : Tab α) (k : Nat) :
    Tab.get d (e :: t) k = if e.1 = k then e.2 else Tab.get d t k := rfl

theorem Tab.get_ins (d : α) (t : Tab α) (k j : Nat) (v : α) :
    Tab.get d (Tab.ins t k v) j = if k = j then v else Tab.get d t j := by
  induction t with
  | nil => rfl
  | cons e t ih =>
    obtain ⟨k', v'⟩ := e
    simp only [Tab.ins]
    split
    · rfl
    · split
      · subst k'; simp only [Tab.get_cons]; split <;> rfl
      · rename_i h
        simp only [Tab.get_cons, ih]
        by_cases hj : k' = j
        · subst hj; simp [h]
        · simp [hj]

theorem Tab.get_del (d : α) (t : Tab α) (k j : Nat) :
    Tab.get d (Tab.del t k) j = if k = j then d else Tab.get d t j := by
  induction t with
  | nil => simp [Tab.del]
  | cons e t ih =>
    obtain ⟨k', v'⟩ := e
    simp only [Tab.del]
    by_cases hk : k = k'
    · subst hk; rw [if_pos rfl, ih, Tab.get_cons]; split <;> rfl
    · rw [if_neg hk, Tab.get_cons, ih, Tab.get_cons]
      by_cases hj : k' = j
      · subst hj; simp [hk]
      · simp [hj]

/-- A lookup after a write, where the unlisted entry is the one the write was made with. -/
theorem Tab.get_put [DecidableEq α] (d : α) (t : Tab α) (k j : Nat) (v : α) :
    Tab.get d (Tab.put d t k v) j = if k = j then v else Tab.get d t j := by
  unfold Tab.put
  split
  · subst_vars; exact Tab.get_del ..
  · exact Tab.get_ins ..

@[simp] theorem Tab.get_put_self [DecidableEq α] (d : α) (t : Tab α) (k : Nat) (v : α) :
    Tab.get d (Tab.put d t k v) k = v := by simp [Tab.get_put]

theorem Tab.ins_ins (t : Tab α) (k : Nat) (v w : α) : Tab.ins (Tab.ins t k v) k w = Tab.ins t k w := by
  induction t with
  | nil => simp [Tab.ins]
  | cons e t ih =>
    by_cases h1 : k < e.1
    · simp [Tab.ins, h1]
    · by_cases h2 : k = e.1
      · simp [Tab.ins, h2]
      · simp [Tab.ins, h1, h2, ih]

theorem Tab.del_ins (t : Tab α) (k : Nat) (v : α) : Tab.del (Tab.ins t k v) k = Tab.del t k := by
  induction t with
  | nil => simp [Tab.ins, Tab.del]
  | cons e t ih =>
    by_cases h1 : k < e.1
    · simp [Tab.ins, Tab.del, h1]
    · by_cases h2 : k = e.1
      · simp [Tab.ins, Tab.del, h2]
      · simp [Tab.ins, Tab.del, h1, h2, ih]

/-- Of two writes of one entry the later stays, where the first lists it. -/
theorem Tab.put_put [DecidableEq α] {d : α} {t : Tab α} {k : Nat} {v w : α} (hv : v ≠ d) :
    Tab.put d (Tab.put d t k v) k w = Tab.put d t k w := by
  simp only [Tab.put, if_neg hv, Tab.ins_ins, Tab.del_ins]

/-! ## The canonical form -/

variable [DecidableEq α] {d : Nat → α}

theorem Tab.wfFrom_mono {lo : Option Nat} {k : Nat} {t : Tab α} (h : Tab.wfFrom d (some k) t = true)
    (hk : ∀ b, lo = some b → b ≤ k) : Tab.wfFrom d lo t = true := by
  cases t with
  | nil => rfl
  | cons e t =>
    simp only [Tab.wfFrom, Bool.and_eq_true, decide_eq_true_eq] at h ⊢
    refine ⟨⟨?_, h.1.2⟩, h.2⟩
    cases lo with
    | none => rfl
    | some b => have := hk b rfl; simp; omega

theorem Tab.wfFrom_ins {lo : Option Nat} {t : Tab α} {k : Nat} {v : α} (h : Tab.wfFrom d lo t = true)
    (hlo : ∀ b, lo = some b → b < k) (hv : v ≠ d k) : Tab.wfFrom d lo (Tab.ins t k v) = true := by
  induction t generalizing lo with
  | nil => cases lo <;> simp_all [Tab.ins, Tab.wfFrom]
  | cons e t ih =>
    obtain ⟨k', v'⟩ := e
    simp only [Tab.wfFrom, Bool.and_eq_true, decide_eq_true_eq] at h
    simp only [Tab.ins]
    split
    · simp only [Tab.wfFrom, Bool.and_eq_true, decide_eq_true_eq]
      refine ⟨⟨?_, hv⟩, ⟨by simpa, h.1.2⟩, h.2⟩
      cases lo <;> simp_all
    · split
      · subst k'
        simp only [Tab.wfFrom, Bool.and_eq_true, decide_eq_true_eq]
        exact ⟨⟨h.1.1, hv⟩, h.2⟩
      · simp only [Tab.wfFrom, Bool.and_eq_true, decide_eq_true_eq]
        exact ⟨⟨h.1.1, h.1.2⟩, ih h.2 (by intro b hb; cases hb; omega)⟩

theorem Tab.wfFrom_del {lo : Option Nat} {t : Tab α} {k : Nat} (h : Tab.wfFrom d lo t = true) :
    Tab.wfFrom d lo (Tab.del t k) = true := by
  induction t generalizing lo with
  | nil => rfl
  | cons e t ih =>
    obtain ⟨k', v'⟩ := e
    have h' := h
    simp only [Tab.wfFrom, Bool.and_eq_true, decide_eq_true_eq] at h
    simp only [Tab.del]
    split
    · refine ih (Tab.wfFrom_mono h.2 ?_)
      intro b hb; subst hb; have := h.1.1; simp at this; omega
    · simp only [Tab.wfFrom, Bool.and_eq_true, decide_eq_true_eq]
      exact ⟨h.1, ih h.2⟩

/-- A write keeps the canonical form. -/
theorem Tab.wf_put {t : Tab α} {k : Nat} {v : α} (h : Tab.wf d t = true) : Tab.wf d (Tab.put (d k) t k v) = true := by
  unfold Tab.put Tab.wf
  split
  · exact Tab.wfFrom_del h
  · exact Tab.wfFrom_ins h (by simp) ‹_›

end Sys2Proof
end

