-- ==== Sys2Proof/Laws/Memory.lean ====
section
/-!
SUPPORT. Laws of the byte memories: a read after a write, the canonical form kept by every operation, little-endian numbers.
-/
namespace Sys2Proof.Machine

theorem peek_poke (m : List Host.Cell) (a b : Nat) (v : Byte) : peek (poke m a v) b = if a = b then v else peek m b :=
  Tab.get_put ..

theorem poke_wf {m : List Host.Cell} (h : Memory.wf m = true) (a : Nat) (b : Byte) : Memory.wf (poke m a b) = true :=
  Tab.wf_put (d := fun _ => (0 : Byte)) h

/-- Every write of bytes keeps the canonical form. -/
theorem pokes_wf {m : List Host.Cell} (h : Memory.wf m = true) (a : Nat) (bs : List Byte) : Memory.wf (pokes m a bs) = true := by
  induction bs generalizing m a with
  | nil => exact h
  | cons b bs ih => exact ih (poke_wf h a b) (a + 1)

theorem peek_pokes_lt (m : List Host.Cell) (a c : Nat) (bs : List Byte) (h : c < a) : peek (pokes m a bs) c = peek m c := by
  induction bs generalizing m a with
  | nil => rfl
  | cons b bs ih => rw [pokes, ih _ _ (by omega), peek_poke, if_neg (by omega)]

/-- A byte after a write of bytes: inside the written range the byte written, outside what it was. -/
theorem peek_pokes (m : List Host.Cell) (a c : Nat) (bs : List Byte) :
    peek (pokes m a bs) c = if a ≤ c ∧ c < a + bs.length then bs.getD (c - a) 0 else peek m c := by
  induction bs generalizing m a with
  | nil => simp [pokes]
  | cons b bs ih =>
    rw [pokes, ih, peek_poke]
    by_cases h1 : a = c
    · subst h1; simp
    · by_cases h2 : a + 1 ≤ c ∧ c < a + 1 + bs.length
      · rw [if_pos h2, if_pos (by simp; omega)]
        obtain ⟨k, hk⟩ : ∃ k, c - a = k + 1 := ⟨c - a - 1, by omega⟩
        rw [hk, List.getD_cons_succ, show c - (a + 1) = k by omega]
      · rw [if_neg h2, if_neg h1, if_neg (by simp; omega)]

/-- Reading back the bytes just written. -/
theorem peeks_pokes (m : List Host.Cell) (a : Nat) (bs : List Byte) : peeks (pokes m a bs) a bs.length = bs := by
  induction bs generalizing m a with
  | nil => rfl
  | cons b bs ih =>
    simp only [List.length_cons, peeks, pokes]
    rw [peek_pokes_lt _ _ _ _ (by omega), peek_poke, if_pos rfl, ih]

@[simp] theorem toLe_length (n x : Nat) : (toLe n x).length = n := by
  induction n generalizing x with
  | zero => rfl
  | succ n ih => simp [toLe, ih]

/-- Little-endian octets spell their number. -/
theorem leNat_toLe (n x : Nat) : leNat (toLe n x) = x % 256 ^ n := by
  induction n generalizing x with
  | zero => simp [toLe, leNat, Nat.mod_one]
  | succ n ih =>
    simp only [toLe, leNat, ih, BitVec.toNat_ofNat]
    rw [show (2 : Nat) ^ 8 = 256 from rfl, Nat.pow_succ, Nat.mul_comm (256 ^ n) 256, Nat.mod_mul]

end Sys2Proof.Machine
end

