-- ==== Sys2Proof/Laws/State.lean ====
section
/-!
SUPPORT. The laws of State: what every named update leaves of every field, and what a lookup gives after an update.
-/
namespace Sys2Proof.Machine

variable (s : State)

/-! ## wr -/
@[simp] theorem wr_now (off : Nat) (v : Word) : (wr s off v).now = s.now := rfl
@[simp] theorem wr_op (off : Nat) (v : Word) : (wr s off v).op = s.op := rfl
@[simp] theorem wr_time (off : Nat) (v : Word) : (wr s off v).time = s.time := rfl
@[simp] theorem wr_port (off : Nat) (v : Word) : (wr s off v).port = s.port := rfl
@[simp] theorem wr_sw (off : Nat) (v : Word) : (wr s off v).sw = s.sw := rfl
@[simp] theorem wr_loom (off : Nat) (v : Word) : (wr s off v).loom = s.loom := rfl
@[simp] theorem wr_core (off : Nat) (v : Word) : (wr s off v).core = s.core := rfl
@[simp] theorem wr_ten (off : Nat) (v : Word) : (wr s off v).ten = s.ten := rfl
@[simp] theorem wr_cmt (off : Nat) (v : Word) : (wr s off v).cmt = s.cmt := rfl
@[simp] theorem wr_spare (off : Nat) (v : Word) : (wr s off v).spare = s.spare := rfl
@[simp] theorem wr_arb (off : Nat) (v : Word) : (wr s off v).arb = s.arb := rfl
@[simp] theorem wr_plu (off : Nat) (v : Word) : (wr s off v).plu = s.plu := rfl
@[simp] theorem wr_rec' (off : Nat) (v : Word) : (wr s off v).rec' = s.rec' := rfl
@[simp] theorem wr_arc (off : Nat) (v : Word) : (wr s off v).arc = s.arc := rfl
@[simp] theorem wr_hif (off : Nat) (v : Word) : (wr s off v).hif = s.hif := rfl
@[simp] theorem wr_hdl (off : Nat) (v : Word) : (wr s off v).hdl = s.hdl := rfl
@[simp] theorem wr_tru (off : Nat) (v : Word) : (wr s off v).tru = s.tru := rfl
@[simp] theorem wr_clu (off : Nat) (v : Word) : (wr s off v).clu = s.clu := rfl
@[simp] theorem wr_fio (off : Nat) (v : Word) : (wr s off v).fio = s.fio := rfl
@[simp] theorem wr_ks (off : Nat) (v : Word) : (wr s off v).ks = s.ks := rfl
@[simp] theorem wr_hc (off : Nat) (v : Word) : (wr s off v).hc = s.hc := rfl
@[simp] theorem wr_mem (off : Nat) (v : Word) : (wr s off v).mem = s.mem := rfl
@[simp] theorem wr_ddr (off : Nat) (v : Word) : (wr s off v).ddr = s.ddr := rfl
@[simp] theorem wr_out (off : Nat) (v : Word) : (wr s off v).out = s.out := rfl
@[simp] theorem wr_freeCtr (off : Nat) (v : Word) : (wr s off v).freeCtr = s.freeCtr := rfl
@[simp] theorem wr_pending (off : Nat) (v : Word) : (wr s off v).pending = s.pending := rfl
/-! ## emit -/
@[simp] theorem emit_regs (o : Out) : (emit s o).regs = s.regs := rfl
@[simp] theorem emit_now (o : Out) : (emit s o).now = s.now := rfl
@[simp] theorem emit_op (o : Out) : (emit s o).op = s.op := rfl
@[simp] theorem emit_time (o : Out) : (emit s o).time = s.time := rfl
@[simp] theorem emit_port (o : Out) : (emit s o).port = s.port := rfl
@[simp] theorem emit_sw (o : Out) : (emit s o).sw = s.sw := rfl
@[simp] theorem emit_loom (o : Out) : (emit s o).loom = s.loom := rfl
@[simp] theorem emit_core (o : Out) : (emit s o).core = s.core := rfl
@[simp] theorem emit_ten (o : Out) : (emit s o).ten = s.ten := rfl
@[simp] theorem emit_cmt (o : Out) : (emit s o).cmt = s.cmt := rfl
@[simp] theorem emit_spare (o : Out) : (emit s o).spare = s.spare := rfl
@[simp] theorem emit_arb (o : Out) : (emit s o).arb = s.arb := rfl
@[simp] theorem emit_plu (o : Out) : (emit s o).plu = s.plu := rfl
@[simp] theorem emit_rec' (o : Out) : (emit s o).rec' = s.rec' := rfl
@[simp] theorem emit_arc (o : Out) : (emit s o).arc = s.arc := rfl
@[simp] theorem emit_hif (o : Out) : (emit s o).hif = s.hif := rfl
@[simp] theorem emit_hdl (o : Out) : (emit s o).hdl = s.hdl := rfl
@[simp] theorem emit_tru (o : Out) : (emit s o).tru = s.tru := rfl
@[simp] theorem emit_clu (o : Out) : (emit s o).clu = s.clu := rfl
@[simp] theorem emit_fio (o : Out) : (emit s o).fio = s.fio := rfl
@[simp] theorem emit_ks (o : Out) : (emit s o).ks = s.ks := rfl
@[simp] theorem emit_hc (o : Out) : (emit s o).hc = s.hc := rfl
@[simp] theorem emit_mem (o : Out) : (emit s o).mem = s.mem := rfl
@[simp] theorem emit_ddr (o : Out) : (emit s o).ddr = s.ddr := rfl
@[simp] theorem emit_freeCtr (o : Out) : (emit s o).freeCtr = s.freeCtr := rfl
@[simp] theorem emit_pending (o : Out) : (emit s o).pending = s.pending := rfl
/-! ## toInstant -/
@[simp] theorem toInstant_regs (tm : Instant) : (toInstant s tm).regs = s.regs := rfl
@[simp] theorem toInstant_time (tm : Instant) : (toInstant s tm).time = s.time := rfl
@[simp] theorem toInstant_port (tm : Instant) : (toInstant s tm).port = s.port := rfl
@[simp] theorem toInstant_sw (tm : Instant) : (toInstant s tm).sw = s.sw := rfl
@[simp] theorem toInstant_loom (tm : Instant) : (toInstant s tm).loom = s.loom := rfl
@[simp] theorem toInstant_core (tm : Instant) : (toInstant s tm).core = s.core := rfl
@[simp] theorem toInstant_ten (tm : Instant) : (toInstant s tm).ten = s.ten := rfl
@[simp] theorem toInstant_cmt (tm : Instant) : (toInstant s tm).cmt = s.cmt := rfl
@[simp] theorem toInstant_spare (tm : Instant) : (toInstant s tm).spare = s.spare := rfl
@[simp] theorem toInstant_arb (tm : Instant) : (toInstant s tm).arb = s.arb := rfl
@[simp] theorem toInstant_plu (tm : Instant) : (toInstant s tm).plu = s.plu := rfl
@[simp] theorem toInstant_rec' (tm : Instant) : (toInstant s tm).rec' = s.rec' := rfl
@[simp] theorem toInstant_arc (tm : Instant) : (toInstant s tm).arc = s.arc := rfl
@[simp] theorem toInstant_hif (tm : Instant) : (toInstant s tm).hif = s.hif := rfl
@[simp] theorem toInstant_hdl (tm : Instant) : (toInstant s tm).hdl = s.hdl := rfl
@[simp] theorem toInstant_tru (tm : Instant) : (toInstant s tm).tru = s.tru := rfl
@[simp] theorem toInstant_clu (tm : Instant) : (toInstant s tm).clu = s.clu := rfl
@[simp] theorem toInstant_fio (tm : Instant) : (toInstant s tm).fio = s.fio := rfl
@[simp] theorem toInstant_ks (tm : Instant) : (toInstant s tm).ks = s.ks := rfl
@[simp] theorem toInstant_hc (tm : Instant) : (toInstant s tm).hc = s.hc := rfl
@[simp] theorem toInstant_mem (tm : Instant) : (toInstant s tm).mem = s.mem := rfl
@[simp] theorem toInstant_ddr (tm : Instant) : (toInstant s tm).ddr = s.ddr := rfl
@[simp] theorem toInstant_out (tm : Instant) : (toInstant s tm).out = s.out := rfl
@[simp] theorem toInstant_freeCtr (tm : Instant) : (toInstant s tm).freeCtr = s.freeCtr := rfl
@[simp] theorem toInstant_pending (tm : Instant) : (toInstant s tm).pending = s.pending := rfl
/-! ## setPort -/
@[simp] theorem setPort_regs (p : Fin 144) (x : Port) : (setPort s p x).regs = s.regs := rfl
@[simp] theorem setPort_now (p : Fin 144) (x : Port) : (setPort s p x).now = s.now := rfl
@[simp] theorem setPort_op (p : Fin 144) (x : Port) : (setPort s p x).op = s.op := rfl
@[simp] theorem setPort_time (p : Fin 144) (x : Port) : (setPort s p x).time = s.time := rfl
@[simp] theorem setPort_sw (p : Fin 144) (x : Port) : (setPort s p x).sw = s.sw := rfl
@[simp] theorem setPort_loom (p : Fin 144) (x : Port) : (setPort s p x).loom = s.loom := rfl
@[simp] theorem setPort_core (p : Fin 144) (x : Port) : (setPort s p x).core = s.core := rfl
@[simp] theorem setPort_ten (p : Fin 144) (x : Port) : (setPort s p x).ten = s.ten := rfl
@[simp] theorem setPort_cmt (p : Fin 144) (x : Port) : (setPort s p x).cmt = s.cmt := rfl
@[simp] theorem setPort_spare (p : Fin 144) (x : Port) : (setPort s p x).spare = s.spare := rfl
@[simp] theorem setPort_arb (p : Fin 144) (x : Port) : (setPort s p x).arb = s.arb := rfl
@[simp] theorem setPort_plu (p : Fin 144) (x : Port) : (setPort s p x).plu = s.plu := rfl
@[simp] theorem setPort_rec' (p : Fin 144) (x : Port) : (setPort s p x).rec' = s.rec' := rfl
@[simp] theorem setPort_arc (p : Fin 144) (x : Port) : (setPort s p x).arc = s.arc := rfl
@[simp] theorem setPort_hif (p : Fin 144) (x : Port) : (setPort s p x).hif = s.hif := rfl
@[simp] theorem setPort_hdl (p : Fin 144) (x : Port) : (setPort s p x).hdl = s.hdl := rfl
@[simp] theorem setPort_tru (p : Fin 144) (x : Port) : (setPort s p x).tru = s.tru := rfl
@[simp] theorem setPort_clu (p : Fin 144) (x : Port) : (setPort s p x).clu = s.clu := rfl
@[simp] theorem setPort_fio (p : Fin 144) (x : Port) : (setPort s p x).fio = s.fio := rfl
@[simp] theorem setPort_ks (p : Fin 144) (x : Port) : (setPort s p x).ks = s.ks := rfl
@[simp] theorem setPort_hc (p : Fin 144) (x : Port) : (setPort s p x).hc = s.hc := rfl
@[simp] theorem setPort_mem (p : Fin 144) (x : Port) : (setPort s p x).mem = s.mem := rfl
@[simp] theorem setPort_ddr (p : Fin 144) (x : Port) : (setPort s p x).ddr = s.ddr := rfl
@[simp] theorem setPort_out (p : Fin 144) (x : Port) : (setPort s p x).out = s.out := rfl
@[simp] theorem setPort_freeCtr (p : Fin 144) (x : Port) : (setPort s p x).freeCtr = s.freeCtr := rfl
@[simp] theorem setPort_pending (p : Fin 144) (x : Port) : (setPort s p x).pending = s.pending := rfl
/-! ## setCore -/
@[simp] theorem setCore_regs (l : Fin 64) (x : Core) : (setCore s l x).regs = s.regs := rfl
@[simp] theorem setCore_now (l : Fin 64) (x : Core) : (setCore s l x).now = s.now := rfl
@[simp] theorem setCore_op (l : Fin 64) (x : Core) : (setCore s l x).op = s.op := rfl
@[simp] theorem setCore_time (l : Fin 64) (x : Core) : (setCore s l x).time = s.time := rfl
@[simp] theorem setCore_port (l : Fin 64) (x : Core) : (setCore s l x).port = s.port := rfl
@[simp] theorem setCore_sw (l : Fin 64) (x : Core) : (setCore s l x).sw = s.sw := rfl
@[simp] theorem setCore_loom (l : Fin 64) (x : Core) : (setCore s l x).loom = s.loom := rfl
@[simp] theorem setCore_ten (l : Fin 64) (x : Core) : (setCore s l x).ten = s.ten := rfl
@[simp] theorem setCore_cmt (l : Fin 64) (x : Core) : (setCore s l x).cmt = s.cmt := rfl
@[simp] theorem setCore_spare (l : Fin 64) (x : Core) : (setCore s l x).spare = s.spare := rfl
@[simp] theorem setCore_arb (l : Fin 64) (x : Core) : (setCore s l x).arb = s.arb := rfl
@[simp] theorem setCore_plu (l : Fin 64) (x : Core) : (setCore s l x).plu = s.plu := rfl
@[simp] theorem setCore_rec' (l : Fin 64) (x : Core) : (setCore s l x).rec' = s.rec' := rfl
@[simp] theorem setCore_arc (l : Fin 64) (x : Core) : (setCore s l x).arc = s.arc := rfl
@[simp] theorem setCore_hif (l : Fin 64) (x : Core) : (setCore s l x).hif = s.hif := rfl
@[simp] theorem setCore_hdl (l : Fin 64) (x : Core) : (setCore s l x).hdl = s.hdl := rfl
@[simp] theorem setCore_tru (l : Fin 64) (x : Core) : (setCore s l x).tru = s.tru := rfl
@[simp] theorem setCore_clu (l : Fin 64) (x : Core) : (setCore s l x).clu = s.clu := rfl
@[simp] theorem setCore_fio (l : Fin 64) (x : Core) : (setCore s l x).fio = s.fio := rfl
@[simp] theorem setCore_ks (l : Fin 64) (x : Core) : (setCore s l x).ks = s.ks := rfl
@[simp] theorem setCore_hc (l : Fin 64) (x : Core) : (setCore s l x).hc = s.hc := rfl
@[simp] theorem setCore_mem (l : Fin 64) (x : Core) : (setCore s l x).mem = s.mem := rfl
@[simp] theorem setCore_ddr (l : Fin 64) (x : Core) : (setCore s l x).ddr = s.ddr := rfl
@[simp] theorem setCore_out (l : Fin 64) (x : Core) : (setCore s l x).out = s.out := rfl
@[simp] theorem setCore_freeCtr (l : Fin 64) (x : Core) : (setCore s l x).freeCtr = s.freeCtr := rfl
@[simp] theorem setCore_pending (l : Fin 64) (x : Core) : (setCore s l x).pending = s.pending := rfl
/-! ## setTen -/
@[simp] theorem setTen_regs (t : Fin 64) (x : Tenant) : (setTen s t x).regs = s.regs := rfl
@[simp] theorem setTen_now (t : Fin 64) (x : Tenant) : (setTen s t x).now = s.now := rfl
@[simp] theorem setTen_op (t : Fin 64) (x : Tenant) : (setTen s t x).op = s.op := rfl
@[simp] theorem setTen_time (t : Fin 64) (x : Tenant) : (setTen s t x).time = s.time := rfl
@[simp] theorem setTen_port (t : Fin 64) (x : Tenant) : (setTen s t x).port = s.port := rfl
@[simp] theorem setTen_sw (t : Fin 64) (x : Tenant) : (setTen s t x).sw = s.sw := rfl
@[simp] theorem setTen_loom (t : Fin 64) (x : Tenant) : (setTen s t x).loom = s.loom := rfl
@[simp] theorem setTen_core (t : Fin 64) (x : Tenant) : (setTen s t x).core = s.core := rfl
@[simp] theorem setTen_cmt (t : Fin 64) (x : Tenant) : (setTen s t x).cmt = s.cmt := rfl
@[simp] theorem setTen_spare (t : Fin 64) (x : Tenant) : (setTen s t x).spare = s.spare := rfl
@[simp] theorem setTen_arb (t : Fin 64) (x : Tenant) : (setTen s t x).arb = s.arb := rfl
@[simp] theorem setTen_plu (t : Fin 64) (x : Tenant) : (setTen s t x).plu = s.plu := rfl
@[simp] theorem setTen_rec' (t : Fin 64) (x : Tenant) : (setTen s t x).rec' = s.rec' := rfl
@[simp] theorem setTen_arc (t : Fin 64) (x : Tenant) : (setTen s t x).arc = s.arc := rfl
@[simp] theorem setTen_hif (t : Fin 64) (x : Tenant) : (setTen s t x).hif = s.hif := rfl
@[simp] theorem setTen_hdl (t : Fin 64) (x : Tenant) : (setTen s t x).hdl = s.hdl := rfl
@[simp] theorem setTen_tru (t : Fin 64) (x : Tenant) : (setTen s t x).tru = s.tru := rfl
@[simp] theorem setTen_clu (t : Fin 64) (x : Tenant) : (setTen s t x).clu = s.clu := rfl
@[simp] theorem setTen_fio (t : Fin 64) (x : Tenant) : (setTen s t x).fio = s.fio := rfl
@[simp] theorem setTen_ks (t : Fin 64) (x : Tenant) : (setTen s t x).ks = s.ks := rfl
@[simp] theorem setTen_hc (t : Fin 64) (x : Tenant) : (setTen s t x).hc = s.hc := rfl
@[simp] theorem setTen_mem (t : Fin 64) (x : Tenant) : (setTen s t x).mem = s.mem := rfl
@[simp] theorem setTen_ddr (t : Fin 64) (x : Tenant) : (setTen s t x).ddr = s.ddr := rfl
@[simp] theorem setTen_out (t : Fin 64) (x : Tenant) : (setTen s t x).out = s.out := rfl
@[simp] theorem setTen_freeCtr (t : Fin 64) (x : Tenant) : (setTen s t x).freeCtr = s.freeCtr := rfl
@[simp] theorem setTen_pending (t : Fin 64) (x : Tenant) : (setTen s t x).pending = s.pending := rfl
/-! ## setWarp -/
@[simp] theorem setWarp_regs (w : Fin 512) (x : WarpSt) : (setWarp s w x).regs = s.regs := rfl
@[simp] theorem setWarp_now (w : Fin 512) (x : WarpSt) : (setWarp s w x).now = s.now := rfl
@[simp] theorem setWarp_op (w : Fin 512) (x : WarpSt) : (setWarp s w x).op = s.op := rfl
@[simp] theorem setWarp_time (w : Fin 512) (x : WarpSt) : (setWarp s w x).time = s.time := rfl
@[simp] theorem setWarp_port (w : Fin 512) (x : WarpSt) : (setWarp s w x).port = s.port := rfl
@[simp] theorem setWarp_sw (w : Fin 512) (x : WarpSt) : (setWarp s w x).sw = s.sw := rfl
@[simp] theorem setWarp_core (w : Fin 512) (x : WarpSt) : (setWarp s w x).core = s.core := rfl
@[simp] theorem setWarp_ten (w : Fin 512) (x : WarpSt) : (setWarp s w x).ten = s.ten := rfl
@[simp] theorem setWarp_cmt (w : Fin 512) (x : WarpSt) : (setWarp s w x).cmt = s.cmt := rfl
@[simp] theorem setWarp_spare (w : Fin 512) (x : WarpSt) : (setWarp s w x).spare = s.spare := rfl
@[simp] theorem setWarp_arb (w : Fin 512) (x : WarpSt) : (setWarp s w x).arb = s.arb := rfl
@[simp] theorem setWarp_plu (w : Fin 512) (x : WarpSt) : (setWarp s w x).plu = s.plu := rfl
@[simp] theorem setWarp_rec' (w : Fin 512) (x : WarpSt) : (setWarp s w x).rec' = s.rec' := rfl
@[simp] theorem setWarp_arc (w : Fin 512) (x : WarpSt) : (setWarp s w x).arc = s.arc := rfl
@[simp] theorem setWarp_hif (w : Fin 512) (x : WarpSt) : (setWarp s w x).hif = s.hif := rfl
@[simp] theorem setWarp_hdl (w : Fin 512) (x : WarpSt) : (setWarp s w x).hdl = s.hdl := rfl
@[simp] theorem setWarp_tru (w : Fin 512) (x : WarpSt) : (setWarp s w x).tru = s.tru := rfl
@[simp] theorem setWarp_clu (w : Fin 512) (x : WarpSt) : (setWarp s w x).clu = s.clu := rfl
@[simp] theorem setWarp_fio (w : Fin 512) (x : WarpSt) : (setWarp s w x).fio = s.fio := rfl
@[simp] theorem setWarp_ks (w : Fin 512) (x : WarpSt) : (setWarp s w x).ks = s.ks := rfl
@[simp] theorem setWarp_hc (w : Fin 512) (x : WarpSt) : (setWarp s w x).hc = s.hc := rfl
@[simp] theorem setWarp_mem (w : Fin 512) (x : WarpSt) : (setWarp s w x).mem = s.mem := rfl
@[simp] theorem setWarp_ddr (w : Fin 512) (x : WarpSt) : (setWarp s w x).ddr = s.ddr := rfl
@[simp] theorem setWarp_out (w : Fin 512) (x : WarpSt) : (setWarp s w x).out = s.out := rfl
@[simp] theorem setWarp_freeCtr (w : Fin 512) (x : WarpSt) : (setWarp s w x).freeCtr = s.freeCtr := rfl
@[simp] theorem setWarp_pending (w : Fin 512) (x : WarpSt) : (setWarp s w x).pending = s.pending := rfl
/-! ## setSub -/
@[simp] theorem setSub_regs (g : Fin 2048) (x : GooseSub) : (setSub s g x).regs = s.regs := rfl
@[simp] theorem setSub_now (g : Fin 2048) (x : GooseSub) : (setSub s g x).now = s.now := rfl
@[simp] theorem setSub_op (g : Fin 2048) (x : GooseSub) : (setSub s g x).op = s.op := rfl
@[simp] theorem setSub_time (g : Fin 2048) (x : GooseSub) : (setSub s g x).time = s.time := rfl
@[simp] theorem setSub_port (g : Fin 2048) (x : GooseSub) : (setSub s g x).port = s.port := rfl
@[simp] theorem setSub_loom (g : Fin 2048) (x : GooseSub) : (setSub s g x).loom = s.loom := rfl
@[simp] theorem setSub_core (g : Fin 2048) (x : GooseSub) : (setSub s g x).core = s.core := rfl
@[simp] theorem setSub_ten (g : Fin 2048) (x : GooseSub) : (setSub s g x).ten = s.ten := rfl
@[simp] theorem setSub_cmt (g : Fin 2048) (x : GooseSub) : (setSub s g x).cmt = s.cmt := rfl
@[simp] theorem setSub_spare (g : Fin 2048) (x : GooseSub) : (setSub s g x).spare = s.spare := rfl
@[simp] theorem setSub_arb (g : Fin 2048) (x : GooseSub) : (setSub s g x).arb = s.arb := rfl
@[simp] theorem setSub_plu (g : Fin 2048) (x : GooseSub) : (setSub s g x).plu = s.plu := rfl
@[simp] theorem setSub_rec' (g : Fin 2048) (x : GooseSub) : (setSub s g x).rec' = s.rec' := rfl
@[simp] theorem setSub_arc (g : Fin 2048) (x : GooseSub) : (setSub s g x).arc = s.arc := rfl
@[simp] theorem setSub_hif (g : Fin 2048) (x : GooseSub) : (setSub s g x).hif = s.hif := rfl
@[simp] theorem setSub_hdl (g : Fin 2048) (x : GooseSub) : (setSub s g x).hdl = s.hdl := rfl
@[simp] theorem setSub_tru (g : Fin 2048) (x : GooseSub) : (setSub s g x).tru = s.tru := rfl
@[simp] theorem setSub_clu (g : Fin 2048) (x : GooseSub) : (setSub s g x).clu = s.clu := rfl
@[simp] theorem setSub_fio (g : Fin 2048) (x : GooseSub) : (setSub s g x).fio = s.fio := rfl
@[simp] theorem setSub_ks (g : Fin 2048) (x : GooseSub) : (setSub s g x).ks = s.ks := rfl
@[simp] theorem setSub_hc (g : Fin 2048) (x : GooseSub) : (setSub s g x).hc = s.hc := rfl
@[simp] theorem setSub_mem (g : Fin 2048) (x : GooseSub) : (setSub s g x).mem = s.mem := rfl
@[simp] theorem setSub_ddr (g : Fin 2048) (x : GooseSub) : (setSub s g x).ddr = s.ddr := rfl
@[simp] theorem setSub_out (g : Fin 2048) (x : GooseSub) : (setSub s g x).out = s.out := rfl
@[simp] theorem setSub_freeCtr (g : Fin 2048) (x : GooseSub) : (setSub s g x).freeCtr = s.freeCtr := rfl
@[simp] theorem setSub_pending (g : Fin 2048) (x : GooseSub) : (setSub s g x).pending = s.pending := rfl
/-! ## setPan -/
@[simp] theorem setPan_regs (k : Nat) (x : PanWord) : (setPan s k x).regs = s.regs := rfl
@[simp] theorem setPan_now (k : Nat) (x : PanWord) : (setPan s k x).now = s.now := rfl
@[simp] theorem setPan_op (k : Nat) (x : PanWord) : (setPan s k x).op = s.op := rfl
@[simp] theorem setPan_time (k : Nat) (x : PanWord) : (setPan s k x).time = s.time := rfl
@[simp] theorem setPan_port (k : Nat) (x : PanWord) : (setPan s k x).port = s.port := rfl
@[simp] theorem setPan_sw (k : Nat) (x : PanWord) : (setPan s k x).sw = s.sw := rfl
@[simp] theorem setPan_loom (k : Nat) (x : PanWord) : (setPan s k x).loom = s.loom := rfl
@[simp] theorem setPan_core (k : Nat) (x : PanWord) : (setPan s k x).core = s.core := rfl
@[simp] theorem setPan_ten (k : Nat) (x : PanWord) : (setPan s k x).ten = s.ten := rfl
@[simp] theorem setPan_cmt (k : Nat) (x : PanWord) : (setPan s k x).cmt = s.cmt := rfl
@[simp] theorem setPan_spare (k : Nat) (x : PanWord) : (setPan s k x).spare = s.spare := rfl
@[simp] theorem setPan_arb (k : Nat) (x : PanWord) : (setPan s k x).arb = s.arb := rfl
@[simp] theorem setPan_plu (k : Nat) (x : PanWord) : (setPan s k x).plu = s.plu := rfl
@[simp] theorem setPan_arc (k : Nat) (x : PanWord) : (setPan s k x).arc = s.arc := rfl
@[simp] theorem setPan_hif (k : Nat) (x : PanWord) : (setPan s k x).hif = s.hif := rfl
@[simp] theorem setPan_hdl (k : Nat) (x : PanWord) : (setPan s k x).hdl = s.hdl := rfl
@[simp] theorem setPan_tru (k : Nat) (x : PanWord) : (setPan s k x).tru = s.tru := rfl
@[simp] theorem setPan_clu (k : Nat) (x : PanWord) : (setPan s k x).clu = s.clu := rfl
@[simp] theorem setPan_fio (k : Nat) (x : PanWord) : (setPan s k x).fio = s.fio := rfl
@[simp] theorem setPan_ks (k : Nat) (x : PanWord) : (setPan s k x).ks = s.ks := rfl
@[simp] theorem setPan_hc (k : Nat) (x : PanWord) : (setPan s k x).hc = s.hc := rfl
@[simp] theorem setPan_mem (k : Nat) (x : PanWord) : (setPan s k x).mem = s.mem := rfl
@[simp] theorem setPan_ddr (k : Nat) (x : PanWord) : (setPan s k x).ddr = s.ddr := rfl
@[simp] theorem setPan_out (k : Nat) (x : PanWord) : (setPan s k x).out = s.out := rfl
@[simp] theorem setPan_freeCtr (k : Nat) (x : PanWord) : (setPan s k x).freeCtr = s.freeCtr := rfl
@[simp] theorem setPan_pending (k : Nat) (x : PanWord) : (setPan s k x).pending = s.pending := rfl
/-! ## setUnit -/
@[simp] theorem setUnit_regs (u : Fin 17) (x : HUnit) : (setUnit s u x).regs = s.regs := rfl
@[simp] theorem setUnit_now (u : Fin 17) (x : HUnit) : (setUnit s u x).now = s.now := rfl
@[simp] theorem setUnit_op (u : Fin 17) (x : HUnit) : (setUnit s u x).op = s.op := rfl
@[simp] theorem setUnit_time (u : Fin 17) (x : HUnit) : (setUnit s u x).time = s.time := rfl
@[simp] theorem setUnit_port (u : Fin 17) (x : HUnit) : (setUnit s u x).port = s.port := rfl
@[simp] theorem setUnit_sw (u : Fin 17) (x : HUnit) : (setUnit s u x).sw = s.sw := rfl
@[simp] theorem setUnit_loom (u : Fin 17) (x : HUnit) : (setUnit s u x).loom = s.loom := rfl
@[simp] theorem setUnit_core (u : Fin 17) (x : HUnit) : (setUnit s u x).core = s.core := rfl
@[simp] theorem setUnit_ten (u : Fin 17) (x : HUnit) : (setUnit s u x).ten = s.ten := rfl
@[simp] theorem setUnit_cmt (u : Fin 17) (x : HUnit) : (setUnit s u x).cmt = s.cmt := rfl
@[simp] theorem setUnit_spare (u : Fin 17) (x : HUnit) : (setUnit s u x).spare = s.spare := rfl
@[simp] theorem setUnit_arb (u : Fin 17) (x : HUnit) : (setUnit s u x).arb = s.arb := rfl
@[simp] theorem setUnit_plu (u : Fin 17) (x : HUnit) : (setUnit s u x).plu = s.plu := rfl
@[simp] theorem setUnit_rec' (u : Fin 17) (x : HUnit) : (setUnit s u x).rec' = s.rec' := rfl
@[simp] theorem setUnit_arc (u : Fin 17) (x : HUnit) : (setUnit s u x).arc = s.arc := rfl
@[simp] theorem setUnit_hif (u : Fin 17) (x : HUnit) : (setUnit s u x).hif = s.hif := rfl
@[simp] theorem setUnit_tru (u : Fin 17) (x : HUnit) : (setUnit s u x).tru = s.tru := rfl
@[simp] theorem setUnit_clu (u : Fin 17) (x : HUnit) : (setUnit s u x).clu = s.clu := rfl
@[simp] theorem setUnit_fio (u : Fin 17) (x : HUnit) : (setUnit s u x).fio = s.fio := rfl
@[simp] theorem setUnit_ks (u : Fin 17) (x : HUnit) : (setUnit s u x).ks = s.ks := rfl
@[simp] theorem setUnit_hc (u : Fin 17) (x : HUnit) : (setUnit s u x).hc = s.hc := rfl
@[simp] theorem setUnit_mem (u : Fin 17) (x : HUnit) : (setUnit s u x).mem = s.mem := rfl
@[simp] theorem setUnit_ddr (u : Fin 17) (x : HUnit) : (setUnit s u x).ddr = s.ddr := rfl
@[simp] theorem setUnit_out (u : Fin 17) (x : HUnit) : (setUnit s u x).out = s.out := rfl
@[simp] theorem setUnit_freeCtr (u : Fin 17) (x : HUnit) : (setUnit s u x).freeCtr = s.freeCtr := rfl
@[simp] theorem setUnit_pending (u : Fin 17) (x : HUnit) : (setUnit s u x).pending = s.pending := rfl
/-! ## smWrite -/
@[simp] theorem smWrite_regs (a : Nat) (bs : List Byte) : (smWrite s a bs).regs = s.regs := rfl
@[simp] theorem smWrite_now (a : Nat) (bs : List Byte) : (smWrite s a bs).now = s.now := rfl
@[simp] theorem smWrite_op (a : Nat) (bs : List Byte) : (smWrite s a bs).op = s.op := rfl
@[simp] theorem smWrite_time (a : Nat) (bs : List Byte) : (smWrite s a bs).time = s.time := rfl
@[simp] theorem smWrite_port (a : Nat) (bs : List Byte) : (smWrite s a bs).port = s.port := rfl
@[simp] theorem smWrite_sw (a : Nat) (bs : List Byte) : (smWrite s a bs).sw = s.sw := rfl
@[simp] theorem smWrite_loom (a : Nat) (bs : List Byte) : (smWrite s a bs).loom = s.loom := rfl
@[simp] theorem smWrite_core (a : Nat) (bs : List Byte) : (smWrite s a bs).core = s.core := rfl
@[simp] theorem smWrite_ten (a : Nat) (bs : List Byte) : (smWrite s a bs).ten = s.ten := rfl
@[simp] theorem smWrite_cmt (a : Nat) (bs : List Byte) : (smWrite s a bs).cmt = s.cmt := rfl
@[simp] theorem smWrite_spare (a : Nat) (bs : List Byte) : (smWrite s a bs).spare = s.spare := rfl
@[simp] theorem smWrite_arb (a : Nat) (bs : List Byte) : (smWrite s a bs).arb = s.arb := rfl
@[simp] theorem smWrite_plu (a : Nat) (bs : List Byte) : (smWrite s a bs).plu = s.plu := rfl
@[simp] theorem smWrite_rec' (a : Nat) (bs : List Byte) : (smWrite s a bs).rec' = s.rec' := rfl
@[simp] theorem smWrite_arc (a : Nat) (bs : List Byte) : (smWrite s a bs).arc = s.arc := rfl
@[simp] theorem smWrite_hif (a : Nat) (bs : List Byte) : (smWrite s a bs).hif = s.hif := rfl
@[simp] theorem smWrite_hdl (a : Nat) (bs : List Byte) : (smWrite s a bs).hdl = s.hdl := rfl
@[simp] theorem smWrite_tru (a : Nat) (bs : List Byte) : (smWrite s a bs).tru = s.tru := rfl
@[simp] theorem smWrite_clu (a : Nat) (bs : List Byte) : (smWrite s a bs).clu = s.clu := rfl
@[simp] theorem smWrite_fio (a : Nat) (bs : List Byte) : (smWrite s a bs).fio = s.fio := rfl
@[simp] theorem smWrite_ks (a : Nat) (bs : List Byte) : (smWrite s a bs).ks = s.ks := rfl
@[simp] theorem smWrite_hc (a : Nat) (bs : List Byte) : (smWrite s a bs).hc = s.hc := rfl
@[simp] theorem smWrite_ddr (a : Nat) (bs : List Byte) : (smWrite s a bs).ddr = s.ddr := rfl
@[simp] theorem smWrite_out (a : Nat) (bs : List Byte) : (smWrite s a bs).out = s.out := rfl
@[simp] theorem smWrite_freeCtr (a : Nat) (bs : List Byte) : (smWrite s a bs).freeCtr = s.freeCtr := rfl
@[simp] theorem smWrite_pending (a : Nat) (bs : List Byte) : (smWrite s a bs).pending = s.pending := rfl
/-! ## modPort -/
@[simp] theorem modPort_regs (p : Fin 144) (f : Port → Port) : (modPort s p f).regs = s.regs := rfl
@[simp] theorem modPort_now (p : Fin 144) (f : Port → Port) : (modPort s p f).now = s.now := rfl
@[simp] theorem modPort_op (p : Fin 144) (f : Port → Port) : (modPort s p f).op = s.op := rfl
@[simp] theorem modPort_time (p : Fin 144) (f : Port → Port) : (modPort s p f).time = s.time := rfl
@[simp] theorem modPort_sw (p : Fin 144) (f : Port → Port) : (modPort s p f).sw = s.sw := rfl
@[simp] theorem modPort_loom (p : Fin 144) (f : Port → Port) : (modPort s p f).loom = s.loom := rfl
@[simp] theorem modPort_core (p : Fin 144) (f : Port → Port) : (modPort s p f).core = s.core := rfl
@[simp] theorem modPort_ten (p : Fin 144) (f : Port → Port) : (modPort s p f).ten = s.ten := rfl
@[simp] theorem modPort_cmt (p : Fin 144) (f : Port → Port) : (modPort s p f).cmt = s.cmt := rfl
@[simp] theorem modPort_spare (p : Fin 144) (f : Port → Port) : (modPort s p f).spare = s.spare := rfl
@[simp] theorem modPort_arb (p : Fin 144) (f : Port → Port) : (modPort s p f).arb = s.arb := rfl
@[simp] theorem modPort_plu (p : Fin 144) (f : Port → Port) : (modPort s p f).plu = s.plu := rfl
@[simp] theorem modPort_rec' (p : Fin 144) (f : Port → Port) : (modPort s p f).rec' = s.rec' := rfl
@[simp] theorem modPort_arc (p : Fin 144) (f : Port → Port) : (modPort s p f).arc = s.arc := rfl
@[simp] theorem modPort_hif (p : Fin 144) (f : Port → Port) : (modPort s p f).hif = s.hif := rfl
@[simp] theorem modPort_hdl (p : Fin 144) (f : Port → Port) : (modPort s p f).hdl = s.hdl := rfl
@[simp] theorem modPort_tru (p : Fin 144) (f : Port → Port) : (modPort s p f).tru = s.tru := rfl
@[simp] theorem modPort_clu (p : Fin 144) (f : Port → Port) : (modPort s p f).clu = s.clu := rfl
@[simp] theorem modPort_fio (p : Fin 144) (f : Port → Port) : (modPort s p f).fio = s.fio := rfl
@[simp] theorem modPort_ks (p : Fin 144) (f : Port → Port) : (modPort s p f).ks = s.ks := rfl
@[simp] theorem modPort_hc (p : Fin 144) (f : Port → Port) : (modPort s p f).hc = s.hc := rfl
@[simp] theorem modPort_mem (p : Fin 144) (f : Port → Port) : (modPort s p f).mem = s.mem := rfl
@[simp] theorem modPort_ddr (p : Fin 144) (f : Port → Port) : (modPort s p f).ddr = s.ddr := rfl
@[simp] theorem modPort_out (p : Fin 144) (f : Port → Port) : (modPort s p f).out = s.out := rfl
@[simp] theorem modPort_freeCtr (p : Fin 144) (f : Port → Port) : (modPort s p f).freeCtr = s.freeCtr := rfl
@[simp] theorem modPort_pending (p : Fin 144) (f : Port → Port) : (modPort s p f).pending = s.pending := rfl
/-! ## modCore -/
@[simp] theorem modCore_regs (l : Fin 64) (f : Core → Core) : (modCore s l f).regs = s.regs := rfl
@[simp] theorem modCore_now (l : Fin 64) (f : Core → Core) : (modCore s l f).now = s.now := rfl
@[simp] theorem modCore_op (l : Fin 64) (f : Core → Core) : (modCore s l f).op = s.op := rfl
@[simp] theorem modCore_time (l : Fin 64) (f : Core → Core) : (modCore s l f).time = s.time := rfl
@[simp] theorem modCore_port (l : Fin 64) (f : Core → Core) : (modCore s l f).port = s.port := rfl
@[simp] theorem modCore_sw (l : Fin 64) (f : Core → Core) : (modCore s l f).sw = s.sw := rfl
@[simp] theorem modCore_loom (l : Fin 64) (f : Core → Core) : (modCore s l f).loom = s.loom := rfl
@[simp] theorem modCore_ten (l : Fin 64) (f : Core → Core) : (modCore s l f).ten = s.ten := rfl
@[simp] theorem modCore_cmt (l : Fin 64) (f : Core → Core) : (modCore s l f).cmt = s.cmt := rfl
@[simp] theorem modCore_spare (l : Fin 64) (f : Core → Core) : (modCore s l f).spare = s.spare := rfl
@[simp] theorem modCore_arb (l : Fin 64) (f : Core → Core) : (modCore s l f).arb = s.arb := rfl
@[simp] theorem modCore_plu (l : Fin 64) (f : Core → Core) : (modCore s l f).plu = s.plu := rfl
@[simp] theorem modCore_rec' (l : Fin 64) (f : Core → Core) : (modCore s l f).rec' = s.rec' := rfl
@[simp] theorem modCore_arc (l : Fin 64) (f : Core → Core) : (modCore s l f).arc = s.arc := rfl
@[simp] theorem modCore_hif (l : Fin 64) (f : Core → Core) : (modCore s l f).hif = s.hif := rfl
@[simp] theorem modCore_hdl (l : Fin 64) (f : Core → Core) : (modCore s l f).hdl = s.hdl := rfl
@[simp] theorem modCore_tru (l : Fin 64) (f : Core → Core) : (modCore s l f).tru = s.tru := rfl
@[simp] theorem modCore_clu (l : Fin 64) (f : Core → Core) : (modCore s l f).clu = s.clu := rfl
@[simp] theorem modCore_fio (l : Fin 64) (f : Core → Core) : (modCore s l f).fio = s.fio := rfl
@[simp] theorem modCore_ks (l : Fin 64) (f : Core → Core) : (modCore s l f).ks = s.ks := rfl
@[simp] theorem modCore_hc (l : Fin 64) (f : Core → Core) : (modCore s l f).hc = s.hc := rfl
@[simp] theorem modCore_mem (l : Fin 64) (f : Core → Core) : (modCore s l f).mem = s.mem := rfl
@[simp] theorem modCore_ddr (l : Fin 64) (f : Core → Core) : (modCore s l f).ddr = s.ddr := rfl
@[simp] theorem modCore_out (l : Fin 64) (f : Core → Core) : (modCore s l f).out = s.out := rfl
@[simp] theorem modCore_freeCtr (l : Fin 64) (f : Core → Core) : (modCore s l f).freeCtr = s.freeCtr := rfl
@[simp] theorem modCore_pending (l : Fin 64) (f : Core → Core) : (modCore s l f).pending = s.pending := rfl
/-! ## modTen -/
@[simp] theorem modTen_regs (t : Fin 64) (f : Tenant → Tenant) : (modTen s t f).regs = s.regs := rfl
@[simp] theorem modTen_now (t : Fin 64) (f : Tenant → Tenant) : (modTen s t f).now = s.now := rfl
@[simp] theorem modTen_op (t : Fin 64) (f : Tenant → Tenant) : (modTen s t f).op = s.op := rfl
@[simp] theorem modTen_time (t : Fin 64) (f : Tenant → Tenant) : (modTen s t f).time = s.time := rfl
@[simp] theorem modTen_port (t : Fin 64) (f : Tenant → Tenant) : (modTen s t f).port = s.port := rfl
@[simp] theorem modTen_sw (t : Fin 64) (f : Tenant → Tenant) : (modTen s t f).sw = s.sw := rfl
@[simp] theorem modTen_loom (t : Fin 64) (f : Tenant → Tenant) : (modTen s t f).loom = s.loom := rfl
@[simp] theorem modTen_core (t : Fin 64) (f : Tenant → Tenant) : (modTen s t f).core = s.core := rfl
@[simp] theorem modTen_cmt (t : Fin 64) (f : Tenant → Tenant) : (modTen s t f).cmt = s.cmt := rfl
@[simp] theorem modTen_spare (t : Fin 64) (f : Tenant → Tenant) : (modTen s t f).spare = s.spare := rfl
@[simp] theorem modTen_arb (t : Fin 64) (f : Tenant → Tenant) : (modTen s t f).arb = s.arb := rfl
@[simp] theorem modTen_plu (t : Fin 64) (f : Tenant → Tenant) : (modTen s t f).plu = s.plu := rfl
@[simp] theorem modTen_rec' (t : Fin 64) (f : Tenant → Tenant) : (modTen s t f).rec' = s.rec' := rfl
@[simp] theorem modTen_arc (t : Fin 64) (f : Tenant → Tenant) : (modTen s t f).arc = s.arc := rfl
@[simp] theorem modTen_hif (t : Fin 64) (f : Tenant → Tenant) : (modTen s t f).hif = s.hif := rfl
@[simp] theorem modTen_hdl (t : Fin 64) (f : Tenant → Tenant) : (modTen s t f).hdl = s.hdl := rfl
@[simp] theorem modTen_tru (t : Fin 64) (f : Tenant → Tenant) : (modTen s t f).tru = s.tru := rfl
@[simp] theorem modTen_clu (t : Fin 64) (f : Tenant → Tenant) : (modTen s t f).clu = s.clu := rfl
@[simp] theorem modTen_fio (t : Fin 64) (f : Tenant → Tenant) : (modTen s t f).fio = s.fio := rfl
@[simp] theorem modTen_ks (t : Fin 64) (f : Tenant → Tenant) : (modTen s t f).ks = s.ks := rfl
@[simp] theorem modTen_hc (t : Fin 64) (f : Tenant → Tenant) : (modTen s t f).hc = s.hc := rfl
@[simp] theorem modTen_mem (t : Fin 64) (f : Tenant → Tenant) : (modTen s t f).mem = s.mem := rfl
@[simp] theorem modTen_ddr (t : Fin 64) (f : Tenant → Tenant) : (modTen s t f).ddr = s.ddr := rfl
@[simp] theorem modTen_out (t : Fin 64) (f : Tenant → Tenant) : (modTen s t f).out = s.out := rfl
@[simp] theorem modTen_freeCtr (t : Fin 64) (f : Tenant → Tenant) : (modTen s t f).freeCtr = s.freeCtr := rfl
@[simp] theorem modTen_pending (t : Fin 64) (f : Tenant → Tenant) : (modTen s t f).pending = s.pending := rfl
/-! ## modWarp -/
@[simp] theorem modWarp_regs (w : Fin 512) (f : WarpSt → WarpSt) : (modWarp s w f).regs = s.regs := rfl
@[simp] theorem modWarp_now (w : Fin 512) (f : WarpSt → WarpSt) : (modWarp s w f).now = s.now := rfl
@[simp] theorem modWarp_op (w : Fin 512) (f : WarpSt → WarpSt) : (modWarp s w f).op = s.op := rfl
@[simp] theorem modWarp_time (w : Fin 512) (f : WarpSt → WarpSt) : (modWarp s w f).time = s.time := rfl
@[simp] theorem modWarp_port (w : Fin 512) (f : WarpSt → WarpSt) : (modWarp s w f).port = s.port := rfl
@[simp] theorem modWarp_sw (w : Fin 512) (f : WarpSt → WarpSt) : (modWarp s w f).sw = s.sw := rfl
@[simp] theorem modWarp_core (w : Fin 512) (f : WarpSt → WarpSt) : (modWarp s w f).core = s.core := rfl
@[simp] theorem modWarp_ten (w : Fin 512) (f : WarpSt → WarpSt) : (modWarp s w f).ten = s.ten := rfl
@[simp] theorem modWarp_cmt (w : Fin 512) (f : WarpSt → WarpSt) : (modWarp s w f).cmt = s.cmt := rfl
@[simp] theorem modWarp_spare (w : Fin 512) (f : WarpSt → WarpSt) : (modWarp s w f).spare = s.spare := rfl
@[simp] theorem modWarp_arb (w : Fin 512) (f : WarpSt → WarpSt) : (modWarp s w f).arb = s.arb := rfl
@[simp] theorem modWarp_plu (w : Fin 512) (f : WarpSt → WarpSt) : (modWarp s w f).plu = s.plu := rfl
@[simp] theorem modWarp_rec' (w : Fin 512) (f : WarpSt → WarpSt) : (modWarp s w f).rec' = s.rec' := rfl
@[simp] theorem modWarp_arc (w : Fin 512) (f : WarpSt → WarpSt) : (modWarp s w f).arc = s.arc := rfl
@[simp] theorem modWarp_hif (w : Fin 512) (f : WarpSt → WarpSt) : (modWarp s w f).hif = s.hif := rfl
@[simp] theorem modWarp_hdl (w : Fin 512) (f : WarpSt → WarpSt) : (modWarp s w f).hdl = s.hdl := rfl
@[simp] theorem modWarp_tru (w : Fin 512) (f : WarpSt → WarpSt) : (modWarp s w f).tru = s.tru := rfl
@[simp] theorem modWarp_clu (w : Fin 512) (f : WarpSt → WarpSt) : (modWarp s w f).clu = s.clu := rfl
@[simp] theorem modWarp_fio (w : Fin 512) (f : WarpSt → WarpSt) : (modWarp s w f).fio = s.fio := rfl
@[simp] theorem modWarp_ks (w : Fin 512) (f : WarpSt → WarpSt) : (modWarp s w f).ks = s.ks := rfl
@[simp] theorem modWarp_hc (w : Fin 512) (f : WarpSt → WarpSt) : (modWarp s w f).hc = s.hc := rfl
@[simp] theorem modWarp_mem (w : Fin 512) (f : WarpSt → WarpSt) : (modWarp s w f).mem = s.mem := rfl
@[simp] theorem modWarp_ddr (w : Fin 512) (f : WarpSt → WarpSt) : (modWarp s w f).ddr = s.ddr := rfl
@[simp] theorem modWarp_out (w : Fin 512) (f : WarpSt → WarpSt) : (modWarp s w f).out = s.out := rfl
@[simp] theorem modWarp_freeCtr (w : Fin 512) (f : WarpSt → WarpSt) : (modWarp s w f).freeCtr = s.freeCtr := rfl
@[simp] theorem modWarp_pending (w : Fin 512) (f : WarpSt → WarpSt) : (modWarp s w f).pending = s.pending := rfl

/-! ## The fields that an update names -/

@[simp] theorem emit_out (o : Out) : (emit s o).out = o :: s.out := rfl
@[simp] theorem toInstant_now (tm : Instant) : (toInstant s tm).now = max s.now tm := rfl
@[simp] theorem toInstant_op (tm : Instant) : (toInstant s tm).op = s.op + (tm - s.now) := rfl
@[simp] theorem smWrite_mem (a : Nat) (bs : List Byte) : (smWrite s a bs).mem = pokes s.mem a bs := rfl

/-! ## Lookups after updates -/

theorem fin_val_eq {n : Nat} {i j : Fin n} : (i.val = j.val) = (i = j) := by simp [Fin.ext_iff]

theorem getPort_setPort (p q : Fin 144) (x : Port) : getPort (setPort s p x) q = if p = q then x else getPort s q := by
  simp [getPort, setPort, Tab.get_put, Fin.ext_iff]
theorem getCore_setCore (l k : Fin 64) (x : Core) : getCore (setCore s l x) k = if l = k then x else getCore s k := by
  simp [getCore, setCore, Tab.get_put, Fin.ext_iff]
theorem getTen_setTen (t u : Fin 64) (x : Tenant) : getTen (setTen s t x) u = if t = u then x else getTen s u := by
  simp [getTen, setTen, Tab.get_put, Fin.ext_iff]
theorem getWarp_setWarp (w v : Fin 512) (x : WarpSt) : getWarp (setWarp s w x) v = if w = v then x else getWarp s v := by
  simp [getWarp, setWarp, Tab.get_put, Fin.ext_iff]
theorem getSub_setSub (g h : Fin 2048) (x : GooseSub) : getSub (setSub s g x) h = if g = h then x else getSub s h := by
  simp [getSub, setSub, Tab.get_put, Fin.ext_iff]
theorem getPan_setPan (k j : Nat) (x : PanWord) : getPan (setPan s k x) j = if k = j then x else getPan s j := by
  simp [getPan, setPan, Tab.get_put]
theorem getUnit_setUnit (u v : Fin 17) (x : HUnit) : getUnit (setUnit s u x) v = if u = v then x else getUnit s v := by
  simp [getUnit, setUnit, Tab.get_put, Fin.ext_iff]

@[simp] theorem getPort_setPort_self (p : Fin 144) (x : Port) : getPort (setPort s p x) p = x := by simp [getPort_setPort]
@[simp] theorem getCore_setCore_self (l : Fin 64) (x : Core) : getCore (setCore s l x) l = x := by simp [getCore_setCore]
@[simp] theorem getTen_setTen_self (t : Fin 64) (x : Tenant) : getTen (setTen s t x) t = x := by simp [getTen_setTen]
@[simp] theorem getWarp_setWarp_self (w : Fin 512) (x : WarpSt) : getWarp (setWarp s w x) w = x := by simp [getWarp_setWarp]
@[simp] theorem getSub_setSub_self (g : Fin 2048) (x : GooseSub) : getSub (setSub s g x) g = x := by simp [getSub_setSub]
@[simp] theorem getPan_setPan_self (k : Nat) (x : PanWord) : getPan (setPan s k x) k = x := by simp [getPan_setPan]
@[simp] theorem getUnit_setUnit_self (u : Fin 17) (x : HUnit) : getUnit (setUnit s u x) u = x := by simp [getUnit_setUnit]

/-! ## Registers -/

theorem rd_eq_get (off : Nat) : rd s off = Tab.get (resetWord off) s.regs off := by
  unfold rd
  generalize s.regs = t
  induction t with
  | nil => rfl
  | cons e t ih =>
    by_cases h : e.1 = off
    · simp [Tab.get_cons, h]
    · simp only [List.find?_cons, Tab.get_cons, h, if_false, beq_eq_false_iff_ne.mpr h]; exact ih

/-- A register reads as it was last written, and a write leaves every other register alone. -/
theorem rd_wr (off b : Nat) (v : Word) : rd (wr s off v) b = if off = b then v else rd s b := by
  by_cases h : off = b
  · subst h; simp [rd_eq_get, wr]
  · simp only [rd_eq_get, wr, if_neg h, Tab.put]
    split
    · rw [Tab.get_del, if_neg h]
    · rw [Tab.get_ins, if_neg h]

@[simp] theorem rd_wr_self (off : Nat) (v : Word) : rd (wr s off v) off = v := by simp [rd_wr]
theorem rd_wr_ne {off b : Nat} (v : Word) (h : off ≠ b) : rd (wr s off v) b = rd s b := by simp [rd_wr, h]

/-- A register depends on the register table alone. -/
theorem rd_congr {s t : State} (h : t.regs = s.regs) (off : Nat) : rd t off = rd s off := by simp [rd, h]

end Sys2Proof.Machine
end

