-- ==== Sys2Proof/Laws/Operands.lean ====
section
/-!
SUPPORT. What the shared operations of the instructions can do, said once: issuing on a core, retiring, and running an
instruction that only computes, on a core and in a stage of a Heddle unit.
-/
namespace Sys2Proof.Machine

theorem le_foldl_max {f : Nat → Nat} (l : List Nat) (a : Nat) :
    a ≤ l.foldl (fun t i => if i = 0 then t else max t (f i)) a := by
  induction l generalizing a with
  | nil => exact Nat.le_refl a
  | cons i l ih => exact Nat.le_trans (by dsimp only; split <;> omega) (ih _)

/-- An instruction never issues before the core's next issue slot. -/
theorem cyc_le_issueAt (c : Core) (srcs : List Nat) (ch : Option Nat) : c.cyc ≤ issueAt c srcs ch := by
  have h := le_foldl_max (f := Tab.get 0 c.ready) srcs c.cyc
  unfold issueAt
  split
  · exact Nat.le_trans h (Nat.le_max_left ..)
  · exact h

/-- A register is ready no later than the instruction that reads it issues; all come in time, so it issues in time. -/
theorem foldl_max_lt {f : Nat → Nat} {b : Nat} (l : List Nat) (a : Nat) (ha : a < b) (hf : ∀ i, f i < b) :
    l.foldl (fun t i => if i = 0 then t else max t (f i)) a < b := by
  induction l generalizing a with
  | nil => exact ha
  | cons i l ih => exact ih _ (by have := hf i; dsimp only; split <;> omega)

theorem issueAt_lt {c : Core} {b : Nat} (h : c.cyc < b ∧ (∀ i, Tab.get 0 c.ready i < b) ∧ ∀ k, Tab.get 0 c.chain k < b)
    (srcs : List Nat) (ch : Option Nat) : issueAt c srcs ch < b := by
  have := foldl_max_lt (f := Tab.get 0 c.ready) srcs c.cyc h.1 h.2.1
  unfold issueAt
  split
  · exact Nat.max_lt.2 ⟨this, h.2.2 _⟩
  · exact this

/-- Of two writes of one core the later stays. -/
theorem setCore_setCore {s : State} {l : Fin 64} {c c' : Core} (h : c.run = .running) :
    setCore (setCore s l c) l c' = setCore s l c' := by
  have : c ≠ Core.reset := by rintro rfl; cases h
  simp only [setCore, Tab.put_put this]

section Core
variable {s : State} {l : Fin 64} {legal : Bool} {pr : BitVec 3} {srcs : List Nat} {ch : Option Nat}
  {go : Nat → Core → State → State}

/-- A core that does not run executes nothing. -/
theorem runCore_idle (h : (getCore s l).run ≠ .running) : runCore l legal pr srcs ch s go = s := by
  simp [runCore, h]

/-- No trap of the tenant stops the core. -/
theorem halted_none {c : Core} (h : c.haltAt = none) (t0 : Nat) : halted c t0 = false := by simp [halted, h]

/-- No watchdog budget runs out before an instruction whose operands come in time. -/
theorem no_watchdog (h : InTime s l) (srcs : List Nat) (ch : Option Nat) :
    (watchdogEnd s l).filter (fun w => decide (w ≤ issueAt (getCore s l) srcs ch)) = none := by
  cases hw : watchdogEnd s l with
  | none => rfl
  | some w => have := issueAt_lt (h w (.inl hw)) srcs ch; simp [Option.filter]; omega

/-- A core that a trap of its tenant halts before its watchdog budget has run out executes nothing more (R131). -/
theorem runCore_halted (h : (getCore s l).run = .running)
    (hw : ∀ w, watchdogEnd s l = some w → issueAt (getCore s l) srcs ch < w)
    (hh : halted (getCore s l) (issueAt (getCore s l) srcs ch) = true) :
    runCore l legal pr srcs ch s go = setCore s l { getCore s l with run := .stopped } := by
  have : (watchdogEnd s l).filter (fun w => decide (w ≤ issueAt (getCore s l) srcs ch)) = none := by
    cases hx : watchdogEnd s l with
    | none => rfl
    | some w => have := hw w hx; simp [Option.filter]; omega
  simp only [runCore, h, ne_eq, not_true, if_false, this, hh, if_true]

/-- A core whose watchdog budget runs out before it issues traps (R130). -/
theorem runCore_watchdog {w : Nat} (h : (getCore s l).run = .running) (hw : watchdogEnd s l = some w)
    (hi : w ≤ issueAt (getCore s l) srcs ch) : runCore l legal pr srcs ch s go = watchdogTrap s l w := by
  simp only [runCore, h, ne_eq, not_true, if_false, hw, Option.filter, hi, decide_true, if_true]

/-- A core that issues finds itself at its issue cycle; then come the fetch, the encoding and the predicate (R114, R128, R147). -/
theorem runCore_at (h : (getCore s l).run = .running) (hh : (getCore s l).haltAt = none) (ht : InTime s l) :
    runCore l legal pr srcs ch s go =
      let t0 := issueAt (getCore s l) srcs ch
      let c := { getCore s l with cyc := t0 }
      let s := setCore s l c
      if !inCode s l c.pc.toNat then trap s l 3 c.pc
      else if !legal then trap s l 1 0
      else if c.ctx.rp pr.toNat then go t0 c s
      else setCore s l { c with cyc := t0 + 1, pc := c.pc + 4 } := by
  have hn : ¬ never ≤ issueAt (getCore s l) srcs ch := Nat.not_le.2 (issueAt_lt (ht never (.inr rfl)) srcs ch)
  simp only [runCore, h, ne_eq, not_true, if_false, no_watchdog ht, halted_none hh, Bool.false_eq_true, if_neg hn]

theorem inCode_setCore (c : Core) (a : Nat) : inCode (setCore s l c) l a = inCode s l a := rfl

/-- A fetch outside the code region traps (R114, R147). -/
theorem runCore_stray (h : (getCore s l).run = .running) (hh : (getCore s l).haltAt = none) (ht : InTime s l)
    (hc : inCode s l (getCore s l).pc.toNat = false) : runCore l legal pr srcs ch s go =
      trap (setCore s l { getCore s l with cyc := issueAt (getCore s l) srcs ch }) l 3 (getCore s l).pc := by
  simp only [runCore_at h hh ht, inCode_setCore, hc, Bool.not_false, if_true]

/-- An illegal encoding traps whatever the predicate (R128). -/
theorem runCore_illegal (h : Fetches s l) (hl : legal = false) : runCore l legal pr srcs ch s go =
    trap (setCore s l { getCore s l with cyc := issueAt (getCore s l) srcs ch }) l 1 0 := by
  simp [runCore_at h.1 h.2.1 h.2.2.1, inCode_setCore, h.2.2.2, hl]

/-- A false predicate costs the issue cycle and nothing else happens (R128). -/
theorem runCore_false (h : Fetches s l) (hl : legal = true) (hp : (getCore s l).ctx.rp pr.toNat = false) :
    runCore l legal pr srcs ch s go =
      setCore s l { getCore s l with cyc := issueAt (getCore s l) srcs ch + 1, pc := (getCore s l).pc + 4 } := by
  simp only [runCore_at h.1 h.2.1 h.2.2.1, inCode_setCore, h.2.2.2, hl, hp, Bool.not_true, Bool.false_eq_true, if_false]
  exact setCore_setCore (by exact h.1)

/-- An instruction that issues does its work. -/
theorem runCore_issues (h : Issues s l pr) (hl : legal = true) :
    runCore l legal pr srcs ch s go =
      let c := { getCore s l with cyc := issueAt (getCore s l) srcs ch }
      go (issueAt (getCore s l) srcs ch) c (setCore s l c) := by
  simp only [runCore_at h.1.1 h.1.2.1 h.1.2.2.1, inCode_setCore, h.1.2.2.2, hl, h.2, Bool.not_true, Bool.false_eq_true, if_false, if_true]
end Core

/-! ## Results -/

theorem rg_put (g : Tab Word) (a : Tab (BitVec 40)) (p : BitVec 8) (fs : Word) (d i : Nat) (v : Word) :
    Ctx.rg ⟨if d = 0 then g else Tab.put 0 g d v, a, p, fs⟩ i = if i = d ∧ d ≠ 0 then v else Ctx.rg ⟨g, a, p, fs⟩ i := by
  by_cases hd : d = 0
  · simp [hd]
  · simp only [Ctx.rg, if_neg hd]
    by_cases hi : i = 0
    · simp only [if_pos hi]; rw [if_neg]; omega
    · simp only [if_neg hi, Tab.get_put, eq_comm (a := d)]
      by_cases h : i = d <;> simp [h, hd]

theorem apply_reg (c : Ctx) (d : Nat) (v fl : Word) : RegResult d v fl c (c.apply (Wr.reg d v fl)) :=
  ⟨fun i => rg_put c.g c.a c.p _ d i v, fun _ => rfl, rfl, rfl⟩

theorem apply_none (c : Ctx) : c.apply Wr.none = c := by
  simp [Ctx.apply, Wr.none]

theorem apply_acc (c : Ctx) (k : Nat) (v : BitVec 40) (fl : Word) : AccResult k v.toInt fl c (c.apply ⟨[], [(k, v)], [], fl⟩) := by
  refine ⟨fun _ => rfl, fun j => ?_, rfl, rfl⟩
  simp only [Ctx.ra, Ctx.apply, List.foldl_cons, List.foldl_nil, Tab.get_put, eq_comm (a := k)]
  split <;> rfl

theorem one_hot : ∀ d i : Fin 8, (BitVec.ofNat 8 (2 ^ d.val)).getLsbD i.val = decide (i.val = d.val) := by decide

theorem apply_pred (c : Ctx) (d : Nat) (v : Bool) (fl : Word) (hd : d < 8) : PredResult d v fl c (c.apply (Wr.pred d v fl)) := by
  refine ⟨fun _ => rfl, fun _ => rfl, fun i hi => ?_, rfl⟩
  have key : (BitVec.ofNat 8 (2 ^ d)).getLsbD i = decide (i = d) := one_hot ⟨d, hd⟩ ⟨i, hi⟩
  simp only [Ctx.rp, Ctx.apply, Wr.pred, List.foldl_cons, List.foldl_nil]
  by_cases h0 : d = 0
  · simp [h0]
  · simp only [if_neg h0]
    cases v <;> by_cases hid : i = d <;> simp_all

/-! ## Computing instructions -/

/-- On a tick core: one result, one word on, nothing else. -/
theorem runAlu_core {s : State} {l : Fin 64} {o : AluOp} {i : Instr} {cost : Nat} {res : Ctx → Ctx → Prop}
    (hi : exec i s = ok (runAlu (.core l) o s)) (h : Issues s l o.pr) (hl : o.legal = true)
    (hc : cost ≤ if o.block then o.lat else 1)
    (hr : res (getCore s l).ctx ((getCore s l).ctx.apply (o.work (getCore s l).ctx))) : CoreComputes i l cost s res := by
  have hg : getCore (setCore s l { getCore s l with cyc := issueAt (getCore s l) o.srcs o.chained }) l =
      { getCore s l with cyc := issueAt (getCore s l) o.srcs o.chained } := Tab.get_put_self ..
  refine ⟨_, by rw [hi]; simp only [ok, runAlu, runCore_issues h hl, retire, modCore, hg]; exact congrArg _ (setCore_setCore h.1.1), rfl, ?_, hr⟩
  exact Nat.add_le_add (cyc_le_issueAt ..) hc

/-- In a stage of a Heddle unit: what the instruction writes joins the results still in their stages, to be seen `lat` stages
on, and the record moves one stage on (R134). -/
theorem runAlu_record {s : State} {u : Fin 17} {id : Nat} {o : AluOp} {r : HRec} (hr : getRec s u id = some r)
    (hl : (o.legal && o.hed) = true) (hs : r.stage < 128) :
    runAlu (.record u id) o s = setRec s u { r.settle with
      pend := r.settle.pend ++ [(r.settle.stage + o.lat, if r.settle.ctx.rp o.pr.toNat then o.work r.settle.ctx else Wr.none)]
      stage := r.settle.stage + 1 } := by
  have : ¬ (128 ≤ r.stage) := by omega
  simp only [runAlu, runRec, hr, hl, this, decide_false, Bool.not_true, Bool.or_self]
  by_cases hp : r.settle.ctx.rp o.pr.toNat <;> simp [hp]

/-- A record that is not in the unit, an instruction illegal in a kernel and a stage past the last change nothing. -/
theorem runAlu_record_none {s : State} {u : Fin 17} {id : Nat} {o : AluOp} (h : getRec s u id = none) :
    runAlu (.record u id) o s = s := by
  simp [runAlu, runRec, h]

end Sys2Proof.Machine
end

