-- ==== Sys2Proof/Laws/Ops.lean ====
section
/-!
SUPPORT. Laws of the shared operations that raise an interrupt, stage a log record or account a Pantry write: the parts of
the state each can change, said once.
-/
namespace Sys2Proof.Machine

variable (s : State)

/-- A step that changes registers and what leaves the part only. -/
def SameButRegs (s t : State) : Prop := t = { s with regs := t.regs, out := t.out }

/-- A step that changes registers, the log and the Pantry, the requests waiting at the arbiters, and what leaves the part only. -/
def SameButLog (s t : State) : Prop := t = { s with regs := t.regs, out := t.out, rec' := t.rec', arb := t.arb }

theorem SameButRegs.refl : SameButRegs s s := rfl
theorem SameButLog.refl : SameButLog s s := rfl

theorem SameButRegs.log {s t : State} (h : SameButRegs s t) : SameButLog s t := by
  rw [SameButRegs] at h; rw [SameButLog, h]

theorem SameButRegs.trans {s t u : State} (h : SameButRegs s t) (k : SameButRegs t u) : SameButRegs s u := by
  rw [SameButRegs] at *; rw [k, h]

theorem SameButLog.trans {s t u : State} (h : SameButLog s t) (k : SameButLog t u) : SameButLog s u := by
  rw [SameButLog] at *; rw [k, h]

theorem wr_same (off : Nat) (v : Word) : SameButRegs s (wr s off v) := rfl
theorem wb_same (off i : Nat) (b : Bool) : SameButRegs s (wb s off i b) := rfl
theorem wf_same (off hi lo x : Nat) : SameButRegs s (wf s off hi lo x) := rfl
theorem bump_same (off n : Nat) : SameButRegs s (bump s off n) := rfl
theorem msix_same (fn : Fin 64) (vec : Nat) : SameButRegs s (msix s fn vec) := rfl

theorem raise_same (irq bit : Nat) : SameButRegs s (raise s irq bit) := by
  unfold raise; dsimp only; split <;> rfl

theorem raiseVf_same (v : Fin 64) (bit : Nat) : SameButRegs s (raiseVf s v bit) := by
  unfold raiseVf; dsimp only; split <;> rfl

theorem ask_same (k port beats line : Nat) : SameButLog s (ask s k port beats line) := rfl

theorem askFlush_same : SameButLog s (askFlush s) := by
  unfold askFlush
  suffices h : ∀ (l : List Nat) (t : State), SameButLog s t → SameButLog s (l.foldl (fun s b =>
      match s.rec'.ring.filter (fun r => r.seq % 16 == b) with
      | [] => s
      | r :: l => ask s b 12 (2 * (l.length + 1)) (r.seq % 1024 * 64)) t) from h _ _ (.refl s)
  intro l
  induction l with
  | nil => exact fun t h => h
  | cons b l ih =>
    intro t h
    refine ih _ ?_
    dsimp only
    split
    · exact h
    · exact h.trans (ask_same ..)

theorem startFlush_same (force : Bool) : SameButLog s (startFlush s force) := by
  unfold startFlush
  split
  · rfl
  · exact .trans (.trans (t := { s with rec' := { s.rec' with flushing := some s.rec'.ring.length } }) rfl (askFlush_same _))
      (wb_same _ _ _ _).log

theorem setPan_same (k : Nat) (x : PanWord) : SameButLog s (setPan s k x) := rfl

theorem flushDue_same : SameButLog s (flushDue s) := by
  unfold flushDue
  split
  · exact startFlush_same ..
  · split
    · exact startFlush_same ..
    · rfl

/-- A condition before an operation changes nothing it could not change. -/
theorem SameButLog.ite {s t : State} (c : Prop) [Decidable c] (h : SameButLog s t) : SameButLog s (if c then t else s) := by
  split <;> first | exact h | rfl

theorem logRec_same (irq severity cls detail : Nat) (ids : List Nat) : SameButLog s (logRec s irq severity cls detail ids) := by
  unfold logRec
  split
  · exact ((bump_same s _ _).trans (raise_same _ _ _)).log
  · split
    · exact ((bump_same s _ _).trans (raise_same _ _ _)).log
    · refine .trans ?_ (flushDue_same _)
      refine .trans ?_ (.ite _ (raise_same _ _ _).log)
      exact .trans (t := { s with rec' := { s.rec' with ring := s.rec'.ring ++ [_] } }) rfl ((wr_same _ _ _).trans (wf_same _ _ _ _ _)).log

theorem persist_same (off : Nat) : SameButLog s (persist s off) := by
  unfold persist
  extract_lets w h n hot tooMany s1 s2 s3
  refine .trans (t := s1) (setPan_same s _ _) ?_
  split
  · refine .trans (t := s3) (.trans (t := s2) (.ite _ (wr_same s1 _ _).log) (raise_same _ _ _).log) ?_
    split
    · rfl
    · exact logRec_same _ _ _ _ _ _
  · rfl

theorem wrp_same (off : Nat) (v : Word) : SameButLog s (wrp s off v) := (wr_same s off v).log.trans (persist_same _ _)

theorem persistWord_same (w : Nat) : SameButLog s (persistWord s w) := persist_same s _

end Sys2Proof.Machine
end

