-- ==== Sys2Proof/Tests/Slice0.lean ====
section
/-!
SUPPORT. Tests: words of the instruction set decoded, a term each well-formedness check refuses, the state after reset, and for
every obligation with hypotheses a concrete state and operands that meet them. Expected values are the manual's.
-/
namespace Sys2Proof.Tests
set_option Elab.async false
open Sys2Proof Sys2Proof.Machine

/-! ## Small states -/

/-- The reset state with registers written. -/
def st (l : Tab Word) : State := l.foldl (fun s e => wr s e.1 e.2) State.reset

/-- An image of one core with two words of code and room for two entries. -/
def image (manager : Bool) : Image :=
  ⟨manager, 0, 0, [⟨0x10000, 0x10000, List.replicate 8 0, 16, []⟩], 2, 1, 1, [], 0, false, [], [.inputs, .pair], [], 0⟩

/-- A core that runs at the start of its code, with general registers and accumulators. -/
def runs (g : Tab Word) (a : Tab (BitVec 40)) : Core := { Core.reset with run := .running, pc := 0x10000, ctx := ⟨g, a, 1, 0⟩ }

/-- Logical core 8 runs for tenant 1, whose partition 0 is the first 4 KiB of State Memory. -/
def onCore (manager : Bool) (g : Tab Word) (regs : Tab Word := []) : State :=
  { st ((Reg.hifOwnCore 2, 1) :: regs) with
    core := [(8, runs g [])], ten := [(1, { Tenant.reset with image := some (image manager) })]
    cmt := { Commit.reset with part := [(8, (0, 0xE0000001))] } }

/-- A core that has just started: it runs, nothing it waits for lies ahead, and its pc lies in its code region. -/
def starts (s : State) (l : Fin 64) : Bool :=
  let c := getCore s l
  c.run == .running && c.haltAt.isNone && c.cyc == 0 && c.ready == [] && c.chain == [] && (watchdogEnd s l).all (0 < ·) && inCode s l c.pc.toNat
theorem fetches_of_starts {s : State} {l : Fin 64} (h : starts s l = true) : Fetches s l := by
  simp only [starts, Bool.and_eq_true, beq_iff_eq, Option.isNone_iff_eq_none] at h
  obtain ⟨⟨⟨⟨⟨⟨hr, hh⟩, hc⟩, ht⟩, hk⟩, hw⟩, hp⟩ := h
  refine ⟨hr, hh, fun b hb => ?_, hp⟩
  have : 0 < b := by
    obtain hb | rfl := hb
    · simpa [hb] using hw
    · decide
  simp [hc, ht, hk, this]
/-! ## Words of the instruction set, bit by bit from R126, R128 and R136 to R156 -/

/-- ADD g5, g6, g7: op 0x00, d 5, s1 6, s2 7, fn 0x00, pr 3. -/
theorem test_decode_add :
    decodeWormin (.core 8) (0b0000000_00101_00110_00111_0000000_011) = some (.add (.core 8) ⟨3, 5, 6, 7⟩) := by decide
/-- LW g9, off 1 from g4: op 0x34. -/
theorem test_decode_lw :
    decodeWormin (.core 8) (0b0110100_01001_00100_000000000001_000) = some (.lw 8 ⟨0, 9, 4, 1⟩) := by decide
/-- A kernel's HLD reads the same word format: op 0x59. -/
theorem test_decode_hld :
    decodeWormin (.record 2 7) (0b1011001_00011_00000_000000000101_001) = some (.hld (.record 2 7) ⟨1, 3, 0, 5⟩) := by decide
/-- MACQ in mode 1 on accumulator 1: op 0x10, acc 1, mode 1. -/
theorem test_decode_macq :
    decodeWormin (.core 8) (0b0010000_01_001_00010_00011_0000000_000) = some (.macq (.core 8) ⟨0, 1, 1, 2, 3⟩) := by decide
/-- BR with a negative displacement: op 0x40, format U. -/
theorem test_decode_br :
    decodeWormin (.core 8) (0b1000000_00000_11111111111111111_010) = some (.br 8 ⟨2, 0, 0x1FFFF⟩) := by decide
/-- An unassigned fn of op 0x00 spells no instruction (R129). -/
theorem test_decode_reserved : decodeWormin (.core 8) (0b0000000_00001_00001_00001_1111111_000) = none := by decide
/-- A block's rows have no bits: no word spells a command. -/
theorem test_table_words : decodeTableWord 32 0x00531C03 = none := rfl

/-! ## Instructions: hypotheses of the obligations met -/

theorem test_issues : Issues (onCore false []) 8 0 ∧ Issues (onCore true []) 8 0 ∧ isManager (onCore true []) 8 = true ∧
    isManager (onCore false []) 8 = false :=
  ⟨⟨fetches_of_starts (by decide), by decide⟩, ⟨fetches_of_starts (by decide), by decide⟩, by decide, by decide⟩

theorem test_integerRegisterInstructions : Issues (onCore false []) 8 0 ∧ (31#12).toNat < 32 ∧ (0x7FFF#17).toNat < 2 ^ 15 :=
  ⟨test_issues.1, by decide, by decide⟩

/-- Predicates 7 at most; CMPI conditions 0 to 3 in [4:3] of d. -/
theorem test_compareAndPredicateInstructions : Issues (onCore false []) 8 0 ∧ (7#5).toNat < 8 ∧ (7#5).toNat / 8 = 0 ∧
    (15#5).toNat / 8 = 1 ∧ (23#5).toNat / 8 = 2 ∧ (31#5).toNat / 8 = 3 := ⟨test_issues.1, by decide⟩

/-- CLRF takes imm up to 1023; RDSR numbers 0 to 3. -/
theorem test_divisionAndSpecialRegisters : Issues (onCore false []) 8 0 ∧ (1023#12).toNat < 2 ^ 10 := ⟨test_issues.1, by decide⟩

/-- ASHR by 39 and 40, AMOV from accumulator 3, SDFT on accumulators 0 and 2. -/
theorem test_accumulatorInstructions : Issues (onCore false [(1, 39), (2, 40)]) 8 0 ∧
    (let c := (getCore (onCore false [(1, 39), (2, 40)]) 8).ctx; (c.rg 1).toNat % 64 < 40 ∧ 40 ≤ (c.rg 2).toNat % 64) ∧
    (3#5).toNat < 4 ∧ (2#2).toNat = 2 := ⟨⟨fetches_of_starts (by decide), by decide⟩, by decide⟩

/-- ATAN2 of (0, 0) and of (0, -32768). -/
theorem test_fixedPointInstructions : Issues (onCore false [(1, 0x8000)]) 8 0 ∧
    (let c := (getCore (onCore false [(1, 0x8000)]) 8).ctx; q15 (c.rg 0) = 0 ∧ q15 (c.rg 1) < 0) := ⟨⟨fetches_of_starts (by decide), by decide⟩, by decide⟩

/-- Every kind of operand: a signalling and a quiet NaN, the infinities, zeros, the smallest and the largest finite number. -/
theorem test_floatInstructions : Issues (onCore false []) 8 0 ∧ (7#5).toNat < 8 ∧ FSig 0x7F800001 ∧ (FNan 0x7FC00000 ∧ ¬ FSig 0x7FC00000) ∧
    FInf 0x7F800000 ∧ FInf 0xFF800000 ∧ (FFin 0x80000000 ∧ fUnits 0x80000000 = 0) ∧ (FFin 1 ∧ fUnits 1 = 1) ∧
    (FFin 0xFF7FFFFF ∧ fUnits 0xFF7FFFFF = -(2 ^ 24 - 1) * 2 ^ 253) := by
  refine ⟨test_issues.1, ?_⟩; simp only [FSig, FNan, FInf, FFin]; decide
/-- One more than 1 and a tie between it and the next number, rounded to even. -/
theorem test_rounded : Rounded (2 ^ 25 + 1) 2 false 0x00800000 0x100 ∨ fUnits 0x3F800001 = (2 ^ 23 + 1) * 2 ^ 126 := .inr (by decide)

/-- A record in stage 127 of unit 3, in simulation or not. -/
def record (sim : Bool) : HRec := ⟨9, [], false, 5, 20, 0, 1, sim, 1, 0, [], 0, 127, .reset, [], 0, 0⟩
def inUnit (r : HRec) (regs : Tab Word) : State :=
  { st regs with hdl := { Heddle.reset with unit := [(3, { HUnit.reset with flight := [r] })] } }

theorem test_inStage : InStage (inUnit (record false) []) 3 9 0 (record false) ∧ InStage (inUnit (record true) []) 3 9 0 (record true) := by
  simp only [InStage]; decide

/-- Kernel operands: registers below 16, predicates below 8, accumulators below 2, mode 1. -/
theorem test_kernelStageInstructions : InStage (inUnit (record false) []) 3 9 0 (record false) ∧ (15#5).toNat < 16 ∧ (7#5).toNat < 8 ∧
    (1#5).toNat < 2 ∧ (31#12).toNat < 32 ∧ (0x7FFF#17).toNat < 2 ^ 15 ∧ (1#2).toNat < 2 := ⟨test_inStage.1, by decide⟩

/-- Registers 1 to 4 hold: the last 8 bytes below 0x80000, the first and the last word of a partition, an odd address. -/
def memSt : State := onCore false [(1, 0x7FFF8), (2, 0x10000000), (3, 0x10000FF8), (4, 0x10001), (5, 0x80000)]

theorem test_loadsAndStores : Issues memSt 8 0 ∧
    (let c := (getCore memSt 8).ctx
     let a (k : Nat) (n : Nat) : Nat := (effAddr c ⟨0, 2, BitVec.ofNat 5 k, 0⟩ n).toNat
     (∀ n ∈ [1, 2, 4, 8], a 1 n % n = 0 ∧ codeEnd memSt 8 ≤ a 1 n ∧ a 1 n + n ≤ 0x80000) ∧
     (∀ n ∈ [1, 2, 4, 8], ∀ k ∈ [2, 3], a k n % n = 0 ∧ 0x10000000 ≤ a k n ∧ a k n + n ≤ 0x12000000 ∧
       inPartition memSt (ten (coreOwner memSt 8)) (a k n - 0x10000000) n false = true) ∧
     (∀ n ∈ [2, 4, 8], a 4 n % n ≠ 0) ∧ (∀ n ∈ [1, 2, 4, 8], a 5 n % n = 0 ∧ mayLoad memSt 8 (a 5 n) n = false ∧ 0x80000 < a 5 n + n) ∧
     (2#5).toNat % 2 = 0 ∧ (2#5).toNat < 4) := ⟨⟨fetches_of_starts (by decide), by decide⟩, by decide⟩

/-- Warp 511 is tenant 1's; register 1 names it, register 2 names warp 0, which is nobody's, register 3 is the age 3999. -/
def rowSt : State := onCore false [(1, 511), (2, 0), (3, 3999), (4, 0x10000FE0)] [(Reg.loomWCfg 511, 0x10001), (Reg.hcDdr, 8)]
theorem test_prefetchAndRowLoads : Issues rowSt 8 0 ∧
    (let c := (getCore rowSt 8).ctx
     let a := (effAddr c ⟨0, 1, 4, 0⟩ 32).toNat
     a % 32 = 0 ∧ 0x10000000 ≤ a ∧ a + 32 ≤ 0x12000000 ∧ inPartition rowSt (ten (coreOwner rowSt 8)) (a - 0x10000000) 32 false = true ∧
     (c.rg 1).toNat < 512 ∧ warpOwner rowSt ⟨511, by decide⟩ = coreOwner rowSt 8 ∧ (c.rg 3).toNat < rateHz rowSt ∧ rb rowSt Reg.hcDdr 3 = true ∧
     rateHz rowSt ≤ (c.rg 4).toNat ∧ (21#7).toNat ≤ 21 ∧
     warpOwner rowSt ⟨0, by decide⟩ ≠ coreOwner rowSt 8 ∧ getArb rowSt (bankOf (a - 0x10000000)) = .reset ∧ (getCore rowSt 8).outst = [] ∧
     0 ≤ (c.rg 0 + (1#12).signExtend 32).toInt ∧ (c.rg 0 + (1#12).signExtend 32).toInt < imgLen rowSt 8) :=
  ⟨⟨fetches_of_starts (by decide), by decide⟩, by decide⟩

/-- A false predicate, a misaligned target, a pc behind the code. -/
theorem test_controlTransfers : Issues (onCore false [(1, 0x10002)]) 8 0 ∧ (getCore (onCore false []) 8).ctx.rp 1 = false ∧
    ((getCore (onCore false [(1, 0x10002)]) 8).ctx.rg 1 + (0#12).signExtend 32).toNat % 4 ≠ 0 ∧
    (let s := modCore (onCore false []) 8 (fun c => { c with pc := 0x10008 })
     (getCore s 8).run = .running ∧ inCode s 8 (getCore s 8).pc.toNat = false) ∧
    encodeWormin (.add (.core 8) ⟨3, 5, 6, 7⟩) = some (.core 8, 0x00531C03) := ⟨⟨fetches_of_starts (by decide), by decide⟩, by decide⟩

/-- Register 1 names publication 0 member 0 (and channel 0 output TRIP, slot 0, CLU loop 0 word 0), 2 and 3 addresses in the
partition's ends, 4 output CLOSE of channel 15, 5 slot 4095, 6 loop 31 word 30, 7 the last register. -/
def txSt : State :=
  let s := onCore true [(2, 0x10000000), (3, 0x10000FF8), (4, 0x1F), (5, 0xFFF), (6, 0x1E1F), (7, 0x13FFFFC)]
    [(Reg.hifOwnGpub 0, 1), (Reg.fioBcOwn 0, 1), (Reg.fioBcOwn 3, 0x01000000), (Reg.cluLOwn 1 31, 1)]
  { s with tru := ⟨[(0xFFF, { TSlot.reset with owner := 1 })], []⟩ }
theorem test_transactionInstructions : MayStage txSt 8 ∧ Issues txSt 8 0 ∧ isManager txSt 8 = true ∧
    (let c := (getCore txSt 8).ctx
     let own := coreOwner txSt 8
     let a (k n : Nat) : Nat := (effAddr c ⟨0, 2, BitVec.ofNat 5 k, 0⟩ n).toNat
     (∀ k ∈ [2, 3], ∀ n ∈ [4, 8], a k n % n = 0 ∧ 0x10000000 ≤ a k n ∧ a k n + n ≤ 0x12000000 ∧
       inPartition txSt (ten own) (a k n - 0x10000000) n true = true) ∧
     (let v := c.rg 0; fld v 15 11 = 0 ∧ fld v 31 22 = 0 ∧ fld v 10 0 < 1152 ∧ pubOwner txSt (fld v 10 0) = own) ∧
     (let v := c.rg 4; fld v 31 5 = 0 ∧ bcOwner txSt ⟨15, by decide⟩ = own ∧ fld v 3 0 = 15) ∧
     (let v := c.rg 5; fld v 31 12 = 0 ∧ (getSlot txSt (fld v 11 0)).owner = own) ∧
     cluOperand txSt 8 (c.rg 6) = some (1, 31, 30) ∧ loopWritable 30 = true ∧ (c.rg 7).toNat < 0x1400000 ∧ (c.rg 7).toNat % 4 = 0) :=
  ⟨by simp only [MayStage]; decide, ⟨fetches_of_starts (by decide), by decide⟩, by decide⟩
/-- Every publication has a member 0. -/
theorem test_txpub_member (p : Nat) : 0 < pubMembers p := Nat.succ_pos _
/-- A reservation used up, and a transaction already aborted. -/
theorem test_transactionBounds :
    (let s := modTen txSt 1 (fun x => { x with staged := 2 }); Issues s 8 0 ∧ aborted s 1 = false ∧ reservation s 1 ≤ (getTen s 1).staged) ∧
    (let s := modTen txSt 1 (fun x => { x with abort := some 2 }); Issues s 8 0 ∧ aborted s (coreOwner s 8) = true) :=
  ⟨⟨⟨fetches_of_starts (by decide), by decide⟩, by decide⟩, ⟨fetches_of_starts (by decide), by decide⟩, by decide⟩

theorem test_tendEndsTheProgram : Issues txSt 8 0 ∧ Fetches txSt 8 ∧ (getCore txSt 8).ctx.rp 7 = false :=
  ⟨⟨fetches_of_starts (by decide), by decide⟩, fetches_of_starts (by decide), by decide⟩

/-- An owned loop, word 22; its word 23; a loop of another tenant; injection kinds 0 and 1. -/
theorem test_controlLoopInstructions :
    (let s := onCore false [(1, 0x161F), (2, 1)] [(Reg.cluLOwn 1 31, 1)]
     Issues s 8 0 ∧ cluOperand s 8 ((getCore s 8).ctx.rg 1) = some (1, 31, 22) ∧ (getLoop s 1 31).wrk = none ∧
     tActive s (ten (loopOwner s 1 31)) = false ∧ tActive (wr s (Reg.cmtTState 1) 4) (ten (loopOwner s 1 31)) = true ∧
     fld ((getCore s 8).ctx.rg 0) 2 0 = 0 ∧ fld ((getCore s 8).ctx.rg 2) 2 0 = 1) ∧
    (let s := onCore false []; Issues s 8 0 ∧ cluOperand s 8 0 = none) :=
  ⟨⟨⟨fetches_of_starts (by decide), by decide⟩, by decide⟩, ⟨fetches_of_starts (by decide), by decide⟩, by decide⟩

/-- State words 63, modes 0 to 7 of HST; breaker channel 15 of tenant 1; slot 4095 of tenant 1. -/
theorem test_heddleInstructions :
    (let s := inUnit (record false) [(Reg.fioBcOwn 3, 0x01000000)]
     InStage s 3 9 0 (record false) ∧ (63#12).toNat < 64 ∧ (15#12).toNat < 16 ∧ (255#12).toNat < 256 ∧
     (getSlot s 4095).sim = (record false).sim ∧ tState s (ten (record false).owner) ≠ 4 ∧ bcOwner s 15 = (record false).owner ∧
     (record false).gen = unitGen s 3 ∧ rb s Reg.fioStatus 16 = false ∧ (record false).group = false ∧ (getUnit s 3).events.length < 256 ∧
     256 ≤ (List.replicate 256 (0, 0)).length ∧ (getSlot s 4095).sim ≠ (record true).sim ∧ tState (wr s (Reg.cmtTState 1) 4) (ten (record false).owner) = 4 ∧
     64 ≤ (2047#12).toNat ∧ (2047#12).toNat < 2048 ∧ stateWord s 3 (record false) 63 ≠ 0xFFFFFFFF) ∧
    (let s := modUnit (inUnit (record false) []) 3 (fun x => { x with sm := [((127 * 32 + 5) * 64 + 63, 0xFFFFFFFF)] })
     InStage s 3 9 0 (record false) ∧ stateWord s 3 (record false) 63 = 0xFFFFFFFF) ∧ Fetches txSt 8 := by
  refine ⟨?_, ?_, fetches_of_starts (by decide)⟩ <;> (simp only [InStage]; decide +kernel)

theorem test_systemInstructions : IssuesSystem txSt 8 0 ∧
    (let c := (getCore txSt 8).ctx
     (c.rg 7 + (0#12).signExtend 32).toNat < 0x1400000 ∧ (c.rg 7 + (0#12).signExtend 32).toNat % 4 = 0 ∧
     0x1400000 ≤ (c.rg 7 + (4#12).signExtend 32).toNat ∧ (c.rg 4).toNat % 4 ≠ 0) ∧
    Fetches memSt 8 ∧ isManager memSt 8 = false := ⟨⟨⟨fetches_of_starts (by decide), by decide⟩, by decide⟩, by decide, fetches_of_starts (by decide), by decide⟩

/-- A core that does not run; one that a trap of its tenant has halted at cycle 5 and that has come to cycle 6. -/
theorem test_haltedCores : (getCore memSt 9).run ≠ .running ∧
    (let s := modCore memSt 8 (fun c => { c with haltAt := some 5, cyc := 6 })
     (getCore s 8).run = .running ∧ (getCore s 8).haltAt = some 5 ∧ 5 < (getCore s 8).cyc ∧ ∀ b, watchdogEnd s 8 = some b → 5 < b) :=
  ⟨by decide, by decide, by decide, by decide, fun b h => by obtain ⟨w, -, rfl⟩ := Option.map_eq_some_iff.1 h; omega⟩
theorem test_falsePredicate : encodeWormin (.add (.core 8) ⟨3, 5, 6, 7⟩) = some (.core 8, 0x00531C03) ∧ Fetches memSt 8 ∧
    (getCore memSt 8).ctx.rp ((0x00531C03#32).extractLsb' 0 3).toNat = false ∧ opField 0x00531C03 ≠ 0x71 :=
  ⟨by decide, fetches_of_starts (by decide), by decide⟩

theorem test_noInstructionChangesStateMemory : encodeWormin (.sw 8 ⟨0, 5, 1, 0⟩) = some (.core 8, 0x70508000) ∧
    opField 0x70508000 ≠ 0x71 ∧ (∃ t, exec (.sw 8 ⟨0, 5, 1, 0⟩) memSt = .next t) := ⟨by decide, by decide, _, rfl⟩

/-! ## Ports and forwarding -/

/-- Port 143 in a state, and the frame of the tests. -/
def portSt (x : Nat) (regs : Tab Word := []) : State := st ((Reg.swcPStatus 143, W x) :: regs)
def frame : Frame := ⟨0x010CCD010001, 0x02, none, 0, 64, false, false, false, none, none, none, none, .raw 0 []⟩

/-- Cage port 143 at 25 and 10 Gbit/s, port 95 at 1 Gbit/s; MACsec on a port of no fast path, and on one of a bound warp. -/
theorem test_portStateCommands :
    (let s := portSt 0
     pState s 143 = 0 ∧ (∀ n ∈ [1, 5], bitOf (W n) 0 = true ∧ fld (W n) 2 1 ≠ 3) ∧ fld 5 2 1 ≠ 0 ∧ fld 1 2 1 = 0 ∧ fld 7 2 1 = 3 ∧
     (∀ q ∈ cageMates 143, rb s (Reg.swcPCfg q) 0 = false) ∧ fastPath s 143 = false) ∧
    (let s := { portSt 0 [(Reg.colPgrpx 0, 0x8000)] with
       sw := { Switch.reset with matchTab := [] }, tru := ⟨[(0, { TSlot.reset with st := 2, cfg := 1 })], []⟩ }
     fastPath s 143 = true) ∧ rb (st [(Reg.swcPCfg 143, 0x41)]) (Reg.swcPCfg 143) 6 = true ∧
    (pState (portSt 1) 143 = 1 ∧ (getPort (portSt 1) 143).lowPower = false ∧ pState (portSt 2) 143 = 2 ∧ pState (portSt 3) 143 = 3) ∧
    -- 5 s clean after an error at 1 s: not yet at 5 s of operating time, over at 6 s
    (let s := setPort (portSt 3 [(Reg.swcPFence 143, 0x85000000)]) 143 { Port.reset with lastErr := second }
     rb s (Reg.swcPFence 143) 31 = true ∧ rf s (Reg.swcPFence 143) 30 24 = 5 ∧
       (getPort s 143).lastErr + rf s (Reg.swcPFence 143) 30 24 * second ≤ s.op + (6 * second - s.now) ∧
       ¬ ((getPort s 143).lastErr + rf s (Reg.swcPFence 143) 30 24 * second ≤ s.op + (5 * second - s.now))) ∧
    (∀ n ∈ [2, 3], rf (portSt 2 [(Reg.swcPPreempt 143, W (16 * n + 1))]) (Reg.swcPPreempt 143) 1 0 = 1 ∧
      rf (portSt 2 [(Reg.swcPPreempt 143, W (16 * n + 1))]) (Reg.swcPPreempt 143) 7 4 = n) ∧ (143 - 96) / 4 = 11 := by decide +kernel

theorem test_egressAndPauseCommands :
    (let x : TripItem := ⟨0, none, frame, 8⟩
     let s := setPort (portSt 2) 143 { Port.reset with trips := [x] }
     hcSt s ≠ 3 ∧ 2 ≤ pState s 143 ∧ (getPort s 143).wire = none ∧ (getPort s 143).trips = [x] ∧ pubMuted s x.pub = false ∧ pState (portSt 4) 143 = 4) ∧
    (let x : Stored := ⟨frame, [], none, 0, 1, 1, 0, none, false, none⟩
     let s := { setPort (portSt 2) 143 { Port.reset with wire := some (.stored 0 frame) } with sw := { Switch.reset with frames := [(0, some x)] } }
     (getPort s 143).wire = some (.stored 0 frame) ∧ stored s 0 = some x ∧ x.refs = 1 ∧ pState s 143 ≠ 4) ∧
    (let s := { portSt 2 with sw := { Switch.reset with pausing := true } }; s.sw.pausing = true) ∧
    (let s := portSt 2 [(Reg.timeCtrl, 1)]
     rb s Reg.timeCtrl 0 = true ∧ ptpRole s 143 = .master ∧ pState s 143 = 2 ∧ pairMode s (pairOf 143) = 0 ∧
       (poolUse s 1).1 < 8192 ∧ (poolUse s 1).2 < 4096) ∧
    bitOf 3 0 = true ∧
    (∀ n ∈ [0x080F1001, 0x2A001001, 0x08000101],
      let v := W n
      let pause := fld v 12 8; let spill := fld v 29 24
      1 ≤ pause ∧ pause ≤ 16 ∧ fld v 20 16 < pause ∧ 8 ≤ spill ∧ spill ≤ 42) ∧
    (∀ n ∈ [0x08000001, 0x2B001001, 0x08101001], let v := W n; let pause := fld v 12 8; let spill := fld v 29 24
      ¬ (1 ≤ pause ∧ pause ≤ 16 ∧ fld v 20 16 < pause ∧ 8 ≤ spill ∧ spill ≤ 42)) := by decide +kernel

/-- A learned entry under the key of the FDB registers, an empty table, VLANs 1 and 4094, match entries 511, 512 and 2559. -/
def fdbSt : State :=
  { st [(Reg.swcFdbMacHi, 0x00010002), (Reg.swcFdbMacLo, 3), (Reg.swcFdbAge, 300), (Reg.swcVlanIdx, 4094)] with
    sw := { Switch.reset with fdb := [⟨1, 0x200000003, 0, false, second⟩], vlan := [(4094, some ⟨1, 0, 0xF⟩)] } }
theorem test_forwardingAndMatchTables :
    fdbKey fdbSt = (1, 0x200000003) ∧ fdbFind fdbSt 1 0x200000003 = some ⟨1, 0x200000003, 0, false, second⟩ ∧ second + rf fdbSt Reg.swcFdbAge 15 0 * second ≤ fdbSt.op + (301 * second - fdbSt.now) ∧ fdbFind (st []) 0 0 = none ∧
    fdbKey (st []) = (0, 0) ∧ bucketFull (st []) 0 0 = false ∧ rf fdbSt Reg.swcFdbAge 15 0 ≠ 0 ∧
    1 ≤ vlanIdx (st [(Reg.swcVlanIdx, 1)]) ∧ vlanIdx fdbSt ≤ 4094 ∧
    vlanOf fdbSt (BitVec.ofNat 12 (vlanIdx fdbSt)) = some ⟨1, 0, 0xF⟩ ∧ fld 3 1 0 = 3 ∧
    ((List.finRange 72).filter (fun q => q.val / 16 ≠ 0 ∧ pairMode fdbSt q = 2)).length ≤ 16 ∧ fld 0xC0000000 31 30 = 3 ∧
    (let s := st [(Reg.colPairmode 0, 0xAAAAAAAA)]; ((List.finRange 72).filter (fun q => q.val / 16 ≠ 1 ∧ pairMode s q = 2)).length = 16) ∧
    (∀ i ∈ [511, 512, 2559], rf (st [(Reg.colMatchIdx, W i)]) Reg.colMatchIdx 11 0 = i) := by
  decide +kernel
/-- No session, a session on a warp that holds a subscription's entry, and one on a subscription beside a warp's entry. -/
def sessionSt (k : Nat) : State := { st [] with hif := { Hif.reset with session := some ⟨k, 0, 1, [], []⟩ } }
theorem test_matchSessions : (st []).hif.session = none ∧ (sessionSt 0).hif.session = some ⟨0, 0, 1, [], []⟩ ∧
    macsecForbids (sessionSt 0) 2559 (keyEntry (sessionSt 0) true) = false ∧ (∀ x, (sessionSt 1).hif.session = some x → x.kind ≠ 0) :=
  ⟨rfl, rfl, by decide +kernel, fun x h => by cases h; decide⟩

/-! ## Reception, the Loom and the Heddle units -/

def goose : GooseMsg := ⟨[], 7, 3, 100, 0, false, false, false, [.int 8 (-5), .bits [true, false]]⟩
def gooseEntry : MatchEntry := ⟨0x010CCD010001, 0, 1, false, true, 0, []⟩
/-- Port 143 Up in group 0, match entry 512 for its GOOSE frames. -/
def rxSt : State :=
  { portSt 2 [(Reg.colPgrpx 0, 0x8000), (Reg.swcPPvid 143, 0)] with sw := { Switch.reset with matchTab := [(512, gooseEntry)], sub := [(0, { GooseSub.reset with seen := true })] } }
def asdu : SvAsdu := ⟨[], 8, 1, 0, 2, none, none, [7], [0]⟩

/-- Lengths 63, 64, 1522 and 1523; a pause; a GOOSE frame for subscription 0; a playback ASDU; a tag check; an expiry. -/
theorem test_receptionCommands :
    hcSt rxSt ≠ 3 ∧ pState rxSt 0 < 2 ∧ pState (portSt 4) 143 = 4 ∧ pState rxSt 143 = 2 ∧ pState (portSt 3) 143 = 3 ∧ rb rxSt (Reg.swcPCfg 143) 5 = false ∧
    (let f : Frame := { frame with body := .goose 1 true goose }
     f.reasmErr = false ∧ rb rxSt (Reg.swcPMacsec 143) 0 = false ∧ pairMode rxSt (pairOf 143) = 0 ∧ rb rxSt (Reg.swcPPvid 143) 12 = false ∧
     entriesFor rxSt 143 f (frameVid rxSt 143 f) 1 (some goose.goCbRef) 512 2560 = ([512], false) ∧ tagOk rxSt 2 0 f.tag = true) ∧
    goose.members.map GooseVal.toWord = [0xFFFFFFFB, 1] ∧
    (∀ u ∈ [none, some 3], let s := { rxSt with sw := { rxSt.sw with checks := [⟨4, 9, false, u, 70⟩, ⟨5, 9, false, none, 70⟩] } }
     s.sw.checks = [⟨4, 9, false, u, 70⟩, ⟨5, 9, false, none, 70⟩] ∧ (∀ y ∈ [(⟨5, 9, false, none, 70⟩ : TagCheck)], y.id ≠ 4) ∧
       (∀ r ∈ s.hdl.acted, r.deciding ≠ 4)) ∧
    (let s := setSub rxSt 2047 { GooseSub.reset with valid := true, until' := 100 * msec }
     (getSub s 2047).valid = true ∧ (getSub s 2047).until' ≤ s.op + (s.now + 100 * msec - s.now)) ∧
    -- a loopback ASDU of the warp's own size, and one of another
    asdu.dsLen = 8 * (warpCfg (st [(Reg.loomWCfg 9, 0x0001080D)]) 9).nvals ∧ asdu.dsLen ≠ 8 * (warpCfg (st []) 9).nvals := by decide +kernel

/-- Warp 9 of ratio 1 and one value, close delay 2, clock Locked, tick 5: its sample 1 at a time stamp of tick `n`, in a row of
its own, in a row that has it, and too late. -/
def svSt (tick : Nat) (rows : Tab (Tab (Option Sample))) : State :=
  let s := st [(Reg.loomWCfg 9, 0x00010A0D - 0x200), (Reg.loomStat, 2), (Reg.timeState, 2)]
  { s with
    time := { TimeUnit.reset with tick := tick }
    loom := { Loom.reset with started := true, pbLoop := [(3, 9, false, asdu, 0)], openRows := rows } }
def sample : Sample := ⟨false, false, false, true, false, 2, 1, 0, [7], 0, none⟩
theorem test_samplesArePlacedAtTheirTick :
    (∀ k ∈ [0, 2, 3], let s := svSt k []
      hcSt s ≠ 3 ∧ boundAt s 9 = none ∧ asdu.dsLen = 8 * (warpCfg s 9).nvals ∧ inCutCycle s = false ∧ asdu.confRev = (warpCfg s 9).confRev ∧ asdu.smpCnt < (warpCfg s 9).ratio * rateHz s ∧
      rb s (Reg.loomWState 9) 3 = false ∧ s.loom.started = true ∧ s.loom.enable = true ∧ (warpCfg s 9).valid = true ∧
      (warpCfg s 9).ratio ≠ 0 ∧ asdu.smpCnt % (warpCfg s 9).ratio = 0 ∧ timeAligned s 9 asdu = true ∧
      tickByTime (rateHz s) (warpCfg s 9).ratio 0 asdu.smpCnt = 1 ∧ s.loom.flushUpTo = none ∧ closeDelay s = 2) ∧
    rowSlot (svSt 0 []) 1 9 = none ∧ rowSlot (svSt 2 [(1, [(9, some sample)])]) 1 9 = some sample := by decide +kernel

theorem test_loomCommands :
    (let s := { st [] with loom := { Loom.reset with histDue := [1] } }; s.loom.histDue = [1]) ∧
    pbState (st []) = 0 ∧ pbCheck (st []) ≠ 0 ∧ pbState (st [(Reg.loomPbStatus, 2)]) ≠ 0 ∧
    (let s := { st [(Reg.loomPbNstr, 1), (Reg.loomPbRows, 2), (Reg.loomPbStartLo, 2), (Reg.loomWState 0, 1)] with
       ddr := pokes [] 0 ([0, 2, 4, 0] ++ List.replicate 16 0 ++ [1]) }
     pbState s = 0 ∧ pbCheck s = 0) ∧
    (∀ n ∈ [1, 64], 1 ≤ fld (W (2 * n)) 7 1 ∧ fld (W (2 * n)) 7 1 ≤ 64) ∧ allIdle (st []) = true ∧
    allCovered (st []) (rf (st []) Reg.loomTransit 15 0) 64 = true ∧ fld (W 130) 7 1 = 65 ∧
    -- a tenant that runs: only an unchanged close delay is taken
    (let s := st [(Reg.cmtTState 1, 3)]
     allIdle s = false ∧ (∀ n ∈ [0, 1], fld (rd s Reg.loomCtrl &&& 0xFE ||| W n) 7 1 = rf s Reg.loomCtrl 7 1) ∧
       1 ≤ rf s Reg.loomCtrl 7 1 ∧ rf s Reg.loomCtrl 7 1 ≤ 64 ∧ fld (W 128) 7 1 ≠ rf s Reg.loomCtrl 7 1) ∧
    allCovered (st []) 0xFFFF (nextDelay (st [])) = true ∧
    allCovered (st [(Reg.loomWCfg 9, 0x0001080D)]) 0xFFFF (nextDelay (st [(Reg.loomWCfg 9, 0x0001080D)])) = false ∧
    (let s := sessionSt 0
     s.hif.session = some ⟨0, 0, 1, [], []⟩ ∧ inSession s 0 (0 : Fin 512) = true ∧ inSession s 0 (510 : Fin 512) = false) ∧
    ((0x2000 : Word) ^^^ rd (st []) (Reg.loomWCfg 3)) &&& 0x3F5FFF = 0 ∧ ((1 : Word) ^^^ rd (st []) (Reg.loomWCfg 3)) &&& 0x3F5FFF ≠ 0 := by
  decide +kernel

/-- Unit 3 with a record queued from warp 20 in slot 5, of tenant 1, Running; and one in flight. -/
def queueSt (ctrl : Word) : State :=
  { st [(Reg.cmtTState 1, 3), (Reg.hdlUWarp 3 5, 0x8014), (Reg.hdlUCtrl 3, ctrl)] with
    hdl := { Heddle.reset with unit := [(3, { HUnit.reset with queue := [record false], flight := [record true], events := [⟨1, 2, 3, false, 4⟩] })] } }
theorem test_heddleRecordCommands :
    (∀ n ∈ [0, 1], let s := queueSt (W n)
      hcSt s ≠ 3 ∧ (getUnit s 3).queue = [record false] ∧ tActive s (ten 1) = true ∧ bValid (bindWord s 3 5) = true ∧
      (bWarp (bindWord s 3 5)).val = 20 ∧ rb s (Reg.hdlUCtrl 3) 0 = (n == 1) ∧ unitRole s 3 ≠ 3 ∧ s.hdl.restoring ≠ some 3 ∧ (record false).group = false ∧
      getRec s 3 9 = some (record true) ∧ s.hdl.comparing = false ∧ (getUnit s 3).events = [⟨1, 2, 3, false, 4⟩]) ∧
    (getUnit (st []) 3).events = [] ∧
    (let s := st [(Reg.hdlUCtrl 16, 2)]
     rb s (Reg.hdlUCtrl 16) 1 = true ∧ unitRole s 16 ≠ 3 ∧ s.hdl.restoring = none ∧ rb s (Reg.hdlUStatus 16) 18 = false ∧ unitRole s 16 ≠ 2 ∧ nextShadow s = some 0) ∧
    (let s := { st [(Reg.hdlUCtrl 16, 2), (Reg.hdlUStatus 16, 2)] with hdl := { Heddle.reset with shadowTicks := 4800, next := 16 } }
     rb s (Reg.hdlUCtrl 16) 1 = true ∧ unitRole s 16 = 2 ∧ s.hdl.restoring = none ∧ rb s (Reg.hdlUStatus 16) 18 = false ∧
       4800 ≤ s.hdl.shadowTicks ∧ nextShadow s = some 0 ∧ bitOf (16 : Word) 1 = false) ∧
    ¬ shadows (st []) 3 ∧ shadows { st [(Reg.hdlUStatus 16, 0x0E)] with hdl := { Heddle.reset with comparing := true } } 3 ∧
    rb (st [(Reg.hdlUStatus 16, 0x80)]) (Reg.hdlUStatus 16) 7 = true ∧
    ({ st [] with hdl := { Heddle.reset with restoring := some 15 } } : State).hdl.restoring = some 15 := by decide +kernel

/-- Kernel 7 of NOPs loaded for tenant 1, Stopped or Running; bindings inside and outside a session; a gate with a member and one
enabled without. -/
theorem test_heddleConfigurationCommands :
    (let s := st [(Reg.cmtTState 1, 1)]
     let v : Word := 0x8000000F
     bitOf v 31 = true ∧ fld v 8 3 = 1 ∧ fld v 2 0 = 7 ∧ tState s (ten 1) ≤ 1 ∧
     (∀ i ∈ List.range 128, stageFault s 1 (rd s (Reg.hdlUKtab 3 i)) = 0) ∧
     placed ((List.range 128).map (fun i => rd s (Reg.hdlUKtab 3 i)) :: ((getUnit s 3).kernels.filter (fun e => e.1 ≠ 7)).map (·.2)) (wMax s 3) = true ∧
     (∀ j ∈ List.range 32, bValid (bindWord s 3 j) = false) ∧ (∀ g ∈ List.range 8, gateEn s 3 g = false)) ∧
    1 < tState (st [(Reg.cmtTState 1, 3)]) (ten 1) ∧
    (let s := { st [] with hif := { Hif.reset with session := some ⟨0, 511, 1, [], []⟩ } }
     s.hif.session = some ⟨0, 511, 1, [], []⟩ ∧ (bWarp ((0x81FF : Word) &&& 0xFFFF)).val = 511) ∧ (st []).hif.session = none ∧
    gateFault (wr (st []) (Reg.hdlGMemb 3 7) 1) 3 7 = 0 ∧ gateFault (wr (st []) (Reg.hdlGCfg 3 7) 1) 3 7 ≠ 0 := by decide +kernel

/-- Slot 4095 of tenant 1 in a state, with a release request of a policy and generation. -/
def tripSt (x policy gen : Nat) (regs : Tab Word) : State :=
  { st ((Reg.truCtrl, 1) :: regs) with
    tru := ⟨[(4095, { TSlot.reset with st := x, owner := 1 })], [(0, { Pub.reset with hold := some 4095 })]⟩
    hdl := { Heddle.reset with reqs := [⟨3, gen, 4095, 1, policy, 0, [], 0⟩], holds := [⟨3, gen, 4095, 1, 2, 0, [8], 0⟩], verdict := [(8, x == 2)] } }
theorem test_tripReleaseUnitCommands :
    (let s := tripSt 2 0 0 []
     hcSt s ≠ 3 ∧ s.hdl.reqs = [⟨3, 0, 4095, 1, 0, 0, [], 0⟩] ∧ unitGen s 3 = 0 ∧ truOn s = true ∧ (getSlot s 4095).owner = 1 ∧
     (getSlot s 4095).st = 2 ∧ pubMuted s (getSlot s 4095).pub = false ∧ s.hdl.holds = [⟨3, 0, 4095, 1, 2, 0, [8], 0⟩] ∧ verdictOf s 8 = some true ∧
     (getPub s 0).hold = some 4095 ∧ pubMuted s 0 = false ∧ (getPub s 0).nextAt ≤ s.op + (s.now - s.now) ∧
     -- the hold of 112 cycles: over, and one unit short of it
     0 + 112 * mainCycle ≤ s.op + (s.now + 112 * mainCycle - s.now) ∧ ¬ (0 + 112 * mainCycle ≤ s.op + (s.now + 112 * mainCycle - 1 - s.now))) ∧
    (let s := tripSt 1 2 0 []
     s.hdl.reqs = [⟨3, 0, 4095, 1, 2, 0, [], 0⟩] ∧ (getSlot s 4095).st = 1 ∧ unitGen s 3 = 0 ∧ verdictOf s 8 ≠ some true) ∧
    (let s := tripSt 1 0 0 []
     s.hdl.reqs = [⟨3, 0, 4095, 1, 0, 0, [], 0⟩] ∧ (getSlot s 4095).st = 1 ∧ unitGen s 3 = 0 ∧ truOn s = true) ∧
    (let s := tripSt 1 2 1 []
     s.hdl.reqs = [⟨3, 1, 4095, 1, 2, 0, [], 0⟩] ∧ s.hdl.holds = [⟨3, 1, 4095, 1, 2, 0, [8], 0⟩] ∧ unitGen s 3 ≠ 1) ∧
    (let s := st [(Reg.truSCfg, 0x01000400), (Reg.truSLen, 64), (Reg.truTemplate 0, 0x0500), (Reg.truTemplate 2, 0x0500), (Reg.truSOfs, 8 * 65536), (Reg.truSTofs, 56)]
     rb s Reg.truSCfg 24 = true ∧ slotGood s = true ∧ slotFree s (slotIdx s) = true) ∧
    (let s := st [(Reg.truSCfg, 0x01000400)]; rb s Reg.truSCfg 24 = true ∧ slotGood s = false) ∧
    (let s := { tripSt 2 0 0 [] with regs := (st [(Reg.truSlotIdx, 4095)]).regs }; slotFree s (slotIdx s) = false) ∧
    fld 0x03E80001 9 0 ≠ 0 ∧ fld 0x03E80001 25 16 = 1000 ∧ fld 0x03E90001 25 16 = 1001 ∧ fld 0x03E80000 9 0 = 0 := by decide +kernel

theorem test_publicationCommands :
    hcSt (st []) ≠ 3 ∧ (getPub (st []) 1023).hold = none ∧ (getPub (st []) 1023).restored = false ∧
    (getPub (st []) 1023).nextAt ≤ (st []).op + ((st []).now - (st []).now) ∧
    (let s := { st [] with tru := ⟨[], [(1023, { Pub.reset with nextAt := 1 })]⟩ }; s.op + (s.now - s.now) < (getPub s 1023).nextAt) ∧
    (getPub (tripSt 2 0 0 []) 0).hold ≠ none ∧ pubMuted (st [(Reg.pluGateGpub 31, 0x80000000), (Reg.pluGateSpub 3, 0x80000000)]) 1023 = true ∧
    pubMuted (st [(Reg.pluGateGpub 31, 0x80000000), (Reg.pluGateSpub 3, 0x80000000)]) (1024 + 127) = true := by decide +kernel

/-! ## Recorder, archive, arbiters and time -/

def logRecord : LogRec := ⟨5, 0, 0, false, none, 1, 0, 0, 0, 0, []⟩
def ringSt (ring : List LogRec) (flushing : Option Nat) (regs : Tab Word := []) : State :=
  { st regs with rec' := { Recorder.reset with ring := ring, flushing := flushing } }
theorem test_pantryAndLogCommands :
    (let s := { st [(Reg.panStatus, 1)] with rec' := { Recorder.reset with pan := [(7, { PanWord.reset with phys := 80000000 })] } }
     80000000 ≤ (getPan s 7).phys ∧ 0 < rf s Reg.panStatus 9 0) ∧
    -- operating time after 6 minutes, one power cycle, a lost record 10 s ago; nothing due at reset
    (∀ c ∈ [Counter.opTime, .pwrCyc, .logLost], counterDue c (st []) = false) ∧
    (let s := { st [(Reg.panPwrcyc, 1), (Reg.panLogLost, 1)] with op := 360 * second }
     s.rec'.panOp + 360 * second ≤ s.op ∧ s.rec'.panCyc ≠ rf s Reg.panPwrcyc 23 0 ∧
       s.rec'.panLost ≠ (rd s Reg.panLogLost).toNat ∧ s.rec'.lostAt + 10 * second ≤ s.op) ∧
    frozen (st [(Reg.logStatus, 0x20000)]) = true ∧
    (let s := ringSt [logRecord] none; frozen s = false ∧ s.rec'.flushing = none ∧ s.rec'.ring ≠ []) ∧
    (let s := ringSt [logRecord] (some 1)
     s.rec'.flushing = some 1 ∧ s.rec'.flushAgain = false ∧ s.rec'.ring = [logRecord] ∧ recordSector s = some 0 ∧ s.rec'.clearStep ≠ 1 ∧ failing s = false ∧
       (∀ x ∈ ([] : List LogRec), x.severity < 3)) ∧
    (let s := { st [] with rec' := { Recorder.reset with sectors := [(4095, ⟨some (1, 5), false, false, false, [logRecord]⟩)] } }
     0 < (getSec s 4095).recs.length ∧ rb s Reg.logStatus 16 = false ∧ s.rec'.ring.length < 1024) := by decide +kernel

theorem test_logFreezeAndClearCommands :
    bitOf 1 0 = true ∧ (ringSt [logRecord] none).rec'.ring.length < 960 ∧ failing (st []) = false ∧
    (let s := { st [(Reg.vfLogFreeze 63, 1)] with rec' := { Recorder.reset with freezeAt := [(63, 0)] } }
     rb s (Reg.vfLogFreeze 63) 0 = true ∧ (∀ e ∈ s.rec'.freezeAt, e.1 = 63) ∧ s.rec'.freezeAt = [(63, 0)] ∧
     0 + 10 * second ≤ s.op + (s.now + 10 * second - s.now)) ∧
    clearRefusal (st []) 0 = 0 ∧ clearRefusal (st [(Reg.panLoglock, 1)]) 63 = 1 ∧ clearRefusal (st [(Reg.logStatus, 0x20000)]) 0 = 2 ∧
    (let s := { st [] with rec' := { Recorder.reset with armBy := some 0 } }
     s.rec'.armBy ≠ none ∧ clearRefusal s 0 = 0 ∧ s.rec'.armBy = some 0 ∧ s.op + (s.now + second - s.now) ≤ s.rec'.armAt + second ∧
     s.rec'.armAt + second ≤ s.op + (s.now + second - s.now) ∧ s.rec'.armAt + second < s.op + (s.now + second + 1 - s.now) ∧ s.rec'.ring = []) ∧
    (st []).rec'.armBy ≠ some 0 ∧
    (let s := { st [] with rec' := { Recorder.reset with erase := [3, 4095] } }
     s.rec'.erase = [3, 4095] ∧ s.rec'.clearing = none ∧ 3 ∉ [4095] ∧ 3 ≠ 0) ∧ (st []).rec'.erase = [] ∧
    (let s := { st [] with rec' := { Recorder.reset with erase := [0, 5], sectors := [(5, { LogSector.reset with header := some (1, 7) })] } }
     s.rec'.erase = [0, 5] ∧ s.rec'.clearing = none ∧ 0 ∉ [5] ∧ (∀ e ∈ s.rec'.sectors, e.1 ∈ [5] ∨ e.2.header = none) ∧ s.rec'.ring.length < 1024) ∧
    driveSlots (2 * 2 ^ 20 + 34848 * 2047) = 1024 := by decide +kernel

def driveSt (present : Bool) (staging : List (Option Row)) (regs : Tab Word := []) : State :=
  { st regs with arc := { Archive.reset with
      drive := [(3, ⟨present, some (0, 0, 1), 2048, 4, 4, false⟩)], staging := staging, slots := [(1023, ⟨0, true, true, none⟩)] } }
def row : Row := ⟨1, 0, 0, 2, 1, false, []⟩
theorem test_archiveCommands :
    (driveSt true [some row]).arc.staging = [some row] ∧ row.gap = false ∧ gapRow none = true ∧ (driveSt true [some row]).arc.stage = .value ∧
    (driveSt true [none]).arc.staging = [none] ∧ (getDrive (driveSt true []) 3).present = true ∧ (getDrive (driveSt false []) 3).present = false ∧
    (let s := driveSt true [] [(Reg.arcHeadLo, 1024)]
     let r := (driveRange s 3).getD (rangesEnd s, (getDrive s 3).slots / 1024 * 1024)
     r.2 ≤ (getDrive s 3).slots ∧ r.2 ≠ 0 ∧ driveOf s (arcHead s) ≠ some 3 ∧ r.1 + r.2 ≤ 2 ^ 33) ∧
    rb (st [(Reg.loomCtrl, 0x200)]) Reg.loomCtrl 9 = true ∧ rb (driveSt true []) Reg.loomCtrl 9 = false ∧
    (∀ e ∈ List.range 4, (getDrive (driveSt true []) e).slots ≤ 2 ^ 31) ∧
    (let s := driveSt true [] [(Reg.arcXferCnt, 1), (Reg.arcXferSlotLo, 1023), (Reg.arcSlotsLo, 1024)]
     let x := xferOf s 3
     bitOf 3 0 = true ∧ s.arc.xfer = none ∧ x.count ≠ 0 ∧ x.first + x.count ≤ rd64 s Reg.arcSlotsLo Reg.arcSlotsHi ∧ x.slots = [1023] ∧
     (∀ n ∈ x.slots, slotAvail s n = true) ∧ bitOf x.cmd 1 = true ∧ bitOf 5 1 = false ∧
     (∀ n ∈ x.slots, slotAvail (st []) n = false)) := by
  decide +kernel

/-- Requests of bank 15: of port 8, of a cluster port, of the pair link's incoming transfer; one of nine beats; a DDR5 channel;
partition entries taken and refused. -/
def arbSt (k : Nat) (l : List ArbReq) : State := { st [(Reg.hcDdr, 8)] with arb := [(k, { Arb.reset with reqs := l })], op := mainCycle }
def reqA : ArbReq := ⟨8, 0, 0, 1, 0, 0, 0⟩
def reqB : ArbReq := ⟨1, 8, 0, 1, 0, 0, 0⟩
def reqC : ArbReq := ⟨10, 0, 0, 8, 0, 0, 0⟩
theorem test_arbiterAndTransferCommands :
    (let s := arbSt 15 [reqA, reqB]
     let a := getArb s 15
     let c := nextCycle a (cycleOf s)
     failing s = false ∧ a.reqs = [reqA, reqB] ∧ a.held = [] ∧ reqA.port ≠ reqB.port ∧ reqA.mask = 0 ∧ reqB.mask = 0 ∧
     burst false (roll false c a) reqA = reqA.beats ∧ burst false (roll false c a) reqB = reqB.beats ∧ reqA.stamp < c ∧ reqB.stamp < c ∧
     atQuota false (roll false c a) reqA.port = false ∧ atQuota false (roll false c a) reqB.port = false ∧ ahead false c reqA reqB = true ∧ ahead false c reqB reqA = false) ∧
    (∀ r ∈ [reqA, reqC, { reqC with beats := 9 }],
      let s := arbSt 15 [r]
      let a := getArb s 15
      failing s = false ∧ a.reqs = [r] ∧ a.held = [] ∧ atQuota false (roll false (nextCycle a (cycleOf s)) a) r.port = false ∧
      (burst false (roll false (nextCycle a (cycleOf s)) a) r = r.beats ↔ r.beats ≤ 8)) ∧
    reqA.beats ≤ 8 ∧ reqA.port ≠ 10 ∧ (reqC.beats ≤ 8 ∧ reqC.port = 10 ∧ reqC.core = 0) ∧ 8 < ({ reqC with beats := 9 } : ArbReq).beats ∧
    (getArb (st []) 15).reqs = [] ∧
    (let s := arbSt 19 [reqA]
     let a := getArb s 19
     rb s Reg.hcDdr 3 = true ∧ a.reqs = [reqA] ∧ a.held = [] ∧ burst true (roll true (nextCycle a (cycleOf s)) a) reqA = reqA.beats ∧ atQuota true (roll true (nextCycle a (cycleOf s)) a) reqA.port = false) ∧
    rb (st [(Reg.hcDdr, 7)]) Reg.hcDdr 3 = false ∧
    0 < 262144 ∧ (st []).plu.rxBytes + 262144 ≤ 262144 ∧ 262144 < (st []).plu.rxBytes + 262145 ∧ (st []).plu.sending = none ∧
    (let s := { st [] with plu := { Plu.reset with sending := some ⟨1, 0, false, []⟩, credits := 0 }, regs := (st [(Reg.pluStatus, 0xF00)]).regs }
     s.plu.sending = some ⟨1, 0, false, []⟩ ∧ lanesUp s ≠ 0) ∧
    ptReason (st []) 63 0 0xE0000001 = 0 ∧ ptReason (st []) 63 0 0xE0003FFF ≠ 0 ∧ ptReason (st [(Reg.cmtTState 63, 3)]) 63 0 0xE0000001 = 1 := by
  decide +kernel

/-- The data set of a master on port 143, one better than it, and the clock in a state with the first, after `q` qualifying
intervals. -/
def master : Announce := ⟨0, 0, 6, 0x21, 0, 0, 5, 0, 0⟩
def better : Announce := { master with gm := 4 }
def clkSt (x q lockRun overRun : Nat) (ctrl : Word := 3) : State :=
  { st [(Reg.timeState, W x), (Reg.timeCtrl, ctrl)] with
    time := { TimeUnit.reset with best := some (master, 143), heard := [(143, some (master, 0))], qual := q, lockRun := lockRun, overRun := overRun } }
theorem test_clockMessages :
    (let s := st [(Reg.timeCtrl, 3)]
     master.domain = rf s Reg.timePrio 23 16 ∧ rb s Reg.timeCtrl 0 = true ∧ s.time.best = none ∧
     (∀ q : Fin 144, Tab.get none s.time.heard q = none) ∧ clkRole s = 1) ∧
    master.domain ≠ rf (st [(Reg.timePrio, 0x10000)]) Reg.timePrio 23 16 ∧
    (let s := clkSt 2 0 0 0
     (142 : Fin 144) ≠ 143 ∧ better.domain = rf s Reg.timePrio 23 16 ∧ rb s Reg.timeCtrl 0 = true ∧ clkRole s = 1 ∧
       s.time.best = some (master, 143) ∧ Tab.get none s.time.heard 143 = some (master, 0) ∧
       (∀ r : Fin 144, r ≠ 143 → Tab.get none s.time.heard r = none) ∧ betterMaster better master = true ∧ better.gm ≠ master.gm ∧ clkState s = 2) ∧
    (let q := rf (clkSt 0 0 0 0) Reg.timePtpcfg 23 16
     rb (clkSt 0 (q - 1) 0 0) Reg.timeCtrl 0 = true ∧ clkRole (clkSt 0 0 0 0) ≤ 1 ∧ (clkSt 0 0 0 0).time.best = some (master, 143) ∧
     (clkSt 0 0 0 0).time.syncAt = none ∧ better.gm ≠ master.gm ∧ 0 + 1 < q ∧ q ≤ (q - 1) + 1 ∧ (clkSt 0 (q - 1) 0 0).time.qual = q - 1) ∧
    -- two nominal Sync intervals after the last Sync: a gap; one unit less: none
    (let s := { clkSt 0 0 0 0 with time := { (clkSt 0 0 0 0).time with syncAt := some 0 } }
     let d := 2 * logInterval (rf s Reg.timePtpcfg 3 0)
     0 + d ≤ s.op + (s.now + d - s.now) ∧ ¬ (0 + d ≤ s.op + (s.now + d - 1 - s.now)) ∧ clkState s = 0 ∧ 1 < rf s Reg.timePtpcfg 23 16) ∧
    clkState (clkSt 0 0 0 0) = 0 ∧ clkState (clkSt 1 0 15 0) = 1 ∧ clkState (clkSt 4 0 15 0) = 4 ∧ clkState (clkSt 2 0 0 3) = 2 ∧
    (meanInt ((400 :: (clkSt 1 0 15 0).time.filt).take 8)).natAbs ≤ 400 ∧ (clkSt 1 0 15 0).time.lockRun = 15 ∧
    4000 < (meanInt ((4001 :: (clkSt 2 0 0 3).time.filt).take 8)).natAbs ∧ (clkSt 2 0 0 3).time.overRun = 3 ∧
    -- the Announce timeout at its end and one unit before; the IRIG and 1PPS references two seconds after their last
    (let s := clkSt 2 0 0 0
     let d := rf s Reg.timePtpcfg 11 8 * logInterval (rf s Reg.timePtpcfg 7 4)
     0 + d ≤ s.op + (s.now + d - s.now) ∧ ¬ (0 + d ≤ s.op + (s.now + d - 1 - s.now))) ∧
    (let s := { clkSt 2 0 0 0 with time := { TimeUnit.reset with irigAt := some 0, edgeAt := some 0 } }
     ∀ irig : Bool, ∀ x, (if irig then s.time.irigAt else s.time.edgeAt) = some x → x + 2 * second ≤ s.op + (s.now + 2 * second - s.now)) ∧
    clkRole (clkSt 2 0 0 0 7) = 3 ∧ clkRole (clkSt 2 0 0 0 5) = 2 ∧
    -- 24 hours of operating time after the last step of the ageing model
    (let s := { clkSt 2 0 0 0 with op := 24 * 3600 * second }
     s.rec'.ageAt + 24 * 3600 * second ≤ s.op ∧ (clkSt 2 0 0 0).op < (clkSt 2 0 0 0).rec'.ageAt + 24 * 3600 * second) ∧
    -- the minutes of Holdover over, and one unit before
    (let s := clkSt 3 0 0 0
     let d := rf s Reg.timeHoldcfg 7 0 * (60 * second)
     clkState s = 3 ∧ s.time.holdSince + d ≤ s.op + (s.now + d - s.now) ∧ ¬ (s.time.holdSince + d ≤ s.op + (s.now + d - 1 - s.now))) := by
  and_intros <;> decide +kernel

theorem test_timeInputsAndRegisters :
    (let s := st [(Reg.timeRefin, 5)]
     rb s Reg.timeRefin 0 = true ∧ rb s Reg.timeRefin 1 = false ∧ clkRole s ≠ 3 ∧ s.time.ring.length < 64 ∧ rb s Reg.timeRefin 2 = true ∧ clkRole s ≠ 2) ∧
    (let s := { st [(Reg.timeRefin, 5)] with time := { TimeUnit.reset with ring := List.replicate 64 ⟨0, false⟩ } }; 64 ≤ s.time.ring.length) ∧
    (let s := { st [(Reg.timeRefin, 5), (Reg.timeCtrl, 5)] with time := { TimeUnit.reset with qual := 3 } }
     clkRole s = 2 ∧ rb s Reg.timeCtrl 0 = true ∧ (4#4).toNat ≤ 4 ∧ s.time.qual = 3 ∧ clkState s = 0 ∧ s.time.ring.length < 64 ∧ s.time.irigAt = none) ∧
    (let s := { st [(Reg.timeRefin, 5), (Reg.timeCtrl, 7)] with time := { TimeUnit.reset with qual := 3, timeSet := true } }
     clkRole s = 3 ∧ rb s Reg.timeCtrl 0 = true ∧ s.time.qual = 3 ∧ s.time.timeSet = true ∧ clkState s = 0 ∧ s.time.edgeAt = none ∧
       rb s Reg.timeRefin 0 = true ∧ rb s Reg.timeRefin 1 = false) := by decide +kernel
theorem test_timeRegisters :
    (let s := st [(Reg.timePpsout, 1)]; rb s Reg.timePpsout 0 = true ∧ warned s = false) ∧ warned (st [(Reg.hcState, 3)]) = true ∧ rb (st [(Reg.timePpsout, 0)]) Reg.timePpsout 0 = false ∧
    ({ st [(Reg.timePpsout, 3)] with time := { TimeUnit.reset with pps := true } } : State).time.pps = true ∧
    fld 7 3 1 < 4 ∧ fld 7 5 4 ≠ 3 ∧ PtpcfgInRange 0x00405241 ∧ ¬ PtpcfgInRange 0x00035241 ∧ ¬ PtpcfgInRange 0x00405242 ∧
    allIdle (st []) = true ∧ rf (st []) Reg.loomPbStatus 1 0 = 0 ∧ allIdle (st [(Reg.cmtTState 63, 2)]) = false ∧ fld 7 3 1 = clkRole (st [(Reg.timeCtrl, 7)]) ∧ bitOf 7 0 = true ∧ bitOf 6 0 = false ∧
    (let s := st [(Reg.timeSetSecLo, 3)]; clkState s = 0 ∧
      4000000 < ((((3 * second : Nat) : Int) - ((secOf (max s.now 0) + 1) * second : Nat)).tdiv 36).natAbs) ∧
    (let s := st [(Reg.timeSetSecLo, 3), (Reg.timeState, 2), (Reg.timeCtrl, 7)]; clkRole s = 3 ∧ clkState s = 2 ∧
      0 < (((3 * second : Nat) : Int) - ((secOf (max s.now 0) + 1) * second : Nat)).tdiv 36) ∧
    (let s := st [(Reg.timeState, 2)]; clkState s ≠ 0 ∧ clkRole s ≠ 3) ∧
    (let s := { st [] with time := { TimeUnit.reset with ring := [⟨5, true⟩] } }; s.time.ring = [⟨5, true⟩]) ∧ (st []).time.ring = [] := by
  simp only [PtpcfgInRange]; decide +kernel

/-! ## Ticks, tenants, spares -/

/-- Tenant 1 in a state with core 8, and the tick in a phase. -/
def tenSt (state : Nat) (ph : Phase := .idle) (regs : Tab Word := []) : State :=
  let s := onCore false [] ((Reg.cmtTState 1, W state) :: regs)
  { s with cmt := { s.cmt with phase := ph } }
def tenWd (ph : Phase) : State :=
  let s := tenSt 3 ph
  { s with ten := [(1, { Tenant.reset with image := some { image false with cores := [⟨0x10000, 0x10000, [], 16, []⟩] } })] }
def tenWdAt (cyc : Nat) : State := modCore (tenWd .window) 8 (fun c => { c with cyc := cyc })
def withDop (s : State) (copying : Option Nat) (d : Dop) : State := { s with cmt := { s.cmt with dop := [(7, d)], copying := copying } }

theorem test_tickPhases :
    hcSt (st [(Reg.hcState, 3)]) = 3 ∧
    (let s := tenSt 3; hcSt s ≠ 3 ∧ s.time.ratePend = none ∧ s.time.step = none ∧ hcSt s ≤ 1 ∧ s.plu.restart = false) ∧
    (let s := { st [] with time := { TimeUnit.reset with step := some ⟨-1, 7, false⟩ } }
     hcSt s ≠ 3 ∧ s.time.ratePend = none ∧ s.time.step = some ⟨-1, 7, false⟩ ∧ ((nextNumber s : Int) - 1).toNat = nextNumber s - 1) ∧
    (let s := tenSt 3 .delivered
     s.cmt.phase = .delivered ∧ coreOwner s 8 ≠ 0 ∧ tActive s (ten (coreOwner s 8)) = true ∧
     coreImage s 8 = some ⟨0x10000, 0x10000, List.replicate 8 0, 16, []⟩ ∧ served s 8 = true) ∧
    (let s := tenSt 3 .window; s.cmt.phase = .window ∧ hcSt s ≤ 1) ∧
    (let s := tenSt 3 .applied
     s.cmt.phase = .applied ∧ hcSt s ≤ 1 ∧ s.cmt.updates = [] ∧ s.plu.apply = [] ∧ s.cmt.aperture = [] ∧
     ∀ f : Fin 64, (getTen s f).initDue = false) ∧
    (let s := withDop (tenSt 3 .swapped) none { Dop.reset with status := 1 }
     s.cmt.phase = .swapped ∧ (getDop s 7).status = 1 ∧ (getDop s 7).tick = s.time.tick) ∧
    (let s := tenSt 3 .swapped; s.cmt.phase = .swapped ∧ ∀ i < 8, (getDop s i).status ≠ 1) ∧
    (let s := withDop (tenSt 3) (some 7) { Dop.reset with list := [(0x40, 0x80, 64)], status := 1 }; s.cmt.copying = some 7 ∧ s.cmt.shadow = []) ∧
    (let s := tenWd .window
     (getCore s 8).run = .running ∧ watchdogEnd s 8 = some 4816 ∧ coreOwner s 8 ≠ 0 ∧ tActive s (ten (coreOwner s 8)) = true ∧
       max (getCore s 8).cyc ((s.now - s.time.edge) / mainCycle) < 4816) ∧
    (let s := tenWdAt 4816
     4816 ≤ max (getCore s 8).cyc ((s.now - s.time.edge) / mainCycle) ∧ (getCore s 8).haltAt = none ∧ (getCore s 8).run = .running ∧
       watchdogEnd s 8 = some 4816) ∧
    (let s := modCore (tenWdAt 4816) 8 (fun c => { c with haltAt := some 4815 })
     (getCore s 8).run = .running ∧ watchdogEnd s 8 = some 4816 ∧ (getCore s 8).haltAt = some 4815 ∧ 4815 < 4816) := by
  decide +kernel

theorem test_commitDecision :
    (let s := { tenSt 3 with core := [(8, { runs [] [] with run := .ended, tended := true })] }
     tState s 1 = 3 ∧ (getTen s 1).pend = [] ∧ uncommitted s 1 = none) ∧
    (let s := tenSt 3 .idle [(Reg.cmtTTol 1, 0)]
     tState s 1 = 3 ∧ (getTen s 1).pend = [] ∧ uncommitted s 1 = some 1 ∧ rf s (Reg.cmtTTol 1) 3 0 = 0) := by decide +kernel

/-- A module playback runs. -/
def playing : Tab Word := [(Reg.loomPbStatus, 1)]
theorem test_tenantCommands :
    (let s := tenSt 1 .idle [(Reg.cmtTStartLo 1, 2)]
     tState s 1 = 1 ∧ barred s 1 = false ∧ s.time.tick + 2 ≤ 2 ∧ pbCovers s 1 = false ∧ resourcesOk s 1 = true) ∧
    (let s := tenSt 1 .idle [(Reg.cmtTStartLo 1, 1)]; tState s 1 = 1 ∧ barred s 1 = false ∧ 1 < s.time.tick + 2) ∧
    (let s := tenSt 1 .idle ((Reg.cmtTStartLo 1, 2) :: (Reg.loomPbCtrl, 1) :: playing)
     tState s 1 = 1 ∧ pbCovers s 1 = true ∧ rb s (Reg.cmtTStartHi 1) 16 = false) ∧
    (let s := tenSt 1 .idle ((Reg.cmtTStartHi 1, 0x10000) :: (Reg.cmtTStartLo 1, 2) :: (Reg.loomPbCtrl, 1) :: playing)
     pbCovers s 1 = true ∧ rb s (Reg.cmtTStartHi 1) 16 = true ∧ resourcesOk s 1 = true) ∧
    tState (tenSt 2) 1 = 2 ∧ tState (tenSt 3) 1 = 3 ∧ barred (tenSt 3) 1 = false ∧
    (tState (tenSt 4) 1 = 4 ∧ pbCovers (tenSt 4) 1 = false ∧ pbCovers (tenSt 4 .idle ((Reg.loomPbCtrl, 1) :: playing)) 1 = true) ∧
    tState (tenSt 5) 1 = 5 ∧ (getTen (tenSt 5) 1).fallbackDue = false ∧ (getTen (modTen (tenSt 5) 1 (fun x => { x with fallbackDue := true })) 1).fallbackDue = true ∧ coresOf (tenSt 5) (1 : Fin 64) = [8] ∧
    (let s := tenSt 6; tState s 1 = 6 ∧ ∀ l ∈ coresOf s (1 : Fin 64), served s l = true) ∧
    (let s := { tenSt 6 with core := [(8, { runs [] [] with lost := true })] }
     tState s 1 = 6 ∧ (8 : Fin 64) ∈ coresOf s (1 : Fin 64) ∧ served s 8 = false) ∧ tState (tenSt 0) 1 ≤ 1 := by decide +kernel

/-- The PF's partition 0 is the first 4 KiB of State Memory; slot 7 of the designated operations is chosen. -/
def pfSt (regs : Tab Word) : State :=
  { st ((Reg.cmtDopIdx, 7) :: regs) with cmt := { Commit.reset with part := [(0, (0, 0xE0000001))] } }
theorem test_commitUnitAndSpareCommands :
    (let s := st []; allIdle s = true ∧ dopScheduled s = false ∧ fld 0x20 5 0 = 32 ∧ fld 8 5 0 = 8 ∧ fld 7 5 0 < 8 ∧ 32 < fld 0x21 5 0) ∧
    (let s := withDop { pfSt [] with mem := [(0x00, 64), (0x04, 128), (0x08, 64)] } none { Dop.reset with tickLo := 2 }
     let d := getDop s (dopIdx s)
     s.time.tick + 2 ≤ fld d.tickHi 15 0 * 2 ^ 32 + d.tickLo.toNat ∧ (∀ k < 8, (getDop s k).status ≠ 1) ∧ 10 ≤ s.cmt.reserve ∧ inPartition s 0 0 (16 * 1) false = true ∧
     dopListOk s [dopDesc s 0] = true ∧ fld d.cfg 6 1 = 0 ∧ fld d.listAt 24 4 = 0) ∧
    (let d := getDop (pfSt []) (dopIdx (pfSt [])); fld d.tickHi 15 0 * 2 ^ 32 + d.tickLo.toNat < (pfSt []).time.tick + 2) ∧
    (let s := withDop (pfSt []) none { Dop.reset with tick := 2, status := 1 }
     (getDop s (dopIdx s)).status = 1 ∧ s.time.tick + 2 ≤ (getDop s (dopIdx s)).tick) ∧
    -- a tick already taken by another operation; a reserve of 9 µs; a list of another tenant's memory
    (let s := { pfSt [] with cmt := { (pfSt []).cmt with dop := [(0, { Dop.reset with tick := 2, status := 1 }), (7, { Dop.reset with tickLo := 2 })], reserve := 9 } }
     (getDop s 0).status = 1 ∧ (getDop s 0).tick = fld (getDop s 7).tickHi 15 0 * 2 ^ 32 + (getDop s 7).tickLo.toNat ∧ s.cmt.reserve < 10) ∧
    (let s := st []; let d := getDop s (dopIdx s); inPartition s 0 (fld d.listAt 24 4 * 16) (16 * (fld d.cfg 6 1 + 1)) false = false) ∧
    inPartition (pfSt []) 0 4095 [0].length true = true ∧ inPartition (pfSt []) 0 4095 [0, 0].length true = false ∧
    (let s := tenSt 3; served s 8 = true ∧ (getSpare s ((8 : Fin 64) / 8)).loading = none ∧ spareCore s ((8 : Fin 64) / 8) ≠ 15) ∧
    (let s := tenSt 3 .idle [(Reg.arrCStatus 1, 15)]
     served s 8 = true ∧ spareCore s ((8 : Fin 64) / 8) = 15 ∧ coreOwner s 8 ≠ 0 ∧ 2 ≤ tState s (ten (coreOwner s 8)) ∧
     tState s (ten (coreOwner s 8)) ≤ 5) ∧
    (let s := { st [] with spare := [(7, { Spare.reset with loading := some 56 })] }; (getSpare s 7).loading ≠ none) ∧
    (let s := { tenSt 4 .idle [(Reg.arrCCtrl 1, 1)] with spare := [(1, { Spare.reset with ticks := 4800 })] }
     mayRotate s 1 = true ∧ rotationDue s 1 = true ∧ nextShadowCore s 1 = some 0) ∧
    rotationDue { tenSt 4 .idle [(Reg.arrCStatus 1, 8)] with spare := [(1, { Spare.reset with ticks := 4799 })] } 1 = false ∧ mayRotate (tenSt 4) 1 = false := by decide +kernel

/-! ## Health Controller, management bus, registers -/

/-- The Health Controller in a start-up stage, a module state and a domain that is on. -/
def hcState (hc : Health) (regs : Tab Word := []) : State := { st regs with hc := hc }
def upHc : Health := { Health.reset with standby := true, mainGood := true, mainOn := true, stage := 8 }
def testing (a spare : Nat) : State :=
  { st [(Reg.arrCStatus 7, W spare)] with spare := [(7, { Spare.reset with testing := some (a, spare), testAt := 5 })] }

theorem test_unitFaultsAndRetirement :
    hcSt (hcState upHc) ≤ 1 ∧ pairState (st []) = 1 ∧ pairState (st [(Reg.pluStatus, 3)]) = 3 ∧ (pairState (st [(Reg.pluStatus, 0)]) = 0 ∨
      pairState (st [(Reg.pluStatus, 0)]) = 2) ∧ spareCore (st []) 7 ≠ 7 ∧ 63 < 64 ∧
    unitIsDead (st []) (100 + 15) = false ∧ scrubbing (st []) = false ∧ scrubbing (arbSt 15 [⟨13, 0, 0, 65536, 0, 0, 0⟩]) = true ∧
    (let s := st []; spareCore s 7 = 8 ∧ servedBy s 7 7 = some 63 ∧ unitIsDead s 71 = false ∧ servedBy s 7 8 = none) ∧
    (let s := st [(Reg.hcDdr, 8)]; rb s Reg.hcDdr 3 = true ∧ pbState s = 0) ∧
    (let s := testing 7 8
     (getSpare s 7).testing = some (7, spareCore s 7) ∧ spareCore s 7 < 9 ∧ 7 ≠ spareCore s 7 ∧ Tab.get [] s.hc.transient (9 * 7 + 7) = [] ∧
     servedBy s 7 7 = some 63 ∧ (getSpare s 7).loading = none ∧
     (getSpare s 7).testAt + second ≤ (toInstant s (s.now + 5 + second)).op ∧ (toInstant s (s.now + 4 + second)).op < (getSpare s 7).testAt + second) ∧
    (let s := testing 7 15; spareCore s (63 / 9) = 15 ∧ unitIsDead s 70 = false ∧ servedBy s 7 7 ≠ none) ∧
    (let s := st [(Reg.hdlUStatus 16, 0x4000C)]
     rb s (Reg.hdlUStatus 16) 18 = true ∧ rf s (Reg.hdlUStatus 16) 6 2 = 3 ∧ Tab.get [] s.hc.transient (100 + 3) = []) ∧
    (unitRole (st [(Reg.hdlUStatus 16, 3)]) 16 = 3 ∧ unitIsDead (st [(Reg.hdlUStatus 16, 3)]) 103 = false ∧ (unitServed (st [(Reg.hdlUStatus 16, 3)]) 3).val ≠ 16) ∧
    unitIsDead (st [(Reg.hcDeadCore 2, 0x80)]) 71 = true ∧ unitIsDead (st [(Reg.hcDeadHu, 0x10000)]) 116 = true ∧
    (unitIsDead (st []) 116 = false ∧ unitServed (st []) 16 = 16 ∧ unitServed (st []) 15 = 15) ∧
    (110 * 16 : Int) ≤ (1760#16).toInt ∧
    (let s := st [(Reg.hcTelSize, 0x101), (Reg.hcTelProd, 1), (Reg.hcTelCons, 1)]
     rb s Reg.hcTelSize 8 = true ∧ (1 + 1) % 2 ^ rf s Reg.hcTelSize 3 0 ≠ rf s Reg.hcTelCons 11 0) ∧
    (let s := st [(Reg.hcTelSize, 0x101), (Reg.hcTelProd, 1)]
     rb s Reg.hcTelSize 8 = true ∧ (1 + 1) % 2 ^ rf s Reg.hcTelSize 3 0 = rf s Reg.hcTelCons 11 0) := by decide +kernel

def bootSt (n : Nat) : State := hcState { upHc with stage := n }
theorem test_startUpSequence :
    (Health.reset.holdOff = false ∧ booting (st []) 0 = true) ∧ { Health.reset with holdOff := true }.holdOff = true ∧
    (∀ n ∈ [1, 2, 3, 4, 5, 6, 7], booting (bootSt n) n = true ∧ booting (bootSt (n - 1)) n = false) ∧
    (⟨[71], [16], true⟩ : SelfTest).sramOk = true ∧ (⟨[], [], false⟩ : SelfTest).sramOk = false ∧
    (let s := { bootSt 4 with ks := { KeyStore.reset with root := some [1], record := some ⟨storeKey [1], [(3, KeySlot.reset)]⟩ } }
     booting s 4 = true ∧ s.ks.root = some [1] ∧ s.ks.logDue = false) ∧
    (let s := { bootSt 4 with ks := { KeyStore.reset with tamperRec := 1 } }
     booting s 4 = true ∧ s.ks.root = none ∧ s.ks.tamperRec ≠ 0 ∧ (bootSt 4).ks.tamperRec = 0) ∧
    (let s := hcState { upHc with mainGood := false } [(Reg.hcState, 3)]
     s.hc.holdOff = false ∧ hcSt s = 3 ∧ s.hc.mainGood = false ∧ booting s 0 = false) ∧
    (let s := hcState { upHc with stage := 5, config := some ⟨[], [], [], [], [], [], [], [], [], []⟩ }
     booting s 5 = true ∧ s.hc.config = some ⟨[], [], [], [], [], [], [], [], [], []⟩) ∧
    (let s := { bootSt 6 with ten := (tenSt 1).ten }; booting s 6 = true ∧ (getTen s 1).image = some (image false)) ∧
    (let s := { bootSt 7 with time := { TimeUnit.reset with ticking := true } }; booting s 7 = true ∧ s.time.ticking = true) := by
  decide +kernel

/-- A key record sealed under the module's storage key. -/
theorem test_keyRecord : ({ KeyStore.reset with root := some [1], record := some ⟨storeKey [1], [(3, KeySlot.reset)]⟩ } : KeyStore).record =
    some ⟨storeKey [1], [(3, KeySlot.reset)]⟩ := rfl
/-- A key record sealed under another key. -/
theorem test_foreignKeyRecord (r : List Byte) : (⟨storeKey r ++ [0], []⟩ : KeyRecord).under ≠ storeKey r := by
  intro h; have := congrArg List.length h; simp at this

theorem test_powerFailAndResets :
    (upHc.mainOn = true ∧ hcSt (hcState upHc) ≤ 1 ∧ (ringSt [logRecord] none).rec'.ring ≠ [] ∧ failing (hcState upHc) = false) ∧
    (let s := { hcState upHc [(Reg.hcState, 2)] with op := 10 * msec }
     hcSt s = 2 ∧ s.hc.warnAt + 10 * msec ≤ s.op + (0 - s.now) ∧ (hcState upHc [(Reg.hcState, 2)]).op + (0 - s.now) < s.hc.warnAt + 10 * msec) ∧
    (let s := hcState upHc [(Reg.hcState, 3), (Reg.hcCfg, 1)]
     hcSt s = 3 ∧ s.hc.faultAt = s.op + (s.now - s.now) ∧ s.hc.faultAt ≠ s.op + (s.now + 1 - s.now) ∧ s.rec'.flushing = none ∧ s.rec'.ring = [] ∧ rb s Reg.hcCfg 0 = true ∧ s.hc.noRestart = false) ∧
    hcSt (hcState upHc [(Reg.hcState, 1)]) = 1 ∧ upHc.mainGood = true ∧
    (let s := { hcState { upHc with ending := 2 } [(Reg.hcState, 4)] with op := 10 * msec }
     hcSt s = 4 ∧ s.hc.ending = 2 ∧ s.hc.warnAt + 10 * msec ≤ s.op + (0 - s.now)) ∧
    (let s := hcState upHc [(Reg.hcState, 4)]; hcSt s = 4 ∧ s.hc.ending = 0) ∧
    (let s := { hcState upHc with time := { TimeUnit.reset with ratePend := some 3 } }; failing s = false ∧ s.time.ratePend = some 3) ∧
    (st []).time.ratePend = none ∧
    (let s := hcState { upHc with ending := 2 } [(Reg.hcState, 4)]; hcSt s = 4 ∧ s.hc.ending ≠ 0) := by decide +kernel

/-- A write of the bus with the code and octets given, and its packet error code. -/
def busWriteOf (code : Byte) (data : List Byte) : BusCmd := ⟨code, data, pec ([busAddr false, code] ++ data)⟩
/-- Its code is right; one more is not. -/
theorem test_busCodes (code : Byte) (data : List Byte) :
    (let b := busWriteOf code data; pec ([busAddr false, b.code] ++ b.data) = b.pec) ∧
    (let b : BusCmd := ⟨code, data, (busWriteOf code data).pec + 1⟩; pec ([busAddr false, b.code] ++ b.data) ≠ b.pec) :=
  ⟨rfl, (by decide : ∀ x : Byte, x ≠ x + 1) _⟩
theorem test_managementBusCommands :
    (let b := busWriteOf 0x20 [0]
     upHc.standby = true ∧ b.code ∈ busCodes ∧ b.data = [0] ∧ Health.reset.mainOn = false ∧ upHc.mainOn = true ∧ 1 ≤ upHc.stage ∧
       (hcState upHc).rec'.recovering = false ∧ (0xFF : Byte) ∉ busCodes ∧ (busWriteOf 0x20 []).data ≠ [0]) ∧
    (let s := hcState upHc [(Reg.hcState, 2)]; s.hc.mainOn = true ∧ warned s = true) ∧
    (let b := busWriteOf 0x12 [4, 0xFF, 0x0F, 0xE0, 0xFF]
     b.code ∈ busCodes ∧ b.data.length = 5 ∧ b.data.headD 0 = 4 ∧
       fld (W (leNat (b.data.drop 1))) 31 16 % 32 = 0 ∧ fld (W (leNat [0xFF, 0x0F, 0xE1, 0xFF])) 31 16 % 32 ≠ 0) ∧
    (∀ k ∈ [1, 2, 3], let b := busWriteOf 0x21 [1, k]
      b.code ∈ busCodes ∧ b.data.length = 2 ∧ b.data.headD 0 = 1 ∧ b.data = [1, k] ∧
        1 ≤ k.toNat ∧ k.toNat ≤ 3) ∧ (0 : Byte).toNat = 0 ∧ 3 < (4 : Byte).toNat ∧
    (let s := hcState { upHc with busArm := some (1, 5) }
     s.hc.busArm = some (1, 5) ∧ s.op + (5 + second - s.now) ≤ 5 + second ∧ s.hc.mainOn = true ∧ failing s = false ∧ hcSt s ≠ 3) ∧
    (let s := hcState { upHc with busArm := some (1, 5) } [(Reg.hcState, 4)]
     s.hc.busArm = some (1, 5) ∧ s.hc.mainOn = true ∧ hcSt s = 4 ∧ s.hc.ending = 0 ∧ { s.hc with ending := 2 }.ending ≠ 0) ∧
    hcSt (hcState { upHc with busArm := some (1, 5) } [(Reg.hcState, 2)]) = 2 ∧
    (let s := hcState { upHc with busArm := some (2, 0), mainOn := false, stage := 0 }
     s.hc.busArm = some (2, 0) ∧ s.hc.mainOn = false ∧ s.hc.mainGood = true ∧ booting s 0 = true) ∧
    (hcState { upHc with busArm := some (3, 0) }).hc.busArm = some (3, 0) ∧ upHc.busArm = none ∧ Health.reset.standby = false ∧
    (∀ i : Fin 4, lanesUp (wb (st [(Reg.pluStatus, 0xF00)]) Reg.pluStatus (8 + i) false) ≠ 0 ∧
      lanesUp (wb (st [(Reg.pluStatus, W (2 ^ (8 + i.val)))]) Reg.pluStatus (8 + i) false) = 0) ∧ (st []).plu.sending = none := by
  and_intros <;> decide +kernel

theorem test_registerWrites :
    56 % 4 = 0 ∧ 56 % 64 + 8 ≤ 64 ∧ (⟨7, 0⟩ : BusWord).be ≠ 15 ∧ 2 % 4 ≠ 0 ∧ 64 < 60 % 64 + 4 * [(⟨15, 0⟩ : BusWord), ⟨15, 0⟩].length ∧
    hcSt (st []) ≠ 3 ∧ hcSt (st [(Reg.hcState, 3)]) = 3 ∧
    (∀ e ∈ [(0x1000020, Access.rw), (0x5C, .rwp), (0x1000040, .w1c), (0x1C, .ro)],
      (regAt e.1).map (·.acc) = some e.2 ∧ e.1 % 4 = 0 ∧ (e.1 / 0x100000 = 0 ∨ e.1 / 0x100000 = 16)) := by decide +kernel
theorem test_reservedOffsetsReadZero : 0xFFFFFFFC < 0x100000000 ∧ regAt 0xFFFFFFFC = none ∧ regAt 0 ≠ none := by decide +kernel
theorem test_discardedApertureWriteIsReported : hcSt (st []) ≠ 3 ∧
    inPartition (st []) 0 0x1FFFFFF [1].length true = false ∧ inPartition (pfSt []) 0 0xFC0 [1, 2].length true = true := by decide +kernel

/-! ## Key Store and pair -/

def key (typ use : Nat) (parent : Option Nat := none) (depth : Nat := 0) (gen : Bool := false) : KeyVal :=
  ⟨typ, use, [1], 0, parent, [], [], depth, gen⟩
/-- A Key Store with keys, slots given, registers written. -/
def ksSt (slot : Tab KeySlot) (regs : Tab Word := []) (owner : List (Nat × OwnerKey) := []) : State :=
  { st ((Reg.ksStatus, 0) :: regs) with ks := { KeyStore.reset with slot := slot, root := some [1], owner := owner } }
def act (k : KeyVal) : KeySlot := ⟨some k, none, false⟩
def shd (k : KeyVal) (v : Bool) : KeySlot := ⟨none, some k, v⟩

/-- Whether wrapped data opens, a point lies on its curve and a signature verifies are values the model leaves free (log entry 5);
the statement has a clause for each answer. -/
theorem test_keyStoreCommands :
    rb (st [(Reg.ksStatus, 1)]) Reg.ksStatus 0 = true ∧ (rb (st []) Reg.ksStatus 0 = false ∧ keyless (st []) = true) ∧
    (let s := ksSt [(1023, act (key 2 2))] [(Reg.ksArg, 1023)]
     rb s Reg.ksStatus 0 = false ∧ keyless s = false ∧ typeUseOk 2 2 = true ∧ (2 : Nat) ≠ 6 ∧ (2 : Nat) ≠ 8 ∧ rf s Reg.ksArg 9 0 ≠ 0 ∧
     (ksSlot s 1023).active = some (key 2 2) ∧ (key 2 2).use = 2) ∧
    (let s := ksSt [] [(Reg.ksDlen, 96)]
     typeUseOk 8 1 = true ∧ isEc 8 = true ∧ ecCount s 3 < 64 ∧ (ksBytes s (rf s Reg.ksDlen 9 0)).length = keyLen 8) ∧
    (let s := ksSt [(9, act (key 4 3 none 7)), (10, act (key 4 3 none 8))] [(Reg.ksArg, 9), (Reg.ksDlen, 48)]
     typeUseOk 4 3 = true ∧ (ksSlot s 9).active = some (key 4 3 none 7) ∧ (key 4 3 none 7).depth < 8 ∧ 8 ≤ (key 4 3 none 8).depth ∧
     tooDeep s 12 10 8 = true ∧ tooDeep s 12 9 7 = false ∧ (9 : Nat) ≠ 12 ∧ childrenOf s [12] = [] ∧
     (ksSlot s 10).active = some (key 4 3 none 8) ∧ (ksBytes s (rf s Reg.ksDlen 9 0)).length = 48) ∧
    (let s := ksSt [(3, shd (key 4 3) true), (4, act (key 1 0 (some 3) 1)), (5, act (key 1 0)), (6, shd (key 1 0) false)]
     (ksSlot s 3).shadow = some (key 4 3) ∧ (ksSlot s 3).verified = true ∧ (key 4 3).parent = none ∧
     (ksSlot s 4).active = some (key 1 0 (some 3) 1) ∧ (key 1 0 (some 3) 1).parent = some 3 ∧ (ksSlot s 5).active = some (key 1 0) ∧
     (ksSlot s 6).shadow = some (key 1 0) ∧ (ksSlot s 6).verified = false ∧ (key 1 0).gen = false ∧
     hasChildren s 3 = true ∧ hasChildren s 5 = false ∧ bound s 5 = false) ∧
    -- a derived shadow below a parent of depth 0, and below one of depth 8
    (let s := ksSt [(3, act (key 4 3)), (7, shd (key 1 0 (some 3) 1) true), (9, act (key 4 3 none 8)), (8, shd (key 1 0 (some 9) 1) true)]
     (ksSlot s 7).shadow = some (key 1 0 (some 3) 1) ∧ (ksSlot s 7).verified = true ∧
       tooDeep s 7 3 ((ksSlot s 3).active.elim 0 (·.depth)) = false ∧ (ksSlot s 8).shadow = some (key 1 0 (some 9) 1) ∧
       tooDeep s 8 9 ((ksSlot s 9).active.elim 0 (·.depth)) = true) ∧
    (let s := ksSt [(2, act (key 7 0)), (1, act (key 8 1)), (5, act (key 3 0)), (6, act (key 3 1))] [(Reg.ksDlen, 48)]
     isEc (key 7 0).typ = true ∧ (ksSlot s 2).active = some (key 7 0) ∧ (ksSlot s 1).active = some (key 8 1) ∧
     (ksSlot s 5).active = some (key 3 0) ∧ (ksSlot s 6).active = some (key 3 1) ∧
     (ksBytes s (rf s Reg.ksDlen 9 0)).length = 48 ∧ rf s Reg.ksDlen 9 0 ≤ 480) ∧
    (let s := ksSt [] [(Reg.ksDlen, 128)]; ksBytes s 128 = List.replicate 32 0 ++ List.replicate 96 0 ∧ keyLen 8 = 96) ∧
    (let s := ksSt [(3, shd (key 8 1) false)] [(Reg.ksArg, 0x400)]
     (ksSlot s 3).shadow = some (key 8 1) ∧ s.ks.owner.find? (fun e => e.1 == rf s Reg.ksArg 10 10) = none) := by decide +kernel
theorem test_takesShadow : TakesShadow (ksSt [(3, act (key 8 1))]) 3 8 1 ∧ TakesShadow (ksSt []) 1023 2 0 := by
  refine ⟨⟨by decide, ?_, by decide⟩, by decide, ?_, by decide⟩
  · intro a h; cases h; decide
  · intro a h; cases h

theorem test_provisioningBindingsAndTamper :
    rb (st [(Reg.ksStatus, 1)]) Reg.ksStatus 0 = true ∧
    (let s := { st [] with ks := { KeyStore.reset with armAt := some 5 } }
     rb s Reg.ksStatus 0 = false ∧ keyless s = true ∧ rf s Reg.ksStatus 12 8 = 0 ∧ s.ks.armAt = some 5 ∧
     s.op + (s.now + (second + 4) - s.now) < 5 + second ∧ 5 + second ≤ s.op + (s.now + (second + 5) - s.now) ∧ s.ks.owner = []) ∧
    keyless (ksSt []) = false ∧ rf (st [(Reg.ksStatus, 0x1002)]) Reg.ksStatus 12 8 ≠ 0 ∧ (st []).ks.armAt = none ∧ (st []).ks.run = none ∧
    (let r : KsRun := ⟨10, some 0xFFFFFF, some [1, 2], [], 0, false⟩
     let s := { st [] with ks := { KeyStore.reset with run := some r } }
     s.ks.run = some r ∧ r.prov = false ∧ r.out = some [1, 2] ∧ 1 < (r.out.getD []).length) ∧
    (let r : KsRun := ⟨0, none, none, [], 0, true⟩
     let s := { st [] with ks := { KeyStore.reset with run := some r } }
     s.ks.run = some r ∧ r.prov = true ∧ r.status = 0 ∧ r.out = none ∧ s.ks.owner = [] ∧ keyless s = true) ∧
    (0 < bindRange 0 ∧ bindReason (st [(Reg.ksStatus, 2)]) 0 0 ⟨0, 0, 0, []⟩ = 6 ∧ keyless (st [(Reg.ksStatus, 2)]) = true) ∧
    hcSt (hcState upHc [(Reg.hcState, 2)]) = 2 ∧ hcSt (hcState upHc) ≠ 2 ∧
    (let s := { ksSt [] with ks := { KeyStore.reset with lastBind := some (7, bindKey 4 1, .none) }, op := 7 }
     s.ks.lastBind = some (s.op, bindKey 4 1, .none)) ∧
    bindReason (ksSt [] [(Reg.ksBIdx, 0x3FF0)]) 0 1023 ⟨0, 0, 0, []⟩ = 0 ∧
    bindReason (ksSt [(1023, act (key 2 0))]) 1 127 ⟨0x2003FF, 0, 0, []⟩ = 0 ∧
    (9 < bindRange 4 ∧ 9 % 16 < 10 ∧ bindRange 5 = 0) ∧
    (let s := st [(Reg.cmtTState 63, 3)]
     ownerFree s 0 = true ∧ ownerFree s 62 = true ∧ ownerFree s 63 = false ∧ (∀ e ∈ s.ks.bind, e.2.valid = false) ∧
     fld 0x3F000000 29 24 = 63) ∧
    (let s := ksSt [(3, act (key 4 3)), (4, act (key 1 0 (some 3) 1))] [(Reg.ksStatus, 8)]
     rb s Reg.ksStatus 3 = true ∧ ({ s.ks with storageKey := some [7] } : KeyStore).storageKey = some [7] ∧ s.ks.storageKey = none) ∧
    (let s := hcState { upHc with mainGood := false }; s.hc.mainOn = true ∧ s.hc.mainGood = false ∧ upHc.mainGood = true) ∧ rb (ksSt []) Reg.ksStatus 3 = false := by decide +kernel

/-- The pair link in a state of PLU_STATUS. -/
def pairSt (status : Word) (plu : Plu) (regs : Tab Word := []) : State := { st ((Reg.pluStatus, status) :: regs) with plu := plu }
def lease (epoch : Nat) : LeaseMsg := ⟨.renewal, false, true, false, epoch, 9, 4, 12, 0, 0, true⟩
def standby (take : TakeStage) (store : Option Ckpt) : State := pairSt 0xF01 { Plu.reset with take := take, store := store }

/-- Slots 3 and 4 hold the key of the network path. -/
def netSt : State := ksSt [(3, act (key 2 0)), (4, act (key 2 1))] [(Reg.pluNet, 0x600000)]
theorem test_leaseMessagesAndTheGate :
    -- renewal: nothing sent yet; L/4 after the last, and one unit before; the gate closed
    (let s := pairSt 0xF08 { Plu.reset with sent := [(4, 0)] }
     gateOpen s = true ∧ paired s = true ∧ lanesUp s ≠ 0 ∧ s.plu.sent.head? = some (4, 0) ∧
     4 * 0 + leaseL s ≤ 4 * (s.op + (12 * msec - s.now)) ∧ ¬ (4 * 0 + leaseL s ≤ 4 * (s.op + (12 * msec - 1 - s.now)))) ∧
    (pairSt 0xF08 .reset).plu.sent.head? = none ∧ gateOpen (st []) = false ∧
    -- messages: of a FENCED, an unpaired, a paired module; by either path
    pairState (pairSt 3 .reset) = 3 ∧ paired (st [(Reg.pluCfg, 0)]) = false ∧
    (pairState (st []) ≠ 3 ∧ paired (st []) = true ∧ Path.net ≠ .pair ∧ netVerify (st []) = false ∧ netVerify netSt = true ∧ (lease 0).authentic = true) ∧
    (pairState (st []) = 1 ∧ epoch (st []) ≤ (lease 0).epoch ∧ (lease 0).epoch < epoch (st [(Reg.pluEpoch, 1)])) ∧
    (let s := pairSt 0 .reset; holder s = true ∧ (lease 7).epoch < 2 ^ 32 ∧ epoch s < (lease 7).epoch) ∧
    -- control passed at a swap, in the first and in the second half of the lease; the network path's own key
    (let s := pairSt 1 { Plu.reset with yielded := true, yieldAt := 5 }
     pairState s = 1 ∧ epoch s < (lease 7).epoch ∧ s.op + (24 * msec + 4 - s.now) < s.plu.yieldAt + fld (rd s Reg.pluLease) 9 0 * msec / 2 ∧
       s.plu.yieldAt + fld (rd s Reg.pluLease) 9 0 * msec / 2 ≤ s.op + (24 * msec + 5 - s.now)) ∧ netKey netSt = true ∧
    (holder (st []) = false ∧ (lease 0).echo ∉ (st []).plu.ackNos) ∧
    (let s := pairSt 4 .reset [(Reg.pluEpoch, 7)]; moduleB s = true ∧ holder s = true ∧ (lease 7).epoch = epoch s) ∧
    (let s := pairSt 0 { Plu.reset with sent := [(4, 3)], yieldTick := some 12 }
     pairState s = 0 ∧ s.plu.ackNos.contains (lease 0).echo = false ∧ s.plu.sent.find? (fun e => e.1 == (lease 0).echo) = some (4, 3) ∧
       s.plu.yieldTick = some (lease 0).tick) ∧
    (pairSt 0 { Plu.reset with ackNos := [4] }).plu.ackNos.contains (lease 0).echo = true ∧
    (let s := standby .none (some ⟨1, 1, true, []⟩)
     s.plu.take = .none ∧ s.plu.handTick ≠ some (lease 0).tick ∧ s.plu.store = some ⟨1, 1, true, []⟩ ∧ lanesUp s ≠ 0 ∧
     s.plu.ackNos.contains (lease 0).echo = false ∧ ([] : List CkptItem).all (admits s) = true ∧ s.time.tick + 2 ≤ (lease 0).tick) ∧
    (standby .none none).plu.store = none ∧
    (let s := pairSt 1 { Plu.reset with yielded := true }; s.plu.yielded = true ∧ gateOpen s = false ∧ s.plu.take = .none) := by
  and_intros <;> decide
/-- The lease of an open module at its end and one unit before, from an acknowledged renewal and from the gate's opening. -/
theorem test_leaseExpiryAndTakeover :
    (let s := pairSt 8 { Plu.reset with acked := some 5, qp := false }
     pairState s = 0 ∧ gateOpen s = true ∧ peerQuiet s = false ∧ s.plu.opened = none ∧
       5 + leaseL s ≤ s.op + (48 * msec + 5 - s.now) ∧ s.op + (48 * msec + 4 - s.now) < 5 + leaseL s) ∧
    (let s := pairSt 8 { Plu.reset with opened := some 5 }; s.plu.acked = none ∧ peerQuiet s = true ∧
       5 + leaseL s ≤ s.op + (48 * msec + 5 - s.now) ∧ s.op + (48 * msec + 4 - s.now) < 5 + leaseL s) ∧
    (let s := pairSt 0x18 .reset
     pairState s = 0 ∧ gateOpen s = true ∧ paired s = true ∧ rb s Reg.pluStatus 4 = true ∧ s.plu.acked = none ∧ s.plu.opened = none) ∧
    pairState (pairSt 2 .reset) = 2 ∧
    (let s := standby .none none
     pairState s = 1 ∧ rb s Reg.pluStatus 5 = false ∧ s.plu.take = .none ∧ s.plu.handTick = none ∧
     s.plu.heard + leaseL s + guardG s ≤ s.op + (second - s.now) ∧ s.op + (0 - s.now) < s.plu.heard + leaseL s + guardG s) ∧
    (let s := pairSt 5 { Plu.reset with take := .quietWait, qp := false }
     s.plu.take = .quietWait ∧ peerQuiet s = false ∧ moduleB s = true ∧
       s.plu.takeAt + 20 * usec ≤ s.op + (20 * usec - s.now) ∧ s.op + (20 * usec - 1 - s.now) < s.plu.takeAt + 20 * usec) ∧
    moduleB (standby .quietWait none) = false ∧ (standby .quietWait none).plu.store = none ∧
    (standby .quietWait (some ⟨1, 1, true, []⟩)).plu.store ≠ none := by decide +kernel

theorem test_checkpointsAndPairCommands :
    pairState (st []) = 1 ∧ pairState (pairSt 0 .reset) ≠ 1 ∧
    (let s := pairSt 1 { Plu.reset with coming := [.pub 3 4], comingSeq := 1 }
     pairState s = 1 ∧ (arrived s 1).length = (⟨1, 2, true, 1⟩ : CkptClose).items ∧ (⟨1, 2, true, 1⟩ : CkptClose).full = true ∧
       (arrived s 1).length ≠ (⟨1, 2, true, 0⟩ : CkptClose).items ∧ (arrived s 2).length ≠ 1 ∧ s.plu.handTick ≠ some (2 + 1) ∧
       ({ s.plu with handTick := some 3 } : Plu).handTick = some (2 + 1)) ∧
    (let c : Ckpt := ⟨1, 1, true, [.page 0 [1]]⟩
     let s := pairSt 8 { Plu.reset with sending := some c }
     let u := settleAll s
     s.plu.sending = some c ∧ u.plu.sending = some c ∧ u.plu.outSent < ckptBursts c ∧
     (let s := standby .restoring (some c); s.plu.take = .restoring ∧ s.plu.store = some c ∧
       ∀ n d, CkptItem.page n d ∈ c.items → n.val ≠ 4096 / 4096)) ∧
    (let c : Ckpt := ⟨1, 1, true, [.page 0 [1]]⟩
     let u := settleAll (pairSt 8 { Plu.reset with sending := some c, outSent := 16 + 16 })
     u.plu.sending = some c ∧ ckptBursts c ≤ u.plu.outSent ∧ u.plu.swapWanted = false) ∧
    (settleAll (st [])).plu.sending = none ∧ (st []).plu.take ≠ .restoring ∧
    (let s := pairSt 0x2008 .reset [(Reg.pluCfg, 5)]
     pairState s = 0 ∧ gateOpen s = true ∧ rb s Reg.pluCfg 2 = true ∧ rf s Reg.pluSwap 13 0 ≠ 0 ∧ swapping s = false ∧
     s.plu.swapBase + rf s Reg.pluSwap 13 0 * 3600 * second ≤ { s with op := rf s Reg.pluSwap 13 0 * 3600 * second }.op ∧
     s.op < s.plu.swapBase + rf s Reg.pluSwap 13 0 * 3600 * second ∧ swapping (pairSt 8 { Plu.reset with swapWanted := true }) = true ∧
     s.plu.sending = none ∧ rb s Reg.pluStatus 13 = true ∧ rb (pairSt 8 .reset) Reg.pluStatus 13 = false) ∧
    rf (st [(Reg.pluSwap, 0)]) Reg.pluSwap 13 0 = 0 ∧ pairState (pairSt 3 .reset) = 3 ∧ pairState (pairSt 2 .reset) = 2 ∧
    peerQuiet (pairSt 0 .reset) = true ∧ (let s := standby .none none; pairState s = 1 ∧ s.plu.take = .none ∧ peerQuiet s = true) ∧
    peerQuiet (pairSt 0 { Plu.reset with qp := false }) = false ∧
    (let s := st [(Reg.cmtTState 63, 3)]
     (∀ b ∈ List.range 31, tState s (Fin.ofNat 64 (32 + b)) ≤ 1) ∧ bitOf (rd s Reg.pluTClass1) 31 ≠ bitOf 0x80000000 31 ∧
     1 < tState s (Fin.ofNat 64 (32 + 31)) ∧ tState s 0 ≤ 1 ∧ ∀ b ∈ List.range 32, tState s (Fin.ofNat 64 b) ≤ 1) ∧
    epoch (pairSt 3 .reset) < (1 : Word).toNat ∧ (8 ≤ fld 0x50008 9 0 ∧ fld 0xC801F4 9 0 ≤ 500 ∧ 5 ≤ fld 0x50008 23 16 ∧ fld 0xC801F4 23 16 ≤ 200) ∧
    fld 7 9 0 < 8 ∧ 500 < fld 501 9 0 ∧ fld 0x40008 23 16 < 5 ∧ 200 < fld 0xC90008 23 16 := by
  refine ⟨by decide, by decide, by decide, ?_, by decide +kernel⟩
  refine ⟨rfl, by decide +kernel, by decide +kernel, rfl, rfl, ?_⟩
  intro n d h
  simp at h
  omega

/-! ## Host interface -/

/-- Function 63 exists. -/
def vfSt (regs : Tab Word) : State := st ((Reg.hifStatus, 0xFC00) :: regs)
theorem test_linkResetsAndMailboxes :
    rf (vfSt []) Reg.hifStatus 15 10 = 63 ∧ rf (vfSt []) Reg.hifStatus 15 10 ≠ 0 ∧
    { Hif.reset with session := some ⟨0, 1, 1, [], []⟩ }.session ≠ none ∧
    vfExists (vfSt []) 63 = true ∧ vfExists (st []) 63 = false ∧ vfExists (vfSt []) 0 = false ∧
    (∀ n ∈ [4, 512], let s := vfSt [(Reg.hifMbxOut 63 0, W n), (Reg.hifMbxIn 63 0, W n)]
      rb s (Reg.vfMbStat 63) 0 = false ∧ rb s (Reg.hifMbxInfo 63) 25 = false ∧ fld (rd s (Reg.hifMbxOut 63 0)) 9 0 = n ∧
      fld (rd s (Reg.hifMbxIn 63 0)) 9 0 = n ∧ n % 4 = 0) ∧
    (fld (rd (vfSt []) (Reg.hifMbxOut 63 0)) 9 0 < 4 ∧ 512 < fld 516 9 0 ∧ fld 6 9 0 % 4 ≠ 0) ∧ rb (st [(Reg.vfMbStat 63, 1)]) (Reg.vfMbStat 63) 0 = true ∧
    (let s := vfSt [(Reg.hifMbxInfo 63, 0x3000000)]
     rb s (Reg.hifMbxInfo 63) 24 = true ∧ rb s (Reg.hifMbxInfo 63) 25 = true ∧ rf s (Reg.hifMbxInfo 63) 17 10 = vfGen s 63) ∧
    (let s := vfSt [(Reg.hifMbxInfo 63, 0x1000400)]; rf s (Reg.hifMbxInfo 63) 17 10 ≠ vfGen s 63) ∧
    rb (st []) (Reg.hifMbxInfo 63) 24 = false ∧ rb (st []) (Reg.hifMbxInfo 63) 25 = false ∧ hcSt (vfSt []) ≠ 3 := by decide +kernel

def entry (opcode off len target : Nat) : SqEntry := ⟨opcode, 1, 0x1000, off, len, target⟩
def qcmd (e : SqEntry) (running : Bool := false) (status : Option Nat := none) (gen attempts : Nat := 0) : QCmd :=
  ⟨e, gen, status, 0, 0, attempts, running⟩
/-- Queue 15 of the PF runs with two entries in each queue and holds commands. -/
def pairQ (cmds : List QCmd) (regs : Tab Word := []) (stat : Word := 1) : State :=
  { st ([(qStat 0 15, stat), (qReg 0 15 + 0x10, 0x11), (qCtrl 0 15, 1)] ++ regs) with
    hif := { Hif.reset with queue := [(15, { Queue.reset with cmds := cmds })] }
    cmt := { Commit.reset with part := [(0, (0, 0xE0000001))] } }
theorem test_queuesAndImages :
    (let s := pairQ []
     fnExists s 0 = true ∧ qRunning s 0 15 = true ∧ rb s (qCtrl 0 15) 0 = true ∧ qSizesOk s 0 15 = true ∧ sqSize s 0 15 = 2 ∧
     cqSize s 0 15 = 2 ∧ cqFull s 0 15 = false ∧ [entry 0 0 0 0].length = (1 + 2 - (getQ s 0 15).sqTail) % 2) ∧
    (rb (st []) (qCtrl 0 15) 0 = false ∧ qRunning (st []) 0 15 = false ∧ qSizesOk (st []) 0 15 = false ∧ fnExists (st []) 63 = false) ∧
    (∀ e ∈ [entry 0 0 0 0, entry 1 0x7FF000 4096 63, entry 2 0 4 63, entry 3 4032 64 0, entry 4 0 0 0, entry 255 0 0 0],
      (getQ (pairQ [qcmd e]) 0 15).cmds = [] ++ qcmd e :: [] ∧ (qcmd e).gen = vfGen (pairQ [qcmd e]) 0 ∧ (qcmd e).status = none ∧
      (3 < e.opcode ∨ settle 0 [qcmd e] = [qcmd e])) ∧ 3 < (entry 4 0 0 0).opcode ∧ settle 0 [qcmd (entry 4 0 0 0)] = [qcmd (entry 4 0 0 0) false (some 1)] ∧
    (let c := qcmd (entry 1 0x7FF000 4096 63)
     imgTenant 0 c = 63 ∧ c.e.off + c.e.len ≤ 0x800000 ∧ c.e.len % 4096 = 0 ∧ c.e.off % 4096 = 0 ∧ tState (st []) 63 ≤ 1 ∧
     1 < tState (st [(Reg.cmtTState 63, 6)]) 63) ∧
    0x800000 < (entry 1 0x7FF000 8192 63).off + (entry 1 0x7FF000 8192 63).len ∧
    (let x : ImageLoad := ⟨{ image false with length := 4 }, true, [1, 2], [3, 4], true⟩
     let s := { pairQ [] with hif := { Hif.reset with staging := [(63, [(0, 1), (1, 2), (2, 3), (3, 4)])] } }
     peeks (Tab.get [] s.hif.staging 63) 0 4 = x.bytes ++ x.sig ∧ imageOk { x.img with cores := [⟨0x10000, 0x10000, [], 16, []⟩] } 4 = true ∧
     x.img.cores.all (fun k => k.watchdog ≤ windowCycles s) = true ∧ imageStatus s 0 63 x 4 ≠ 0 ∧
     (let y : ImageLoad := { x with img := { x.img with cores := [⟨0x10000, 0x10000, [], 0xFFFFFFFF, []⟩] } }; ∃ k ∈ y.img.cores, windowCycles s < k.watchdog) ∧ (∀ e ∈ s.ks.owner, e.1 ≠ b2n x.img.manager)) ∧
    linesReadable (pairQ []) 0 4032 64 = true ∧ linesReadable (pairQ []) 0 4032 128 = false ∧
    (let c := qcmd (entry 3 0 64 0) true
     (getQ (pairQ [c]) 0 15).cmds = [] ++ c :: [] ∧ c.running = true ∧ c.status = none ∧ c.gen = vfGen (pairQ [c]) 0 ∧ linesReadable (pairQ [c]) 0 c.e.off c.e.len = true ∧
     linesReadable (st []) 0 c.e.off c.e.len = false ∧
     3 ≤ (qcmd (entry 3 0 64 0) true none 0 3).attempts) ∧
    (let c := qcmd (entry 0 0 0 0) false (some 0)
     (getQ (pairQ [qcmd (entry 0 0 0 0), c]) 0 15).cmds = [qcmd (entry 0 0 0 0)] ++ c :: [] ∧ c.status = some 0 ∧
     cqFull (pairQ [qcmd (entry 0 0 0 0), c]) 0 15 = false ∧ c.gen = vfGen (st []) 0 ∧
     (qcmd (entry 3 0 64 0) true none 5).gen ≠ vfGen (st []) 0) := by decide +kernel
/-- Signatures and unwrapped keys are values the model leaves free: an image is accepted where its signature verifies. -/
def okImage : Image := { image false with length := 4, cores := [⟨0x10000, 0x10000, [], 16, []⟩] }
theorem test_imageAccepted (h : Config.ecVerify [5#8] (Config.sha384 [1#8, 2#8]) [3#8, 4#8] = true) :
    ∃ s x, imageStatus s 0 63 x 4 = 0 := by
  refine ⟨ksSt [] [] [(0, ⟨3, 0#32, [5#8]⟩)], ⟨okImage, true, [1#8, 2#8], [3#8, 4#8], true⟩, ?_⟩
  have a : 16384 < resvSum (ksSt [] [] [(0, ⟨3, 0#32, [5#8]⟩)]) 63 + okImage.reservation ↔ False := by decide
  have b : imageOk okImage 4 = true := by decide
  have c : okImage.manager = false ∧ okImage.keyId = 0 := ⟨rfl, rfl⟩
  have d : (ksSt [] [] [(0, ⟨3, 0#32, [5#8]⟩)]).ks.owner = [(0, ⟨3, 0#32, [5#8]⟩)] := rfl
  have w : ∀ x ∈ okImage.cores, x.watchdog ≤ windowCycles (ksSt [] [] [(0, ⟨3, 0#32, [5#8]⟩)]) := by decide
  simp [imageStatus, a, b, c, d, b2n, h]
  exact w

def grantSt (regs : Tab Word) (x : Session) : State := { st regs with hif := { Hif.reset with session := some x } }
def grantEntry : MatchEntry := ⟨1, 1, 0x8000, false, true, 0, [1]⟩
theorem test_grantsOwnershipAndUnload :
    bitOf 0x80000000 31 = true ∧ fld 0x80000000 1 0 = 0 ∧ fld 0x800007FC 13 2 = 511 ∧ fld 0x80001FFD 13 2 = 2047 ∧ 512 ≤ fld 0x80000800 13 2 ∧
    2048 ≤ fld 0x80002001 13 2 ∧ 1 < fld 0x80000002 1 0 ∧ (st []).hif.session = none ∧
    (let x : Session := ⟨1, 2047, 1, [], [(2559, grantEntry)]⟩
     (grantSt [] x).hif.session = some x ∧ x.tenant ≠ 0 ∧ grantReason (grantSt [] x) x = 0) ∧
    (let x : Session := ⟨0, 511, 1, [(Reg.loomWCfg 511, 0x1080D), (Reg.loomWDelay 511, 0xFFFF)], [(511, grantEntry)]⟩; grantReason (grantSt [] x) x = 3 ∧ 3 ∈ grantFaults (grantSt [] x) x) ∧
    (let x : Session := ⟨0, 511, 63, [], []⟩
     x.tenant ≠ 0 ∧ (getMatch (afterSession (grantSt [] x) x) (sessionIdx x)).valid = false ∧ grantReason (grantSt [] x) x ≠ 0) ∧
    (let x : Session := ⟨1, 2047, 1, [], [(2559, { grantEntry with id := [] })]⟩; (getMatch (afterSession (grantSt [] x) x) (sessionIdx x)).id = []) ∧
    (let x : Session := ⟨1, 2047, 1, [], [(2559, { grantEntry with id := List.replicate 66 1 })]⟩; 65 < (getMatch (afterSession (grantSt [] x) x) (sessionIdx x)).id.length) ∧
    grantReason (st []) ⟨0, 511, 0, [], []⟩ = 0 ∧ grantFaults (st []) ⟨1, 2047, 0, [], []⟩ = [] ∧
    (let x : Session := ⟨0, 511, 1, [(Reg.loomWCfg 511, 0x10FFF)], [(511, grantEntry)]⟩; 7 ∈ grantFaults (grantSt [] x) x) ∧
    (let s := st [(Reg.cmtTState 63, 6), (Reg.cmtTState 62, 3)]
     ownWords .gpub ≤ 256 ∧ (255 : Fin 256).val < ownWords .gpub ∧ ownWords .spub ≤ (32 : Fin 256).val ∧ ownWords .core ≤ (16 : Fin 256).val ∧
     ownerFree s 63 true = true ∧ ownerFree s 63 false = false ∧ ownerFree s 62 true = false ∧ ownerFree s 0 false = true) ∧
    tState (st []) 63 = 0 ∧ 1 < tState (st [(Reg.cmtTState 63, 2)]) 63 ∧ tState (st [(Reg.cmtTState 63, 1)]) 63 = 1 ∧
    rb (st []) Reg.hifStatus 16 = false ∧ rb (st [(Reg.hifStatus, 0x10000)]) Reg.hifStatus 16 = true := by decide +kernel

/-! ## Field I/O and the registers of the control law units -/

/-- Input 31 enabled with a configuration and in a state. -/
def biSt (cfg : Word) (x : FioIn) (edges : List FioEdge := []) : State :=
  { st [(Reg.fioCtrl, 1), (Reg.fioBiCfg 31, cfg)] with fio := { Fio.reset with inp := [(31, x)], edges := edges } }
def fioEdge : FioEdge := ⟨5 * second + 3600, 31, true, false, true⟩
theorem test_binaryInputCommands :
    biOn (st []) 31 = false ∧
    -- a level that ends 1 µs after the transition, and one unit before
    (let s := biSt 1 { FioIn.reset with raw := true, rawAt := 0, before := some (false, 0, 0) }
     (getIn s 31).before = some (false, 0, 0) ∧ (getIn s 31).rawDue = false ∧ s.op + (s.now + (usec - 1) - s.now) < (getIn s 31).rawAt + usec ∧
       (getIn s 31).rawAt + usec ≤ s.op + (s.now + usec - s.now) ∧ biOn s 31 = true ∧ (getIn s 31).blocked = false) ∧
    (getIn (st []) 31).before = none ∧
    -- a blocked level that has lasted 1 µs and has not entered the ring; the ring with room, and full
    (∀ es ∈ [[], [fioEdge]], let s := biSt 1 { FioIn.reset with raw := true, blocked := true, rawDue := true } es
     biOn s 31 = true ∧ (getIn s 31).blocked = true ∧ (getIn s 31).rawDue = true ∧ (getIn s 31).rawAt + usec ≤ s.op + (s.now + usec - s.now) ∧
       s.fio.edges.length < 1024) ∧ ¬ (biSt 1 .reset (List.replicate 1024 fioEdge)).fio.edges.length < 1024 ∧ hcSt (st []) ≠ 3 ∧
    (enterRaw (toInstant (biSt 1 .reset) 0) 31).fio.edges.length < 1024 ∧
    ¬ ((getIn (biSt 1 .reset) 31).rawAt + max (rf (biSt 1 .reset) (Reg.fioBiCfg 31) 6 2 * msec) usec ≤ (biSt 1 .reset).op + ((biSt 1 .reset).now + (usec - 1) - (biSt 1 .reset).now)) ∧
    (let s := biSt 0xF800081 { FioIn.reset with raw := true, recent := [0] }
     biOn s 31 = true ∧ (getIn s 31).blocked = false ∧ biLevel s 31 (getIn s 31).raw ≠ (getIn s 31).acc ∧ s.fio.edges.length < 1024 ∧
     (getIn s 31).rawAt + max (rf s (Reg.fioBiCfg 31) 6 2 * msec) usec ≤ s.op + (s.now + usec - s.now) ∧ 0 < rf s (Reg.fioBiCfg 31) 10 7 ∧
     0 < rf (biSt 0xFFF881 .reset) (Reg.fioBiCfg 31) 18 11 * 10 * msec ∧
     rf s (Reg.fioBiCfg 31) 10 7 ≤ ([0].filter (fun r => s.op + (s.now + usec - s.now) < r + rf (biSt 0xFFF881 .reset) (Reg.fioBiCfg 31) 18 11 * 10 * msec)).length) ∧
    (let s := biSt 5 { FioIn.reset with raw := true, blocked := true }
     biOn s 31 = true ∧ (getIn s 31).blocked = true ∧ ¬ (getIn s 31).rawAt + max (rf s (Reg.fioBiCfg 31) 6 2 * msec) usec ≤ s.op + (s.now - s.now) ∧
     (getIn s 31).rawAt + rf s (Reg.fioBiCfg 31) 26 19 * 100 * msec ≤ s.op + (s.now - s.now) ∧ biLevel s 31 true ≠ (getIn s 31).acc ∧
     biLevel s 31 false = (getIn s 31).acc) ∧
    ¬ ((getIn (biSt 0x7F80001 .reset) 31).rawAt + rf (biSt 0x7F80001 .reset) (Reg.fioBiCfg 31) 26 19 * 100 * msec ≤ 0) ∧
    ¬ (List.replicate 1024 fioEdge).length < 1024 ∧ (st []).fio.edges = [] ∧ (biSt 1 .reset [fioEdge]).fio.edges = [fioEdge] ∧
    (let s := st [(Reg.cmtTState 63, 3)]; tState s 62 ≤ 1 ∧ 1 < tState s 63 ∧ ownerFree s 63 = false ∧ ownerFree s 62 = true) := by
  decide +kernel

/-- Channel 15 in a state: its supply good, its unit on, registers written. -/
def bcSt (c : FioCh) (regs : Tab Word := []) : State :=
  { st ([(Reg.fioCtrl, 3), (Reg.fioStatus, 8)] ++ regs) with fio := { Fio.reset with ch := [(15, c)] } }
def drv (x : OutState) (attempts : Nat := 0) : FioDrive := { FioDrive.reset with st := x, attempts := attempts }
theorem test_breakerChannelCommands :
    (let s := bcSt { FioCh.reset with trip := drv .on, closeZero := some 0 } [(Reg.fioBcCfg 15, 0x8)]
     (getOut s 15 .trip).st = .on ∧ outCmd s 15 .trip = false ∧ (getOut s 15 .close).st = .off ∧ committed s 15 .close = false ∧
     (getOut s 15 .trip).onAt + rf s (Reg.fioBcCfg 15) 10 3 * msec ≤ s.op + (s.now + msec - s.now) ∧
     s.op + (s.now + (msec - 1) - s.now) < (getOut s 15 .trip).onAt + rf s (Reg.fioBcCfg 15) 10 3 * msec ∧ (getCh s 15).closeZero = some 0) ∧
    (getCh (st []) 15).closeZero = none ∧
    (let s := bcSt { FioCh.reset with trip := drv .limit 2 } [(Reg.fioOutCmd, 0x40000000), (Reg.fioBcOwn 3, 0x01000000), (Reg.fioBcCfg 15, 1)]
     (getOut s 15 .trip).st = .limit ∧ (getOut s 15 .trip).attempts + 1 < 4 ∧
       (getOut s 15 .trip).since + 2 * msec ≤ s.op + (s.now + 2 * msec - s.now) ∧ s.op + (s.now + (2 * msec - 1) - s.now) < (getOut s 15 .trip).since + 2 * msec ∧ outCmd s 15 .trip = true ∧ supplyGood s 15 = true) ∧
    (let s := bcSt { FioCh.reset with trip := drv .limit 3 }; (getOut s 15 .trip).st = .limit ∧ 4 ≤ (getOut s 15 .trip).attempts + 1) ∧
    (let s := bcSt { FioCh.reset with trip := drv .retry 3 } [(Reg.fioOutCmd, 0x40000000), (Reg.fioBcOwn 3, 0x01000000), (Reg.fioBcCfg 15, 1)]
     (getOut s 15 .trip).st = .retry ∧ outCmd s 15 .trip = true ∧ (getOut s 15 .trip).attempts < 4 ∧
       (getOut s 15 .trip).since + 50 * msec ≤ s.op + (s.now + 50 * msec - s.now) ∧ s.op + (s.now + (50 * msec - 1) - s.now) < (getOut s 15 .trip).since + 50 * msec) ∧
    (let s := bcSt { FioCh.reset with trip := drv .latched } [(Reg.fioOutCmd, 0x40000000), (Reg.fioBcOwn 3, 0x01000000), (Reg.fioBcCfg 15, 1)]
     (getOut s 15 .trip).st = .latched ∧ outCmd s 15 .trip = true ∧ supplyGood s 15 = true ∧ (getOut s 15 .close).st = .off ∧ committed s 15 .close = false) ∧
    (let s := bcSt { FioCh.reset with trip := drv .latched }; (getOut s 15 .trip).st = .latched ∧ outCmd s 15 .trip = false) ∧
    (let s := bcSt { FioCh.reset with close := drv .on } [(Reg.fioBcCfg 15, 6)]
     (getOut s 15 .close).st = .on ∧ rb s (Reg.fioBcCfg 15) (1 + oIdx .close) = true ∧ 5 ≤ 5 ∧ rb (st []) (Reg.fioBcCfg 15) (1 + oIdx .close) = false) ∧
    (71 < 72 ∧ 72 ≤ 128 ∧ 128 < 129 ∧ supplyClass false 71 ≠ .good ∧ supplyClass true 100 ≠ .good ∧ (15 : Fin 16).val / 4 = (3 : Fin 4).val ∧ (11 : Fin 16).val / 4 ≠ (3 : Fin 4).val) ∧
    (rb (bcSt .reset) Reg.fioStatus (supplyCode .good + 3) = true ∧ rb (bcSt .reset) Reg.fioStatus (supplyCode .absent + 3) = false) ∧
    -- supervision: a pulse 100 ms after the last, not before; its end after 1 ms; 10 ms below 5 mA
    (let s := bcSt { FioCh.reset with close := { FioDrive.reset with pulseAt := some 0 } } [(Reg.fioBcCfg 15, 6)]
     rb s (Reg.fioBcCfg 15) (1 + oIdx .close) = true ∧ (getOut s 15 .close).st = .off ∧ (getOut s 15 .close).pulseAt = some 0 ∧
       0 + 100 * msec ≤ s.op + (s.now + 100 * msec - s.now) ∧ s.op + (s.now + (100 * msec - 1) - s.now) < 0 + 100 * msec ∧
       rb s Reg.fioCtrl 0 = true ∧ supplyGood s 15 = true ∧ rb s Reg.fioStatus 16 = false) ∧
    rb (st []) (Reg.fioBcCfg 15) (1 + oIdx .close) = false ∧
    (let s := bcSt { FioCh.reset with close := { FioDrive.reset with pulse := true, pulseAt := some 0 } }
     (getOut s 15 .close).pulse = true ∧ (getOut s 15 .close).pulseAt = some 0 ∧ 0 + msec ≤ s.op + (s.now + msec - s.now) ∧
       s.op + (s.now + (msec - 1) - s.now) < 0 + msec) ∧
    (let s := bcSt { FioCh.reset with close := { drv .on with lowAt := some 0 } } [(Reg.fioBcCfg 15, 6)]
     rb s (Reg.fioBcCfg 15) (1 + oIdx .close) = true ∧ (getOut s 15 .close).st = .on ∧ (getOut s 15 .close).lowAt = some 0 ∧
       0 + 10 * msec ≤ s.op + (s.now + 10 * msec - s.now) ∧ s.op + (s.now + (10 * msec - 1) - s.now) < 0 + 10 * msec) := by decide +kernel

theorem test_controlLawRegisters :
    (let s := st [(Reg.cluLOwn 7 31, 63)]
     fld 62 5 0 ≠ loopOwner s 7 31 ∧ fld 63 5 0 = loopOwner s 7 31 ∧ ownerFree s (loopOwner s 7 31) = true ∧ ownerFree s (fld 62 5 0) = true ∧
     bitOf 0x80000000 31 = true ∧ (∀ j : Fin 32, bitOf 0x80000000 j = true → loopOwner s 7 j = 63 ∧
       ∀ g : Fin 8, rb s (Reg.cluSgMemb 7 g) j = true → g = 7) ∧ members s 7 7 = [] ∧
     ((List.finRange 32).filter (fun j : Fin 32 => bitOf 0x80000000 j.val)).length ≤ 8 ∧ loopOwner s 7 30 = 0 ∧ bitOf 0x40000000 30 = true) ∧
    ownerFree (st [(Reg.cmtTState 63, 3)]) 63 = false ∧ bitOf 0 31 = false ∧
    (let s := st [(Reg.cluLOwn 7 31, 63), (Reg.cmtTState 63, 4), (Reg.cluInjWord 7, 4)]
     fld 0x8000001F 4 0 = 31 ∧ tState s (ten (loopOwner s 7 31)) = 4 ∧ fld (rd s (Reg.cluInjWord 7)) 2 0 = 4 ∧
     fld (rd (st [(Reg.cluInjWord 7, 1)]) (Reg.cluInjWord 7)) 2 0 = 1 ∧
     (let u := wr (wr s (Reg.cluInjWord 7) 0x73) (loopReg 7 31 7) 1
      fld (rd u (Reg.cluInjWord 7)) 2 0 = 3 ∧ fld (rd u (Reg.cluInjWord 7)) 7 4 = 7 ∧ (loopWord u 7 31 7).toNat % 65536 ≠ 0) ∧ (loopWord s 7 31 6).toNat = 0 ∧
     fld (rd (st [(Reg.cluInjWord 7, 5)]) (Reg.cluInjWord 7)) 2 0 = 5 ∧ fld (rd (st []) (Reg.cluInjWord 7)) 2 0 = 0 ∧
     tState (st []) (ten (loopOwner (st []) 7 31)) ≠ 4) ∧
    (capArmed (st []) 7 1 = false ∧ capRunning (st []) 7 1 = false ∧ capArmed (st [(Reg.cluCapStat 7 1, 0x20000)]) 7 1 = true) ∧
    (let s := st [(Reg.cluCapStat 7 1, 0x40000), (Reg.cluCapCtrl 7 1, 0x100), (Reg.cluCapPost 7 1, 1), (Reg.cluCapRdptr 7 1, 0xFFFE)]
     capRunning s 7 1 = true ∧ rb s (Reg.cluCapCtrl 7 1) 8 = true ∧ rf s (Reg.cluCapPost 7 1) 15 0 ≠ 0 ∧
     rf (st []) (Reg.cluCapPost 7 1) 15 0 = 0 ∧ rf s (Reg.cluCapRdptr 7 1) 15 0 = 2 * 0x7FFF ∧ rb (st []) (Reg.cluCapCtrl 7 1) 8 = false) := by
  decide +kernel

/-! ## The block -/

theorem test_secondEvaluationReturnsTheFirst :
    let box : LoopBox := ⟨.reset, some { LoopSt.reset with cand := 7 }, none, false, false⟩
    let s := { onCore true [(3, 31)] [(Reg.cluLOwn 1 31, 1)] with clu := { Clu.reset with loop := [(63, box)] } }
    Issues s 8 0 ∧ cluOperand s 8 ((getCore s 8).ctx.rg 3) = some (1, 31, 0) ∧
      (getLoop s 1 31).wrk = some { LoopSt.reset with cand := 7 } := by
  exact ⟨⟨fetches_of_starts (by decide +kernel), by decide⟩, by decide +kernel, by decide +kernel⟩
theorem test_stepRunsFrontCommand : step { st [] with pending := [.pfcRepeat, .deadline] } = exec .pfcRepeat { st [] with pending := [.deadline] } ∧
    step (st []) = .next (st []) ∧ silentRow .pairFence = true ∧ hcSt (st [(Reg.hcState, 3)]) = 3 := ⟨rfl, rfl, rfl, by decide⟩
theorem test_everyStepKeepsTheMemoriesCanonical :
    let s := { st [] with mem := [(3, 1), (9, 255)] }; Memory.wf s.mem = true ∧ Memory.wf s.ddr = true ∧ step s = .next s ∧
      Memory.wf [(9, 1), (3, 1)] = false ∧ Memory.wf [(3, 0)] = false := by refine ⟨?_, ?_, rfl, ?_, ?_⟩ <;> decide
theorem test_resetState :
    let s := State.reset; hcSt s = 0 ∧ keyless s = true ∧ rd s Reg.timeCtrl = 0x41 ∧ rd s Reg.timeTickcfg = 1 ∧ rd s Reg.loomCtrl = 0x115 ∧
      rd s (Reg.arrCMap 7) = 0x76543210 ∧ rd s Reg.cmtCfg = 0x10 ∧ rd s Reg.pluLease = 0x140030 ∧ rd s Reg.ksStatus = 2 := by decide +kernel

/-! ## A term each well-formedness check refuses -/

theorem test_wf_registers : (Instr.registerWrite (.fn 0) 2 [⟨15, 0⟩]).wf = false ∧ (Instr.registerWrite (.fn 0) 4 []).wf = false ∧
    (Instr.registerWrite (.fn 0) 4 (List.replicate 17 ⟨15, 0⟩)).wf = false ∧ (Instr.registerWrite (.fn 0) 4 [⟨15, 0⟩]).wf = true ∧
    (Instr.apertureWrite 0 []).wf = false ∧ (Instr.apertureWrite 0x1FFFFFF [1, 2]).wf = false ∧ (Instr.apertureWrite 0x1FFFFFF [1]).wf = true := by
  decide +kernel
def wfAsdu : SvAsdu := ⟨[1], 0, 65535, 0, 0, none, none, [1], [0]⟩
def wfPtp : PtpMsg := ⟨.sync, 0, false, 0, 0, 0, 0, 0, 0, none, none⟩
def wfGoose : GooseMsg := ⟨[], 1, 1, 1, 0, false, false, false, []⟩
theorem test_wf_frames : frame.wf = true ∧ { frame with pcp := 8 }.wf = false ∧ { frame with len := 65536 }.wf = false ∧ wfAsdu.wf = true ∧
    { wfAsdu with quals := [] }.wf = false ∧ { wfAsdu with smpCnt := 65536 }.wf = false ∧ { wfAsdu with smpSynch := 256 }.wf = false ∧
    wfGoose.wf = true ∧ { wfGoose with stNum := 2 ^ 32 }.wf = false ∧ { wfGoose with sqNum := 2 ^ 32 }.wf = false ∧ { wfGoose with talMs := 2 ^ 32 }.wf = false ∧
    (∀ p ∈ [Payload.sv 65536 false true [], .goose 65536 true wfGoose, .goose 0 true { wfGoose with members := [.int 33 0] },
      .goose 0 true { wfGoose with members := [.int 8 128] }, .goose 0 true { wfGoose with members := [.uint (2 ^ 32)] },
      .goose 0 true { wfGoose with members := [.bits (List.replicate 33 true)] }, .ptp { wfPtp with domain := 256 },
      .ptp { wfPtp with seq := 65536 }, .ptp { wfPtp with kind := .announce }, .ptp { wfPtp with ann := some master },
      .ptp { wfPtp with kind := .announce, ann := some { master with domain := 256 } }, .pfc 0 [1], .pfc 0 (List.replicate 8 65536),
      .pause 65536, .raw 65536 []], p.wf = false) ∧
    (∀ m ∈ [{ master with domain := 256 }, { master with prio1 := 256 }, { master with cls := 256 }, { master with acc := 256 },
      { master with variance := 65536 }, { master with prio2 := 256 }, { master with steps := 65536 }],
      (Instr.announceReceive 0 m 0).wf = false) ∧ (Instr.announceReceive 0 master 0).wf = true ∧
    (Instr.frameReceive 0 { frame with pcp := 8 } 0).wf = false ∧ (Payload.ptp wfPtp).wf = true := by decide +kernel
theorem test_wf_lease : (lease 0).wf = true ∧
    (∀ m ∈ [{ lease 0 with epoch := 2 ^ 32 }, { lease 0 with seq := 2 ^ 32 }, { lease 0 with echo := 2 ^ 32 }, { lease 0 with tick := 2 ^ 48 },
      { lease 0 with ckpt := 2 ^ 32 }], (Instr.renewal .pair m 0).wf = false) ∧
    (Instr.renewal .pair (lease 0) 0).wf = true ∧ (Instr.acknowledgement .pair (lease 0) 0).wf = false ∧ (Instr.yield .pair (lease 0) 0).wf = false ∧
    (Instr.ready .pair (lease 0) 0).wf = false ∧ (Instr.refuse .pair (lease 0) 0).wf = false ∧ (Instr.swapFailed .pair (lease 0) 0).wf = false ∧
    (Instr.pairLinkWriteReceive 262145).wf = false ∧ (Instr.creditReturn 262145).wf = false ∧ (Instr.checkpointClose ⟨2 ^ 32, 0, true, 0⟩).wf = false ∧
    (∀ i ∈ [CkptItem.page 0 [], .retained 0 0 [], .loop 0 [] [], .pub 0 (2 ^ 32), .tenant 1 []], (Instr.checkpointPageReceive ⟨0, i⟩).wf = false) := by
  decide +kernel
theorem test_wf_units :
    (∀ c ∈ [Instr.uncorrectableError (.packetBuffer 262144), .uncorrectableError (.stateMemory 524288), .uncorrectableError (.ddrPage 0x1000000), .uncorrectableError (.pantry 16384), .inventory ⟨0x20, [0], 0⟩,
      .checkpointPageReceive ⟨2 ^ 32, .pub 0 0⟩,
      .dbSqTail 0 0 4096 [], .dbCqHead 0 0 4096, .dbSqTail 0 0 0 [entry 256 0 0 0], .dbSqTail 0 0 0 [entry 0 (2 ^ 32) 0 0],
      .dbSqTail 0 0 0 [entry 0 0 (2 ^ 32) 0], .dbSqTail 0 0 0 [entry 0 0 0 64], .driveInsert 0 ⟨0, none, 5, 5, false, 512, false⟩, .driveInsert 0 ⟨0, none, 4, 6, false, 512, false⟩,
      .driveInsert 0 ⟨0, none, 4, 0, false, 512, false⟩, .currentLimit 0 .trip 65536 0, .supplyChange 0 .good 4096, .selfTestComplete ⟨[72], [], true⟩,
      .selfTestComplete ⟨[], [17], true⟩, .ddr5Patrol [0x1000000], .telemetryRecord ⟨[], [], [], []⟩ 0], c.wf = false) ∧
    (let b : BusCmd := ⟨0x20, List.replicate 34 0, 0⟩
     ∀ c ∈ [Instr.inventory b, .asset b, .health b, .logInfo b, .logSel b, .logRead b, .pwrState b, .pwrArm b 0, .pwrShutdown b 0, .pwrPowerOn b 0,
       .pwrReset b 0], c.wf = false) ∧
    (Instr.dbSqTail 0 0 4095 [entry 3 0 64 63]).wf = true ∧ (Instr.inventory ⟨0x01, [0], 0⟩).wf = true ∧ (Instr.inventory ⟨0xFF, [0], 0⟩).wf = true ∧ (Instr.driveInsert 0 ⟨0, none, 4, 5, false, 512, false⟩).wf = true := by decide +kernel
/-- An IMG_PUT entry of more than 1 MiB, a staged image of more than 8 MiB. -/
theorem test_wf_images (l : List Byte) (h : 0x800000 < l.length) :
    (Instr.imgPut 0 0 l false).wf = false ∧ (Instr.imgLoad 0 0 ⟨okImage, true, l, [], true⟩).wf = false :=
  ⟨decide_eq_false (by omega), decide_eq_false (by show ¬ l.length ≤ 0x800000; omega)⟩
/-- A payload of more octets than a frame's length counts. -/
theorem test_wf_raw (l : List Byte) (h : 65535 < l.length) : (Payload.raw 0 l).wf = false := by
  have : ¬ l.length ≤ 65535 := by omega
  simp [Payload.wf, this]

end Sys2Proof.Tests
end

section
/-! PROOFS: frames of composed operations; power, faults and resets (O42); register writes (O44); the reset state (O59). -/

namespace Sys2Proof

/-- A lookup in the entries whose keys pass a test. -/
theorem Tab.get_filter {α : Type} (d : α) (t : Tab α) (p : Nat → Bool) (k : Nat) :
    Tab.get d (t.filter (fun e => p e.1)) k = if p k = true then Tab.get d t k else d := by
  induction t with
  | nil => simp
  | cons e t ih =>
    by_cases hk : e.1 = k
    · subst hk
      by_cases he : p e.1 = true <;> simp_all [Tab.get_cons]
    · by_cases he : p e.1 = true <;> simp_all [Tab.get_cons]

end Sys2Proof

namespace Sys2Proof.Machine
set_option Elab.async false

/-! ## Frames of composed operations -/

theorem KeepsBut.trans {ps : List Part} {s t u : State} (h : KeepsBut ps s t) (k : KeepsBut ps t u) : KeepsBut ps s u := by
  intro p hp
  have h1 := h p hp
  have h2 := k p hp
  cases p <;> exact Eq.trans h2 h1

theorem KeepsBut.mono {ps qs : List Part} {s t : State} (h : KeepsBut ps s t) (hp : ps ⊆ qs) : KeepsBut qs s t :=
  fun p hq => h p (fun hm => hq (hp hm))

/-- What an operation built from many small ones leaves alone: the parts not named, every register below an offset, and the log
records already staged. -/
structure Frame (ps : List Part) (n : Nat) (s t : State) : Prop where
  keeps : KeepsBut ps s t
  rd : ∀ off < n, rd t off = rd s off
  staged : List.Sublist s.rec'.ring t.rec'.ring

namespace Frame
variable {ps qs : List Part} {n m : Nat} {s t u : State}

theorem refl : Frame ps n s s :=
  ⟨fun p _ => by cases p <;> rfl, fun _ _ => rfl, List.Sublist.refl _⟩

theorem trans (h : Frame ps n s t) (k : Frame ps n t u) : Frame ps n s u where
  keeps := h.keeps.trans k.keeps
  rd off ho := (k.rd off ho).trans (h.rd off ho)
  staged := h.staged.trans k.staged

theorem mono (h : Frame ps n s t) (hp : ps ⊆ qs) (hn : m ≤ n) : Frame qs m s t :=
  ⟨h.keeps.mono hp, fun off ho => h.rd off (by omega), h.staged⟩

theorem op_eq (h : Frame ps n s t) (hp : .op ∉ ps := by decide) : t.op = s.op := h.keeps .op hp
theorem time_eq (h : Frame ps n s t) (hp : .time ∉ ps := by decide) : t.time = s.time := h.keeps .time hp
theorem cmt_eq (h : Frame ps n s t) (hp : .cmt ∉ ps := by decide) : t.cmt = s.cmt := h.keeps .cmt hp
theorem core_eq (h : Frame ps n s t) (hp : .core ∉ ps := by decide) : t.core = s.core := h.keeps .core hp
theorem recorder_eq (h : Frame ps n s t) (hp : .recorder ∉ ps := by decide) : t.rec' = s.rec' := h.keeps .recorder hp
theorem arc_eq (h : Frame ps n s t) (hp : .arc ∉ ps := by decide) : t.arc = s.arc := h.keeps .arc hp
theorem ks_eq (h : Frame ps n s t) (hp : .ks ∉ ps := by decide) : t.ks = s.ks := h.keeps .ks hp
theorem hc_eq (h : Frame ps n s t) (hp : .hc ∉ ps := by decide) : t.hc = s.hc := h.keeps .hc hp

/-- An update of one part that holds neither registers nor the log. -/
theorem of_part {p : Part} (hp : p ∈ ps) (h : ∀ q, q ≠ p → q.same s t) (hr : t.regs = s.regs) (hl : t.rec'.ring = s.rec'.ring) :
    Frame ps n s t :=
  ⟨fun q hq => h q (fun e => hq (e ▸ hp)), fun off _ => rd_congr hr off, hl ▸ List.Sublist.refl _⟩

theorem ite {c : Prop} [Decidable c] {a b : State} (ha : c → Frame ps n s a) (hb : ¬ c → Frame ps n s b) :
    Frame ps n s (if c then a else b) := by
  split
  · exact ha ‹_›
  · exact hb ‹_›

theorem foldl {α : Type} {f : State → α → State} (h : ∀ t a, Frame ps n t (f t a)) (l : List α) (s : State) :
    Frame ps n s (l.foldl f s) :=
  List.foldlRecOn l f refl fun t ht a _ => ht.trans (h t a)

theorem each {k : Nat} {f : Fin k → State → State} (h : ∀ i t, Frame ps n t (f i t)) (s : State) : Frame ps n s (each k f s) :=
  foldl (fun t i => h i t) _ s

end Frame

theorem SameButRegs.keeps {s t : State} (h : SameButRegs s t) : KeepsBut [.regs, .out] s t := by
  intro p hp
  rw [SameButRegs] at h
  rw [h]
  cases p <;> simp_all [Part.same]

theorem SameButLog.keeps {s t : State} (h : SameButLog s t) : KeepsBut [.regs, .arb, .recorder, .out] s t := by
  intro p hp
  rw [SameButLog] at h
  rw [h]
  cases p <;> simp_all [Part.same]

/-! ### Updates of one part -/

section
variable {ps : List Part} {n : Nat} {s : State}

theorem modCh_frame (k : Fin 16) (f : FioCh → FioCh) (hp : .fio ∈ ps := by decide) : Frame ps n s (modCh s k f) :=
  .of_part hp (fun q _ => by cases q <;> simp_all [Part.same, modCh]) rfl rfl
theorem modPlu_frame (f : Plu → Plu) (hp : .plu ∈ ps := by decide) : Frame ps n s (modPlu s f) :=
  .of_part hp (fun q _ => by cases q <;> simp_all [Part.same, modPlu]) rfl rfl
theorem modCmt_frame (f : Commit → Commit) (hp : .cmt ∈ ps := by decide) : Frame ps n s (modCmt s f) :=
  .of_part hp (fun q _ => by cases q <;> simp_all [Part.same, modCmt]) rfl rfl
theorem modTen_frame (t : Fin 64) (f : Tenant → Tenant) (hp : .ten ∈ ps := by decide) : Frame ps n s (modTen s t f) :=
  .of_part hp (fun q _ => by cases q <;> simp_all [Part.same]) rfl rfl
theorem modCore_frame (l : Fin 64) (f : Core → Core) (hp : .core ∈ ps := by decide) : Frame ps n s (modCore s l f) :=
  .of_part hp (fun q _ => by cases q <;> simp_all [Part.same]) rfl rfl
theorem modTime_frame (f : TimeUnit → TimeUnit) (hp : .time ∈ ps := by decide) : Frame ps n s (modTime s f) :=
  .of_part hp (fun q _ => by cases q <;> simp_all [Part.same, modTime]) rfl rfl
theorem modArc_frame (f : Archive → Archive) (hp : .arc ∈ ps := by decide) : Frame ps n s (modArc s f) :=
  .of_part hp (fun q _ => by cases q <;> simp_all [Part.same, modArc]) rfl rfl
theorem modHc_frame (f : Health → Health) (hp : .hc ∈ ps := by decide) : Frame ps n s (modHc s f) :=
  .of_part hp (fun q _ => by cases q <;> simp_all [Part.same, modHc]) rfl rfl
theorem modKs_frame (f : KeyStore → KeyStore) (hp : .ks ∈ ps := by decide) : Frame ps n s (modKs s f) :=
  .of_part hp (fun q _ => by cases q <;> simp_all [Part.same, modKs]) rfl rfl
end

/-! ### Registers, interrupts, the log and the Pantry -/

section
variable {ps : List Part} {n off : Nat} {s : State}

theorem wr_frame (v : Word) (h : n ≤ off) (hp : [.regs, .out] ⊆ ps := by decide) : Frame ps n s (wr s off v) :=
  .mono (ps := [.regs, .out]) ⟨(wr_same s off v).keeps, fun b hb => rd_wr_ne s v (by omega), List.Sublist.refl _⟩ hp le_rfl

theorem wb_frame (i : Nat) (b : Bool) (h : n ≤ off) (hp : [.regs, .out] ⊆ ps := by decide) : Frame ps n s (wb s off i b) :=
  wr_frame _ h hp

theorem wf_frame (hi lo x : Nat) (h : n ≤ off) (hp : [.regs, .out] ⊆ ps := by decide) : Frame ps n s (wf s off hi lo x) :=
  wr_frame _ h hp

theorem bump_frame (k : Nat) (h : n ≤ off) (hp : [.regs, .out] ⊆ ps := by decide) : Frame ps n s (bump s off k) :=
  wr_frame _ h hp

theorem emit_frame (o : Out) (hp : .out ∈ ps := by decide) : Frame ps n s (emit s o) :=
  .of_part hp (fun q _ => by cases q <;> simp_all [Part.same]) rfl rfl

theorem raise_frame (bit : Nat) (h : n ≤ off) (hp : [.regs, .out] ⊆ ps := by decide) : Frame ps n s (raise s off bit) :=
  have hs : Frame [.regs, .out] n s (wb s off bit true) := wb_frame bit true h
  .mono (ps := [.regs, .out]) (.ite (fun _ => hs.trans (emit_frame _)) (fun _ => hs)) hp le_rfl

theorem raiseVf_frame (v : Fin 64) (bit : Nat) (h : n ≤ 0x100000000) (hp : [.regs, .out] ⊆ ps := by decide) :
    Frame ps n s (raiseVf s v bit) :=
  have hs : Frame [.regs, .out] n s (wb s (Reg.vfIrq v) bit true) := wb_frame bit true (by unfold Reg.vfIrq; omega)
  .mono (ps := [.regs, .out]) (.ite (fun _ => hs.trans (emit_frame _)) (fun _ => hs)) hp le_rfl
end

/-- The parts that staging a log record or accounting a Pantry write can change. -/
abbrev logParts : List Part := [.regs, .arb, .recorder, .out]

/-- Where the Pantry's counters begin: an operation of the Pantry's accounting, the log, the archive or the field I/O writes no
register below them. -/
abbrev counterBase : Nat := Reg.panOptime

section
variable (s : State)

/-- The flush asks the State Memory banks and changes nothing else. -/
theorem askFlush_arb : ∃ a, askFlush s = { s with arb := a } := by
  unfold askFlush
  refine List.foldlRecOn (motive := fun t : State => ∃ a, t = { s with arb := a }) _ _ ⟨s.arb, rfl⟩ ?_
  rintro t ⟨a, rfl⟩ b -
  dsimp only
  split
  · exact ⟨a, rfl⟩
  · exact ⟨_, rfl⟩

/-- The state in which a flush of every staged record has started. -/
def flushStarted (s : State) : State :=
  wb (askFlush { s with rec' := { s.rec' with flushing := some s.rec'.ring.length } }) Reg.logStatus 20 true

theorem startFlush_eq (force : Bool) : startFlush s force =
    if (s.rec'.flushing.isSome || (rb s Reg.logStatus 17 && !force) || s.rec'.ring.isEmpty) = true then s
    else flushStarted s := rfl

theorem flushStarted_rec : (flushStarted s).rec' = { s.rec' with flushing := some s.rec'.ring.length } := by
  obtain ⟨a, h⟩ := askFlush_arb { s with rec' := { s.rec' with flushing := some s.rec'.ring.length } }
  rw [flushStarted, h]
  rfl

/-- A forced flush leaves no staged record without a flush. -/
theorem startFlush_forced (h : s.rec'.ring ≠ []) : (startFlush s true).rec'.flushing ≠ none := by
  rw [startFlush_eq]
  split
  case isTrue hc => simpa [h, Option.isSome_iff_ne_none] using hc
  case isFalse => simp [flushStarted_rec]

theorem flushStarted_regs (off : Nat) (h : off ≠ Reg.logStatus) : rd (flushStarted s) off = rd s off := by
  obtain ⟨a, ha⟩ := askFlush_arb { s with rec' := { s.rec' with flushing := some s.rec'.ring.length } }
  rw [flushStarted, ha, wb, rd_wr_ne _ _ h.symm]
  rfl

theorem startFlush_frame (force : Bool) : Frame logParts counterBase s (startFlush s force) := by
  rw [startFlush_eq]
  refine .ite (fun _ => .refl) (fun hc => ⟨?_, fun off h => flushStarted_regs s off ?_, ?_⟩)
  · have h := (startFlush_same s force).keeps
    rwa [startFlush_eq, if_neg hc] at h
  · rintro rfl
    revert h
    decide
  · rw [flushStarted_rec]

theorem flushDue_frame : Frame logParts counterBase s (flushDue s) :=
  .ite (fun _ => startFlush_frame s true) (fun _ => .ite (fun _ => startFlush_frame s false) (fun _ => .refl))

theorem logRec_frame (irq severity cls detail : Nat) (ids : List Nat) :
    Frame logParts counterBase s (logRec s irq severity cls detail ids) := by
  unfold logRec
  refine .ite (fun _ => ?_) (fun _ => .ite (fun _ => ?_) (fun _ => ?_))
  · exact (bump_frame 1 (by decide)).trans (raise_frame _ (by decide))
  · exact (bump_frame 1 (by decide)).trans (raise_frame _ (by decide))
  · refine .trans ?_ (flushDue_frame _)
    refine .trans ?_ (.ite (fun _ => raise_frame _ (by decide)) (fun _ => .refl))
    refine .trans ?_ ((wr_frame _ (by decide)).trans (wf_frame _ _ _ (by decide)))
    exact ⟨fun p hp => by cases p <;> simp_all [Part.same], fun _ _ => rfl, List.sublist_append_left _ _⟩

theorem setPan_frame (k : Nat) (x : PanWord) : Frame logParts counterBase s (setPan s k x) :=
  ⟨(setPan_same s k x).keeps, fun _ _ => rfl, List.Sublist.refl _⟩

theorem persist_frame (off : Nat) : Frame logParts counterBase s (persist s off) := by
  unfold persist
  extract_lets w h n hot tooMany s1 s2 s3
  refine .trans (t := s1) (setPan_frame s _ _) (.ite (fun _ => ?_) (fun _ => .refl))
  have h2 : Frame logParts counterBase s1 s2 := .ite (fun _ => wr_frame _ (by decide)) (fun _ => .refl)
  have h3 : Frame logParts counterBase s2 s3 := raise_frame _ (by decide)
  exact (h2.trans h3).trans (.ite (fun _ => .refl) (fun _ => logRec_frame _ _ _ _ _ _))

theorem persistWord_frame (w : Nat) : Frame logParts counterBase s (persistWord s w) := persist_frame s _
end

/-! ### The operations of a power-fail sequence and a module fault -/

/-- The parts that the field outputs' state machines can change. -/
abbrev fioParts : List Part := .fio :: logParts

section
variable (s : State)

theorem log_in_fio : logParts ⊆ fioParts := by decide

theorem fioBcStatus_high (k : Fin 16) : counterBase ≤ Reg.fioBcStatus k := by unfold counterBase Reg.panOptime Reg.fioBcStatus; omega
theorem fioBcFault_high (k : Fin 16) : counterBase ≤ Reg.fioBcFault k := by unfold counterBase Reg.panOptime Reg.fioBcFault; omega
theorem fioBcOps_high (k : Fin 16) : counterBase ≤ Reg.fioBcOps k := by unfold counterBase Reg.panOptime Reg.fioBcOps; omega

theorem modOut_frame (k : Fin 16) (o : BcOut) (f : FioDrive → FioDrive) : Frame fioParts counterBase s (modOut s k o f) :=
  modCh_frame k _

theorem setOut_frame (k : Fin 16) (o : BcOut) (st : OutState) : Frame fioParts counterBase s (setOut s k o st) := by
  unfold setOut
  refine .trans ?_ (wb_frame _ _ (by decide))
  refine .trans ?_ (.ite (fun _ => .refl) (fun _ => wf_frame _ _ _ (fioBcStatus_high k)))
  exact (modOut_frame s k o _).trans (wf_frame _ _ _ (fioBcStatus_high k))

theorem endOp_frame (k : Fin 16) (o : BcOut) : Frame fioParts counterBase s (endOp s k o) := by
  unfold endOp
  exact (wf_frame _ _ _ (fioBcOps_high k)).trans (modOut_frame _ k o _)

theorem outStep_frame (k : Fin 16) (o : BcOut) : Frame fioParts counterBase s (outStep s k o) := by
  unfold outStep
  dsimp only
  split
  · refine .ite (fun _ => modOut_frame s k o _) (fun _ => .ite (fun _ => ?_) (fun _ => .ite (fun _ => .refl) (fun _ => ?_)))
    · exact (setOut_frame s k o .on).trans (modOut_frame _ k o _)
    · refine .trans ?_ ((logRec_frame _ _ _ _ _ _).mono log_in_fio le_rfl)
      exact ((modOut_frame s k o _).trans (wb_frame _ _ (fioBcFault_high k))).trans (raise_frame _ (by decide))
  · exact .ite (fun _ => (setOut_frame s k o .off).trans (endOp_frame _ k o)) (fun _ => .refl)
  · exact .ite (fun _ => (setOut_frame s k o .off).trans (endOp_frame _ k o)) (fun _ => .refl)
  · exact .ite (fun _ => .refl) (fun _ => (setOut_frame s k o .off).trans (modOut_frame _ k o _))
  · exact .ite (fun _ => .refl) (fun _ => (setOut_frame s k o .off).trans (modOut_frame _ k o _))

theorem antiPump_frame (k : Fin 16) : Frame fioParts counterBase s (antiPump s k) := by
  unfold antiPump
  refine .ite (fun _ => ?_) (fun _ => .refl)
  refine .trans ?_ ((logRec_frame _ _ _ _ _ _).mono log_in_fio le_rfl)
  exact ((wb_frame _ _ (fioBcStatus_high k)).trans (wb_frame _ _ (fioBcFault_high k))).trans (raise_frame _ (by decide))

theorem evalAll_frame : Frame fioParts counterBase s (evalAll s) :=
  .each (fun k t => ((antiPump_frame t k).trans (outStep_frame _ k .close)).trans (outStep_frame _ k .trip)) s

theorem fioOff_frame : Frame fioParts counterBase s (fioOff s) :=
  .trans ((wb_frame _ _ (by decide)).trans (wr_frame _ (by decide)))
    (.each (fun k t => (setOut_frame t k .trip .off).trans (setOut_frame _ k .close .off)) _)

/-! #### The gate, the pair state and the tenants that leave with it -/

/-- The parts that closing the gate can change. -/
abbrev gateParts : List Part := .plu :: fioParts

theorem closeGate_frame : Frame gateParts Reg.pluStatus s (closeGate s) := by
  unfold closeGate
  refine .trans ?_ ((evalAll_frame _).mono (by decide) (by decide))
  exact ((wb_frame _ _ (by decide)).trans (wb_frame _ _ (by decide))).trans (modPlu_frame _)

/-- The parts that an end of commits can change. -/
abbrev haltParts : List Part := .cmt :: gateParts

theorem stopCommits_frame : Frame haltParts Reg.cmtStatus s (stopCommits s) := by
  unfold stopCommits
  refine .trans ?_ ((fioOff_frame _).mono (by decide) (by decide))
  refine .trans ?_ ((closeGate_frame _).mono (by decide) (by decide))
  exact ((modCmt_frame _).trans (wb_frame _ _ (by decide))).trans (wb_frame _ _ (by decide))

/-- The parts that stopping tenants and fencing the module can change. -/
abbrev fenceParts : List Part := .ten :: gateParts

/-- The tick array's window: a change of a tenant's state writes no register below it. -/
abbrev arrayBase : Nat := Reg.arrCCtrl 0

/-- A physical core's trap record cleared. -/
theorem trapRecord_frame {n : Nat} (c p : Nat) (h : n ≤ arrayBase) :
    Frame fenceParts n s (wr (wr (wr s (Reg.arrKTrap c p) 0) (Reg.arrKTrappc c p) 0) (Reg.arrKTrapaddr c p) 0) := by
  unfold arrayBase Reg.arrCCtrl at h
  refine ((wr_frame _ ?_).trans (wr_frame _ ?_)).trans (wr_frame _ ?_)
  · unfold Reg.arrKTrap; omega
  · unfold Reg.arrKTrappc; omega
  · unfold Reg.arrKTrapaddr; omega

theorem clearTraps_frame (t : Nat) : Frame fenceParts arrayBase s (clearTraps s t) := by
  unfold clearTraps
  refine .trans ?_ (modTen_frame _ _)
  exact .trans (.foldl (fun u l => trapRecord_frame u _ _ le_rfl) _ s) (.foldl (fun u k => trapRecord_frame u _ _ le_rfl) _ _)

theorem cmtTState_high (t : Fin 64) : arrayBase ≤ Reg.cmtTState t := by unfold arrayBase Reg.arrCCtrl Reg.cmtTState; omega
theorem vfState_high (t : Fin 64) : arrayBase ≤ Reg.vfState t := by unfold arrayBase Reg.arrCCtrl Reg.vfState; omega

theorem setTState_frame (t : Fin 64) (st : Nat) : Frame fenceParts arrayBase s (setTState s t st) := by
  unfold setTState
  refine .trans ?_ ((logRec_frame _ _ _ _ _ _).mono (by decide) (by decide))
  refine .trans ?_ (raiseVf_frame _ _ (by decide))
  refine .trans ?_ (.ite (fun _ => wb_frame _ _ (by decide)) (fun _ => .refl))
  refine .trans ?_ (.ite (fun _ => raise_frame _ (by decide)) (fun _ => .ite (fun _ => ?_) (fun _ => .refl)))
  case refine_2 => exact raise_frame _ (by decide)
  refine .trans ?_ (wb_frame _ _ (by split <;> decide))
  exact (wf_frame _ _ _ (cmtTState_high t)).trans (wf_frame _ _ _ (vfState_high t))

theorem enterStopped_frame (t : Fin 64) : Frame fenceParts arrayBase s (enterStopped s t) := by
  have hw {u : State} (hi lo x : Nat) : Frame fenceParts arrayBase u (wf u (Reg.cmtTState t) hi lo x) :=
    wf_frame hi lo x (cmtTState_high t)
  unfold enterStopped
  refine .trans ?_ (setTState_frame _ t 1)
  exact ((((clearTraps_frame s t).trans (modTen_frame t _)).trans (hw _ _ _)).trans (hw _ _ _)).trans (hw _ _ _)

theorem stopControl_frame : Frame fenceParts arrayBase s (stopControl s) := by
  refine .each (fun t u => ?_) s
  refine .ite (fun _ => .refl) (fun _ => .ite (fun _ => enterStopped_frame u t) (fun _ => .ite (fun _ => ?_) (fun _ => .refl)))
  exact (wb_frame _ _ (cmtTState_high t)).trans (modTen_frame t _)

theorem dropSwap_frame : Frame gateParts Reg.pluStatus s (dropSwap s) := by
  unfold dropSwap
  refine .trans ?_ (modPlu_frame _)
  refine .trans ?_ (wb_frame _ _ (by decide))
  exact (Frame.ite (fun _ => wf_frame _ _ _ (by decide)) (fun _ => .refl)).trans (wb_frame _ _ (by decide))

theorem setPair_frame (st : Nat) : Frame gateParts Reg.pluStatus s (setPair s st) := by
  unfold setPair
  refine .trans ?_ ((logRec_frame _ _ _ _ _ _).mono (by decide) (by decide))
  exact (wf_frame _ _ _ (by decide)).trans (raise_frame _ (by decide))

theorem pluFence_frame : Frame fenceParts arrayBase s (pluFence s) := by
  unfold pluFence
  refine .ite (fun _ => .refl) (fun _ => ?_)
  refine .trans ?_ ((setPair_frame _ 3).mono (by decide) (by decide))
  refine .trans ?_ (wb_frame _ _ (by decide))
  refine .trans ?_ (stopControl_frame _)
  exact ((closeGate_frame s).mono (by decide) (by decide)).trans ((dropSwap_frame _).mono (by decide) (by decide))

/-! #### The archive's registers, the stepped counters -/

theorem showArc_frame : Frame [.regs, .out] counterBase s (showArc s) := by
  have high (b d : Nat) (h : counterBase ≤ b) : counterBase ≤ b + 0x10 * d := by omega
  unfold showArc
  refine .trans ?_ (wb_frame _ _ (by decide))
  refine .trans ?_ (wr_frame _ (by decide))
  refine .trans ?_ (.trans (wr_frame _ (by decide)) (wr_frame _ (by decide)))
  refine .trans ?_ (.trans (wr_frame _ (by decide)) (wr_frame _ (by decide)))
  refine .foldl (fun u d => ?_) _ s
  refine .trans ?_ (.trans (wr_frame _ (high _ d (by decide))) (wr_frame _ (high _ d (by decide))))
  refine .trans ?_ (wf_frame _ _ _ (high _ d (by decide)))
  exact (wf_frame _ _ _ (by decide)).trans (wf_frame _ _ _ (by decide))

/-- Staging a log record changes the recorder's ring and starts a flush; it changes nothing else of the recorder. -/
theorem startFlush_rec (force : Bool) : ∃ f, (startFlush s force).rec' = { s.rec' with flushing := f } := by
  rw [startFlush_eq]
  split
  · exact ⟨_, rfl⟩
  · exact ⟨_, flushStarted_rec s⟩

theorem flushDue_rec : ∃ f, (flushDue s).rec' = { s.rec' with flushing := f } := by
  unfold flushDue
  split
  · exact startFlush_rec s true
  · split
    · exact startFlush_rec s false
    · exact ⟨_, rfl⟩

@[simp] theorem raise_rec (irq bit : Nat) : (raise s irq bit).rec' = s.rec' := by
  have h := raise_same s irq bit
  rw [SameButRegs] at h
  rw [h]

theorem logRec_rec (irq severity cls detail : Nat) (ids : List Nat) :
    ∃ r f, (logRec s irq severity cls detail ids).rec' = { s.rec' with ring := r, flushing := f } := by
  unfold logRec
  split
  · exact ⟨s.rec'.ring, s.rec'.flushing, raise_rec _ _ _⟩
  · split
    · exact ⟨s.rec'.ring, s.rec'.flushing, raise_rec _ _ _⟩
    · extract_lets seq r src s1 s2 s3
      obtain ⟨f, hf⟩ := flushDue_rec (if 3 ≤ severity then raise s3 Reg.logIrq 1 else s3)
      refine ⟨s.rec'.ring ++ [r], f, ?_⟩
      rw [hf]
      split <;> simp [s3, s2, s1, wf]

/-- A Pantry write adds one to its word's wear; of the recorder it changes the word's account, the staging ring and the flush. -/
theorem persist_rec (off : Nat) : ∃ x r f, x.wear = (getPan s off).wear + 1 ∧
    (persist s off).rec' = { s.rec' with pan := Tab.put .reset s.rec'.pan off x, ring := r, flushing := f } := by
  unfold persist
  extract_lets w h n hot tooMany s1 s2 s3
  have h3 : s3.rec' = s1.rec' := by
    simp only [s3, raise_rec, s2]
    split <;> rfl
  refine ⟨{ w with wear := w.wear + 1, phys := w.phys + 1, hour := h, hourWrites := n, hot := hot || tooMany }, ?_⟩
  split
  · split
    · exact ⟨s.rec'.ring, s.rec'.flushing, rfl, h3⟩
    · obtain ⟨r, f, hr⟩ := logRec_rec s3 Reg.panIrq 2 1 0 [off]
      exact ⟨r, f, rfl, by rw [hr, h3]; rfl⟩
  · exact ⟨s.rec'.ring, s.rec'.flushing, rfl, rfl⟩

theorem modRec_frame {n : Nat} (f : Recorder → Recorder) (h : (f s.rec').ring = s.rec'.ring) : Frame logParts n s (modRec s f) :=
  .of_part (p := .recorder) (by decide) (fun q _ => by cases q <;> simp_all [Part.same, modRec]) rfl h

theorem persistCounter_frame (c : Counter) : Frame logParts counterBase s (persistCounter c s) := by
  cases c <;> exact (modRec_frame s _ rfl).trans (persistWord_frame _ _)

theorem persistAll_frame : Frame logParts counterBase s (persistAll s) :=
  (persistCounter_frame s .opTime).trans (persistCounter_frame _ .logLost)

theorem persist_panOp (off : Nat) : (persist s off).rec'.panOp = s.rec'.panOp := by
  obtain ⟨x, r, f, -, h⟩ := persist_rec s off
  rw [h]

/-- The power-fail warning keeps operating time in the Pantry. -/
theorem persistAll_panOp : (persistAll s).rec'.panOp = s.op :=
  calc (persistAll s).rec'.panOp = (persistCounter .opTime s).rec'.panOp := persist_panOp _ _
    _ = s.op := persist_panOp _ _

/-! ### Fields of a word -/

theorem getLsbD_setFld (w : Word) {hi lo : Nat} (x i : Nat) (hi32 : hi < 32) (hlo : lo ≤ hi) (h : i ≤ hi - lo) :
    (setFld w hi lo x).getLsbD (lo + i) = x.testBit i := by
  have h1 : lo + i < 32 := by omega
  have h2 : i < hi - lo + 1 := by omega
  simp only [setFld, BitVec.getLsbD_or, BitVec.getLsbD_and, BitVec.getLsbD_not, BitVec.getLsbD_ofNat, Nat.testBit_and,
    Nat.testBit_shiftLeft, Nat.testBit_two_pow_sub_one, Nat.add_sub_cancel_left]
  simp [h1, h2]

/-- A field reads what was stored in it, as far as it has room. -/
theorem fld_setFld (w : Word) {hi lo : Nat} (x : Nat) (hi32 : hi < 32) (hlo : lo ≤ hi) :
    fld (setFld w hi lo x) hi lo = x % 2 ^ (hi - lo + 1) := by
  refine Nat.eq_of_testBit_eq fun i => ?_
  simp only [fld, Nat.testBit_mod_two_pow, Nat.testBit_shiftRight]
  by_cases h : i < hi - lo + 1
  · have := getLsbD_setFld w x i hi32 hlo (by omega)
    simp [h, ← this, BitVec.testBit_toNat]
  · simp [h]

theorem bitOf_putBit (w : Word) {i : Nat} (j : Nat) (b : Bool) (h : i < 32) :
    bitOf (putBit w i b) j = if i = j then b else bitOf w j := by
  have key : (oneBit i).getLsbD j = decide (i = j) := by
    simp only [oneBit, BitVec.getLsbD_ofNat, Nat.testBit_two_pow]
    by_cases hj : i = j <;> simp [hj]; omega
  have room : w.getLsbD j = true → j < 32 := BitVec.lt_of_getLsbD
  by_cases hj : i = j
  · cases b <;> simp_all [bitOf, putBit]
  · cases b <;> simp_all [bitOf, putBit]

theorem hcSt_hcSet (n : Nat) : hcSt (hcSet s n) = n % 8 := by
  rw [hcSt, rf, hcSet, wf, rd_wr_self, fld_setFld _ _ (by decide) (by decide)]
  rfl

theorem rd_wb_ne {off b : Nat} (i : Nat) (v : Bool) (h : off ≠ b) : rd (wb s off i v) b = rd s b := rd_wr_ne s _ h
theorem rb_wb_self (off : Nat) {i : Nat} (b : Bool) (h : i < 32) : rb (wb s off i b) off i = b := by
  rw [rb, wb, rd_wr_self, bitOf_putBit _ _ _ h, if_pos rfl]
theorem rb_wb_bit (off : Nat) {i j : Nat} (b : Bool) (h : i < 32) (hj : i ≠ j) : rb (wb s off i b) off j = rb s off j := by
  rw [rb, wb, rd_wr_self, bitOf_putBit _ _ _ h, if_neg hj, rb]
theorem rb_congr {s t : State} {off : Nat} (h : rd t off = rd s off) (i : Nat) : rb t off i = rb s off i := by rw [rb, h, rb]

/-! ### The power-fail sequence (R351) -/

theorem stopCommits_cmt : (stopCommits s).cmt.phase = .idle ∧ (stopCommits s).cmt.shadow = [] := by
  have h1 := (closeGate_frame (wb (wb (modCmt s (fun c => { c with
    phase := .idle, shadow := [], updates := [], fallbacks := [], copying := none,
    dop := c.dop.map (fun e => (e.1, if e.2.status = 1 then { e.2 with status := 5 } else e.2)) })) Reg.cmtStatus 0 false)
    Reg.cmtStatus 2 false)).cmt_eq
  have h2 : (stopCommits s).cmt = _ := (fioOff_frame _).cmt_eq
  rw [h2, h1]
  exact ⟨rfl, rfl⟩

theorem gateOpen_congr {s t : State} (h : rd t Reg.pluStatus = rd s Reg.pluStatus) : gateOpen t = gateOpen s := rb_congr h 3

theorem closeGate_gate : gateOpen (closeGate s) = false := by
  rw [closeGate, gateOpen_congr ((evalAll_frame _).rd _ (by decide))]
  exact (rb_wb_bit _ _ _ (by decide) (by decide)).trans (rb_wb_self _ _ _ (by decide))

theorem stopCommits_gate : gateOpen (stopCommits s) = false :=
  (gateOpen_congr ((fioOff_frame _).rd _ (by decide))).trans (closeGate_gate _)

/-- The state shown as the sequence begins: what it ends in, and the warning's instant. -/
def sequenceBegun (s : State) (ending : Nat) : State :=
  modHc (hcSet s (if ending = 2 then 4 else 2))
    (fun h => let h := { h with ending := ending, warnAt := s.op }; if ending = 0 then holdOp h s.op else h)

/-- PPS ends, rows in staging are dropped, and every drive present is flushed. -/
def recordersStopped (s : State) : State :=
  let s := modTime s (fun t => { t with pps := false })
  let s := showArc (modArc s (fun a => { a with staging := [], stage := .value }))
  ((List.range 4).filter (fun d => (getDrive s d).present)).foldl (fun s d => emit s (.driveFlush d)) s

/-- Everything stopped and kept that the sequence stops and keeps before it flushes the log. -/
def sequenceStopped (s : State) : State := recordersStopped (persistAll (stopCommits s))

theorem powerFail_eq (ending : Nat) : powerFail s ending = startFlush (sequenceStopped (sequenceBegun s ending)) true := rfl

/-- Registers of the archive shown, and drives flushed: nothing else. -/
theorem shownAndFlushed_frame (l : List Nat) :
    Frame [.regs, .out] counterBase s (l.foldl (fun s d => emit s (.driveFlush d)) (showArc s)) :=
  (showArc_frame s).trans (.foldl (fun _ _ => emit_frame _) _ _)

theorem recordersStopped_frame : Frame [.regs, .out, .time, .arc] counterBase s (recordersStopped s) :=
  ((modTime_frame _).trans (modArc_frame _)).trans ((shownAndFlushed_frame _ _).mono (by decide) le_rfl)

theorem recordersStopped_staging : (recordersStopped s).arc.staging = [] :=
  congrArg Archive.staging ((shownAndFlushed_frame _ _).arc_eq)

theorem recordersStopped_pps : (recordersStopped s).time.pps = false :=
  congrArg TimeUnit.pps ((shownAndFlushed_frame _ _).time_eq)

/-- The parts that stopping for a power-fail sequence can change. -/
abbrev stopParts : List Part := .time :: .arc :: haltParts

theorem sequenceStopped_frame : Frame stopParts Reg.cmtStatus s (sequenceStopped s) := by
  refine .trans ?_ ((recordersStopped_frame _).mono (by decide) (by decide))
  exact ((stopCommits_frame s).mono (by decide) le_rfl).trans ((persistAll_frame _).mono (by decide) (by decide))

/-- What the sequence has stopped and kept before the log's flush. -/
theorem sequenceStopped_spec : (sequenceStopped s).cmt.phase = .idle ∧ (sequenceStopped s).cmt.shadow = [] ∧
    gateOpen (sequenceStopped s) = false ∧ (sequenceStopped s).arc.staging = [] ∧ (sequenceStopped s).time.pps = false ∧
    (sequenceStopped s).rec'.panOp = s.op := by
  have hp : Frame logParts counterBase (stopCommits s) (persistAll (stopCommits s)) := persistAll_frame _
  have hr : Frame [.regs, .out, .time, .arc] counterBase (persistAll (stopCommits s)) (sequenceStopped s) :=
    recordersStopped_frame _
  have hcmt : (sequenceStopped s).cmt = (stopCommits s).cmt :=
    hr.cmt_eq.trans hp.cmt_eq
  have hgate : rd (sequenceStopped s) Reg.pluStatus = rd (stopCommits s) Reg.pluStatus :=
    (hr.rd _ (by decide)).trans (hp.rd _ (by decide))
  have hrec : (sequenceStopped s).rec' = (persistAll (stopCommits s)).rec' := hr.recorder_eq
  have hop : (stopCommits s).op = s.op := (stopCommits_frame s).op_eq
  obtain ⟨hphase, hshadow⟩ := stopCommits_cmt s
  refine ⟨by rw [hcmt, hphase], by rw [hcmt, hshadow], ?_, ?_, ?_, ?_⟩
  · rw [gateOpen_congr hgate, stopCommits_gate]
  · rw [sequenceStopped, recordersStopped_staging]
  · rw [sequenceStopped, recordersStopped_pps]
  · rw [hrec, persistAll_panOp, hop]

/-- The parts that the power-fail sequence can change. -/
abbrev failParts : List Part := [.regs, .time, .cmt, .plu, .arb, .recorder, .arc, .fio, .hc, .out]

theorem hcSet_frame {n : Nat} {ps : List Part} (x : Nat) (h : n ≤ Reg.hcState) (hp : [.regs, .out] ⊆ ps := by decide) :
    Frame ps n s (hcSet s x) := wf_frame 2 0 x h hp

/-- The power-fail sequence: what it shows, stops and keeps, and that it leaves no staged log record unflushed. -/
theorem powerFail_spec (ending : Nat) : let t := powerFail s ending;
    hcSt t = (if ending = 2 then 4 else 2) ∧ t.hc = (sequenceBegun s ending).hc ∧ t.cmt.phase = .idle ∧ t.cmt.shadow = [] ∧
    gateOpen t = false ∧ t.arc.staging = [] ∧ t.time.pps = false ∧ t.rec'.panOp = s.op ∧
    (s.rec'.ring ≠ [] → t.rec'.flushing ≠ none) ∧ KeepsBut failParts s t := by
  intro t
  let u := sequenceBegun s ending
  have eq : t = startFlush (sequenceStopped u) true := powerFail_eq s ending
  have hu : Frame failParts Reg.hcState s u := (hcSet_frame s _ le_rfl).trans (modHc_frame _)
  have hv : Frame stopParts Reg.cmtStatus u (sequenceStopped u) := sequenceStopped_frame u
  have ht : Frame logParts counterBase (sequenceStopped u) t := startFlush_frame _ true
  obtain ⟨hphase, hshadow, hgate, hstaging, hpps, hop⟩ := sequenceStopped_spec u
  have hcmt : t.cmt = (sequenceStopped u).cmt := ht.cmt_eq
  refine ⟨?_, ?_, ?_, ?_, ?_, ?_, ?_, ?_, fun hr => ?_, ?_⟩
  · have : rd t Reg.hcState = rd u Reg.hcState := (ht.rd _ (by decide)).trans (hv.rd _ (by decide))
    calc hcSt t = hcSt u := by rw [hcSt, rf, this]; rfl
      _ = _ := (hcSt_hcSet s _).trans (by split <;> rfl)
  · exact (ht.hc_eq).trans (hv.hc_eq)
  · rw [hcmt]; exact hphase
  · rw [hcmt]; exact hshadow
  · rw [gateOpen_congr (ht.rd _ (by decide))]; exact hgate
  · rw [show t.arc = _ from ht.arc_eq]; exact hstaging
  · rw [show t.time = _ from ht.time_eq]; exact hpps
  · obtain ⟨f, hf⟩ := startFlush_rec (sequenceStopped u) true
    have hold : t.rec'.panOp = (sequenceStopped u).rec'.panOp := by rw [eq, hf]
    rw [hold, hop, hu.op_eq]
  · have hs := (hu.staged.trans hv.staged)
    rw [eq]
    exact startFlush_forced (sequenceStopped u) (fun hn => hr (List.sublist_nil.mp (hn ▸ hs)))
  · exact ((hu.trans (hv.mono (by decide) (by decide))).trans (ht.mono (by decide) (by decide))).keeps

/-! ### A module fault (R342) -/

/-- Every core that ran is stopped. -/
def coresStopped (s : State) : State :=
  each 64 (fun l s => if (getCore s l).run = .running then modCore s l (fun k => { k with run := .stopped }) else s) s

/-- A pass over all indices establishes at each what its own step establishes and no step undoes. -/
theorem each_forall {σ : Type} {n : Nat} {f : Fin n → σ → σ} {P : Fin n → σ → Prop} (own : ∀ i x, P i (f i x))
    (kept : ∀ i j x, P i x → P i (f j x)) (x : σ) (i : Fin n) : P i (each n f x) := by
  suffices h : ∀ (l : List (Fin n)) (y : σ), (i ∈ l ∨ P i y) → P i (l.foldl (fun x j => f j x) y) from
    h _ _ (.inl (List.mem_finRange i))
  intro l
  induction l with
  | nil => exact fun y h => h.resolve_left (by simp)
  | cons j l ih =>
    intro y h
    refine ih _ ?_
    by_cases hj : i = j
    · exact .inr (hj ▸ own i y)
    · exact h.imp (fun hm => (List.mem_cons.mp hm).resolve_left hj) (kept i j y)

theorem coresStopped_run (l : Fin 64) : (getCore (coresStopped s) l).run ≠ .running := by
  refine each_forall (P := fun l s => (getCore s l).run ≠ .running) (fun i t => ?_) (fun i j t h => ?_) s l
  · split
    · simp [modCore]
    · assumption
  · split
    · rw [modCore, getCore_setCore]
      split
      · simp
      · exact h
    · exact h

theorem coresStopped_frame {n : Nat} : Frame [.core] n s (coresStopped s) := by
  unfold coresStopped
  exact .each (fun l t => .ite (fun _ => modCore_frame l _) (fun _ => .refl)) s

theorem hcSet_core (x : Nat) : (hcSet s x).core = s.core := rfl

theorem hcSt_congr {s t : State} (h : rd t Reg.hcState = rd s Reg.hcState) : hcSt t = hcSt s := by rw [hcSt, rf, h, hcSt, rf]

theorem failing_of_runs (h : hcSt s ≤ 1) : failing s = false := by
  have h2 : hcSt s ≠ 2 := by omega
  have h4 : hcSt s ≠ 4 := by omega
  simp [failing, h2, h4]

/-- The parts that a module fault can change. -/
abbrev faultParts : List Part := [.regs, .core, .ten, .cmt, .plu, .arb, .recorder, .fio, .hc, .out]

/-- A module fault's code shown and its instant kept. -/
def faultRecorded (s : State) (src loc : Nat) : State :=
  let s := wr s Reg.hcFault (W (src + 256 * loc))
  let again := match s.hc.lastFault with | some t => decide (s.op < t + 3600 * second) | none => false
  modHc s (fun h => { h with lastFault := some s.op, noRestart := h.noRestart || again, faultAt := s.op })

theorem faultRecorded_frame (src loc : Nat) : Frame faultParts 0 s (faultRecorded s src loc) := by
  unfold faultRecorded
  exact (wr_frame _ (by decide)).trans (modHc_frame _)

theorem faultRecorded_shown (src loc : Nat) : rd (faultRecorded s src loc) Reg.hcFault = W (src + 256 * loc) :=
  rd_wr_self s _ _

theorem moduleFault_eq (src loc : Nat) (ids : List Nat) (h : hcSt s ≤ 1) :
    moduleFault s src loc ids = logRec (pluFence (stopCommits (hcSet (coresStopped (faultRecorded s src loc)) 3)))
      Reg.hcIrq 4 1 0xFF (src :: loc :: ids) := by
  have h3 : hcSt s ≠ 3 := by omega
  have hf : failing (wr s Reg.hcFault (W (src + 256 * loc))) = false :=
    failing_of_runs _ (by rwa [hcSt_congr (rd_wr_ne s _ (by decide))])
  rw [moduleFault, if_neg h3]
  dsimp only
  rw [hf]
  rfl

/-- A module fault from Booting or Running. -/
theorem moduleFault_spec (src loc : Nat) (ids : List Nat) (h : hcSt s ≤ 1) : let t := moduleFault s src loc ids;
    hcSt t = 3 ∧ rd t Reg.hcFault = W (src + 256 * loc) ∧ (∀ l, (getCore t l).run ≠ .running) ∧ KeepsBut faultParts s t := by
  rw [moduleFault_eq s src loc ids h]
  have hu : Frame faultParts 0 s (faultRecorded s src loc) := faultRecorded_frame s src loc
  have hfault := faultRecorded_shown s src loc
  generalize faultRecorded s src loc = u at hu hfault ⊢
  intro t
  have hv : Frame [.core] Reg.panIrq u (coresStopped u) := coresStopped_frame u
  have hw : Frame faultParts Reg.hcState (coresStopped u) (hcSet (coresStopped u) 3) := hcSet_frame _ 3 le_rfl
  have ht : Frame (.cmt :: fenceParts) arrayBase (hcSet (coresStopped u) 3) t :=
    (((stopCommits_frame _).mono (by decide) (by decide)).trans ((pluFence_frame _).mono (by decide) le_rfl)).trans
      ((logRec_frame _ _ _ _ _ _).mono (by decide) (by decide))
  refine ⟨?_, ?_, fun l => ?_, ?_⟩
  · rw [hcSt_congr (ht.rd _ (by decide)), hcSt_hcSet]
  · rw [ht.rd _ (by decide), hcSet, wf, rd_wr_ne _ _ (by decide), hv.rd _ (by decide), hfault]
  · rw [getCore, ht.core_eq, hcSet_core, ← getCore]
    exact coresStopped_run u l
  · exact (((hu.trans (hv.mono (by decide) (by decide))).trans (hw.mono (List.Subset.refl _) (by decide))).trans
      (ht.mono (by decide) (by decide))).keeps

/-! ### Module reset (R11, R12, R341) -/

/-- A register that a reset neither keeps nor writes reads its Reset column. -/
theorem rd_moduleReset {off : Nat} (hk : keptReg off = false) (h : off ∉ [Reg.panStatus, Reg.ksStatus, Reg.timeTickcfg]) :
    rd (moduleReset s) off = resetWord off := by
  simp only [List.mem_cons, List.not_mem_nil, or_false, not_or] at h
  obtain ⟨h1, h2, h3⟩ := h
  unfold moduleReset
  dsimp only
  rw [rd_wr_ne _ _ (Ne.symm h3), rd_wr_ne _ _ (Ne.symm h2), wb, rd_wr_ne _ _ (Ne.symm h1), rd_eq_get, Tab.get_filter, hk]
  rfl

/-- The tick rate in force after a reset: the accepted one (R12, R55). -/
theorem rd_moduleReset_tickcfg :
    rd (moduleReset s) Reg.timeTickcfg = W (s.time.ratePend.getD (rf s Reg.timeTickcfg 1 0)) := rd_wr_self ..

/-- The parts that a reset can change. -/
abbrev resetParts : List Part := [.regs, .now, .op, .time, .port, .sw, .loom, .core, .ten, .cmt, .spare, .arb, .plu, .recorder,
  .arc, .hif, .hdl, .tru, .clu, .fio, .ks, .hc, .mem, .ddr]

theorem keepsBut_resetParts {s t : State} (ho : t.out = s.out) (hf : t.freeCtr = s.freeCtr) (hp : t.pending = s.pending) :
    KeepsBut resetParts s t := by
  intro p h
  cases p <;> simp_all [Part.same]

theorem hcSt_moduleReset : hcSt (moduleReset s) = 0 := by
  rw [hcSt, rf, rd_moduleReset s (by decide) (by decide)]
  decide

theorem hcSt_resetWith (cause : Nat) : hcSt (resetWith s cause) = 0 := by
  rw [resetWith, hcSt_congr (rd_wr_ne _ _ (by decide)), hcSt_moduleReset]

theorem resetWith_cause (cause : Nat) : rd (resetWith s cause) Reg.hcResetCause = W cause := rd_wr_self ..

theorem resetWith_tickcfg (cause : Nat) :
    rd (resetWith s cause) Reg.timeTickcfg = W (s.time.ratePend.getD (rf s Reg.timeTickcfg 1 0)) :=
  (rd_wr_ne _ _ (by decide)).trans (rd_moduleReset_tickcfg s)

/-! ### A tamper trip (R302, R303) -/

theorem rd_raise_ne {irq off : Nat} (bit : Nat) (h : irq ≠ off) : rd (raise s irq bit) off = rd s off := by
  unfold raise
  dsimp only
  split <;> exact rd_wr_ne s _ h

/-- The parts that a tamper trip can change. -/
abbrev tamperParts : List Part := [.regs, .sw, .arb, .recorder, .ks, .out]

/-- A trip aborts the command in progress. -/
def runAborted (s : State) : State :=
  match s.ks.run with
  | none => s
  | some r =>
    let s := modKs s (fun k => { k with owner := r.undoOwner, run := none })
    let s := wr (wr s Reg.ksOwnerkey r.undoOwnerKey) Reg.ksRes 10
    raise (wr (wb s Reg.ksStatus 0 false) Reg.ksDlen 0) Reg.ksIrq 0

/-- A trip puts back the binding that a write of its instant replaced. -/
def bindingRestored (s : State) : State :=
  match s.ks.lastBind with
  | some (t, k, b) => if t = s.op then modKs s (fun ks => { ks with bind := Tab.put .none ks.bind k b, lastBind := none }) else s
  | none => s

/-- KS_DATA cleared. -/
def dataCleared (s : State) : State := (List.range 128).foldl (fun s i => wr s (Reg.ksData i) 0) s

/-- Slots, root, storage key and KS_DATA cleared; the module is keyless. -/
def keysCleared (s : State) : State :=
  let s := dataCleared (modKs s (fun k => { k with slot := [], root := none, storageKey := none }))
  showSlots (wb (wb s Reg.ksStatus 1 true) Reg.ksStatus 3 false)

theorem zeroise_eq : zeroise s = keysCleared (bindingRestored (runAborted s)) := rfl

theorem runAborted_frame : Frame tamperParts Reg.ksStatus s (runAborted s) := by
  unfold runAborted
  split
  · exact .refl
  · refine .trans ?_ (raise_frame _ (by decide))
    refine .trans ?_ (.trans (wb_frame _ _ (by decide)) (wr_frame _ (by decide)))
    exact .trans (modKs_frame _) (.trans (wr_frame _ (by decide)) (wr_frame _ (by decide)))

theorem bindingRestored_frame : Frame tamperParts Reg.ksStatus s (bindingRestored s) := by
  unfold bindingRestored
  split
  · exact .ite (fun _ => modKs_frame _) (fun _ => .refl)
  · exact .refl

theorem dataCleared_frame : Frame [.regs, .out] (Reg.ksData 0) s (dataCleared s) := by
  unfold dataCleared
  exact .foldl (fun u i => wr_frame _ (by unfold Reg.ksData; omega)) _ s

theorem keysCleared_frame : Frame tamperParts Reg.ksStatus s (keysCleared s) := by
  unfold keysCleared
  refine .trans ?_ (wr_frame _ (by decide))
  refine .trans ?_ (.trans (wb_frame _ _ (by decide)) (wb_frame _ _ (by decide)))
  exact (modKs_frame _).trans ((dataCleared_frame _).mono (by decide) (by decide))

theorem wb_ks (off i : Nat) (b : Bool) : (wb s off i b).ks = s.ks := rfl
theorem showSlots_ks : (showSlots s).ks = s.ks := rfl

theorem keysCleared_ks : (keysCleared s).ks = { s.ks with slot := [], root := none, storageKey := none } := by
  unfold keysCleared
  rw [showSlots_ks, wb_ks, wb_ks, (dataCleared_frame _).ks_eq]
  rfl

theorem zeroise_frame : Frame tamperParts Reg.ksStatus s (zeroise s) := by
  rw [zeroise_eq]
  exact ((runAborted_frame s).trans (bindingRestored_frame _)).trans (keysCleared_frame _)

theorem keysCleared_keyless : keyless (keysCleared s) = true := by
  unfold keysCleared
  rw [keyless, showSlots, rb_congr (rd_wr_ne _ _ (by decide)), rb_wb_bit _ _ _ (by decide) (by decide),
    rb_wb_self _ _ _ (by decide)]

/-- Tags of frames in progress fail. -/
def tagsFailed (s : State) : State := { s with sw := { s.sw with checks := s.sw.checks.map (fun c => { c with ok := false }) } }

/-- A trip as its source and the time of it are shown, and tags in progress failed. -/
def tripShown (s : State) (src : Fin 5) (place : Nat) : State :=
  let s := wb (wb (zeroise s) Reg.ksStatus (8 + src) true) Reg.ksTamper src true
  let s := if place < 7 then wb s Reg.ksTamper place true else s
  tagsFailed (if src.val = 0 then modKs s (fun k => { k with lidOpen := true }) else s)

/-- A shown trip recorded: in the Pantry, in KS_ZCNT and in the log. -/
def tripRecorded (s : State) : State :=
  let s := modKs s (fun k => { k with tripAt := s.op, tamperRec := k.tamperRec ||| rd s Reg.ksTamper })
  let s := bump (wb s Reg.ksStatus 2 true) Reg.ksZcnt
  tamperLog (raise (persistWord (persistWord s 4352) 4100) Reg.ksIrq 1)

theorem tamper_eq (src : Fin 5) (place : Nat) : tamper s src place = tripRecorded (tripShown s src place) := rfl

theorem tamperLog_frame : Frame tamperParts counterBase s (tamperLog s) :=
  .ite (fun _ => (modKs_frame _).trans ((logRec_frame _ _ _ _ _ _).mono (by decide) le_rfl)) (fun _ => modKs_frame _)

theorem tamperLog_ks : ∃ b, (tamperLog s).ks = { s.ks with logDue := b } := by
  unfold tamperLog
  split
  · exact ⟨false, (logRec_frame _ _ _ _ _ _).ks_eq⟩
  · exact ⟨true, rfl⟩

/-- The two Pantry words of a trip, its interrupt and its log record leave the Key Store's own registers but KS_IRQ. -/
theorem tripRecorded_rd {off : Nat} (h : off < counterBase) (hs : off ∉ [Reg.ksStatus, Reg.ksZcnt, Reg.ksIrq]) :
    rd (tripRecorded s) off = rd s off := by
  simp only [List.mem_cons, List.not_mem_nil, or_false, not_or] at hs
  obtain ⟨h1, h2, h3⟩ := hs
  unfold tripRecorded
  rw [(tamperLog_frame _).rd _ h, rd_raise_ne _ _ (Ne.symm h3), (persistWord_frame _ _).rd _ h, (persistWord_frame _ _).rd _ h,
    bump, rd_wr_ne _ _ (Ne.symm h2), wb, rd_wr_ne _ _ (Ne.symm h1)]
  rfl

theorem tripRecorded_status {i : Nat} (h : i ≠ 2) : rb (tripRecorded s) Reg.ksStatus i = rb s Reg.ksStatus i := by
  unfold tripRecorded
  rw [rb_congr ((tamperLog_frame _).rd _ (by decide)), rb_congr (rd_raise_ne _ _ (by decide)),
    rb_congr ((persistWord_frame _ _).rd _ (by decide)), rb_congr ((persistWord_frame _ _).rd _ (by decide)),
    bump, rb_congr (rd_wr_ne _ _ (by decide)), rb_wb_bit _ _ _ (by decide) (Ne.symm h)]
  rfl

theorem tripRecorded_ks : ∃ a r b, (tripRecorded s).ks = { s.ks with tripAt := a, tamperRec := r, logDue := b } := by
  unfold tripRecorded
  extract_lets s1 s2
  have hk : (raise (persistWord (persistWord s2 4352) 4100) Reg.ksIrq 1).ks = s1.ks :=
    ((((persistWord_frame s2 4352).trans (persistWord_frame _ 4100)).mono (by decide) (Nat.zero_le _)).trans
      (raise_frame (ps := logParts) (n := 0) 1 (by decide))).ks_eq
  obtain ⟨b, hb⟩ := tamperLog_ks (raise (persistWord (persistWord s2 4352) 4100) Reg.ksIrq 1)
  exact ⟨s.op, s.ks.tamperRec ||| rd s Reg.ksTamper, b, by rw [hb, hk]; rfl⟩

theorem tripRecorded_frame : Frame tamperParts Reg.ksStatus s (tripRecorded s) := by
  unfold tripRecorded
  refine .trans ?_ ((tamperLog_frame _).mono (by decide) (by decide))
  refine .trans ?_ (raise_frame _ (by decide))
  refine .trans ?_ (((persistWord_frame _ _).trans (persistWord_frame _ _)).mono (by decide) (by decide))
  exact ((modKs_frame _).trans (wb_frame _ _ (by decide))).trans (bump_frame _ (by decide))

theorem tagsFailed_frame {n : Nat} : Frame tamperParts n s (tagsFailed s) :=
  .of_part (p := .sw) (by decide) (fun q _ => by cases q <;> simp_all [Part.same, tagsFailed]) rfl rfl

theorem tripShown_frame (src : Fin 5) (place : Nat) : Frame tamperParts Reg.ksStatus s (tripShown s src place) := by
  unfold tripShown
  refine .trans ?_ (tagsFailed_frame _)
  refine .trans ?_ (.ite (fun _ => modKs_frame _) (fun _ => .refl))
  refine .trans ?_ (.ite (fun _ => wb_frame _ _ (by decide)) (fun _ => .refl))
  exact (zeroise_frame s).trans (.trans (wb_frame _ _ (by decide)) (wb_frame _ _ (by decide)))

/-- The lid's trip during start-up as the Key Store's registers show it. -/
def lidShown (s : State) : State := wb (wb (wb s Reg.ksStatus 8 true) Reg.ksTamper 0 true) Reg.ksTamper 6 true

theorem lidShown_ks : (lidShown s).ks = s.ks := rfl
theorem tagsFailed_ks : (tagsFailed s).ks = s.ks := rfl
theorem modKs_ks (f : KeyStore → KeyStore) : (modKs s f).ks = f s.ks := rfl
theorem rd_tagsFailed_modKs (f : KeyStore → KeyStore) (off : Nat) : rd (tagsFailed (modKs s f)) off = rd s off := rfl

theorem tripShown_lid :
    tripShown s 0 6 = tagsFailed (modKs (lidShown (zeroise s)) (fun k => { k with lidOpen := true })) := by
  unfold tripShown
  generalize zeroise s = z
  rfl

theorem rd_tripShown_lid (off : Nat) : rd (tripShown s 0 6) off = rd (lidShown (zeroise s)) off := by
  rw [tripShown_lid, rd_tagsFailed_modKs]

theorem zeroise_ks : (zeroise s).ks.root = none ∧ (zeroise s).ks.slot = [] := by
  rw [zeroise_eq, keysCleared_ks]
  exact ⟨rfl, rfl⟩

/-- The lid's trip during start-up. -/
theorem lidTrip_spec : let t := tamper s 0 6;
    t.ks.root = none ∧ t.ks.slot = [] ∧ t.ks.lidOpen = true ∧ keyless t = true ∧ rb t Reg.ksTamper 0 = true ∧
    rb t Reg.ksTamper 6 = true ∧ rb t Reg.ksStatus 8 = true := by
  intro t
  have eq : t = tripRecorded (tripShown s 0 6) := tamper_eq s 0 6
  obtain ⟨a, r, b, hks⟩ := tripRecorded_ks (tripShown s 0 6)
  obtain ⟨hroot, hslot⟩ := zeroise_ks s
  have shown : (tripShown s 0 6).ks = { (zeroise s).ks with lidOpen := true } := by
    rw [tripShown_lid, tagsFailed_ks, modKs_ks, lidShown_ks]
  have tam : rd t Reg.ksTamper = rd (lidShown (zeroise s)) Reg.ksTamper := by
    rw [eq, tripRecorded_rd _ (by decide) (by decide), rd_tripShown_lid]
  have stat {i : Nat} (h : i ≠ 2) : rb t Reg.ksStatus i = rb (wb (zeroise s) Reg.ksStatus 8 true) Reg.ksStatus i := by
    rw [eq, tripRecorded_status _ h, rb_congr (rd_tripShown_lid s _), lidShown,
      rb_congr (rd_wb_ne _ _ _ (by decide)), rb_congr (rd_wb_ne _ _ _ (by decide))]
  refine ⟨?_, ?_, ?_, ?_, ?_, ?_, ?_⟩
  · rw [eq, hks, shown]; exact hroot
  · rw [eq, hks, shown]; exact hslot
  · rw [eq, hks, shown]
  · rw [keyless, stat (by decide), rb_wb_bit _ _ _ (by decide) (by decide), zeroise_eq]
    exact keysCleared_keyless _
  · rw [rb_congr tam, lidShown, rb_wb_bit _ _ _ (by decide) (by decide), rb_wb_self _ _ _ (by decide)]
  · rw [rb_congr tam, lidShown, rb_wb_self _ _ _ (by decide)]
  · rw [stat (by decide), rb_wb_self _ _ _ (by decide)]

/-! ### Power, faults and resets: the commands -/

section
variable (tm : Instant)

theorem toInstant_keeps : KeepsBut [.now, .op] s (toInstant s tm) := fun p hp => by cases p <;> simp_all [Part.same]

theorem hcSt_toInstant : hcSt (toInstant s tm) = hcSt s := rfl
theorem failing_toInstant : failing (toInstant s tm) = failing s := rfl

/-- The parts that a warning or a thermal hold can change. -/
abbrev warningParts : List Part := [.regs, .now, .op, .time, .cmt, .plu, .arb, .recorder, .arc, .fio, .hc, .out]

theorem exec_powerFailWarning : exec (.powerFailWarning tm) s = .next (doPowerFailWarning tm s) := rfl
theorem exec_powerFailReset : exec (.powerFailReset tm) s = .next (doPowerFailReset tm s) := rfl
theorem exec_thermalHold : exec (.thermalHold tm) s = .next (doThermalHold tm s) := rfl
theorem exec_hcReset : exec (.hcReset tm) s = .next (doHcReset tm s) := rfl
theorem exec_faultRestart : exec (.faultRestart tm) s = .next (doFaultRestart tm s) := rfl

theorem warning_begins (hm : s.hc.mainOn = true) (h : hcSt s ≤ 1) :
    exec (.powerFailWarning tm) s = .next (powerFail (toInstant s tm) 0) := by
  have hc : (s.hc.mainOn && decide (hcSt s ≤ 1)) = true := by rw [hm, decide_eq_true h]; rfl
  rw [exec_powerFailWarning, doPowerFailWarning, hcSt_toInstant, toInstant_hc]
  exact congrArg _ (if_pos hc)

theorem warning_marks (h : hcSt s = 2 ∨ hcSt s = 3 ∨ s.hc.mainOn = false) :
    exec (.powerFailWarning tm) s = .next { toInstant s tm with
      hc := { s.hc with mainGood := false, opHold := some (s.hc.opHold.getD (s.op + (tm - s.now))) },
      time := { s.time with pps := false } } := by
  have h1 : ¬ (s.hc.mainOn && decide (hcSt s ≤ 1)) = true := by rcases h with h | h | h <;> simp [h]
  have h2 : 2 ≤ hcSt s ∧ hcSt s ≤ 3 ∨ (!s.hc.mainOn) = true := by rcases h with h | h | h <;> simp [h]
  rw [exec_powerFailWarning, doPowerFailWarning, hcSt_toInstant, toInstant_hc]
  exact congrArg _ ((if_neg h1).trans (if_pos h2))

theorem warning_in_hold (hm : s.hc.mainOn = true) (h : hcSt s = 4) : exec (.powerFailWarning tm) s = .next (toInstant s tm) := by
  have h1 : ¬ (s.hc.mainOn && decide (hcSt s ≤ 1)) = true := by simp [h]
  have h2 : ¬ (2 ≤ hcSt s ∧ hcSt s ≤ 3 ∨ (!s.hc.mainOn) = true) := by simp [h, hm]
  rw [exec_powerFailWarning, doPowerFailWarning, hcSt_toInstant, toInstant_hc]
  exact congrArg _ ((if_neg h1).trans (if_neg h2))

section
variable (hd : s.hc.warnAt + 10 * msec ≤ s.op + (tm - s.now))
include hd

theorem powerFailReset_due (hf : failing s = true) :
    ¬ (!failing s || decide (s.op + (tm - s.now) < s.hc.warnAt + 10 * msec)) = true := by
  simpa [hf] using hd

theorem powerFailReset_resets (h : hcSt s = 2) :
    exec (.powerFailReset tm) s = .next (modHc (resetWith (toInstant s tm) (if s.hc.ending = 3 then 3 else 1)) (fun h =>
      { h with mainOn := false, holdOff := h.holdOff || (s.hc.ending == 1 || s.hc.ending == 3),
               opHold := some (h.opHold.getD (s.op + (tm - s.now))) })) := by
  have h1 := powerFailReset_due s tm hd (by simp [failing, h])
  have h2 : ¬ hcSt s = 4 := by omega
  rw [exec_powerFailReset, doPowerFailReset, hcSt_toInstant, failing_toInstant]
  exact congrArg _ ((if_neg h1).trans (if_neg h2))

theorem powerFailReset_in_hold (h : hcSt s = 4) (he : s.hc.ending = 2) :
    exec (.powerFailReset tm) s = .next (hcSet (moduleReset (toInstant s tm)) 4) := by
  have h1 := powerFailReset_due s tm hd (by simp [failing, h])
  rw [exec_powerFailReset, doPowerFailReset, hcSt_toInstant, failing_toInstant]
  exact congrArg _ ((if_neg h1).trans ((if_pos h).trans (if_pos he)))
end

theorem powerFailReset_idle
    (h : failing s = false ∨ s.op + (tm - s.now) < s.hc.warnAt + 10 * msec ∨ (hcSt s = 4 ∧ s.hc.ending ≠ 2)) :
    exec (.powerFailReset tm) s = .next (toInstant s tm) := by
  rw [exec_powerFailReset, doPowerFailReset, hcSt_toInstant, failing_toInstant, toInstant_hc, toInstant_op]
  rcases h with h | h | ⟨h, he⟩
  · rw [if_pos (by simp [h])]
  · rw [if_pos (by simp [h])]
  · rw [if_pos h, if_neg he, ite_self]

theorem thermalHold_holds (h : hcSt s = 1) : exec (.thermalHold tm) s = .next (powerFail (toInstant s tm) 2) := by
  rw [exec_thermalHold, doThermalHold, hcSt_toInstant, if_pos h]

theorem hcReset_resets (hf : failing s = false) (h : ¬ (hcSt s = 3 ∧ s.hc.faultAt = s.op + (tm - s.now))) :
    exec (.hcReset tm) s = .next (modHc (resetWith (toInstant s tm) 2) (fun h => { h with noRestart := false })) := by
  rw [exec_hcReset, doHcReset, hcSt_toInstant, failing_toInstant, toInstant_hc, toInstant_op, if_neg (by simpa [hf] using h)]

theorem hcReset_left (h : failing s = true ∨ (hcSt s = 3 ∧ s.hc.faultAt = s.op + (tm - s.now))) :
    exec (.hcReset tm) s = .next (toInstant s tm) := by
  rw [exec_hcReset, doHcReset, hcSt_toInstant, failing_toInstant, toInstant_hc, toInstant_op, if_pos h]

theorem faultRestart_resets (h : hcSt s = 3) (hf : s.rec'.flushing = none) (hr : s.rec'.ring = []) (hc : rb s Reg.hcCfg 0 = true)
    (hn : s.hc.noRestart = false) : exec (.faultRestart tm) s = .next (resetWith (toInstant s tm) 3) := by
  rw [exec_faultRestart, doFaultRestart, hcSt_toInstant, rb_congr (rd_congr (toInstant_regs s tm) _), if_neg]
  simp [h, hf, hr, hc, hn]

end

theorem railFault_faults (r : Fin 16) (hm : s.hc.mainOn = true) (hg : s.hc.mainGood = true) (h : hcSt s ≤ 1) :
    exec (.railFault r) s = .next (moduleFault s 1 0 [r]) := by
  have hw : warned s = false := by simp [warned, failing_of_runs s h, hg]
  exact congrArg _ (if_pos (by simp [hm, hg, hw]))

end
section
variable (s : State) (tm : Instant)

theorem hcSt_modHc (f : Health → Health) : hcSt (modHc s f) = hcSt s := rfl
theorem rd_modHc (f : Health → Health) (off : Nat) : rd (modHc s f) off = rd s off := rfl

/-- A power-fail warning while the main domain runs. -/
theorem warning_spec (hm : s.hc.mainOn = true) (h : hcSt s ≤ 1) : ∃ t, exec (.powerFailWarning tm) s = .next t ∧ hcSt t = 2 ∧
    t.hc.mainGood = false ∧ t.hc.ending = 0 ∧ t.hc.warnAt = s.op + (tm - s.now) ∧ t.cmt.phase = .idle ∧ t.cmt.shadow = [] ∧
    gateOpen t = false ∧ t.arc.staging = [] ∧ t.time.pps = false ∧ t.rec'.panOp = s.op + (tm - s.now) ∧
    (s.rec'.ring ≠ [] → t.rec'.flushing ≠ none) ∧ KeepsBut warningParts s t := by
  obtain ⟨hst, hhc, hphase, hshadow, hgate, hstaging, hpps, hop, hflush, hk⟩ := powerFail_spec (toInstant s tm) 0
  refine ⟨_, warning_begins s tm hm h, hst, ?_, ?_, ?_, hphase, hshadow, hgate, hstaging, hpps, hop, hflush,
    ((toInstant_keeps s tm).mono (by decide)).trans (hk.mono (by decide))⟩ <;> rw [hhc] <;> rfl

/-- A running module overheats. -/
theorem thermalHold_spec (h : hcSt s = 1) : ∃ t, exec (.thermalHold tm) s = .next t ∧ hcSt t = 4 ∧ t.hc.ending = 2 ∧
    t.hc.mainGood = s.hc.mainGood ∧ t.cmt.phase = .idle ∧ gateOpen t = false ∧ KeepsBut warningParts s t := by
  obtain ⟨hst, hhc, hphase, -, hgate, -, -, -, -, hk⟩ := powerFail_spec (toInstant s tm) 2
  refine ⟨_, thermalHold_holds s tm h, hst, ?_, ?_, hphase, hgate,
    ((toInstant_keeps s tm).mono (by decide)).trans (hk.mono (by decide))⟩ <;> rw [hhc] <;> rfl

/-- The reset at the end of a power-fail sequence. -/
theorem powerFailReset_spec (h : hcSt s = 2) (hd : s.hc.warnAt + 10 * msec ≤ s.op + (tm - s.now)) :
    ∃ t, exec (.powerFailReset tm) s = .next t ∧ hcSt t = 0 ∧
      rd t Reg.hcResetCause = (if s.hc.ending = 3 then 3 else 1) ∧ t.hc.mainOn = false ∧
      t.hc.holdOff = (s.hc.holdOff || s.hc.ending == 1 || s.hc.ending == 3) ∧ t.mem = [] ∧ t.ddr = [] ∧
      t.hc.stage = 0 ∧ t.rec'.sectors = s.rec'.sectors ∧ t.ks.root = s.ks.root ∧ t.op = s.op + (tm - s.now) ∧
      KeepsBut resetParts s t := by
  refine ⟨_, powerFailReset_resets s tm hd h, hcSt_resetWith _ _, ?_, rfl, (Bool.or_assoc _ _ _).symm, rfl, rfl, rfl, rfl, rfl,
    rfl, keepsBut_resetParts rfl rfl rfl⟩
  rw [rd_modHc, resetWith_cause]
  split <;> rfl

/-- The reset of a thermal hold. -/
theorem thermalReset_spec (h : hcSt s = 4) (he : s.hc.ending = 2) (hd : s.hc.warnAt + 10 * msec ≤ s.op + (tm - s.now)) :
    ∃ t, exec (.powerFailReset tm) s = .next t ∧ hcSt t = 4 ∧ t.hc.ending = 0 ∧ t.mem = [] ∧ t.ddr = [] ∧ t.hc.stage = 0 ∧
      t.ks.root = s.ks.root ∧ t.op = s.op + (tm - s.now) ∧ KeepsBut resetParts s t :=
  ⟨_, powerFailReset_in_hold s tm hd h he, hcSt_hcSet _ 4, rfl, rfl, rfl, rfl, rfl, rfl, keepsBut_resetParts rfl rfl rfl⟩

/-- A rail fault is a module fault. -/
theorem railFault_spec (r : Fin 16) (hm : s.hc.mainOn = true) (hg : s.hc.mainGood = true) (h : hcSt s ≤ 1) :
    ∃ t, exec (.railFault r) s = .next t ∧ hcSt t = 3 ∧ rd t Reg.hcFault = 1 ∧ (∀ l, (getCore t l).run ≠ .running) ∧
      KeepsBut faultParts s t :=
  ⟨_, railFault_faults s r hm hg h, moduleFault_spec s 1 0 [r.val] h⟩

/-- The restart after a module fault. -/
theorem faultRestart_spec (h : hcSt s = 3) (hf : s.rec'.flushing = none) (hr : s.rec'.ring = []) (hc : rb s Reg.hcCfg 0 = true)
    (hn : s.hc.noRestart = false) : ∃ t, exec (.faultRestart tm) s = .next t ∧ hcSt t = 0 ∧ rd t Reg.hcResetCause = 3 ∧
      t.mem = [] ∧ t.hc.stage = 0 ∧ KeepsBut resetParts s t :=
  ⟨_, faultRestart_resets s tm h hf hr hc hn, hcSt_resetWith _ _, resetWith_cause _ _, rfl, rfl, keepsBut_resetParts rfl rfl rfl⟩

/-- Thermal hold ends once its reset has happened. -/
theorem thermalRelease_spec (h : hcSt s = 4) (he : s.hc.ending = 0) : ∃ t, exec .thermalRelease s = .next t ∧ hcSt t = 0 ∧
    rd t Reg.hcResetCause = 4 ∧ KeepsBut [.regs] s t := by
  refine ⟨wr (hcSet s 0) Reg.hcResetCause 4, congrArg _ (if_pos ⟨h, he⟩), ?_, rd_wr_self _ _ _, ?_⟩
  · rw [hcSt_congr (rd_wr_ne _ _ (by decide)), hcSt_hcSet]
  · exact fun p hp => by cases p <;> simp_all [Part.same, hcSet, wf]

/-- HC_CMD reset: an accepted tick rate is in force after it. -/
theorem hcReset_spec (hf : failing s = false) (h : ¬ (hcSt s = 3 ∧ s.hc.faultAt = s.op + (tm - s.now))) :
    ∃ t, exec (.hcReset tm) s = .next t ∧ hcSt t = 0 ∧ rd t Reg.hcResetCause = 2 ∧ t.hc.noRestart = false ∧
      (∀ r < 4, s.time.ratePend = some r → rd t Reg.timeTickcfg = W r) ∧
      (s.time.ratePend = none → rd t Reg.timeTickcfg = W (rf s Reg.timeTickcfg 1 0)) ∧
      t.mem = [] ∧ t.ddr = [] ∧ KeepsBut resetParts s t := by
  have rate : rd (resetWith (toInstant s tm) 2) Reg.timeTickcfg = W (s.time.ratePend.getD (rf s Reg.timeTickcfg 1 0)) :=
    resetWith_tickcfg _ _
  refine ⟨_, hcReset_resets s tm hf h, (hcSt_modHc _ _).trans (hcSt_resetWith _ _), (rd_modHc _ _ _).trans (resetWith_cause _ _),
    rfl, fun r _ hp => ?_, fun hp => ?_, rfl, rfl, keepsBut_resetParts rfl rfl rfl⟩
  · rw [rd_modHc, rate, hp, Option.getD_some]
  · rw [rd_modHc, rate, hp, Option.getD_none]

/-- Operating time as it stands when standby power is lost: its last persisted step, unless a sequence had persisted it. -/
def opFallen (s : State) : State :=
  if s.hc.mainOn && !warned s then { s with op := s.rec'.panOp } else { s with op := s.hc.opHold.getD s.op }

theorem opFallen_keeps : KeepsBut [.op] s (opFallen s) := by
  unfold opFallen
  split <;> exact fun p hp => by cases p <;> simp_all [Part.same]

theorem standbyPowerLoss_eq : exec .standbyPowerLoss s =
    .next (modHc (wr (wr (moduleReset (opFallen s)) Reg.hcResetCause 0) Reg.ksTamper 0) (fun h => { h with
      standby := false, mainGood := false, mainOn := false, holdOff := false, opHold := some (opFallen s).op, busArm := none,
      busStatus := 0, busSector := 0, busOffset := 0, noRestart := false })) := rfl

/-- Standby power is lost. -/
theorem standbyPowerLoss_spec : ∃ t, exec .standbyPowerLoss s = .next t ∧ t.hc.standby = false ∧ t.hc.mainOn = false ∧
    t.hc.holdOff = false ∧ t.hc.busArm = none ∧ rd t Reg.hcResetCause = 0 ∧ t.mem = [] ∧ KeepsBut resetParts s t := by
  refine ⟨_, standbyPowerLoss_eq s, rfl, rfl, rfl, rfl, ?_, rfl, ?_⟩
  · rw [rd_modHc, rd_wr_ne _ _ (by decide), rd_wr_self]
  · exact ((opFallen_keeps s).mono (by decide)).trans (keepsBut_resetParts rfl rfl rfl)

/-- The parts that the return of standby power can change. -/
abbrev standbyParts : List Part := [.regs, .sw, .arb, .recorder, .ks, .hc, .out]

theorem standbyPowerUp_shut (b : Bool) :
    exec (.standbyPowerUp false b) s = .next { s with hc := { s.hc with standby := true } } := rfl

theorem standbyPowerUp_opened :
    exec (.standbyPowerUp true true) s = .next (tamper (modHc s (fun h => { h with standby := true })) 0 6) := rfl

theorem standbyPowerUp_closed : exec (.standbyPowerUp true false) s =
    .next (doTamperSourceCleared 0 (tamper (modHc s (fun h => { h with standby := true })) 0 6)) := rfl

theorem tamper_frame (src : Fin 5) (place : Nat) : Frame tamperParts Reg.ksStatus s (tamper s src place) := by
  rw [tamper_eq]
  exact (tripShown_frame s src place).trans (tripRecorded_frame _)

/-- Standby power returns, and the lid is open. -/
theorem standbyPowerUp_open_spec : ∃ t, exec (.standbyPowerUp true true) s = .next t ∧ t.hc.standby = true ∧ t.ks.root = none ∧
    t.ks.slot = [] ∧ t.ks.lidOpen = true ∧ keyless t = true ∧ rb t Reg.ksTamper 0 = true ∧ rb t Reg.ksTamper 6 = true ∧
    rb t Reg.ksStatus 8 = true ∧ KeepsBut standbyParts s t := by
  have ht : Frame tamperParts Reg.ksStatus (modHc s (fun h => { h with standby := true })) _ := tamper_frame _ 0 6
  obtain ⟨hroot, hslot, hlid, hkey, h0, h6, h8⟩ := lidTrip_spec (modHc s (fun h => { h with standby := true }))
  exact ⟨_, standbyPowerUp_opened s, congrArg Health.standby ht.hc_eq, hroot, hslot, hlid, hkey, h0, h6, h8,
    ((modHc_frame (n := 0) (s := s) _).keeps).trans (ht.keeps.mono (by decide))⟩

theorem lidClosed_eq : doTamperSourceCleared 0 s = wb (modKs s (fun k => { k with lidOpen := false })) Reg.ksStatus 8 false := rfl

/-- Standby power returns; the lid was opened and is shut again. -/
theorem standbyPowerUp_closed_spec : ∃ t, exec (.standbyPowerUp true false) s = .next t ∧ t.hc.standby = true ∧
    t.ks.root = none ∧ t.ks.lidOpen = false ∧ rb t Reg.ksTamper 0 = true ∧ rb t Reg.ksTamper 6 = true ∧
    rb t Reg.ksStatus 8 = false ∧ KeepsBut standbyParts s t := by
  have ht : Frame tamperParts Reg.ksStatus (modHc s (fun h => { h with standby := true })) _ := tamper_frame _ 0 6
  obtain ⟨hroot, -, -, -, h0, h6, -⟩ := lidTrip_spec (modHc s (fun h => { h with standby := true }))
  have eq := standbyPowerUp_closed s
  generalize tamper (modHc s (fun h => { h with standby := true })) 0 6 = u at ht hroot h0 h6 eq
  rw [lidClosed_eq] at eq
  have hc : Frame tamperParts Reg.ksStatus u _ :=
    (modKs_frame (fun k => { k with lidOpen := false })).trans (wb_frame 8 false le_rfl)
  refine ⟨_, eq, ?_, hroot, rfl, ?_, ?_, rb_wb_self _ _ _ (by decide), ?_⟩
  · exact congrArg Health.standby ht.hc_eq
  · exact (rb_congr (rd_wb_ne _ _ _ (by decide)) 0).trans h0
  · exact (rb_congr (rd_wb_ne _ _ _ (by decide)) 6).trans h6
  · exact ((modHc_frame (n := 0) (s := s) _).keeps).trans ((ht.trans hc).keeps.mono (by decide))

end

/-- Settles O42: the sequences of power-fail, module fault, thermal hold and reset, command by command. -/
theorem powerFailAndResets : Obligations.PowerFailAndResets := by
  unfold Obligations.PowerFailAndResets
  intro s tm o kept
  exact ⟨warning_spec s tm, warning_marks s tm, warning_in_hold s tm, powerFailReset_spec s tm, thermalReset_spec s tm,
    powerFailReset_idle s tm, railFault_spec s, faultRestart_spec s tm, thermalHold_spec s tm, thermalRelease_spec s,
    fun h he => congrArg _ (if_neg (fun hc => he hc.2)), hcReset_spec s tm, hcReset_left s tm, standbyPowerLoss_spec s,
    standbyPowerUp_shut s, standbyPowerUp_open_spec s, standbyPowerUp_closed_spec s⟩

section
variable (s : State)

/-! ## Register writes (R10 to R12, R361) -/

/-! ### A request word by word -/

/-- A request's words may be written: it starts on a word and stays inside a 64-byte line. -/
def Fits (off n : Nat) : Prop := off % 4 = 0 ∧ off % 64 + 4 * n ≤ 64

theorem registerWrite_misfit (who : Writer) {off : Nat} {ws : List BusWord} (h : off % 4 ≠ 0 ∨ 64 < off % 64 + 4 * ws.length) :
    exec (.registerWrite who off ws) s = .next s := congrArg _ (if_pos h)

theorem registerWrite_fits (who : Writer) {off : Nat} {ws : List BusWord} (h : Fits off ws.length) :
    exec (.registerWrite who off ws) s = .next (ws.zipIdx.foldl (fun s e => writeWord who s (off + 4 * e.2) e.1) s) :=
  congrArg _ (if_neg (by obtain ⟨h1, h2⟩ := h; omega))

theorem registerWrite_word (who : Writer) {off : Nat} (a : BusWord) (h : off % 4 = 0) :
    exec (.registerWrite who off [a]) s = .next (writeWord who s off a) :=
  registerWrite_fits s who ⟨h, by simp only [List.length_singleton]; omega⟩

theorem registerWrite_pair (who : Writer) {off : Nat} (a b : BusWord) (h : off % 4 = 0) (hl : off % 64 + 8 ≤ 64) :
    exec (.registerWrite who off [a, b]) s = .next (writeWord who (writeWord who s off a) (off + 4) b) :=
  registerWrite_fits s who ⟨h, hl⟩

theorem writeWord_discarded (who : Writer) (off : Nat) {a : BusWord} (h : a.be ≠ 15) : writeWord who s off a = s := if_pos h

theorem writeWord_pf (off : Nat) (v : Word) : writeWord (.fn 0) s off ⟨15, v⟩ = pfWrite s off v := rfl

/-! ### The GLB and PAN windows -/

/-- An offset of the GLB or the PAN window. -/
def InGlbPan (off : Nat) : Prop := off / 0x100000 = 0 ∨ off / 0x100000 = 16

variable {s} {off : Nat} {f : RegFam}

theorem regAt_mem (h : regAt off = some f) : f ∈ famsOf off ∧ inDims f.base f.dims off = true :=
  ⟨List.mem_of_find?_eq_some h, List.find?_some (p := fun g : RegFam => inDims g.base g.dims off) h⟩

theorem answers_of_running (off : Nat) (h : hcSt s ≠ 3) : answers s off = true := by simp [answers, h]

theorem pfWrite_glbPan (v : Word) (hw : InGlbPan off) (hf : regAt off = some f) (h : hcSt s ≠ 3) :
    pfWrite s off v = storeReg s off v := by
  unfold pfWrite
  rw [if_neg (by simp [hf, answers_of_running off h])]
  rcases hw with hw | hw
  · rw [hw]; rfl
  · rw [hw]; rfl

theorem registerWrite_glbPan (v : Word) (hw : InGlbPan off) (hf : regAt off = some f) (ha : off % 4 = 0) (h : hcSt s ≠ 3) :
    exec (.registerWrite (.fn 0) off [⟨15, v⟩]) s = .next (storeReg s off v) := by
  rw [registerWrite_word s _ _ ha, writeWord_pf, pfWrite_glbPan v hw hf h]

/-- The interrupt registers lie in other windows, but for PAN_IRQ. -/
theorem irqRegs_outside : ∀ e ∈ irqRegs, e = Reg.panIrq ∨ (0x100000 ≤ e ∧ (e + 4) / 0x100000 ≠ 0 ∧ (e + 4) / 0x100000 ≠ 16) := by
  decide

theorem not_irqen (hw : InGlbPan off) (hp : off ≠ Reg.panIrq + 4) :
    (irqRegs.contains (off - 4) || (0x100000000 ≤ off && (off - 4) % 0x40000 == 0x18)) = false := by
  have hoff : ¬ 0x100000000 ≤ off := by unfold InGlbPan at hw; omega
  have hirq : off - 4 ∉ irqRegs := fun hm => by
    rcases irqRegs_outside _ hm with h | ⟨h1, h2, h3⟩
    · have : (16 : Nat) < Reg.panIrq := by decide
      omega
    · rw [show off - 4 + 4 = off by omega] at h2 h3
      exact hw.elim h2 h3
  simp [hoff, hirq]

theorem seek_none {base stride n : Nat} (h : off < base ∨ n ≤ (off - base) / stride) : seek base stride n off = none :=
  if_neg (by omega)

/-- In these windows clearing interrupt bits clears nothing else. -/
theorem clearedWith_glbPan (u : State) (v : Word) (hw : InGlbPan off) : clearedWith u off v = u := by
  unfold InGlbPan at hw
  have h1 : off ≠ Reg.timeIrq := by unfold Reg.timeIrq; omega
  have h2 : off ≠ Reg.fioIrq := by unfold Reg.fioIrq; omega
  have h3 : seek (Reg.arrCIrq 0) 0x10000 8 off = none := seek_none (by unfold Reg.arrCIrq; omega)
  have h4 : (List.range 17).find? (fun u => Reg.hdlUIrq u == off) = none := by
    refine List.find?_eq_none.mpr fun u hu => ?_
    have := List.mem_range.mp hu
    simp only [Reg.hdlUIrq, hdlBase, beq_iff_eq]
    split <;> omega
  unfold clearedWith
  rw [if_neg (fun h => h1 h.1), if_neg (fun h => h2 h.1), h3, h4]

/-- The words of the Pantry window that keep a value through a power cycle lie below its counters. -/
theorem famPan_rwp : ∀ g ∈ famPan, g.acc = .rwp → g.dims = [] ∧ g.base < counterBase := by decide

theorem rwp_low (hw : InGlbPan off) (hf : regAt off = some f) (ha : f.acc = .rwp) : off < counterBase := by
  obtain ⟨hm, hd⟩ := regAt_mem hf
  rcases hw with hw | hw
  · have : (0x100000 : Nat) < counterBase := by decide
    omega
  · rw [famsOf, if_neg (by omega), hw] at hm
    obtain ⟨hn, hb⟩ := famPan_rwp f hm ha
    rw [hn, inDims, beq_iff_eq] at hd
    omega

/-! ### What a stored word becomes, by access code -/

/-- The writable bits from the written word, the others as they were. -/
def merged (x v m : Word) : Word := (x &&& ~~~ m) ||| (v &&& m)

theorem storeReg_rw (v : Word) (hf : regAt off = some f) (ha : f.acc = .rw) (hw : InGlbPan off) (hp : off ≠ Reg.panIrq + 4) :
    storeReg s off v = wr s off (merged (rd s off) v (W f.mask)) := by
  simp only [storeReg, hf, ha, not_irqen hw hp]
  rfl

theorem storeReg_rwp (v : Word) (hf : regAt off = some f) (ha : f.acc = .rwp) :
    storeReg s off v = wrp s off (merged (rd s off) v (W f.mask)) := by
  simp only [storeReg, hf, ha]
  rfl

theorem storeReg_w1c (v : Word) (hf : regAt off = some f) (ha : f.acc = .w1c) (hw : InGlbPan off) :
    storeReg s off v = wr s off (rd s off &&& ~~~ (v &&& W f.mask)) := by
  simp only [storeReg, hf, ha, clearedWith_glbPan _ _ hw]

theorem storeReg_ro (v : Word) (hf : regAt off = some f) (ha : f.acc = .ro) : storeReg s off v = s := by
  simp only [storeReg, hf, ha]

theorem wr_keeps (s : State) (off : Nat) (v : Word) : KeepsBut [.regs] s (wr s off v) := by
  intro p hp
  cases p <;> simp_all [Part.same]

/-- A stored RWP word: the word and its Pantry accounting. -/
theorem wrp_spec (s : State) (v : Word) (h : off < counterBase) : rd (wrp s off v) off = v ∧
    (getPan (wrp s off v) off).wear = (getPan s off).wear + 1 ∧ KeepsBut logParts s (wrp s off v) := by
  refine ⟨?_, ?_, (wrp_same s off v).keeps⟩
  · rw [wrp, (persist_frame _ off).rd _ h, rd_wr_self]
  · obtain ⟨x, r, g, hx, hr⟩ := persist_rec (wr s off v) off
    rw [wrp, getPan, hr, Tab.get_put_self, hx]
    rfl

end

/-- Settles O44: a request is its words in order, and a word of these windows acts by its register's access code. -/
theorem registerWrites : Obligations.RegisterWrites := by
  unfold Obligations.RegisterWrites
  intro s who off
  refine ⟨fun a b h hl => ?_, fun a hb => ?_, fun l h => registerWrite_misfit s who h, fun f v hf h4 hw hst => ?_, fun v h => ?_⟩
  · exact ⟨_, registerWrite_word s who a h, by rw [registerWrite_pair s who a b h hl, registerWrite_word _ who b (by omega)]⟩
  · by_cases h : off % 4 = 0
    · rw [registerWrite_word s who a h, writeWord_discarded s who off hb]
    · exact registerWrite_misfit s who (.inl h)
  · intro m i
    have hi : exec i s = .next (storeReg s off v) := registerWrite_glbPan v hw hf h4 hst
    refine ⟨fun ha hp => ?_, fun ha => ?_, fun ha => ?_, fun ha => ?_⟩
    · exact ⟨_, hi.trans (congrArg _ (storeReg_rw v hf ha hw hp)), rd_wr_self _ _ _, wr_keeps _ _ _⟩
    · exact ⟨_, hi.trans (congrArg _ (storeReg_rwp v hf ha)), wrp_spec s _ (rwp_low hw hf ha)⟩
    · exact ⟨_, hi.trans (congrArg _ (storeReg_w1c v hf ha hw)), rd_wr_self _ _ _, wr_keeps _ _ _⟩
    · exact hi.trans (congrArg _ (storeReg_ro v hf ha))
  · have ha : answers s Reg.timeCtrl = false := by simp [answers, h, Reg.timeCtrl]
    rw [registerWrite_word s _ _ (by decide), writeWord_pf, pfWrite, if_pos (by simp [ha])]

/-! ## Reset (R11, R341) -/

/-- The offsets a family of registers spans from its base, its gaps among them. -/
def spanOf : List (Nat × Nat) → Nat
  | [] => 1
  | (n, st) :: ds => st * n + spanOf ds

theorem inDims_range {base off : Nat} {ds : List (Nat × Nat)} (h : inDims base ds off = true) :
    base ≤ off ∧ off < base + spanOf ds := by
  induction ds generalizing base with
  | nil =>
    rw [inDims, beq_iff_eq] at h
    simp only [spanOf]
    omega
  | cons d ds ih =>
    obtain ⟨n, st⟩ := d
    simp only [inDims, Bool.and_eq_true, decide_eq_true_eq] at h
    obtain ⟨⟨-, hn⟩, hd⟩ := h
    obtain ⟨h1, h2⟩ := ih hd
    have : st * ((off - base) / st) ≤ st * n := Nat.mul_le_mul_left _ hn.le
    simp only [spanOf]
    omega

/-- In a stretch of offsets that the table of reset values leaves out, registers reset to 0. -/
theorem resetWord_zero (lo hi : Nat) (h : ∀ e ∈ resetTab, e.1 + spanOf e.2.1 ≤ lo ∨ hi ≤ e.1) {off : Nat} (hlo : lo ≤ off)
    (hhi : off < hi) : resetWord off = 0 := by
  have : resetTab.find? (fun e => inDims e.1 e.2.1 off) = none := by
    refine List.find?_eq_none.mpr fun e he hd => ?_
    obtain ⟨h1, h2⟩ := inDims_range hd
    rcases h e he with h3 | h3 <;> omega
  rw [resetWord, this]

theorem rd_reset (off : Nat) : rd State.reset off = resetWord off := rfl

theorem loopWord_reset (c : Fin 8) (i : Fin 32) {j : Nat} (hj : j < 23) : loopWord State.reset c i j = 0 := by
  rw [loopWord, rd_reset]
  refine resetWord_zero 0xB00000 0xC00000 (by decide) ?_ ?_
  · unfold loopReg Reg.cluLMode; omega
  · unfold loopReg Reg.cluLMode; omega

theorem tState_reset (f : Fin 64) : tState State.reset f = 0 := by
  have : resetWord (Reg.cmtTState f) = 0 := by
    refine resetWord_zero 0xA01000 0xB00000 (by decide) ?_ ?_
    · unfold Reg.cmtTState; omega
    · unfold Reg.cmtTState; omega
  rw [tState, rf, rd_reset, this]
  rfl

theorem getCore_reset (l : Fin 64) : getCore State.reset l = .reset := rfl

/-- Settles O59: the state after reset, field by field and register by register. -/
theorem resetState : Obligations.ResetState := by
  unfold Obligations.ResetState
  intro s
  refine ⟨by decide, rfl, rfl, rfl, rfl, rfl, by decide, fun l => by rw [getCore_reset]; decide, tState_reset,
    fun c i j hj => loopWord_reset c i hj, by decide, by decide, by decide, by decide, by decide, by decide, by decide⟩

end Sys2Proof.Machine
end

section
/-! PROOFS: the Trip Release Unit (O28). -/

namespace Sys2Proof.Machine
set_option Elab.async false

/-! ## Frames in sequence -/

namespace Frame
variable {ps qs : List Part} {n m : Nat} {s t u : State}

/-- An operation that changes less comes next. -/
theorem andThen (h : Frame ps n s t) (k : Frame qs m t u) (hp : qs ⊆ ps := by decide) (hn : n ≤ m := by decide) : Frame ps n s u :=
  h.trans (k.mono hp hn)

theorem widen (h : Frame qs m s t) (hp : qs ⊆ ps := by decide) (hn : n ≤ m := by decide) : Frame ps n s t := h.mono hp hn

theorem keepsBut (h : Frame qs m s t) (hp : qs ⊆ ps := by decide) : KeepsBut ps s t := h.keeps.mono hp

theorem port_eq (h : Frame ps n s t) (hp : .port ∉ ps := by decide) : t.port = s.port := h.keeps .port hp
theorem ten_eq (h : Frame ps n s t) (hp : .ten ∉ ps := by decide) : t.ten = s.ten := h.keeps .ten hp
theorem tru_eq (h : Frame ps n s t) (hp : .tru ∉ ps := by decide) : t.tru = s.tru := h.keeps .tru hp
theorem hdl_eq (h : Frame ps n s t) (hp : .hdl ∉ ps := by decide) : t.hdl = s.hdl := h.keeps .hdl hp
theorem now_eq (h : Frame ps n s t) (hp : .now ∉ ps := by decide) : t.now = s.now := h.keeps .now hp
theorem mem_eq (h : Frame ps n s t) (hp : .mem ∉ ps := by decide) : t.mem = s.mem := h.keeps .mem hp
theorem plu_eq (h : Frame ps n s t) (hp : .plu ∉ ps := by decide) : t.plu = s.plu := h.keeps .plu hp

/-- A field of a register below the offset. -/
theorem rb (h : Frame ps n s t) {off : Nat} (ho : off < n) (i : Nat) : rb t off i = Machine.rb s off i := rb_congr (h.rd off ho) i

end Frame

section
variable {ps : List Part} {n : Nat} {s : State}

theorem toInstant_frame (tm : Instant) (hp : [.now, .op] ⊆ ps := by decide) : Frame ps n s (toInstant s tm) :=
  ⟨(toInstant_keeps s tm).mono hp, fun _ _ => rfl, List.Sublist.refl _⟩
theorem modPort_frame (p : Fin 144) (f : Port → Port) (hp : .port ∈ ps := by decide) : Frame ps n s (modPort s p f) :=
  .of_part hp (fun q _ => by cases q <;> simp_all [Part.same]) rfl rfl
theorem modTru_frame (f : Tru → Tru) (hp : .tru ∈ ps := by decide) : Frame ps n s (modTru s f) :=
  .of_part hp (fun q _ => by cases q <;> simp_all [Part.same, modTru]) rfl rfl
theorem hdl_frame (x : Heddle) (hp : .hdl ∈ ps := by decide) : Frame ps n s { s with hdl := x } :=
  .of_part hp (fun q _ => by cases q <;> simp_all [Part.same]) rfl rfl
theorem sw_frame (x : Switch) (hp : .sw ∈ ps := by decide) : Frame ps n s { s with sw := x } :=
  .of_part hp (fun q _ => by cases q <;> simp_all [Part.same]) rfl rfl
theorem modPub_frame (p : Nat) (f : Pub → Pub) (hp : .tru ∈ ps := by decide) : Frame ps n s (modPub s p f) := modTru_frame _ hp
theorem modSlot_frame (i : Nat) (f : TSlot → TSlot) (hp : .tru ∈ ps := by decide) : Frame ps n s (modSlot s i f) := modTru_frame _ hp

end

/-! ## Slots and publications: lookups after updates -/

section
variable {s t : State} {i j p : Nat}

theorem getSlot_modSlot (f : TSlot → TSlot) : getSlot (modSlot s i f) j = if i = j then f (getSlot s i) else getSlot s j := Tab.get_put ..
theorem getPub_modPub (f : Pub → Pub) : getPub (modPub s i f) j = if i = j then f (getPub s i) else getPub s j := Tab.get_put ..
@[simp] theorem getSlot_modSlot_self (f : TSlot → TSlot) : getSlot (modSlot s i f) i = f (getSlot s i) := by simp [getSlot_modSlot]
@[simp] theorem getPub_modPub_self (f : Pub → Pub) : getPub (modPub s i f) i = f (getPub s i) := by simp [getPub_modPub]
@[simp] theorem getSlot_modPub (f : Pub → Pub) : getSlot (modPub s p f) j = getSlot s j := rfl
@[simp] theorem getPub_modSlot (f : TSlot → TSlot) : getPub (modSlot s i f) p = getPub s p := rfl
theorem getSlot_congr (h : t.tru = s.tru) : getSlot t i = getSlot s i := by rw [getSlot, h, getSlot]
theorem getPub_congr (h : t.tru = s.tru) : getPub t p = getPub s p := by rw [getPub, h, getPub]

end

/-! ## Trip frames (R71, R174, R175) -/

/-- The parts that sending a trip frame can change. -/
abbrev tripParts : List Part := [.regs, .port, .sw, .out]

/-- A trip frame joined to a port's trip queue. -/
def tripQueued (s : State) (p : Fin 144) (x : TripItem) : State := modPort s p (fun y => { y with trips := y.trips ++ [x] })

/-- An express frame taken off a port's wire, to be sent again. -/
def expressAborted (s : State) (p : Fin 144) (id : Nat) : State :=
  bump (modPort s p (fun y => { y with wire := none, resend := some id })) Reg.truAborts

section
variable (s : State)

/-- What a trip frame does at a port: it joins the queue, and may abort an express frame. -/
theorem pushTrip_cases (p : Fin 144) (x : TripItem) :
    pushTrip s p x = tripQueued s p x ∨ ∃ id, pushTrip s p x = expressAborted (tripQueued s p x) p id := by
  unfold pushTrip
  dsimp only
  split
  · split
    · split
      · exact .inr ⟨_, rfl⟩
      · exact .inl rfl
    · exact .inl rfl
  · exact .inl rfl

theorem pushTrip_frame (p : Fin 144) (x : TripItem) : Frame tripParts Reg.truAborts s (pushTrip s p x) := by
  have hq : Frame tripParts Reg.truAborts s (tripQueued s p x) := modPort_frame p _
  rcases pushTrip_cases s p x with h | ⟨id, h⟩
  · rwa [h]
  · rw [h]
    exact hq.trans ((modPort_frame p _).trans (bump_frame 1 le_rfl))

theorem tripQueued_trips (p q : Fin 144) (x : TripItem) :
    (getPort (tripQueued s p x) q).trips = (getPort s q).trips ++ (if p = q then [x] else []) := by
  rw [tripQueued, modPort, getPort_setPort]
  split
  · subst_vars; rfl
  · simp

theorem expressAborted_trips (p q : Fin 144) (id : Nat) : (getPort (expressAborted s p id) q).trips = (getPort s q).trips := by
  have : getPort (expressAborted s p id) q = getPort (modPort s p (fun y => { y with wire := none, resend := some id })) q := rfl
  rw [this, modPort, getPort_setPort]
  split
  · subst_vars; rfl
  · rfl

theorem pushTrip_trips (p q : Fin 144) (x : TripItem) :
    (getPort (pushTrip s p x) q).trips = (getPort s q).trips ++ (if p = q then [x] else []) := by
  rcases pushTrip_cases s p x with h | ⟨id, h⟩
  · rw [h, tripQueued_trips]
  · rw [h, expressAborted_trips, tripQueued_trips]

theorem signFrame_frame (p : Nat) (f : Sys2Proof.Frame) : Frame [.regs, .out] Reg.ksIrq s (signFrame s p f).2 := by
  unfold signFrame
  dsimp only
  split
  · exact .refl
  · exact (bump_frame 1 (by decide)).trans (raise_frame 3 le_rfl)
  · exact .refl

theorem advancePairs_frame {n : Nat} (ports : List (Fin 144)) : Frame [.sw] n s (advancePairs s ports) := by
  unfold advancePairs
  exact .foldl (fun t k => .ite (fun _ => .refl) (fun _ => sw_frame _)) _ s

/-- A slot's frame as it leaves, signed where its publication is, and the state that has signed it. -/
def signedSlot (s : State) (x : TSlot) (st sq : Nat) (t : List Byte) : Sys2Proof.Frame × State :=
  if x.gmac then signFrame s x.pub (slotFrame x st sq t) else (slotFrame x st sq t, s)

/-- The ports of a slot's group that take its trip frames. -/
def tripPorts (s : State) (x : TSlot) : List (Fin 144) :=
  (portsOf s x.pgrp).filter (fun p => pState s p == 2 || pState s p == 3)

/-- A slot's frame queued on its ports. -/
def tripsQueued (s : State) (i : Nat) (x : TSlot) (f : Sys2Proof.Frame) : State :=
  (tripPorts s x).foldl (fun s p =>
    pushTrip s p ⟨x.pub, some i, tagged s p f, x.template.length + 4 - fld x.len 24 16 - fld x.tofs 24 16⟩) s

variable (i st sq : Nat) (t : List Byte)

theorem sendSlot_eq : (sendSlot s i st sq t).2 =
    if pubMuted s (getSlot s i).pub then s
    else advancePairs (tripsQueued (signedSlot s (getSlot s i) st sq t).2 i (getSlot s i) (signedSlot s (getSlot s i) st sq t).1)
      (tripPorts (signedSlot s (getSlot s i) st sq t).2 (getSlot s i)) := by
  unfold sendSlot
  dsimp only
  split
  · rfl
  · rfl

theorem signedSlot_frame (x : TSlot) : Frame [.regs, .out] Reg.ksIrq s (signedSlot s x st sq t).2 := by
  unfold signedSlot
  split
  · exact signFrame_frame s _ _
  · exact .refl

theorem tripsQueued_frame (x : TSlot) (f : Sys2Proof.Frame) : Frame tripParts Reg.truAborts s (tripsQueued s i x f) :=
  .foldl (fun u p => pushTrip_frame u p _) _ s

/-- Sending a slot's frame leaves every register below TRU_ABORTS, and every part but the ports, the switch core and what has left. -/
theorem sendSlot_frame : Frame tripParts Reg.truAborts s (sendSlot s i st sq t).2 := by
  rw [sendSlot_eq]
  refine .ite (fun _ => .refl) (fun _ => ?_)
  exact ((signedSlot_frame s st sq t _).widen.andThen (tripsQueued_frame _ i _ _)).trans ((advancePairs_frame _ _).mono (by decide) le_rfl)

/-- Trip frames queued one port after another stand in the queue of each. -/
theorem foldl_pushTrip_mem {P : TripItem → Prop} (g : State → Fin 144 → TripItem) (hg : ∀ u p, P (g u p)) (l : List (Fin 144))
    (s : State) (q : Fin 144) (h : q ∈ l ∨ ∃ y ∈ (getPort s q).trips, P y) :
    ∃ y ∈ (getPort (l.foldl (fun s p => pushTrip s p (g s p)) s) q).trips, P y := by
  induction l generalizing s with
  | nil => exact h.resolve_left (by simp)
  | cons p l ih =>
    refine ih _ ?_
    rw [pushTrip_trips]
    by_cases hq : p = q
    · exact .inr ⟨g s p, by simp [hq], hg s p⟩
    · rcases h with h | ⟨y, hy, hP⟩
      · exact .inl ((List.mem_cons.mp h).resolve_left (Ne.symm hq))
      · exact .inr ⟨y, List.mem_append_left _ hy, hP⟩

theorem portsOf_congr {s t : State} (h : ∀ off < 0x600000, rd t off = rd s off) {g : Nat} (hg : g < 64) : portsOf t g = portsOf s g := by
  refine List.filter_congr fun p _ => ?_
  have h1 : rd t (Reg.colPgrp g (p / 32)) = rd s (Reg.colPgrp g (p / 32)) := h _ (by unfold Reg.colPgrp; omega)
  have h2 : rd t (Reg.colPgrpx g) = rd s (Reg.colPgrpx g) := h _ (by unfold Reg.colPgrpx; omega)
  simp only [inGroup, rb, h1, h2]

theorem pState_congr {s t : State} (h : ∀ off < 0x600000, rd t off = rd s off) (p : Fin 144) : pState t p = pState s p := by
  rw [pState, rf, h _ (by unfold Reg.swcPStatus; omega)]
  rfl

theorem pgrp_lt (x : TSlot) : x.pgrp < 64 := Nat.mod_lt _ (by decide)

theorem tripPorts_congr {s t : State} (h : ∀ off < 0x600000, rd t off = rd s off) (x : TSlot) : tripPorts t x = tripPorts s x := by
  rw [tripPorts, tripPorts, portsOf_congr h (pgrp_lt x)]
  exact List.filter_congr fun p _ => by rw [pState_congr h]

/-- The slot's frame joins the trip queue of every port that takes it. -/
theorem sendSlot_trips (hm : pubMuted s (getSlot s i).pub = false) {p : Fin 144} (hp : p ∈ tripPorts s (getSlot s i)) :
    ∃ y ∈ (getPort (sendSlot s i st sq t).2 p).trips, y.slot = some i ∧ y.pub = (getSlot s i).pub := by
  have hk : Frame [.regs, .out] Reg.ksIrq s (signedSlot s (getSlot s i) st sq t).2 := signedSlot_frame ..
  rw [sendSlot_eq, hm, getPort, if_neg Bool.false_ne_true, (advancePairs_frame _ _ (n := 0)).port_eq, ← getPort]
  refine foldl_pushTrip_mem (P := fun y => y.slot = some i ∧ y.pub = (getSlot s i).pub) _ (fun _ _ => ⟨rfl, rfl⟩) _ _ _ (.inl ?_)
  rwa [tripPorts_congr (fun off ho => hk.rd off (Nat.lt_of_lt_of_le ho (by decide)))]

end
/-! ## Release (R15, R171 to R177) -/

theorem live_of_running {s : State} (f : State → State) (h : hcSt s ≠ 3) : live s f = f s := if_neg h

/-- The new state of a released slot's publication. -/
def pubReleased (s : State) (i : Nat) (y : Pub) : Pub :=
  { y with stNum := ((getPub s (getSlot s i).pub).stNum + 1) % 2 ^ 32, restored := false, sqNum := 0, hold := some i, step := 0,
           nextAt := s.op + retxT1 s, utc := utcTime s }

/-- A release counted, with the new state of its publication, before its frame leaves. -/
def releaseBegun (s : State) (i : Nat) : State :=
  raise (bump (modPub s (getSlot s i).pub (pubReleased s i)) Reg.truReleases) Reg.truIrq 0

/-- The ports missed by a release, and the state in which its frame has joined the trip queues of the others. -/
def releaseSent (s : State) (i : Nat) : Nat × State :=
  sendSlot (releaseBegun s i) i (((getPub s (getSlot s i).pub).stNum + 1) % 2 ^ 32) 0 (utcTime s)

/-- A slot that has been released. -/
def slotReleased (s : State) (missed : Nat) (y : TSlot) : TSlot :=
  { y with st := 3, relSec := W (secOf s.now), relNs := nsWord s.now, missed := min 255 missed, portMiss := missed != 0 }

/-- A release but for the interrupt of the ports missed. -/
def releaseShown (s : State) (i : Nat) : State :=
  modSlot (releaseSent s i).2 i (slotReleased (releaseSent s i).2 (releaseSent s i).1)

section
variable (s : State) (i : Nat)

theorem release_eq : release s i = if (releaseSent s i).1 = 0 then releaseShown s i else raise (releaseShown s i) Reg.truIrq 4 := rfl

theorem releaseBegun_frame : Frame [.regs, .tru, .out] Reg.truReleases s (releaseBegun s i) :=
  ((modPub_frame _ _).trans (bump_frame 1 le_rfl)).trans (raise_frame 0 (by decide))

theorem releaseSent_frame : Frame tripParts Reg.truAborts (releaseBegun s i) (releaseSent s i).2 := sendSlot_frame ..

theorem release_interrupt : Frame [.regs, .out] Reg.truIrq (releaseShown s i) (release s i) := by
  rw [release_eq]
  exact .ite (fun _ => .refl) (fun _ => raise_frame 4 le_rfl)

/-- A release leaves every register below TRU_RELEASES. -/
theorem release_frame : Frame [.regs, .port, .sw, .tru, .out] Reg.truReleases s (release s i) := by
  have hb : Frame [.regs, .port, .sw, .tru, .out] Reg.truReleases s (releaseBegun s i) := (releaseBegun_frame s i).widen
  have hs : Frame [.regs, .port, .sw, .tru, .out] Reg.truReleases (releaseBegun s i) (releaseShown s i) :=
    (releaseSent_frame s i).widen.trans (modSlot_frame i _)
  exact hb.trans (hs.andThen (release_interrupt s i))

theorem releaseBegun_slot (j : Nat) : getSlot (releaseBegun s i) j = getSlot s j := by
  have h : Frame [.regs, .out] 0 (modPub s (getSlot s i).pub (pubReleased s i)) (releaseBegun s i) :=
    (bump_frame 1 (Nat.zero_le _)).trans (raise_frame 0 (Nat.zero_le _))
  rw [getSlot_congr h.tru_eq, getSlot_modPub]

theorem releaseBegun_pub : getPub (releaseBegun s i) (getSlot s i).pub = pubReleased s i (getPub s (getSlot s i).pub) := by
  have h : Frame [.regs, .out] 0 (modPub s (getSlot s i).pub (pubReleased s i)) (releaseBegun s i) :=
    (bump_frame 1 (Nat.zero_le _)).trans (raise_frame 0 (Nat.zero_le _))
  rw [getPub_congr h.tru_eq, getPub_modPub_self]

theorem releaseBegun_rd {off : Nat} (hc : off ≠ Reg.truReleases) (hi : off ≠ Reg.truIrq) : rd (releaseBegun s i) off = rd s off := by
  rw [releaseBegun, rd_raise_ne _ _ (Ne.symm hi), bump, rd_wr_ne _ _ (Ne.symm hc)]
  rfl

theorem release_slot : (getSlot (release s i) i).st = 3 := by
  rw [getSlot_congr (release_interrupt s i).tru_eq, releaseShown, getSlot_modSlot_self]
  rfl

theorem release_pub : getPub (release s i) (getSlot s i).pub = pubReleased s i (getPub s (getSlot s i).pub) := by
  rw [getPub_congr (release_interrupt s i).tru_eq, releaseShown, getPub_modSlot, getPub_congr (releaseSent_frame s i).tru_eq,
    releaseBegun_pub]

theorem release_counted : rd (release s i) Reg.truReleases = rd s Reg.truReleases + 1 := by
  have hs : rd (releaseShown s i) Reg.truReleases = rd (releaseSent s i).2 Reg.truReleases := rfl
  rw [(release_interrupt s i).rd _ (by decide), hs, (releaseSent_frame s i).rd _ (by decide), releaseBegun,
    rd_raise_ne _ _ (by decide), bump, rd_wr_self]
  rfl

theorem pub_lt (x : TSlot) : x.pub < 1024 := Nat.mod_lt _ (by decide)

theorem pubMuted_congr {s t : State} {p : Nat} (hp : p < 1024) (hg : rd t (Reg.pluGateGpub (p / 32)) = rd s (Reg.pluGateGpub (p / 32)))
    (ho : rd t Reg.pluStatus = rd s Reg.pluStatus) : pubMuted t p = pubMuted s p := by
  rw [pubMuted, pubGated, if_pos hp, rb_congr hg, gateOpen_congr ho, pubMuted, pubGated, if_pos hp]

theorem releaseBegun_muted : pubMuted (releaseBegun s i) (getSlot s i).pub = pubMuted s (getSlot s i).pub :=
  pubMuted_congr (pub_lt _) (releaseBegun_rd s i (by unfold Reg.pluGateGpub Reg.truReleases; omega)
    (by unfold Reg.pluGateGpub Reg.truIrq; omega)) (releaseBegun_rd s i (by decide) (by decide))

theorem mem_tripPorts (x : TSlot) (p : Fin 144) :
    p ∈ tripPorts s x ↔ p ∈ portsOf s x.pgrp ∧ (pState s p = 2 ∨ pState s p = 3) := by
  simp [tripPorts]

/-- The frame of a release joins the trip queue of every Up or Fenced port of its group. -/
theorem release_trips (hm : pubMuted s (getSlot s i).pub = false) {p : Fin 144} (hp : p ∈ portsOf s (getSlot s i).pgrp)
    (hu : pState s p = 2 ∨ pState s p = 3) :
    ∃ y ∈ (getPort (release s i) p).trips, y.slot = some i ∧ y.pub = (getSlot s i).pub := by
  have hport : getPort (release s i) p = getPort (releaseSent s i).2 p := by
    rw [getPort, (release_interrupt s i).port_eq]
    rfl
  have hlive : p ∈ tripPorts (releaseBegun s i) (getSlot (releaseBegun s i) i) := by
    rw [releaseBegun_slot, tripPorts_congr (fun off ho => (releaseBegun_frame s i).rd off (Nat.lt_of_lt_of_le ho (by decide)))]
    exact (mem_tripPorts s _ p).mpr ⟨hp, hu⟩
  rw [hport, ← releaseBegun_slot s i i]
  exact sendSlot_trips _ i _ _ _ (by rw [releaseBegun_slot, releaseBegun_muted, hm]) hlive

/-! ## Requests (R18, R170, R171, R173) -/

variable {s} {r : TripReq}

/-- An armed slot of the request's tenant is released; without act-then-verify nothing more happens. -/
theorem acceptReq_releases (hon : truOn s = true) (ho : (getSlot s r.slot).owner = r.tenant) (hst : (getSlot s r.slot).st = 2)
    (hp : r.policy ≠ 1) : acceptReq s r = release s r.slot := by
  rw [acceptReq]
  simp [hon, ho, hst, hp]

/-- A request refused is counted by the TRU and by its unit. -/
theorem rejectReq_frame (s : State) (unit : Nat) : Frame [.regs, .out] 0 s (rejectReq s unit) :=
  ((bump_frame 1 (Nat.zero_le _)).trans (raise_frame 1 (Nat.zero_le _))).trans
    ((bump_frame 1 (Nat.zero_le _)).trans (raise_frame 1 (Nat.zero_le _)))

theorem rejectReq_counted (s : State) {unit : Nat} (hu : unit < 17) : rd (rejectReq s unit) Reg.truRejects = rd s Reg.truRejects + 1 := by
  have hb : hdlBase unit ≤ 0x7F8000 := by unfold hdlBase; split <;> omega
  rw [rejectReq, rd_raise_ne _ _ (by unfold Reg.hdlUIrq Reg.truRejects; omega), bump,
    rd_wr_ne _ _ (by unfold Reg.hdlUTriprej Reg.truRejects; omega), rd_raise_ne _ _ (by decide), bump, rd_wr_self]
  rfl

theorem acceptReq_rejects (hon : truOn s = true) (h3 : (getSlot s r.slot).st ≠ 3) (h2 : (getSlot s r.slot).st ≠ 2) :
    acceptReq s r = rejectReq s r.unit := by
  rw [acceptReq]
  simp [hon, h3, h2]

end

/-! ## Requests and holds (R170, R173) -/

/-- The oldest request taken from the queue. -/
def requestTaken (s : State) (tm : Instant) (rest : List TripReq) : State :=
  { toInstant s tm with hdl := { s.hdl with reqs := rest } }

/-- The oldest hold taken from the list. -/
def holdTaken (s : State) (tm : Instant) (rest : List TripReq) : State :=
  { toInstant s tm with hdl := { s.hdl with holds := rest } }

section
variable {s : State} (tm : Instant) {r : TripReq} {rest : List TripReq} {ps : List Part} {n : Nat}

theorem requestTaken_frame (hp : [.now, .op, .hdl] ⊆ ps := by decide) : Frame ps n s (requestTaken s tm rest) :=
  ((toInstant_frame (ps := [.now, .op, .hdl]) tm).trans (hdl_frame _)).mono hp le_rfl

theorem holdTaken_frame (hp : [.now, .op, .hdl] ⊆ ps := by decide) : Frame ps n s (holdTaken s tm rest) :=
  ((toInstant_frame (ps := [.now, .op, .hdl]) tm).trans (hdl_frame _)).mono hp le_rfl

section
variable (hrun : hcSt s ≠ 3) (h : s.hdl.reqs = r :: rest)
include hrun h

/-- What becomes of the oldest request. -/
theorem exec_releaseRequest : exec (.releaseRequest tm) s = .next (
    if r.gen ≠ unitGen s r.unit then bump (requestTaken s tm rest) Reg.truStale
    else if r.policy = 2 then { requestTaken s tm rest with
      hdl := { (requestTaken s tm rest).hdl with holds := s.hdl.holds ++ [{ r with tm := s.op + (tm - s.now) }] } }
    else acceptReq (requestTaken s tm rest) r) := by
  have : exec (.releaseRequest tm) s = .next (live s (doReleaseRequest tm)) := rfl
  rw [this, live_of_running _ hrun, doReleaseRequest]
  simp only [toInstant_hdl, h]
  rfl

variable (hg : r.gen = unitGen s r.unit)
include hg

theorem releaseRequest_held (hp : r.policy = 2) : ∃ t, exec (.releaseRequest tm) s = .next t ∧ t.hdl.reqs = rest ∧
    t.hdl.holds = s.hdl.holds ++ [{ r with tm := s.op + (tm - s.now) }] ∧ KeepsBut [.now, .op, .hdl] s t := by
  rw [exec_releaseRequest tm hrun h, if_neg (not_not.mpr hg), if_pos hp]
  exact ⟨_, rfl, rfl, rfl, ((requestTaken_frame (n := 0) tm).trans (hdl_frame _)).keeps⟩

theorem releaseRequest_releases (h0 : r.policy = 0) (hon : truOn s = true) (ho : (getSlot s r.slot).owner = r.tenant)
    (hst : (getSlot s r.slot).st = 2) :
    exec (.releaseRequest tm) s = .next (release (requestTaken s tm rest) r.slot) := by
  rw [exec_releaseRequest tm hrun h, if_neg (not_not.mpr hg), if_neg (by omega)]
  exact congrArg _ (acceptReq_releases hon ho hst (by omega))

theorem releaseRequest_rejected (hp : r.policy ≠ 2) (hu : r.unit < 17) (hon : truOn s = true) (hst : (getSlot s r.slot).st = 1) :
    ∃ t, exec (.releaseRequest tm) s = .next t ∧ rd t Reg.truRejects = rd s Reg.truRejects + 1 ∧
      KeepsBut [.regs, .now, .op, .hdl, .out] s t := by
  have hs : getSlot (requestTaken s tm rest) r.slot = getSlot s r.slot := rfl
  rw [exec_releaseRequest tm hrun h, if_neg (not_not.mpr hg), if_neg hp,
    acceptReq_rejects (s := requestTaken s tm rest) hon (by rw [hs]; omega) (by rw [hs]; omega)]
  exact ⟨_, rfl, rejectReq_counted _ hu,
    ((requestTaken_frame (n := 0) (ps := [.regs, .now, .op, .hdl, .out]) tm).andThen (rejectReq_frame _ _)).keeps⟩

end

theorem releaseRequest_stale (hrun : hcSt s ≠ 3) (h : s.hdl.reqs = r :: rest) (hg : r.gen ≠ unitGen s r.unit) :
    ∃ t, exec (.releaseRequest tm) s = .next t ∧ t.hdl.reqs = rest ∧ rd t Reg.truStale = rd s Reg.truStale + 1 ∧
      KeepsBut [.regs, .now, .op, .hdl] s t := by
  rw [exec_releaseRequest tm hrun h, if_pos hg]
  exact ⟨_, rfl, rfl, rd_wr_self _ _ _,
    ((requestTaken_frame (n := 0) (ps := [.now, .op, .hdl]) tm).keepsBut).trans ((wr_keeps _ _ _).mono (by decide))⟩

section
variable (hrun : hcSt s ≠ 3) (h : s.hdl.holds = r :: rest)
include hrun h

/-- What becomes of the oldest hold. -/
theorem exec_vbaHoldEnd : exec (.vbaHoldEnd tm) s = .next (
    if s.op + (tm - s.now) < r.tm + 112 * mainCycle then toInstant s tm
    else if r.gen ≠ unitGen s r.unit then bump (holdTaken s tm rest) Reg.truStale
    else if r.verify.all (fun c => verdictOf s c == some true) then acceptReq (holdTaken s tm rest) r
    else logRec (raise (bump (holdTaken s tm rest) Reg.truVbaDrop) Reg.truIrq 2) Reg.truIrq 5 2 2 [r.tenant, r.slot, r.unit]) := by
  have : exec (.vbaHoldEnd tm) s = .next (live s (doVbaHoldEnd tm)) := rfl
  rw [this, live_of_running _ hrun, doVbaHoldEnd]
  simp only [toInstant_hdl, h]
  rfl

theorem vbaHoldEnd_early (hd : ¬ r.tm + 112 * mainCycle ≤ s.op + (tm - s.now)) :
    exec (.vbaHoldEnd tm) s = .next (toInstant s tm) := by
  rw [exec_vbaHoldEnd tm hrun h, if_pos (Nat.lt_of_not_le hd)]

variable (hd : r.tm + 112 * mainCycle ≤ s.op + (tm - s.now))
include hd

theorem vbaHoldEnd_stale (hg : r.gen ≠ unitGen s r.unit) : ∃ t, exec (.vbaHoldEnd tm) s = .next t ∧ t.hdl.holds = rest ∧
    rd t Reg.truStale = rd s Reg.truStale + 1 ∧ KeepsBut [.regs, .now, .op, .hdl] s t := by
  rw [exec_vbaHoldEnd tm hrun h, if_neg (Nat.not_lt.mpr hd), if_pos hg]
  exact ⟨_, rfl, rfl, rd_wr_self _ _ _,
    ((holdTaken_frame (n := 0) (ps := [.now, .op, .hdl]) tm).keepsBut).trans ((wr_keeps _ _ _).mono (by decide))⟩

variable (hg : r.gen = unitGen s r.unit)
include hg

theorem vbaHoldEnd_releases (hv : ∀ c ∈ r.verify, verdictOf s c = some true) (hp : r.policy = 2) (hon : truOn s = true)
    (ho : (getSlot s r.slot).owner = r.tenant) (hst : (getSlot s r.slot).st = 2) :
    exec (.vbaHoldEnd tm) s = .next (release (holdTaken s tm rest) r.slot) := by
  rw [exec_vbaHoldEnd tm hrun h, if_neg (Nat.not_lt.mpr hd), if_neg (not_not.mpr hg), if_pos (by simpa using hv)]
  exact congrArg _ (acceptReq_releases hon ho hst (by omega))

theorem vbaHoldEnd_drops (hv : ∃ c ∈ r.verify, verdictOf s c ≠ some true) : ∃ t, exec (.vbaHoldEnd tm) s = .next t ∧
    t.hdl.holds = rest ∧ rd t Reg.truVbaDrop = rd s Reg.truVbaDrop + 1 ∧
    KeepsBut [.regs, .now, .op, .recorder, .arb, .hdl, .out] s t := by
  have hlog : Frame logParts counterBase (raise (bump (holdTaken s tm rest) Reg.truVbaDrop) Reg.truIrq 2) _ :=
    logRec_frame _ Reg.truIrq 5 2 2 [r.tenant, r.slot, r.unit]
  have hcnt : Frame [.regs, .out] 0 (holdTaken s tm rest) (raise (bump (holdTaken s tm rest) Reg.truVbaDrop) Reg.truIrq 2) :=
    (bump_frame 1 (Nat.zero_le _)).trans (raise_frame 2 (Nat.zero_le _))
  rw [exec_vbaHoldEnd tm hrun h, if_neg (Nat.not_lt.mpr hd), if_neg (not_not.mpr hg), if_neg (by simpa using hv)]
  refine ⟨_, rfl, ?_, ?_,
    ((holdTaken_frame (n := 0) (ps := [.regs, .now, .op, .hdl, .out]) tm).andThen hcnt).keepsBut.trans hlog.keepsBut⟩
  · rw [hlog.hdl_eq, hcnt.hdl_eq]
    rfl
  · rw [hlog.rd _ (by decide), rd_raise_ne _ _ (by decide), bump, rd_wr_self]
    rfl

end
end

/-! ## Retransmission (R177, R380) -/

/-- The publication's schedule moved on to a retransmission. -/
def pubRetransmitted (s : State) (y : Pub) : Pub :=
  { y with sqNum := (y.sqNum + 1) % 2 ^ 32, step := y.step + 1, nextAt := s.op + retxGap s (y.step + 1) }

section
variable {s : State} {p : Fin 1024} {tm : Instant} {i : Nat} (hrun : hcSt s ≠ 3) (h : (getPub s p).hold = some i)
  (hon : truOn s = true) (hm : pubMuted s p = false) (hd : (getPub s p).nextAt ≤ s.op + (tm - s.now))
include hrun h hon hm hd

theorem retransmission_spec : ∃ t, exec (.retransmission p tm) s = .next t ∧
    getPub t p = pubRetransmitted (toInstant s tm) (getPub s p) ∧ (getSlot t i).st = (getSlot s i).st ∧
    KeepsBut [.regs, .now, .op, .port, .sw, .tru, .out] s t := by
  have eq : exec (.retransmission p tm) s = .next (
      let u := modPub (toInstant s tm) p (fun _ => pubRetransmitted (toInstant s tm) (getPub s p))
      let r := sendSlot u i (getPub s p).stNum (((getPub s p).sqNum + 1) % 2 ^ 32) (getPub s p).utc
      modSlot r.2 i (fun z => { z with missed := min 255 r.1 })) := by
    have : exec (.retransmission p tm) s = .next (live s (doRetransmission p tm)) := rfl
    have hp : getPub (toInstant s tm) p = getPub s p := rfl
    have hgo : (!truOn (toInstant s tm) || pubMuted (toInstant s tm) p) = false := by
      have h1 : truOn (toInstant s tm) = true := hon
      have h2 : pubMuted (toInstant s tm) p = false := hm
      rw [h1, h2]; rfl
    rw [this, live_of_running _ hrun, doRetransmission]
    simp only [hp, h, hgo, toInstant_op, if_neg (Nat.not_lt.mpr hd)]
    rfl
  have hu : Frame [.now, .op, .tru] 0 s (modPub (toInstant s tm) p (fun _ => pubRetransmitted (toInstant s tm) (getPub s p))) :=
    (toInstant_frame tm).trans (modPub_frame _ _)
  have hs := sendSlot_frame (modPub (toInstant s tm) p (fun _ => pubRetransmitted (toInstant s tm) (getPub s p))) i
    (getPub s p).stNum (((getPub s p).sqNum + 1) % 2 ^ 32) (getPub s p).utc
  refine ⟨_, eq, ?_, ?_, (hu.keepsBut.trans hs.keepsBut).trans (modSlot_frame (ps := [.tru]) (n := 0) i _).keepsBut⟩
  · rw [getPub_modSlot, getPub_congr hs.tru_eq, getPub_modPub_self]
  · rw [getSlot_modSlot_self, getSlot_congr hs.tru_eq]
    rfl

end

/-! ## Slot commands and TRU registers (R172, R184, R380) -/

/-- Words written one after another leave every other register. -/
theorem rd_foldl_wr_ne {off : Nat} {f : Nat → Nat} (g : Nat → Word) (l : List Nat) (h : ∀ i ∈ l, f i ≠ off) (s : State) :
    rd (l.foldl (fun s i => wr s (f i) (g i)) s) off = rd s off := by
  induction l generalizing s with
  | nil => rfl
  | cons i l ih =>
    rw [List.foldl_cons, ih (fun k hk => h k (List.mem_cons_of_mem i hk)), rd_wr_ne _ _ (h i List.mem_cons_self)]

/-- A word written at an offset of its own stands after all of them. -/
theorem rd_foldl_wr {f : Nat → Nat} (hf : Function.Injective f) (g : Nat → Word) (l : List Nat) {j : Nat} (hj : j ∈ l) (s : State) :
    rd (l.foldl (fun s i => wr s (f i) (g i)) s) (f j) = g j := by
  induction l generalizing s with
  | nil => simp at hj
  | cons i l ih =>
    by_cases hl : j ∈ l
    · exact ih hl _
    · obtain rfl : j = i := (List.mem_cons.mp hj).resolve_right hl
      have hne : ∀ k ∈ l, f k ≠ f j := fun k hk h => hl (hf h ▸ hk)
      rw [List.foldl_cons, rd_foldl_wr_ne g l hne, rd_wr_self]

theorem foldl_wr_keeps (f : Nat → Nat) (g : Nat → Word) (l : List Nat) (s : State) :
    KeepsBut [.regs] s (l.foldl (fun s i => wr s (f i) (g i)) s) := by
  induction l generalizing s with
  | nil => exact fun q _ => by cases q <;> rfl
  | cons i l ih => exact (wr_keeps s _ _).trans (ih _)

theorem truTemplate_injective : Function.Injective Reg.truTemplate := fun i j h => by unfold Reg.truTemplate at h; omega

/-- A word of a slot's template. -/
abbrev templateWord (x : TSlot) (j : Nat) : Word := W (leNat ((x.template.drop (4 * j)).take 4))

/-- The four words of a slot shown in the TRU window. -/
def slotWords (s : State) (x : TSlot) : State :=
  wr (wr (wr (wr s Reg.truSCfg x.cfg) Reg.truSLen x.len) Reg.truSOfs x.ofs) Reg.truSTofs x.tofs

section
variable {s : State}

theorem rd_slotWords (x : TSlot) : rd (slotWords s x) Reg.truSCfg = x.cfg ∧ rd (slotWords s x) Reg.truSLen = x.len ∧
    rd (slotWords s x) Reg.truSOfs = x.ofs ∧ rd (slotWords s x) Reg.truSTofs = x.tofs := by
  refine ⟨?_, ?_, ?_, ?_⟩
  · rw [slotWords, rd_wr_ne _ _ (by decide), rd_wr_ne _ _ (by decide), rd_wr_ne _ _ (by decide), rd_wr_self]
  · rw [slotWords, rd_wr_ne _ _ (by decide), rd_wr_ne _ _ (by decide), rd_wr_self]
  · rw [slotWords, rd_wr_ne _ _ (by decide), rd_wr_self]
  · rw [slotWords, rd_wr_self]

theorem doSlotRead_eq (s : State) : doSlotRead s =
    (List.range 128).foldl (fun t j => wr t (Reg.truTemplate j)
      (templateWord (getSlot s (slotIdx s)) j))
    (slotWords s (getSlot s (slotIdx s))) := rfl

theorem doSlotRead_template (s : State) {j : Nat} (hj : j < 128) :
    rd (doSlotRead s) (Reg.truTemplate j) = templateWord (getSlot s (slotIdx s)) j := by
  rw [doSlotRead_eq, rd_foldl_wr truTemplate_injective _ _ (List.mem_range.mpr hj)]

theorem doSlotRead_words (s : State) {off : Nat} (h : off < Reg.truTemplate 0) :
    rd (doSlotRead s) off = rd (slotWords s (getSlot s (slotIdx s))) off := by
  rw [doSlotRead_eq, rd_foldl_wr_ne]
  intro j _
  unfold Reg.truTemplate at *
  omega

theorem doSlotRead_keeps (s : State) : KeepsBut [.regs] s (doSlotRead s) := by
  rw [doSlotRead_eq]
  have hw : KeepsBut [.regs] s (slotWords s (getSlot s (slotIdx s))) :=
    (wr_keeps _ _ _).trans ((wr_keeps _ _ _).trans ((wr_keeps _ _ _).trans (wr_keeps _ _ _)))
  exact hw.trans (foldl_wr_keeps _ _ _ _)

variable (hrun : hcSt s ≠ 3)
include hrun

theorem slotRead_shows : ∃ t, exec .slotRead s = .next t ∧ rd t Reg.truSCfg = (getSlot s (slotIdx s)).cfg ∧
    rd t Reg.truSLen = (getSlot s (slotIdx s)).len ∧ rd t Reg.truSOfs = (getSlot s (slotIdx s)).ofs ∧
    rd t Reg.truSTofs = (getSlot s (slotIdx s)).tofs ∧
    (∀ j, j < 128 → rd t (Reg.truTemplate j) = templateWord (getSlot s (slotIdx s)) j) ∧ KeepsBut [.regs] s t := by
  have eq : exec .slotRead s = .next (live s doSlotRead) := rfl
  obtain ⟨hcfg, hlen, hofs, htofs⟩ := rd_slotWords (s := s) (getSlot s (slotIdx s))
  rw [eq, live_of_running _ hrun]
  exact ⟨_, rfl, (doSlotRead_words s (by decide)).trans hcfg, (doSlotRead_words s (by decide)).trans hlen,
    (doSlotRead_words s (by decide)).trans hofs, (doSlotRead_words s (by decide)).trans htofs,
    fun j hj => doSlotRead_template s hj, doSlotRead_keeps s⟩

end

/-- What a slot write stores. -/
def slotStored (s : State) (x : TSlot) : TSlot :=
  { x with cfg := rd s Reg.truSCfg, len := rd s Reg.truSLen, ofs := rd s Reg.truSOfs, tofs := rd s Reg.truSTofs,
           template := (stagedTemplate s).take (rf s Reg.truSLen 8 0), st := 1,
           nextOwner := if fld (rd s Reg.truSCfg) 15 10 = x.owner then none else some (fld (rd s Reg.truSCfg) 15 10) }

/-- A slot changed with the configuration record noted: the other slots stay. -/
theorem cfgDirty_modSlot (s : State) (i : Nat) (f : TSlot → TSlot) : getSlot (cfgDirty (modSlot s i f)) i = f (getSlot s i) ∧
    (∀ j, j ≠ i → getSlot (cfgDirty (modSlot s i f)) j = getSlot s j) ∧ rb (cfgDirty (modSlot s i f)) Reg.hifStatus 16 = true ∧
    KeepsBut [.regs, .tru] s (cfgDirty (modSlot s i f)) := by
  have hg (j : Nat) : getSlot (cfgDirty (modSlot s i f)) j = getSlot (modSlot s i f) j := rfl
  refine ⟨by rw [hg, getSlot_modSlot_self], fun j hj => by rw [hg, getSlot_modSlot, if_neg (Ne.symm hj)],
    rb_wb_self _ _ _ (by decide), ?_⟩
  exact ((modSlot_frame (ps := [.tru]) (n := 0) i f).keepsBut).trans ((wr_keeps _ _ _).mono (by decide))

section
variable {s : State} (hrun : hcSt s ≠ 3)
include hrun

theorem slotWrite_stores (hv : rb s Reg.truSCfg 24 = true) (hg : slotGood s = true) :
    exec .slotWrite s = .next (cfgDirty (modSlot s (slotIdx s) (slotStored s))) := by
  have eq : exec .slotWrite s = .next (live s doSlotWrite) := rfl
  rw [rb] at hv
  rw [eq, live_of_running _ hrun, doSlotWrite]
  simp only [hv, hg]
  rfl

theorem slotWrite_refused (hv : rb s Reg.truSCfg 24 = true) (hg : slotGood s = false) :
    exec .slotWrite s = .next (raise s Reg.truIrq 5) := by
  have eq : exec .slotWrite s = .next (live s doSlotWrite) := rfl
  rw [rb] at hv
  rw [eq, live_of_running _ hrun, doSlotWrite]
  simp only [hv, hg]
  rfl

theorem slotClear_empties (hf : slotFree s (slotIdx s) = true) :
    exec .slotClear s = .next (cfgDirty (modSlot s (slotIdx s) (fun _ => .reset))) := by
  have eq : exec .slotClear s = .next (live s doSlotClear) := rfl
  rw [eq, live_of_running _ hrun, doSlotClear, if_pos hf]

theorem slotClear_refused (hf : slotFree s (slotIdx s) = false) : exec .slotClear s = .next (raise s Reg.truIrq 5) := by
  have eq : exec .slotClear s = .next (live s doSlotClear) := rfl
  rw [eq, live_of_running _ hrun, doSlotClear, hf]
  rfl

theorem truCtrlWrite_stores (v : Word) : ∃ t, exec (.truCtrlWrite v) s = .next t ∧ rd t Reg.truCtrl = v &&& 1 ∧
    KeepsBut [.regs, .recorder, .arb, .out] s t := by
  have eq : exec (.truCtrlWrite v) s = .next (live s (doTruCtrlWrite v)) := rfl
  obtain ⟨hrd, -, hk⟩ := wrp_spec (off := Reg.truCtrl) s (v &&& 1) (by decide)
  rw [eq, live_of_running _ hrun]
  exact ⟨_, rfl, hrd, hk.mono (by decide)⟩

theorem truRetxWrite_stores {v : Word} (hr : ¬ (fld v 9 0 = 0 ∨ fld v 25 16 = 0 ∨ 1000 < fld v 25 16)) :
    ∃ t, exec (.truRetxWrite v) s = .next t ∧ rd t Reg.truRetx = v &&& 0x3FF03FF ∧ KeepsBut [.regs, .recorder, .arb, .out] s t := by
  have eq : exec (.truRetxWrite v) s = .next (live s (doTruRetxWrite v)) := rfl
  obtain ⟨hrd, -, hk⟩ := wrp_spec (off := Reg.truRetx) s (v &&& 0x3FF03FF) (by decide)
  rw [eq, live_of_running _ hrun, doTruRetxWrite, if_neg hr]
  exact ⟨_, rfl, hrd, hk.mono (by decide)⟩

theorem truRetxWrite_refused {v : Word} (hr : fld v 9 0 = 0 ∨ fld v 25 16 = 0 ∨ 1000 < fld v 25 16) :
    exec (.truRetxWrite v) s = .next (raise s Reg.truIrq 5) := by
  have eq : exec (.truRetxWrite v) s = .next (live s (doTruRetxWrite v)) := rfl
  rw [eq, live_of_running _ hrun, doTruRetxWrite, if_pos hr]
  rfl

end

/-- Settles O28: each command's outcome is the case lemma of its own condition; a release is `release` after the request or the hold
has been taken, which leaves slots, publications and ports. -/
theorem tripReleaseUnitCommands : Obligations.TripReleaseUnitCommands := by
  unfold Obligations.TripReleaseUnitCommands
  intro s tm v
  refine ⟨fun hrun => ⟨fun r rest h => ⟨?_, releaseRequest_stale tm hrun h, releaseRequest_held tm hrun h,
      releaseRequest_rejected tm hrun h⟩, fun r rest h => ⟨?_, ?_, vbaHoldEnd_stale tm hrun h, vbaHoldEnd_early tm hrun h⟩, ?_⟩,
    fun hrun => ⟨slotRead_shows hrun, fun hv hg => ?_, slotWrite_refused hrun, fun hf => ?_, slotClear_refused hrun⟩,
    fun hrun => truCtrlWrite_stores hrun v, fun hrun h0 h1 hm => truRetxWrite_stores hrun (by omega),
    fun hrun hr => truRetxWrite_refused hrun hr⟩
  · intro hg h0 hon ho hst hm
    have hk : Frame [.now, .op, .hdl] 0 s (requestTaken s tm rest) := requestTaken_frame tm
    have hr := release_frame (requestTaken s tm rest) r.slot
    have hpub := release_pub (requestTaken s tm rest) r.slot
    refine ⟨_, releaseRequest_releases tm hrun h hg h0 hon ho hst, ?_, release_slot _ _, congrArg Pub.stNum hpub,
      congrArg Pub.sqNum hpub, congrArg Pub.hold hpub, release_counted _ _,
      fun p hp hu => release_trips (requestTaken s tm rest) _ hm hp hu, hk.keepsBut.trans hr.keepsBut⟩
    rw [hr.hdl_eq]
    rfl
  · intro hd hg hv hp hon ho hst
    have hk : Frame [.now, .op, .hdl] 0 s (holdTaken s tm rest) := holdTaken_frame tm
    have hr := release_frame (holdTaken s tm rest) r.slot
    refine ⟨_, vbaHoldEnd_releases tm hrun h hd hg hv hp hon ho hst, ?_, release_slot _ _, hk.keepsBut.trans hr.keepsBut⟩
    rw [hr.hdl_eq]
    rfl
  · intro hd hg hv
    exact vbaHoldEnd_drops tm hrun h hd hg hv
  · intro p i hi hon hm hd
    obtain ⟨t, eq, hp, hs, hk⟩ := retransmission_spec hrun hi hon hm hd
    exact ⟨t, eq, by rw [hp]; rfl, by rw [hp]; rfl, by rw [hp]; exact hi, by rw [hp]; rfl, hs, hk⟩
  · obtain ⟨hs, ho, hb, hk⟩ := cfgDirty_modSlot s (slotIdx s) (slotStored s)
    exact ⟨_, slotWrite_stores hrun hv hg, by rw [hs]; rfl, by rw [hs]; rfl, by rw [hs]; rfl, by rw [hs]; rfl, ho, hb, hk⟩
  · obtain ⟨hs, ho, hb, hk⟩ := cfgDirty_modSlot s (slotIdx s) (fun _ => .reset)
    exact ⟨_, slotClear_empties hrun hf, hs, ho, hb, hk⟩

end Sys2Proof.Machine
end

section
/-! PROOFS: the phases of a tick (O36). -/

namespace Sys2Proof.Machine
set_option Elab.async false

/-! ## Frames of shared operations -/

/-- The Commit Unit's window: a change of a tenant's state writes no register below it. -/
abbrev commitBase : Nat := Reg.cmtCfg

section
variable {ps : List Part} {n : Nat} {s : State}

theorem modArb_frame (k : Nat) (f : Arb → Arb) (hp : .arb ∈ ps := by decide) : Frame ps n s (modArb s k f) :=
  .of_part hp (fun q _ => by cases q <;> simp_all [Part.same, modArb]) rfl rfl
theorem arb_frame (x : Tab Arb) (hp : .arb ∈ ps := by decide) : Frame ps n s { s with arb := x } :=
  .of_part hp (fun q _ => by cases q <;> simp_all [Part.same]) rfl rfl
theorem setCore_frame (l : Fin 64) (x : Core) (hp : .core ∈ ps := by decide) : Frame ps n s (setCore s l x) :=
  .of_part hp (fun q _ => by cases q <;> simp_all [Part.same]) rfl rfl
theorem drawLe_frame (m : Nat) (hp : .freeCtr ∈ ps := by decide) : Frame ps n s (drawLe s m).2 :=
  .of_part hp (fun q _ => by cases q <;> simp_all [Part.same, drawLe]) rfl rfl
theorem request_frame (k : Nat) (r : ArbReq) (hp : .arb ∈ ps := by decide) : Frame ps n s (request s k r) := modArb_frame k _ hp

theorem cmtTState_commit (t : Fin 64) : commitBase ≤ Reg.cmtTState t := by unfold commitBase Reg.cmtCfg Reg.cmtTState; omega
theorem vfState_commit (t : Fin 64) : commitBase ≤ Reg.vfState t := by unfold commitBase Reg.cmtCfg Reg.vfState; omega

/-- A change of a tenant's state changes registers and the log alone. -/
theorem setTState_logFrame (s : State) (t : Fin 64) (st : Nat) : Frame logParts commitBase s (setTState s t st) := by
  unfold setTState
  refine .trans ?_ ((logRec_frame _ _ _ _ _ _).mono (by decide) (by decide))
  refine .trans ?_ (raiseVf_frame _ _ (by decide))
  refine .trans ?_ (.ite (fun _ => wb_frame _ _ (by decide)) (fun _ => .refl))
  refine .trans ?_ (.ite (fun _ => raise_frame _ (by decide)) (fun _ => .ite (fun _ => raise_frame _ (by decide)) (fun _ => .refl)))
  refine .trans ?_ (wb_frame _ _ (by split <;> decide))
  exact (wf_frame _ _ _ (cmtTState_commit t)).trans (wf_frame _ _ _ (vfState_commit t))

end

theorem rd_raiseVf_ne {s : State} {off : Nat} (v : Fin 64) (bit : Nat) (h : Reg.vfIrq v ≠ off) : rd (raiseVf s v bit) off = rd s off := by
  unfold raiseVf
  dsimp only
  split <;> exact rd_wr_ne s _ h

/-- A change of a tenant's state leaves its CMT_T_STATE but for the field of the state. -/
theorem setTState_rd (s : State) (t : Fin 64) (st : Nat) :
    rd (setTState s t st) (Reg.cmtTState t) = setFld (rd s (Reg.cmtTState t)) 2 0 st := by
  have hlt : Reg.cmtTState t < counterBase := by unfold Reg.cmtTState counterBase Reg.panOptime; omega
  have miss {off : Nat} (h : off < 0xa01000 ∨ 0xa02010 ≤ off) : off ≠ Reg.cmtTState t := by unfold Reg.cmtTState; omega
  have hvf : Reg.vfState t ≠ Reg.cmtTState t := miss (by unfold Reg.vfState; omega)
  have hirq : Reg.vfIrq t ≠ Reg.cmtTState t := miss (by unfold Reg.vfIrq; omega)
  have hf : (if t.val < 32 then Reg.cmtFaulted0 else Reg.cmtFaulted1) ≠ Reg.cmtTState t := miss (by split <;> decide)
  have raised {u : State} : rd (if st = 5 then raise u Reg.cmtIrq 0 else if st = 6 then raise u Reg.cmtIrq 5 else u) (Reg.cmtTState t) =
      rd u (Reg.cmtTState t) := by
    split
    · exact rd_raise_ne _ _ (miss (by decide))
    · split
      · exact rd_raise_ne _ _ (miss (by decide))
      · rfl
  have noted {c : Prop} [Decidable c] {u : State} : rd (if c then cfgDirty u else u) (Reg.cmtTState t) = rd u (Reg.cmtTState t) := by
    split
    · exact rd_wb_ne _ _ _ (miss (by decide))
    · rfl
  unfold setTState
  rw [(logRec_frame _ _ _ _ _ _).rd _ hlt, rd_raiseVf_ne _ _ hirq, noted, raised, rd_wb_ne _ _ _ hf, wf, rd_wr_ne _ _ hvf, wf, rd_wr_self]

theorem setTState_tState (s : State) (t : Fin 64) (st : Nat) : tState (setTState s t st) t = st % 8 := by
  rw [tState, rf, setTState_rd, fld_setFld _ _ (by decide) (by decide)]
  rfl

/-- A field keeps its value when another one that it does not meet is stored. -/
theorem fld_setFld_ne (w : Word) {hi lo a b : Nat} (x : Nat) (hlo : lo ≤ hi) (hb : b ≤ a) (h : hi < b ∨ a < lo) :
    fld (setFld w hi lo x) a b = fld w a b := by
  refine Nat.eq_of_testBit_eq fun i => ?_
  simp only [fld, Nat.testBit_mod_two_pow, Nat.testBit_shiftRight]
  by_cases hi' : i < a - b + 1
  · have hm : ((2 ^ (hi - lo + 1) - 1) <<< lo).testBit (b + i) = false := by
      rw [Nat.testBit_shiftLeft, Nat.testBit_two_pow_sub_one]
      simp only [Bool.and_eq_false_iff, decide_eq_false_iff_not]
      omega
    have room : w.getLsbD (b + i) = true → b + i < 32 := BitVec.lt_of_getLsbD
    have key : (setFld w hi lo x).getLsbD (b + i) = w.getLsbD (b + i) := by
      simp only [setFld, BitVec.getLsbD_or, BitVec.getLsbD_and, BitVec.getLsbD_not, BitVec.getLsbD_ofNat, Nat.testBit_and, hm]
      cases hw : w.getLsbD (b + i) <;> simp_all
    rw [BitVec.testBit_toNat, BitVec.testBit_toNat, key]
  · simp [hi']

/-! ## A core traps (R130 to R132) -/

/-- A trap's record, interrupt and log record. -/
def trapLogged (s : State) (l : Fin 64) (cause : Nat) (addr : Word) : State :=
  let c := l.val / 8
  let p := physOf s l
  let t := coreOwner s l
  let s := wr (wr s (Reg.arrKTrap c p) (W cause ||| oneBit 31)) (Reg.arrKTrappc c p) (getCore s l).pc
  let s := if cause = 2 ∨ cause = 3 then wr s (Reg.arrKTrapaddr c p) addr else s
  let s := raise s (Reg.arrCIrq c) 0
  logRec s (Reg.arrCIrq c) 3 1 0 [t, l, cause, (getCore s l).pc.toNat, addr.toNat]

/-- A core of a tenant that has trapped: it issues nothing after a cycle. -/
def haltedAfter (last : Nat) (k : Core) : Core :=
  let h := match k.haltAt with | some h => min h last | none => last
  { k with entries := [], haltAt := some h, run := if k.run = .running ∧ h < k.cyc then .stopped else k.run }

/-- The cores of a trap's tenant, halted, and the core that trapped, stopped. -/
def coresHalted (s : State) (l : Fin 64) (t last : Nat) : State :=
  modCore ((coresOf s t).foldl (fun s k => modCore s k (haltedAfter last)) s) l (fun k => { k with run := .stopped })

/-- The tenant of a trap: its fallback is due and it enters Faulted. -/
def tenantTrapped (s : State) (t k : Nat) : State :=
  let s := modTen s (ten t) (fun x => { x with trapped := true, fallbackDue := true, trapCores := k :: x.trapCores })
  let s := wf s (Reg.cmtTState t) 10 8 1
  if tActive s (ten t) then setTState s (ten t) 5 else s

section
variable (s : State) (l : Fin 64) (cause : Nat) (addr : Word)

theorem trap_eq : trap s l cause addr =
    let u := drawLe (trapLogged s l cause addr) 16
    let v := coresHalted u.2 l (coreOwner s l) ((getCore u.2 l).cyc + u.1)
    if coreOwner s l = 0 then v else tenantTrapped v (coreOwner s l) (9 * (l.val / 8) + physOf s l) := rfl

theorem arrK_below (c p off : Nat) (hc : c < 8) (hp : p < 16) (h : commitBase ≤ off) :
    Reg.arrKTrap c p ≠ off ∧ Reg.arrKTrappc c p ≠ off ∧ Reg.arrKTrapaddr c p ≠ off ∧ Reg.arrCIrq c ≠ off := by
  unfold Reg.arrKTrap Reg.arrKTrappc Reg.arrKTrapaddr Reg.arrCIrq
  unfold commitBase Reg.cmtCfg at h
  omega

theorem arrK_above (c p : Nat) : arrayBase ≤ Reg.arrKTrap c p ∧ arrayBase ≤ Reg.arrKTrappc c p ∧ arrayBase ≤ Reg.arrKTrapaddr c p ∧
    arrayBase ≤ Reg.arrCIrq c := by
  unfold arrayBase Reg.arrCCtrl Reg.arrKTrap Reg.arrKTrappc Reg.arrKTrapaddr Reg.arrCIrq
  omega

theorem physOf_lt : physOf s l < 16 := by
  have hw : 4 * (l.val % 8) + 3 - 4 * (l.val % 8) + 1 = 4 := by omega
  rw [physOf, rf, fld, hw]
  exact Nat.mod_lt _ (by decide)

/-- The registers a trap writes before its tenant's state: the core's record, the cluster's interrupt and the log. -/
theorem trapLogged_rd {off : Nat} (h : commitBase ≤ off) (ho : off < counterBase) : rd (trapLogged s l cause addr) off = rd s off := by
  obtain ⟨h1, h2, h3, h4⟩ := arrK_below (l.val / 8) (physOf s l) off (by omega) (physOf_lt s l) h
  unfold trapLogged
  rw [(logRec_frame _ _ _ _ _ _).rd _ ho, rd_raise_ne _ _ h4]
  split
  · rw [rd_wr_ne _ _ h3, rd_wr_ne _ _ h2, rd_wr_ne _ _ h1]
  · rw [rd_wr_ne _ _ h2, rd_wr_ne _ _ h1]

theorem trapLogged_record : rd (trapLogged s l cause addr) (Reg.arrKTrap (l.val / 8) (physOf s l)) = W cause ||| oneBit 31 := by
  have hp := physOf_lt s l
  have ho : Reg.arrKTrap (l.val / 8) (physOf s l) < counterBase := by unfold Reg.arrKTrap counterBase Reg.panOptime; omega
  have h2 : Reg.arrKTrappc (l.val / 8) (physOf s l) ≠ Reg.arrKTrap (l.val / 8) (physOf s l) := by
    unfold Reg.arrKTrap Reg.arrKTrappc; omega
  have h3 : Reg.arrKTrapaddr (l.val / 8) (physOf s l) ≠ Reg.arrKTrap (l.val / 8) (physOf s l) := by
    unfold Reg.arrKTrap Reg.arrKTrapaddr; omega
  have h4 : Reg.arrCIrq (l.val / 8) ≠ Reg.arrKTrap (l.val / 8) (physOf s l) := by unfold Reg.arrKTrap Reg.arrCIrq; omega
  unfold trapLogged
  rw [(logRec_frame _ _ _ _ _ _).rd _ ho, rd_raise_ne _ _ h4]
  split
  · rw [rd_wr_ne _ _ h3, rd_wr_ne _ _ h2, rd_wr_self]
  · rw [rd_wr_ne _ _ h2, rd_wr_self]

theorem trapLogged_frame : Frame logParts arrayBase s (trapLogged s l cause addr) := by
  obtain ⟨hrec, hpc, haddr, hirq⟩ := arrK_above (l.val / 8) (physOf s l)
  unfold trapLogged
  refine .trans ?_ ((logRec_frame _ _ _ _ _ _).mono (by decide) (by decide))
  refine .trans ?_ (raise_frame 0 hirq)
  have hrecorded : Frame logParts arrayBase s (wr (wr s (Reg.arrKTrap (l.val / 8) (physOf s l)) (W cause ||| oneBit 31))
      (Reg.arrKTrappc (l.val / 8) (physOf s l)) (getCore s l).pc) := (wr_frame _ hrec).trans (wr_frame _ hpc)
  exact .ite (fun _ => hrecorded.trans (wr_frame addr haddr)) (fun _ => hrecorded)

end

section
variable {s : State} {P : Core → Prop} {f : Core → Core} {j : Fin 64}

/-- What an update establishes of each core it visits holds after the visits. -/
theorem foldl_modCore_forall (hf : ∀ k, P (f k)) (ls : List (Fin 64)) (h : j ∈ ls ∨ P (getCore s j)) :
    P (getCore (ls.foldl (fun s k => modCore s k f) s) j) := by
  induction ls generalizing s with
  | nil => exact h.resolve_left (by simp)
  | cons k ls ih =>
    refine ih (s := modCore s k f) ?_
    rw [modCore, getCore_setCore]
    split
    · exact .inr (hf _)
    · exact h.imp_left (fun hj => (List.mem_cons.mp hj).resolve_left (by tauto))

/-- A core halted by a trap has nothing staged and issues nothing after `last`. -/
def HaltsBy (last : Nat) (k : Core) : Prop := k.entries = [] ∧ ∃ h, k.haltAt = some h ∧ h ≤ last

theorem haltedAfter_haltsBy (last : Nat) (k : Core) : HaltsBy last (haltedAfter last k) := by
  refine ⟨rfl, ?_⟩
  unfold haltedAfter
  split
  · exact ⟨_, rfl, Nat.min_le_right _ _⟩
  · exact ⟨_, rfl, le_rfl⟩

end

section
variable (s : State) (l : Fin 64) (t last : Nat)

theorem coresHalted_frame {n : Nat} : Frame [.core] n s (coresHalted s l t last) :=
  (Frame.foldl (fun u k => modCore_frame k _) _ s).trans (modCore_frame l _)

theorem coresHalted_stops : (getCore (coresHalted s l t last) l).run = .stopped := by
  rw [coresHalted, modCore, getCore_setCore, if_pos rfl]

theorem coresHalted_haltsBy {k : Fin 64} (hk : k ∈ coresOf s t) : HaltsBy last (getCore (coresHalted s l t last) k) := by
  have h := foldl_modCore_forall (s := s) (haltedAfter_haltsBy last) (coresOf s t) (.inl hk)
  rw [coresHalted, modCore, getCore_setCore]
  split
  · subst_vars; exact h
  · exact h

/-- The parts that the tenant of a trap can change. -/
abbrev tenantParts : List Part := .ten :: logParts

variable (k : Nat)

theorem tenantTrapped_frame (ht : t < 64) : Frame tenantParts commitBase s (tenantTrapped s t k) := by
  have hc : commitBase ≤ Reg.cmtTState t := by unfold commitBase Reg.cmtCfg Reg.cmtTState; omega
  unfold tenantTrapped
  exact ((modTen_frame _ _).trans (wf_frame 10 8 1 hc)).trans
    (.ite (fun _ => (setTState_logFrame _ _ 5).widen) (fun _ => .refl))

theorem tenantTrapped_state {t : Nat} (ht : t < 64) (ha : tActive s (ten t) = true) : tState (tenantTrapped s t k) (ten t) = 5 := by
  have hv : (ten t).val = t := Nat.mod_eq_of_lt ht
  have hact : tActive (wf (modTen s (ten t) (fun x => { x with trapped := true, fallbackDue := true, trapCores := k :: x.trapCores }))
      (Reg.cmtTState t) 10 8 1) (ten t) = true := by
    have hlow (w : Word) : fld (setFld w 10 8 1) 2 0 = fld w 2 0 := fld_setFld_ne w 1 (by decide) (by decide) (.inr (by decide))
    rw [tActive, tState, rf, hv, wf, rd_wr_self, hlow]
    rw [tActive, tState, rf, hv] at ha
    exact ha
  unfold tenantTrapped
  rw [if_pos hact, setTState_tState]

theorem tenantTrapped_due {t : Nat} : (getTen (tenantTrapped s t k) (ten t)).fallbackDue = true := by
  have hk {u : State} : getTen (if tActive u (ten t) then setTState u (ten t) 5 else u) (ten t) = getTen u (ten t) := by
    split
    · rw [getTen, (setTState_logFrame _ _ 5).ten_eq, getTen]
    · rfl
  unfold tenantTrapped
  rw [hk]
  exact congrArg Tenant.fallbackDue (getTen_setTen_self ..)

end

/-! ## The watchdog (R130 to R132) -/

section
variable {s t : State}

theorem coreOwner_congr (h : ∀ off, commitBase ≤ off → off < counterBase → rd t off = rd s off) (l : Fin 64) :
    coreOwner t l = coreOwner s l := by
  rw [coreOwner, ownByte, rf, h _ (by unfold Reg.hifOwnCore commitBase Reg.cmtCfg; omega)
    (by unfold Reg.hifOwnCore counterBase Reg.panOptime; omega)]
  rfl

theorem coresOf_congr (h : ∀ off, commitBase ≤ off → off < counterBase → rd t off = rd s off) (n : Nat) : coresOf t n = coresOf s n := by
  rw [coresOf, coresOf]
  exact List.filter_congr fun l _ => by rw [coreOwner_congr h]

theorem coreOwner_lt (s : State) (l : Fin 64) : coreOwner s l < 64 := by
  have hw : 8 * (l.val % 4) + 5 - 8 * (l.val % 4) + 1 = 6 := by omega
  rw [coreOwner, ownByte, rf, fld, hw]
  exact Nat.mod_lt _ (by decide)

theorem tActive_congr {f : Fin 64} (h : rd t (Reg.cmtTState f) = rd s (Reg.cmtTState f)) : tActive t f = tActive s f := by
  rw [tActive, tState, rf, h, tActive, tState, rf]

end

/-- The parts that a trap can change. -/
abbrev trapParts : List Part := [.regs, .core, .ten, .recorder, .arb, .out, .freeCtr]

section
variable (s : State) (l : Fin 64) (cause : Nat) (addr : Word)

/-- A trap before its tenant's change of state: the record is written and the tenant's cores are halted. -/
def trapHalted (s : State) (l : Fin 64) (cause : Nat) (addr : Word) : State :=
  let u := drawLe (trapLogged s l cause addr) 16
  coresHalted u.2 l (coreOwner s l) ((getCore u.2 l).cyc + u.1)

theorem trap_cases : trap s l cause addr = if coreOwner s l = 0 then trapHalted s l cause addr
    else tenantTrapped (trapHalted s l cause addr) (coreOwner s l) (9 * (l.val / 8) + physOf s l) := trap_eq ..

theorem trapHalted_frame : Frame trapParts 0 s (trapHalted s l cause addr) :=
  ((trapLogged_frame s l cause addr).widen.trans (drawLe_frame 16)).andThen (coresHalted_frame _ l _ _ (n := 0))

theorem trapHalted_rd (off : Nat) : rd (trapHalted s l cause addr) off = rd (trapLogged s l cause addr) off := by
  have h : Frame [.core, .freeCtr] (off + 1) (trapLogged s l cause addr) (trapHalted s l cause addr) :=
    (drawLe_frame 16).andThen (coresHalted_frame _ l _ _) (hn := le_rfl)
  exact h.rd off (Nat.lt_succ_self _)

theorem trapHalted_stops : (getCore (trapHalted s l cause addr) l).run = .stopped := coresHalted_stops ..

theorem trapHalted_haltsBy {k : Fin 64} (hk : k ∈ coresOf s (coreOwner s l)) :
    HaltsBy ((getCore s l).cyc + 16) (getCore (trapHalted s l cause addr) k) := by
  have hw : Frame (.freeCtr :: logParts) arrayBase s (drawLe (trapLogged s l cause addr) 16).2 :=
    (trapLogged_frame s l cause addr).widen.trans (drawLe_frame 16)
  have hu : getCore (drawLe (trapLogged s l cause addr) 16).2 l = getCore s l := by rw [getCore, hw.core_eq, getCore]
  have hx : (drawLe (trapLogged s l cause addr) 16).1 ≤ 16 := Nat.le_of_lt_succ (Nat.mod_lt _ (by decide))
  have hc : k ∈ coresOf (drawLe (trapLogged s l cause addr) 16).2 (coreOwner s l) := by
    rwa [coresOf_congr (s := s) (t := (drawLe (trapLogged s l cause addr) 16).2) (fun off h ho => trapLogged_rd s l cause addr h ho)]
  obtain ⟨he, h, hh, hle⟩ := coresHalted_haltsBy _ l _ ((getCore (drawLe (trapLogged s l cause addr) 16).2 l).cyc +
    (drawLe (trapLogged s l cause addr) 16).1) hc
  exact ⟨he, h, hh, hle.trans (by rw [hu]; omega)⟩

theorem trapHalted_active : tActive (trapHalted s l cause addr) (ten (coreOwner s l)) = tActive s (ten (coreOwner s l)) :=
  tActive_congr ((trapHalted_rd ..).trans (trapLogged_rd _ _ _ _ (cmtTState_commit _)
    (by unfold Reg.cmtTState counterBase Reg.panOptime; omega)))

theorem trap_frame : Frame trapParts 0 s (trap s l cause addr) := by
  rw [trap_cases]
  exact .ite (fun _ => trapHalted_frame ..) (fun _ => (trapHalted_frame ..).andThen
    ((tenantTrapped_frame _ _ _ (coreOwner_lt s l)).widen (hn := Nat.zero_le _) (ps := trapParts)))

/-- From a trap's halted cores on, only the tenant and the log change. -/
theorem trap_from_halted : Frame tenantParts commitBase (trapHalted s l cause addr) (trap s l cause addr) := by
  rw [trap_cases]
  exact .ite (fun _ => .refl) (fun _ => tenantTrapped_frame _ _ _ (coreOwner_lt s l))

theorem trap_core (k : Fin 64) : getCore (trap s l cause addr) k = getCore (trapHalted s l cause addr) k := by
  rw [getCore, (trap_from_halted s l cause addr).core_eq, getCore]

theorem trap_record : rd (trap s l cause addr) (Reg.arrKTrap (l.val / 8) (physOf s l)) = W cause ||| oneBit 31 := by
  have hp := physOf_lt s l
  rw [(trap_from_halted s l cause addr).rd _ (by unfold Reg.arrKTrap commitBase Reg.cmtCfg; omega), trapHalted_rd, trapLogged_record]

theorem trap_tenant (h0 : coreOwner s l ≠ 0) (ha : tActive s (ten (coreOwner s l)) = true) :
    tState (trap s l cause addr) (ten (coreOwner s l)) = 5 ∧ (getTen (trap s l cause addr) (ten (coreOwner s l))).fallbackDue = true := by
  rw [trap_cases, if_neg h0]
  exact ⟨tenantTrapped_state _ _ (coreOwner_lt s l) (by rw [trapHalted_active, ha]), tenantTrapped_due _ _⟩

end

/-- A core whose next issue slot is at a cycle. -/
def atCycle (s : State) (l : Fin 64) (w : Nat) : State := setCore s l { getCore s l with cyc := w }

section
variable {s : State} {l : Fin 64} {w : Nat} (hw : watchdogEnd s l = some w)
include hw

theorem watchdog_early (hd : max (getCore s l).cyc ((s.now - s.time.edge) / mainCycle) < w) : exec (.watchdog l) s = .next s := by
  have eq : exec (.watchdog l) s = .next (doWatchdog l s) := rfl
  rw [eq, doWatchdog]
  simp only [hw, Nat.not_le.mpr hd, and_false, if_false]

variable (hr : (getCore s l).run = .running)
include hr

theorem watchdog_runsOut (hd : w ≤ max (getCore s l).cyc ((s.now - s.time.edge) / mainCycle)) :
    exec (.watchdog l) s = .next (watchdogTrap s l w) := by
  have eq : exec (.watchdog l) s = .next (doWatchdog l s) := rfl
  rw [eq, doWatchdog]
  simp only [hw, hr, hd, and_self, if_true]

theorem watchdog_halted {h : Nat} (hd : w ≤ max (getCore s l).cyc ((s.now - s.time.edge) / mainCycle))
    (hh : (getCore s l).haltAt = some h) (hl : h < w) :
    exec (.watchdog l) s = .next (setCore s l { getCore s l with run := .stopped }) := by
  have halt : halted (getCore s l) w = true := by rw [halted, hh]; exact decide_eq_true hl
  rw [watchdog_runsOut hw hr hd, watchdogTrap]
  simp only [halt, if_true]

theorem watchdog_traps (hd : w ≤ max (getCore s l).cyc ((s.now - s.time.edge) / mainCycle)) (hh : (getCore s l).haltAt = none) :
    ∃ t, exec (.watchdog l) s = .next t ∧ (getCore t l).run = .stopped ∧ rd t (Reg.arrKTrap (l / 8) (physOf s l)) = 0x80000004 ∧
      (∀ k, k ∈ coresOf s (coreOwner s l) → (getCore t k).entries = [] ∧ ∃ h, (getCore t k).haltAt = some h ∧ h ≤ w + 16) ∧
      (coreOwner s l ≠ 0 → tActive s (ten (coreOwner s l)) = true → tState t (ten (coreOwner s l)) = 5 ∧
        (getTen t (ten (coreOwner s l))).fallbackDue = true) ∧ KeepsBut trapParts s t := by
  have eq : watchdogTrap s l w = trap (atCycle s l w) l 4 0 := by
    rw [watchdogTrap]
    simp [halted, hh, atCycle]
  have hcyc : (getCore (atCycle s l w) l).cyc = w := by rw [atCycle, getCore_setCore_self]
  have hrec : rd (trap (atCycle s l w) l 4 0) (Reg.arrKTrap (l / 8) (physOf s l)) = W 4 ||| oneBit 31 := trap_record (atCycle s l w) l 4 0
  refine ⟨trap (atCycle s l w) l 4 0, by rw [watchdog_runsOut hw hr hd, eq], ?_, hrec.trans (by decide), fun k hk => ?_,
    trap_tenant (atCycle s l w) l 4 0, ?_⟩
  · rw [trap_core, trapHalted_stops]
  · have h := trapHalted_haltsBy (atCycle s l w) l 4 0 hk
    rwa [hcyc, ← trap_core] at h
  · exact ((setCore_frame (ps := trapParts) (n := 0) l _).trans (trap_frame _ l 4 0)).keeps

end

end Sys2Proof.Machine
end

section
/-! PROOFS: the program window (O36). -/

namespace Sys2Proof.Machine
set_option Elab.async false

/-! ## The program window opens (R111, R130, R186, R341) -/

section
variable {σ ι α : Type} {f : σ → ι → σ} {Inv : σ → Prop} {g : σ → α} {i : ι}

/-- A fold over distinct indices, seen from what only index i changes: it is as the step of i leaves it. -/
theorem foldl_at (inv : ∀ u j, Inv u → Inv (f u j)) (other : ∀ u j, Inv u → j ≠ i → g (f u j) = g u) {l : List ι} (hl : l.Nodup)
    (hi : i ∈ l) {s : σ} (hs : Inv s) : ∃ u, Inv u ∧ g u = g s ∧ g (l.foldl f s) = g (f u i) := by
  have rest : ∀ (l : List ι) (u : σ), i ∉ l → Inv u → g (l.foldl f u) = g u := by
    intro l
    induction l with
    | nil => exact fun _ _ _ => rfl
    | cons j l ih =>
      intro u hn hu
      obtain ⟨hj, hl⟩ := not_or.mp (List.mem_cons.not.mp hn)
      rw [List.foldl_cons, ih _ hl (inv u j hu), other u j hu (Ne.symm hj)]
  induction l generalizing s with
  | nil => simp at hi
  | cons j l ih =>
    obtain ⟨hn, hd⟩ := List.nodup_cons.mp hl
    by_cases hj : i = j
    · subst hj
      exact ⟨s, hs, rfl, rest l _ hn (inv s i hs)⟩
    · obtain ⟨u, hu, h1, h2⟩ := ih hd ((List.mem_cons.mp hi).resolve_left hj) (inv s j hs)
      exact ⟨u, hu, h1.trans (other s j hs (Ne.symm hj)), h2⟩

theorem each_at {n : Nat} {f : Fin n → σ → σ} {i : Fin n} (inv : ∀ u j, Inv u → Inv (f j u))
    (other : ∀ u j, Inv u → j ≠ i → g (f j u) = g u) {s : σ} (hs : Inv s) : ∃ u, Inv u ∧ g u = g s ∧ g (each n f s) = g (f i u) :=
  foldl_at (f := fun s i => f i s) inv other (List.nodup_finRange n) (List.mem_finRange i) hs

theorem each_inv {n : Nat} {f : Fin n → σ → σ} (inv : ∀ u j, Inv u → Inv (f j u)) {s : σ} (hs : Inv s) : Inv (each n f s) :=
  List.foldlRecOn _ _ hs fun u hu i _ => inv u i hu

end

/-- A core opened by its tenant, if it is served. -/
def openServed (t : Fin 64) (s : State) (l : Fin 64) : State :=
  match coreImage s l with
  | some ci => if served s l then openCore s t l ci else s
  | none => s

/-- The cores of an active tenant opened. -/
def openTenant (t : Fin 64) (s : State) : State :=
  if t = 0 ∨ !tActive s t then s else (coresOf s t).foldl (openServed t) (modTen s t (fun x => { x with ran := true }))

/-- The wait counters of the physical cores start again. -/
def waitsCleared (s : State) : State := each 8 (fun c s => each 9 (fun p s => wr s (Reg.arrKSmwait c p) 0) s) s

/-- The cores of every active tenant opened. -/
def coresOpened (s : State) : State := each 64 openTenant (waitsCleared s)

/-- Nothing but cores, and whether a tenant has run, differs. -/
structure OpensFrom (s u : State) : Prop where
  keeps : KeepsBut [.core, .ten] s u
  ten : ∀ f, (getTen u f).image = (getTen s f).image ∧ (getTen u f).errorRun = (getTen s f).errorRun

/-- A core whose program window has opened. -/
structure Opened (err : Bool) (ci : CoreImage) (k k' : Core) : Prop where
  run : k'.run = .running
  cyc : k'.cyc = 4800
  stack : k'.ctx.rg 30 = 0x7C000
  pc : k'.pc = (if err then ci.errorEntry else ci.entry) &&& 0xFFFFFFFC
  halt : k'.haltAt = none
  mem : k'.mem = k.mem
  scr : k'.scr = []
  entries : k'.entries = []

namespace OpensFrom
variable {s u : State} (h : OpensFrom s u)
include h

theorem rd (off : Nat) : rd u off = Machine.rd s off := rd_congr (h.keeps .regs (by decide)) off
theorem owner (l : Fin 64) : coreOwner u l = coreOwner s l := coreOwner_congr (fun off _ _ => h.rd off) l
theorem cores (t : Nat) : coresOf u t = coresOf s t := coresOf_congr (fun off _ _ => h.rd off) t
theorem active (t : Fin 64) : tActive u t = tActive s t := tActive_congr (h.rd _)
theorem image (l : Fin 64) : coreImage u l = coreImage s l := by
  simp only [coreImage, coreIdx, h.owner, h.cores, (h.ten _).1]
theorem phys (l : Fin 64) : physOf u l = physOf s l := by rw [physOf, rf, h.rd, physOf, rf]

theorem modTen_ran (t : Fin 64) (b : Bool) : OpensFrom s (modTen u t (fun x => { x with ran := b })) where
  keeps := h.keeps.trans (modTen_frame (n := 0) (ps := [.core, .ten]) t _).keeps
  ten f := by
    rw [modTen, getTen_setTen]
    split
    · subst_vars; exact h.ten _
    · exact h.ten f

theorem setCore (l : Fin 64) (k : Core) : OpensFrom s (setCore u l k) :=
  ⟨h.keeps.trans (setCore_frame (n := 0) (ps := [.core, .ten]) l _).keeps, h.ten⟩

theorem openServed (t l : Fin 64) : OpensFrom s (openServed t u l) := by
  unfold Machine.openServed
  split
  · split
    · exact h.setCore l _
    · exact h
  · exact h

theorem openTenant (t : Fin 64) : OpensFrom s (openTenant t u) := by
  unfold Machine.openTenant
  split
  · exact h
  · exact List.foldlRecOn _ _ (h.modTen_ran t true) fun v hv l _ => hv.openServed t l

end OpensFrom

section
variable {s u : State} {t l : Fin 64}

theorem OpensFrom.refl : OpensFrom s s := ⟨fun p _ => by cases p <;> rfl, fun _ => ⟨rfl, rfl⟩⟩

theorem openServed_ten : (openServed t u l).ten = u.ten := by
  unfold openServed
  split
  · split <;> rfl
  · rfl

theorem openServed_other {j : Fin 64} (h : j ≠ l) : getCore (openServed t u j) l = getCore u l := by
  unfold openServed
  split
  · split
    · exact (getCore_setCore ..).trans (if_neg h)
    · rfl
  · rfl

theorem openServed_self {ci : CoreImage} (hi : coreImage u l = some ci) (hs : served u l = true) :
    Opened (getTen u t).errorRun ci (getCore u l) (getCore (openServed t u l) l) := by
  unfold openServed
  rw [hi]
  simp only [hs, if_true]
  rw [openCore, modCore, getCore_setCore_self]
  refine ⟨rfl, rfl, ?_, rfl, rfl, rfl, rfl, rfl⟩
  dsimp only
  split <;> rfl

theorem openTenant_other (h : coreOwner u l ≠ t.val) : getCore (openTenant t u) l = getCore u l := by
  unfold openTenant
  split
  · rfl
  · have hn : l ∉ coresOf u t := by simp [coresOf, h]
    refine List.foldlRecOn (motive := fun v => getCore v l = getCore u l) _ _ rfl fun v hv j hj => ?_
    have hne : j ≠ l := fun e => hn (e ▸ hj)
    exact (openServed_other hne).trans hv

theorem openTenant_self {ci : CoreImage} (h0 : t ≠ 0) (ho : coreOwner u l = t.val) (ha : tActive u t = true)
    (hi : coreImage u l = some ci) (hs : served u l = true) :
    Opened (getTen u t).errorRun ci (getCore u l) (getCore (openTenant t u) l) := by
  have hmem : l ∈ coresOf u t := by simp [coresOf, ho, Fin.val_ne_zero_iff.mpr h0]
  have hbegin : OpensFrom u (modTen u t (fun x => { x with ran := true })) := OpensFrom.refl.modTen_ran t true
  obtain ⟨v, hv, hsame, heq⟩ := foldl_at (f := openServed t) (Inv := OpensFrom u) (g := fun v => getCore v l) (i := l)
    (fun v j hv => hv.openServed t j) (fun v j _ hj => openServed_other hj) ((List.nodup_finRange 64).filter _) hmem hbegin
  have hserved : served v l = true := by
    rw [served, hv.phys, hsame]
    exact hs
  have := openServed_self (t := t) (hv.image l |>.trans hi) hserved
  unfold openTenant
  rw [if_neg (by simp [h0, ha])]
  rw [(hv.ten t).2, hsame, ← heq] at this
  exact this

theorem openTenant_ran (h0 : t ≠ 0) : (getTen (openTenant t u) t).ran = true ↔ tActive u t = true ∨ (getTen u t).ran = true := by
  have hten {v : State} (ls : List (Fin 64)) : getTen (ls.foldl (openServed t) v) t = getTen v t :=
    List.foldlRecOn (motive := fun w => getTen w t = getTen v t) _ _ rfl fun w hw j _ => by rw [getTen, openServed_ten, ← getTen, hw]
  unfold openTenant
  by_cases ha : tActive u t = true
  · rw [if_neg (by simp [h0, ha]), hten, modTen, getTen_setTen_self]
    simp [ha]
  · rw [if_pos (by simp [ha])]
    simp [ha]

theorem openTenant_otherTen {f : Fin 64} (h : t ≠ f) : getTen (openTenant t u) f = getTen u f := by
  unfold openTenant
  split
  · rfl
  · refine List.foldlRecOn (motive := fun w => getTen w f = getTen u f) _ _ ?_ fun w hw j _ => by rw [getTen, openServed_ten, ← getTen, hw]
    rw [modTen, getTen_setTen, if_neg h]

end

section
variable (s : State)

theorem waitsCleared_keeps : KeepsBut [.regs] s (waitsCleared s) :=
  each_inv (Inv := KeepsBut [.regs] s) (fun _ _ hu => each_inv (Inv := KeepsBut [.regs] s)
    (fun v _ hv => hv.trans (wr_keeps v _ _)) hu) (Frame.refl (n := 0)).keeps

theorem arrKSmwait_ne {c : Fin 8} {p : Fin 9} {off : Nat} (h : off < 0x900000 ∨ commitBase ≤ off ∨ off % 0x10000 < 0x100) :
    Reg.arrKSmwait c p ≠ off := by
  unfold Reg.arrKSmwait
  unfold commitBase Reg.cmtCfg at h
  omega

/-- The counters of waits lie among the registers of the physical cores. -/
theorem waitsCleared_rd {off : Nat} (h : off < 0x900000 ∨ commitBase ≤ off ∨ off % 0x10000 < 0x100) :
    rd (waitsCleared s) off = rd s off :=
  each_inv (Inv := fun u => rd u off = rd s off) (fun _ _ hu => each_inv (Inv := fun u => rd u off = rd s off)
    (fun v _ hv => (rd_wr_ne v 0 (arrKSmwait_ne h)).trans hv) hu) rfl

theorem coresOpened_from : OpensFrom (waitsCleared s) (coresOpened s) := each_inv (fun _ t hu => hu.openTenant t) .refl

variable {s} {l : Fin 64}

theorem coresOpened_core {ci : CoreImage} (h0 : coreOwner s l ≠ 0) (ha : tActive s (ten (coreOwner s l)) = true)
    (hi : coreImage s l = some ci) (hs : served s l = true) :
    Opened (getTen s (ten (coreOwner s l))).errorRun ci (getCore s l) (getCore (coresOpened s) l) := by
  have hk := waitsCleared_keeps s
  have hten (f : Fin 64) : getTen (waitsCleared s) f = getTen s f := by rw [getTen, hk .ten (by decide), getTen]
  have hcore : getCore (waitsCleared s) l = getCore s l := by rw [getCore, hk .core (by decide), getCore]
  have hrd (off : Nat) (h : commitBase ≤ off) (_ : off < counterBase) : rd (waitsCleared s) off = rd s off :=
    waitsCleared_rd s (.inr (.inl h))
  have hphys : physOf (waitsCleared s) l = physOf s l := by
    rw [physOf, rf, waitsCleared_rd s (.inr (.inr (by unfold Reg.arrCMap; omega))), physOf, rf]
  have hv : (ten (coreOwner s l)).val = coreOwner s l := Nat.mod_eq_of_lt (coreOwner_lt s l)
  have ht0 : ten (coreOwner s l) ≠ 0 := fun e => h0 (by rw [← hv, e]; rfl)
  have howner : coreOwner (waitsCleared s) l = (ten (coreOwner s l)).val := by rw [coreOwner_congr hrd, hv]
  have himage : coreImage (waitsCleared s) l = some ci := by
    rw [← hi]
    simp only [coreImage, coreIdx, coreOwner_congr hrd, coresOf_congr hrd, hten]
  have hactive : tActive (waitsCleared s) (ten (coreOwner s l)) = true := by
    rw [tActive_congr (hrd _ (cmtTState_commit _) (by unfold Reg.cmtTState counterBase Reg.panOptime; omega)), ha]
  obtain ⟨u, hu, hsame, heq⟩ := each_at (f := openTenant) (Inv := OpensFrom (waitsCleared s)) (g := fun v => getCore v l)
    (i := ten (coreOwner s l)) (fun v j hv => hv.openTenant j)
    (fun v j hv hj => openTenant_other (by rw [hv.owner, howner]; exact fun e => hj (Fin.ext e.symm))) OpensFrom.refl
  have hserved : served u l = true := by
    rw [served, hu.phys, hphys, hsame, hcore]
    exact hs
  have h := openTenant_self ht0 ((hu.owner l).trans howner) ((hu.active _).trans hactive) ((hu.image l).trans himage) hserved
  rw [(hu.ten _).2, hten, hsame, hcore, ← heq] at h
  exact h

theorem coresOpened_ran {f : Fin 64} (h0 : f ≠ 0) :
    (getTen (coresOpened s) f).ran = true ↔ tActive s f = true ∨ (getTen s f).ran = true := by
  have hten : getTen (waitsCleared s) f = getTen s f := by rw [getTen, waitsCleared_keeps s .ten (by decide), getTen]
  have hactive : tActive (waitsCleared s) f = tActive s f := tActive_congr (waitsCleared_rd s (.inr (.inl (cmtTState_commit f))))
  obtain ⟨u, hu, hsame, heq⟩ := each_at (f := openTenant) (Inv := OpensFrom (waitsCleared s)) (g := fun v => getTen v f) (i := f)
    (fun v j hv => hv.openTenant j) (fun v j _ hj => openTenant_otherTen hj) (s := waitsCleared s) OpensFrom.refl
  rw [coresOpened, heq, openTenant_ran h0, hu.active, hsame, hactive, hten]

end

section
variable (s : State)

theorem modSpare_frame {ps : List Part} {n : Nat} {s : State} (c : Nat) (f : Spare → Spare) (hp : .spare ∈ ps := by decide) :
    Frame ps n s (modSpare s c f) :=
  .of_part hp (fun q _ => by cases q <;> simp_all [Part.same, modSpare]) rfl rfl

theorem bootEnds_keeps : KeepsBut [.regs, .hc] s (bootEnds s) := by
  have hset : KeepsBut [.regs, .hc] s (hcSet s 1) := (wr_keeps s _ _).mono (by decide)
  unfold bootEnds
  split
  · split
    · exact (hset.trans (modHc_frame (n := 0) _).keeps).trans ((wr_keeps _ _ _).mono (by decide))
    · exact (Frame.refl (n := 0)).keeps
  · exact (Frame.refl (n := 0)).keeps

theorem lockstepsOpened_keeps : KeepsBut [.spare] s (each 8 (fun c s => lockstepOpens s c) s) :=
  (Frame.each (n := 0) (fun c u => modSpare_frame c _) s).keeps

/-- The window after its cores have opened: a boot may end, and spares may run in lockstep. -/
def windowBegun (s : State) : State := each 8 (fun c s => lockstepOpens s c) (bootEnds (coresOpened s))

theorem windowBegun_keeps : KeepsBut [.regs, .hc, .spare] (coresOpened s) (windowBegun s) :=
  ((bootEnds_keeps _).mono (by decide)).trans ((lockstepsOpened_keeps _).mono (by decide))

end

theorem coresOpened_keeps (s : State) : KeepsBut [.regs, .core, .ten] s (coresOpened s) :=
  ((waitsCleared_keeps s).mono (by decide)).trans ((coresOpened_from s).keeps.mono (by decide))

/-- The parts that the opening of the program window can change. -/
abbrev windowParts : List Part := [.regs, .now, .op, .core, .ten, .cmt, .spare, .hc]

/-- What the opening of the program window leaves, before the phase is set. -/
theorem windowBegun_from (s : State) (tm : Instant) :
    KeepsBut [.regs, .now, .op, .core, .ten, .spare, .hc] s (windowBegun (toInstant s tm)) :=
  (((toInstant_keeps s tm).mono (by decide)).trans ((coresOpened_keeps _).mono (by decide))).trans
    ((windowBegun_keeps _).mono (by decide))

/-- The state in which a program window has opened. -/
def windowOpened (s : State) (tm : Instant) : State := setPhase (windowBegun (toInstant s tm)) .window

section
variable (s : State) (tm : Instant)

theorem setPhase_keeps (u : State) (p : Phase) : KeepsBut [.cmt] u (setPhase u p) := (modCmt_frame (n := 0) _).keeps

theorem windowOpened_keeps : KeepsBut windowParts s (windowOpened s tm) :=
  ((windowBegun_from s tm).mono (by decide)).trans ((setPhase_keeps _ _).mono (by decide))

theorem windowOpened_cmt : (windowOpened s tm).cmt = { s.cmt with phase := .window } := by
  have h : (windowBegun (toInstant s tm)).cmt = s.cmt := windowBegun_from s tm .cmt (by decide)
  rw [windowOpened, setPhase, modCmt, h]

/-- From the cores' opening on, cores, tenants and the present stay. -/
theorem windowOpened_last : KeepsBut [.regs, .hc, .spare, .cmt] (coresOpened (toInstant s tm)) (windowOpened s tm) :=
  ((windowBegun_keeps _).mono (by decide)).trans ((setPhase_keeps _ _).mono (by decide))

theorem windowOpened_now : (windowOpened s tm).now = max s.now tm := by
  have h : (windowOpened s tm).now = (coresOpened (toInstant s tm)).now := windowOpened_last s tm .now (by decide)
  have h' : (coresOpened (toInstant s tm)).now = (toInstant s tm).now := coresOpened_keeps _ .now (by decide)
  rw [h, h', toInstant_now]

theorem windowOpened_core (l : Fin 64) : getCore (windowOpened s tm) l = getCore (coresOpened (toInstant s tm)) l := by
  have h : (windowOpened s tm).core = (coresOpened (toInstant s tm)).core := windowOpened_last s tm .core (by decide)
  rw [getCore, h, getCore]

theorem windowOpened_ten (f : Fin 64) : getTen (windowOpened s tm) f = getTen (coresOpened (toInstant s tm)) f := by
  have h : (windowOpened s tm).ten = (coresOpened (toInstant s tm)).ten := windowOpened_last s tm .ten (by decide)
  rw [getTen, h, getTen]

variable {s}

theorem windowOpened_opened {l : Fin 64} {ci : CoreImage} (h0 : coreOwner s l ≠ 0) (ha : tActive s (ten (coreOwner s l)) = true)
    (hi : coreImage s l = some ci) (hs : served s l = true) :
    Opened (getTen s (ten (coreOwner s l))).errorRun ci (getCore s l) (getCore (windowOpened s tm) l) := by
  rw [windowOpened_core]
  exact coresOpened_core (s := toInstant s tm) h0 ha hi hs

theorem windowOpened_ran {f : Fin 64} (h0 : f ≠ 0) :
    (getTen (windowOpened s tm) f).ran = true ↔ tActive s f = true ∨ (getTen s f).ran = true := by
  rw [windowOpened_ten]
  exact coresOpened_ran (s := toInstant s tm) h0

end

theorem exec_programWindowOpen {s : State} (hp : s.cmt.phase = .delivered) :
    exec .programWindowOpen s = .next (windowOpened s (s.time.edge + 3 * usec)) := by
  have eq : exec .programWindowOpen s = .next (doProgramWindowOpen s) := rfl
  rw [eq, doProgramWindowOpen, if_neg (not_not.mpr hp)]
  rfl

end Sys2Proof.Machine
end

section
/-! PROOFS: commit complete (O36). -/

namespace Sys2Proof.Machine
set_option Elab.async false

/-! ## Commit complete (R27, R209) -/

/-- The end of the commit phase shown. -/
def commitShown (s : State) (tm : Instant) : State := setPhase (wb (toInstant s tm) Reg.cmtStatus 0 false) .idle

/-- The designated copy of an operation started. -/
def copyStarted (s : State) (i : Nat) : State :=
  askCopy (wb (modCmt s (fun c => { c with copying := some i })) Reg.cmtStatus 2 true) (getDop s i)

/-- The operation designated for the tick. -/
def dopDue (s : State) : Option Nat := (List.range 8).find? (fun i => (getDop s i).status == 1 && (getDop s i).tick == s.time.tick)

section
variable (s : State)

theorem askCopy_frame {n : Nat} (d : Dop) : Frame [.arb] n s (askCopy s d) := by
  unfold askCopy
  refine .foldl (fun u b => ?_) _ s
  split
  · exact .refl
  · exact request_frame _ _

theorem exec_commitComplete (hp : s.cmt.phase = .swapped) : exec .commitComplete s = .next
    (match dopDue s with
     | some i => copyStarted (commitShown s (s.time.edge + deadlineAt s + 6 * usec)) i
     | none => commitShown s (s.time.edge + deadlineAt s + 6 * usec)) := by
  have eq : exec .commitComplete s = .next (doCommitComplete s) := rfl
  rw [eq, doCommitComplete, if_neg (not_not.mpr hp)]
  rfl

variable (tm : Instant)

theorem commitShown_keeps : KeepsBut [.regs, .now, .op, .cmt] s (commitShown s tm) :=
  (((toInstant_keeps s tm).mono (by decide)).trans ((wr_keeps _ _ _).mono (by decide))).trans ((setPhase_keeps _ _).mono (by decide))

theorem commitShown_busy : rb (commitShown s tm) Reg.cmtStatus 0 = false :=
  rb_wb_self (toInstant s tm) Reg.cmtStatus false (by decide)

variable (i : Nat)

theorem copyStarted_keeps : KeepsBut [.regs, .cmt, .arb] s (copyStarted s i) :=
  ((modCmt_frame (n := 0) (ps := [.regs, .cmt, .arb]) _).keeps.trans ((wr_keeps _ _ _).mono (by decide))).trans
    ((askCopy_frame (n := 0) _ _).keepsBut)

theorem copyStarted_cmt : (copyStarted s i).cmt = { s.cmt with copying := some i } := by
  rw [copyStarted, (askCopy_frame (n := 0) _ _).cmt_eq]
  rfl

theorem copyStarted_status : rd (copyStarted s i) Reg.cmtStatus = putBit (rd s Reg.cmtStatus) 2 true := by
  rw [copyStarted, (askCopy_frame (n := counterBase) _ _).rd _ (by decide), wb, rd_wr_self]
  rfl

end

section
variable {s : State}

theorem dopDue_none (h : ∀ i, i < 8 → (getDop s i).status ≠ 1) : dopDue s = none := by
  rw [dopDue, List.find?_eq_none]
  intro i hi
  simp [h i (List.mem_range.mp hi)]

theorem dopDue_some {i : Nat} (hi : i < 8) (h1 : (getDop s i).status = 1) (ht : (getDop s i).tick = s.time.tick)
    (ho : ∀ j, j < 8 → j ≠ i → (getDop s j).tick ≠ s.time.tick) : dopDue s = some i := by
  cases h : dopDue s with
  | none =>
    have hn := List.find?_eq_none.mp h i (List.mem_range.mpr hi)
    simp [h1, ht] at hn
  | some j =>
    have hj : (getDop s j).tick = s.time.tick := by
      have := List.find?_some h
      simp_all
    have hm := List.mem_range.mp (List.mem_of_find?_eq_some h)
    by_contra hne
    exact ho j hm (fun e => hne (congrArg some e)) hj

theorem commitComplete_spec (hp : s.cmt.phase = .swapped) : ∃ t, exec .commitComplete s = .next t ∧ t.cmt.phase = .idle ∧
    rb t Reg.cmtStatus 0 = false ∧ ((∀ i, i < 8 → (getDop s i).status ≠ 1) → t.cmt.copying = s.cmt.copying) ∧
    (∀ i, i < 8 → (getDop s i).status = 1 → (getDop s i).tick = s.time.tick →
      (∀ j, j < 8 → j ≠ i → (getDop s j).tick ≠ s.time.tick) → t.cmt.copying = some i ∧ rb t Reg.cmtStatus 2 = true) ∧
    KeepsBut [.regs, .now, .op, .cmt, .arb] s t := by
  rw [exec_commitComplete s hp]
  generalize s.time.edge + deadlineAt s + 6 * usec = tm
  have hs := commitShown_keeps s tm
  cases hd : dopDue s with
  | none =>
    refine ⟨_, rfl, rfl, commitShown_busy s tm, fun _ => rfl, fun i hi h1 ht ho => ?_, hs.mono (by decide)⟩
    rw [dopDue_some hi h1 ht ho] at hd
    cases hd
  | some i =>
    have hc := copyStarted_cmt (commitShown s tm) i
    have hr := copyStarted_status (commitShown s tm) i
    refine ⟨_, rfl, by rw [hc]; rfl, ?_, fun h => ?_, fun j hj h1 ht ho => ⟨?_, ?_⟩,
      (hs.mono (by decide)).trans ((copyStarted_keeps _ i).mono (by decide))⟩
    · rw [rb, hr, bitOf_putBit _ _ _ (by decide), if_neg (by decide)]
      exact commitShown_busy s tm
    · rw [dopDue_none h] at hd
      cases hd
    · rw [hc, ← hd, dopDue_some hj h1 ht ho]
    · rw [rb, hr, bitOf_putBit _ _ _ (by decide), if_pos rfl]

end
end Sys2Proof.Machine
end

section
/-! PROOFS: grants, the line shadow and the designated copy (O36). -/

namespace Sys2Proof.Machine
set_option Elab.async false

/-! ## Grants (R235, R236, R244) -/

/-- What grants change: registers of the arbiters' window, the arbiters, the lines the Commit Unit still writes back, and the two
counts of the pair link's transfers. -/
structure Granted (ps : List Part) (s t : State) : Prop where
  frame : Frame ps Reg.smaStatus s t
  cmt : ∃ w, t.cmt = { s.cmt with writeBack := w }
  plu : ∃ r o, t.plu = { s.plu with rxBytes := r, outSent := o }

/-- The parts that a grant can change. -/
abbrev grantParts : List Part := [.regs, .cmt, .arb, .plu, .out, .freeCtr]

namespace Granted
variable {ps qs : List Part} {s t u : State}

theorem of_frame (h : Frame ps Reg.smaStatus s t) (hc : t.cmt = s.cmt) (hp : t.plu = s.plu) : Granted ps s t := ⟨h, ⟨_, hc⟩, _, _, hp⟩

theorem of_quiet (h : Frame qs Reg.smaStatus s t) (hq : qs ⊆ ps := by decide) (hc : .cmt ∉ qs := by decide)
    (hp : .plu ∉ qs := by decide) : Granted ps s t := .of_frame (h.mono hq le_rfl) (h.cmt_eq hc) (h.plu_eq hp)

theorem refl : Granted ps s s := .of_frame .refl rfl rfl

theorem trans (h : Granted ps s t) (k : Granted ps t u) : Granted ps s u where
  frame := h.frame.trans k.frame
  cmt := by
    obtain ⟨w, hw⟩ := h.cmt
    obtain ⟨v, hv⟩ := k.cmt
    exact ⟨v, by rw [hv, hw]⟩
  plu := by
    obtain ⟨r, o, hr⟩ := h.plu
    obtain ⟨x, y, hx⟩ := k.plu
    exact ⟨x, y, by rw [hx, hr]⟩

theorem mono (h : Granted qs s t) (hp : qs ⊆ ps := by decide) : Granted ps s t := ⟨h.frame.mono hp le_rfl, h.cmt, h.plu⟩

theorem foldl {α : Type} {f : State → α → State} (h : ∀ t a, Granted ps t (f t a)) (l : List α) (s : State) :
    Granted ps s (l.foldl f s) := List.foldlRecOn l f refl fun t ht a _ => ht.trans (h t a)

end Granted

section
variable (s : State) (k : Nat) (w : ArbReq)

theorem sendBurst_granted : Granted grantParts s (sendBurst s) := by
  unfold sendBurst
  split
  · exact .refl
  · rename_i c hc
    have hsent : Granted grantParts s { s with plu := { s.plu with outSent := s.plu.outSent + 1 } } :=
      ⟨.of_part (p := .plu) (by decide) (fun q _ => by cases q <;> simp_all [Part.same]) rfl rfl, ⟨_, rfl⟩, _, _, rfl⟩
    exact hsent.trans (.foldl (fun u i => .of_quiet (emit_frame (ps := [.out]) _)) _ _)

theorem completed_granted : Granted grantParts s (completed s k w) := by
  unfold completed
  split
  · exact ⟨.of_part (p := .cmt) (by decide) (fun q _ => by cases q <;> simp_all [Part.same]) rfl rfl, ⟨_, rfl⟩, _, _, rfl⟩
  · split
    · refine iteInduction (motive := Granted grantParts s) (fun _ => .refl) (fun _ => ?_)
      exact ⟨⟨fun q hq => by cases q <;> simp_all [Part.same, emit], fun _ _ => rfl, List.Sublist.refl _⟩, ⟨_, rfl⟩, _, _, rfl⟩
    · split
      · exact sendBurst_granted s
      · exact .refl

theorem noteGrant_frame (c : Nat) : Frame [.regs, .arb, .out] Reg.smaStatus s (noteGrant s k c w) := by
  have hd (i : Nat) : Reg.smaStatus ≤ Reg.smaDGrants i := by unfold Reg.smaStatus Reg.smaDGrants; omega
  have hm (i : Nat) : Reg.smaStatus ≤ Reg.smaDMaxwait i := by unfold Reg.smaStatus Reg.smaDMaxwait; omega
  have hb (i : Nat) : Reg.smaStatus ≤ Reg.smaBGrants i := by unfold Reg.smaStatus Reg.smaBGrants; omega
  have hx (i : Nat) : Reg.smaStatus ≤ Reg.smaBMasked i := by unfold Reg.smaStatus Reg.smaBMasked; omega
  unfold noteGrant
  refine .ite (fun _ => (bump_frame 1 (hd _)).trans (wf_frame _ _ _ (hm _))) (fun _ => ?_)
  have hg : Frame [.regs, .arb, .out] Reg.smaStatus s (bump s (Reg.smaBGrants (Fin.ofNat 16 k))) := bump_frame 1 (hb _)
  exact .ite (fun _ => (hg.trans (modArb_frame k _)).trans (bump_frame 1 (hx _))) (fun _ => hg)

theorem corrected_frame (n off : Nat) : Frame [.regs, .out] Reg.smaStatus s (corrected s n off) :=
  .ite (fun _ => .refl) (fun _ => ((bump_frame n (by decide)).trans (wr_frame _ (by decide))).trans (raise_frame 0 (by decide)))

theorem eccBeats_frame (b beats : Nat) : Frame [.regs, .out, .freeCtr] Reg.smaStatus s (eccBeats s b w beats) :=
  ((drawLe_frame beats).trans (drawLe_frame 32767)).andThen (corrected_frame _ _ _)

theorem grant_granted (c : Nat) : Granted grantParts s (grant s k w c) := by
  unfold grant
  extract_lets ddr s1
  have h1 : Granted grantParts s s1 :=
    (Granted.of_quiet (modArb_frame (ps := [.arb]) k _)).trans (.of_quiet (noteGrant_frame _ k w c))
  split
  · exact h1
  · exact (h1.trans (completed_granted s1 k w)).trans (.of_quiet (eccBeats_frame _ w k _))

theorem settleArb_granted (n c : Nat) : Granted grantParts s (settleArb n k c s) := by
  induction n generalizing s with
  | zero => exact .refl
  | succ n ih =>
    rw [settleArb]
    split
    · split
      · exact (grant_granted s k _ _).trans (ih _)
      · exact .refl
    · exact .refl

theorem settleAll_granted : Granted grantParts s (settleAll s) := .foldl (fun u k => settleArb_granted u k _ _) _ s

theorem serveArb_granted (n port core : Nat) : Granted grantParts s (serveArb n k port core s) := by
  induction n generalizing s with
  | zero => exact .refl
  | succ n ih =>
    rw [serveArb]
    split
    · exact .refl
    · split
      · exact (grant_granted s k _ _).trans (ih _)
      · exact .refl

theorem complete_granted (port core : Nat) : Granted (.now :: .op :: grantParts) s (complete s port core) := by
  refine .foldl (fun u b => ?_) _ s
  split
  · exact (serveArb_granted u b _ port core).mono.trans (.of_quiet (toInstant_frame (ps := [.now, .op]) _))
  · exact .refl

end

/-! ## The line shadow (R198) -/

section
variable {m : List Host.Cell} {a n b : Nat}

/-- A stretch replaced leaves the bytes outside it. -/
theorem peek_spliceMem (cells : List Host.Cell) (h : b < a ∨ a + n ≤ b) : peek (spliceMem m a n cells) b = peek m b := by
  have hkeep : peek (m.filter (fun e => e.1 < a || a + n ≤ e.1)) b = peek m b := by
    rw [peek, Tab.get_filter (0 : Byte) m (fun k => k < a || a + n ≤ k), if_pos (by simpa using h), peek]
  rw [← hkeep, spliceMem]
  refine List.foldlRecOn (motive := fun x => peek x b = _) _ _ rfl fun x hx e he => ?_
  have hin := (List.mem_filter.mp he).2
  simp only [Bool.and_eq_true, decide_eq_true_eq] at hin
  rw [peek_poke, if_neg (by omega), hx]

/-- Stretches replaced one after another leave the bytes outside all of them. -/
theorem peek_splices (l : List (Nat × Nat × List Host.Cell)) (h : ∀ e ∈ l, b < e.1 ∨ e.1 + e.2.1 ≤ b) :
    peek (l.foldl spliceStretch m) b = peek m b :=
  List.foldlRecOn (motive := fun x => peek x b = peek m b) _ _ rfl fun _ hx e he => (peek_spliceMem e.2.2 (h e he)).trans hx

end

/-- The line shadow alone has grown, by stretches inside a range. -/
def Shadowed (lo hi : Nat) (s t : State) : Prop :=
  Frame [.cmt] counterBase s t ∧ ∃ l, t.cmt = { s.cmt with shadow := s.cmt.shadow ++ l } ∧ ∀ e ∈ l, lo ≤ e.1 ∧ e.1 + e.2.1 ≤ hi

section
variable {lo hi : Nat} {s t u : State}

theorem Shadowed.refl : Shadowed lo hi s s := ⟨.refl, [], by rw [List.append_nil], by simp⟩

theorem Shadowed.trans (h : Shadowed lo hi s t) (k : Shadowed lo hi t u) : Shadowed lo hi s u := by
  obtain ⟨hf, l, hl, hin⟩ := h
  obtain ⟨kf, m, hm, kin⟩ := k
  refine ⟨hf.trans kf, l ++ m, by rw [hm, hl]; simp, fun e he => ?_⟩
  exact (List.mem_append.mp he).elim (hin e) (kin e)

theorem shadowWrite_shadowed {a n : Nat} (cells : List Host.Cell) (h : lo ≤ a ∧ a + n ≤ hi) : Shadowed lo hi s (shadowWrite s a n cells) :=
  ⟨modCmt_frame _, [(a, n, cells)], rfl, by simpa using h⟩

theorem shadowBytes_shadowed {a : Nat} {b : List Byte} (h : lo ≤ a ∧ a + b.length ≤ hi) : Shadowed lo hi s (shadowBytes s a b) := by
  unfold shadowBytes
  split
  · exact .refl
  · exact shadowWrite_shadowed _ h

theorem foldl_shadowWrite {α : Type} (f : α → Nat × Nat × List Host.Cell) (l : List α) (s : State) :
    l.foldl (fun s e => shadowWrite s (f e).1 (f e).2.1 (f e).2.2) s =
      modCmt s (fun c => { c with shadow := c.shadow ++ l.map f }) := by
  induction l generalizing s with
  | nil => simp [modCmt]
  | cons e l ih =>
    rw [List.foldl_cons, ih]
    simp [shadowWrite, modCmt]

end

section
variable (s : State)

theorem askBanks_frame {n : Nat} (port : Nat) (lines : List Nat) : Frame [.arb] n s (askBanks s port lines) := by
  unfold askBanks
  refine .foldl (fun u b => ?_) _ s
  split
  · exact .refl
  · exact request_frame _ _

theorem mem_frame {ps : List Part} {n : Nat} {s : State} (m : List Host.Cell) (hp : .mem ∈ ps := by decide) : Frame ps n s { s with mem := m } :=
  .of_part hp (fun q _ => by cases q <;> simp_all [Part.same]) rfl rfl

/-- The lines of the shadow become committed content: the memory is what the shadow makes of it, and the shadow is empty. -/
theorem swapMemory_spec : (swapMemory s).mem = s.cmt.shadow.foldl spliceStretch s.mem ∧
    (∃ w, (swapMemory s).cmt = { s.cmt with shadow := [], writeBack := w }) ∧
    Frame [.cmt, .arb, .plu, .mem] counterBase s (swapMemory s) := by
  unfold swapMemory
  extract_lets sh lines pages s1 s2
  have h1 : Frame [.arb] counterBase { s with mem := sh.foldl spliceStretch s.mem } s1 := askBanks_frame _ 9 lines
  have hm : s2.mem = sh.foldl spliceStretch s.mem := h1.mem_eq
  have hc : s2.cmt = s.cmt := h1.cmt_eq
  refine ⟨hm, ⟨s2.cmt.writeBack ++ lines, by rw [modCmt, hc]⟩, ?_⟩
  exact ((mem_frame _).andThen h1).trans ((modPlu_frame _).trans (modCmt_frame _))

end

/-! ## A designated copy (R27) -/

/-- The stretches that a designated copy replaces, from a memory. -/
def copyStretches (m : List Host.Cell) (d : Dop) : List (Nat × Nat × List Host.Cell) :=
  d.list.map (fun e => (e.2.1, e.2.2, moveCells m e.1 e.2.2 e.2.1))

/-- The copy and the swap count in the line shadow. -/
def copyShadowed (s : State) (i : Nat) : State :=
  shadowBytes (modCmt s (fun c => { c with shadow := c.shadow ++ copyStretches s.mem (getDop s i) })) 0x1EFF100
    (toLe 4 (rd s Reg.cmtSeq + 1).toNat)

/-- A designated operation completed. -/
def copyDone (s : State) (i : Nat) : State := modDop (modCmt s (fun c => { c with copying := none })) i (fun d => { d with status := 2 })

/-- The copy committed: the swap counted, the operation completed. -/
def copyCommitted (s : State) (i : Nat) : State := copyDone (bump (swapMemory s) Reg.cmtSeq) i

/-- The end of a designated copy shown. -/
def copyShown (s : State) (i : Nat) (d : Dop) : State :=
  let s := raise (wb s Reg.cmtStatus 2 false) Reg.cmtIrq 2
  logRec s Reg.cmtIrq 1 0 2 [i, b2n d.settings, d.tick, d.tick / 2 ^ 32]

section
variable (s : State) (i : Nat)

theorem exec_dopCopyDone (hc : s.cmt.copying = some i) (hs : (complete s 9 1).cmt.shadow = []) :
    exec .dopCopyDone s = .next (copyShown (copyCommitted (copyShadowed (complete s 9 1) i) i) i (getDop (complete s 9 1) i)) := by
  have eq : exec .dopCopyDone s = .next (doDopCopyDone s) := rfl
  rw [eq, doDopCopyDone]
  simp only [hc]
  generalize complete s 9 1 = u at hs ⊢
  have hd := foldl_shadowWrite (fun e : Nat × Nat × Nat => (e.2.1, e.2.2, moveCells u.mem e.1 e.2.2 e.2.1)) (getDop u i).list u
  dsimp only at hd
  rw [if_neg (by simp [hs]), hd]
  rfl

/-- Only the shadow grows: by the copy's stretches, then the swap count's word. -/
theorem copyShadowed_spec : Frame [.cmt] counterBase s (copyShadowed s i) ∧ ∃ l, (∀ e ∈ l, 0x1EFF100 ≤ e.1 ∧ e.1 + e.2.1 ≤ 0x1EFF104) ∧
    (copyShadowed s i).cmt = { s.cmt with shadow := s.cmt.shadow ++ copyStretches s.mem (getDop s i) ++ l } := by
  obtain ⟨hf, l, hl, hin⟩ := shadowBytes_shadowed (lo := 0x1EFF100) (hi := 0x1EFF104)
    (s := modCmt s (fun c => { c with shadow := c.shadow ++ copyStretches s.mem (getDop s i) })) (a := 0x1EFF100)
    (b := toLe 4 (rd s Reg.cmtSeq + 1).toNat) ⟨le_rfl, by rw [toLe_length]⟩
  exact ⟨(modCmt_frame (ps := [.cmt]) _).trans hf, l, hin, hl⟩

theorem copyDone_frame {n : Nat} : Frame [.cmt] n s (copyDone s i) := by
  unfold copyDone modDop
  exact (modCmt_frame _).trans (modCmt_frame _)

theorem copyCommitted_frame : Frame [.regs, .cmt, .arb, .plu, .mem, .out] Reg.cmtSeq s (copyCommitted s i) := by
  obtain ⟨-, -, h⟩ := swapMemory_spec s
  exact (h.widen.trans (bump_frame 1 le_rfl)).andThen (copyDone_frame _ i (n := Reg.cmtSeq))

theorem copyCommitted_seq : rd (copyCommitted s i) Reg.cmtSeq = rd s Reg.cmtSeq + 1 := by
  obtain ⟨-, -, h⟩ := swapMemory_spec s
  rw [copyCommitted, (copyDone_frame _ i (n := counterBase)).rd _ (by decide), bump, rd_wr_self, h.rd _ (by decide)]
  rfl

theorem copyCommitted_mem : (copyCommitted s i).mem = s.cmt.shadow.foldl spliceStretch s.mem := by
  rw [copyCommitted, (copyDone_frame _ i (n := 0)).mem_eq]
  exact (swapMemory_spec s).1

theorem copyCommitted_copying : (copyCommitted s i).cmt.copying = none := by
  rw [copyCommitted, copyDone]
  rfl

theorem copyCommitted_status : (getDop (copyCommitted s i) i).status = 2 := by
  rw [copyCommitted, copyDone, modDop, getDop]
  simp [modCmt]

variable (d : Dop)

theorem copyShown_frame : Frame logParts Reg.cmtStatus s (copyShown s i d) :=
  ((wb_frame 2 false le_rfl).trans (raise_frame 2 (by decide))).trans ((logRec_frame _ _ _ _ _ _).mono (by decide) (by decide))

theorem copyShown_seq : rd (copyShown s i d) Reg.cmtSeq = rd s Reg.cmtSeq := by
  rw [copyShown, (logRec_frame _ _ _ _ _ _).rd _ (by decide), rd_raise_ne _ _ (by decide), rd_wb_ne _ _ _ (by decide)]

theorem rb_raise_self (off : Nat) {bit : Nat} (h : bit < 32) : rb (raise s off bit) off bit = true := by
  unfold raise
  dsimp only
  split <;> exact rb_wb_self s off true h

theorem copyShown_raised : rb (copyShown s i d) Reg.cmtIrq 2 = true := by
  rw [copyShown, (logRec_frame _ _ _ _ _ _).rb (by decide), rb_raise_self _ _ (by decide)]

end

/-- The parts that a designated copy's end can change. -/
abbrev copyParts : List Part := [.regs, .now, .op, .cmt, .arb, .plu, .recorder, .mem, .out, .freeCtr]

theorem dopCopyDone_spec {s : State} {i : Nat} (hc : s.cmt.copying = some i) (hs : s.cmt.shadow = []) :
    ∃ t, exec .dopCopyDone s = .next t ∧ t.cmt.copying = none ∧ (getDop t i).status = 2 ∧
      rd t Reg.cmtSeq = rd s Reg.cmtSeq + 1 ∧ rb t Reg.cmtIrq 2 = true ∧
      (∀ a, (a < 0x1EFF100 ∨ 0x1EFF104 ≤ a) → peek t.mem a = peek ((copyStretches s.mem (getDop s i)).foldl spliceStretch s.mem) a) ∧
      KeepsBut copyParts s t := by
  have hg := complete_granted s 9 1
  obtain ⟨w, hw⟩ := hg.cmt
  have hshadow : (complete s 9 1).cmt.shadow = [] := by rw [hw]; exact hs
  have hdop : getDop (complete s 9 1) i = getDop s i := by rw [getDop, hw, getDop]
  have hmem : (complete s 9 1).mem = s.mem := hg.frame.mem_eq
  obtain ⟨hf, l, hin, hl⟩ := copyShadowed_spec (complete s 9 1) i
  have hcom := copyCommitted_frame (copyShadowed (complete s 9 1) i) i
  have hshown := copyShown_frame (copyCommitted (copyShadowed (complete s 9 1) i) i) i (getDop (complete s 9 1) i)
  refine ⟨_, exec_dopCopyDone s i hc hshadow, ?_, ?_, ?_, copyShown_raised _ _ _, fun a ha => ?_,
    ((hg.frame.keepsBut.trans hf.keepsBut).trans hcom.keepsBut).trans hshown.keepsBut⟩
  · rw [hshown.cmt_eq, copyCommitted_copying]
  · rw [getDop, hshown.cmt_eq, ← getDop, copyCommitted_status]
  · rw [copyShown_seq, copyCommitted_seq, hf.rd _ (by decide), hg.frame.rd _ (by decide)]
  · rw [hshown.mem_eq, copyCommitted_mem, hf.mem_eq, hl, hmem, hdop, hshadow, List.nil_append, List.foldl_append]
    refine peek_splices l fun e he => ?_
    have := hin e he
    omega

end Sys2Proof.Machine
end

section
/-! PROOFS: originated frames and the deadline (O36). -/

namespace Sys2Proof.Machine
set_option Elab.async false

/-! ## Frames the module originates (R65, R72 to R76) -/

/-- The parts that the switch core can change. -/
abbrev switchParts : List Part := [.regs, .port, .sw, .arb, .out, .freeCtr]

section
variable (s : State)

theorem count_frame (p : Fin 144) (i k : Nat) : Frame switchParts 0 s (count s p i k) := by
  unfold count
  extract_lets c c' s1 off s2
  have h1 : Frame switchParts 0 s s1 := modPort_frame p _
  refine .ite (fun _ => ?_) (fun _ => h1)
  have h2 : Frame switchParts 0 s s2 := h1.trans (wb_frame _ _ (Nat.zero_le _))
  exact .ite (fun _ => (h2.trans (wb_frame _ _ (Nat.zero_le _))).trans (raise_frame 3 (Nat.zero_le _))) (fun _ => h2)

theorem showOvf_frame : Frame switchParts 0 s (showOvf s) := wr_frame _ (Nat.zero_le _)

theorem sendPfc_frame (quanta : Nat) : Frame switchParts 0 s (sendPfc s quanta) :=
  .each (fun p u => .ite (fun _ => (emit_frame _).trans (count_frame _ p 31 1)) (fun _ => .refl)) s

theorem pauseCheck_frame : Frame switchParts 0 s (pauseCheck s) := by
  have hsw (x : Switch) : Frame switchParts 0 s { s with sw := x } := sw_frame x
  unfold pauseCheck
  refine .ite (fun _ => ?_) (fun _ => .ite (fun _ => ?_) (fun _ => showOvf_frame s))
  · exact (((hsw _).trans (showOvf_frame _)).trans (raise_frame 4 (Nat.zero_le _))).trans (sendPfc_frame _ _)
  · exact ((hsw _).trans (showOvf_frame _)).trans (sendPfc_frame _ _)

theorem askFree_frame {n : Nat} (port core accesses : Nat) : Frame [.arb, .freeCtr] n s (askFree s port core accesses) :=
  .ite (fun _ => .refl) (fun _ => (drawLe_frame (((List.range 4).filter (fun ch => rb s Reg.hcDdr ch)).length - 1)).trans (request_frame _ _))

theorem pushQ_frame (p : Fin 144) (tc id : Nat) : Frame switchParts 0 s (pushQ s p tc id) := modPort_frame p _

theorem takeIn_frame (f : Sys2Proof.Frame) (tags : Tab (Option (BitVec 16))) (ring : Option (Fin 144 × Sys2Proof.Frame)) (tc : Nat)
    (targets : List (Fin 144)) (inPort : Option (Fin 144)) : Frame switchParts 0 s (takeIn s f tags ring tc targets inPort) := by
  unfold takeIn
  extract_lets drop spill s1 id put c u lost done
  have hdrop (v : State) : Frame switchParts 0 v (drop v) := by
    cases inPort with
    | none => exact .refl
    | some p => exact count_frame v p _ 1
  have hput (v : State) (ddr : Bool) (cells : Nat) : Frame switchParts 0 v (put v ddr cells) :=
    (sw_frame _).trans (.foldl (fun w p => pushQ_frame w p tc id) _ _)
  have h1 : Frame switchParts 0 s s1 := .ite (fun _ => .refl) (fun _ => .foldl (fun v p => modPort_frame p _) _ s)
  refine .ite (fun _ => .refl) (fun _ => .ite (fun _ => ?_) (fun _ => .ite (fun _ => h1.trans (hdrop _)) (fun _ => ?_)))
  · refine .ite (fun _ => (h1.trans (raise_frame 5 (Nat.zero_le _))).trans (hdrop _))
      (fun _ => .ite (fun _ => h1.trans (hdrop _)) (fun _ => ?_))
    exact ((h1.trans (sw_frame _)).trans ((askFree_frame _ _ _ _ (n := 0)).widen)).trans ((hput _ _ _).trans (pauseCheck_frame _))
  · exact ((h1.trans (hput _ _ _)).trans (wr_frame _ (Nat.zero_le _))).trans (wr_frame _ (Nat.zero_le _))

theorem originate_frame (f : Sys2Proof.Frame) (tc : Nat) (ports : List (Fin 144)) : Frame switchParts 0 s (originate s f tc ports) :=
  (takeIn_frame s _ _ _ _ _ _).trans ((advancePairs_frame _ _ (n := 0)).widen)

end

/-! ## Tenants stop (R187, R210, R270) -/

section
variable (s : State)

theorem clearTraps_tenantFrame (t : Nat) : Frame tenantParts 0 s (clearTraps s t) := by
  have hzero (v : State) (c p : Nat) :
      Frame tenantParts 0 v (wr (wr (wr v (Reg.arrKTrap c p) 0) (Reg.arrKTrappc c p) 0) (Reg.arrKTrapaddr c p) 0) :=
    ((wr_frame _ (Nat.zero_le _)).trans (wr_frame _ (Nat.zero_le _))).trans (wr_frame _ (Nat.zero_le _))
  unfold clearTraps
  exact ((Frame.foldl (fun v l => hzero v _ _) _ s).trans (.foldl (fun v k => hzero v _ _) _ _)).trans (modTen_frame _ _)

theorem enterStopped_tenantFrame (t : Fin 64) : Frame tenantParts 0 s (enterStopped s t) := by
  unfold enterStopped
  refine .trans ?_ ((setTState_logFrame _ t 1).widen (hn := Nat.zero_le _))
  refine .trans ?_ ((wf_frame _ _ _ (Nat.zero_le _)).trans ((wf_frame _ _ _ (Nat.zero_le _)).trans (wf_frame _ _ _ (Nat.zero_le _))))
  exact (clearTraps_tenantFrame s t).trans (modTen_frame t _)

theorem stopControl_tenantFrame : Frame tenantParts 0 s (stopControl s) := by
  refine .each (fun t u => .ite (fun _ => .refl) (fun _ => .ite (fun _ => enterStopped_tenantFrame u t) (fun _ => .ite (fun _ => ?_)
    (fun _ => .refl)))) s
  exact (wb_frame _ _ (Nat.zero_le _)).trans (modTen_frame t _)

/-! ## The deadline (R21, R187, R190, R196, R201, R202, R224, R285) -/

/-- The parts that deciding a tenant's commit can change. -/
abbrev decideParts : List Part := .cmt :: tenantParts

theorem shadowWrite_frame {ps : List Part} {n : Nat} (a k : Nat) (cells : List Host.Cell) (hp : .cmt ∈ ps := by decide) :
    Frame ps n s (shadowWrite s a k cells) := modCmt_frame _ hp

theorem takeEntry_frame (t : Nat) (e : Entry) : Frame decideParts 0 s (takeEntry s t e) := by
  unfold takeEntry
  split
  · exact shadowWrite_frame s _ _ _
  · exact modCmt_frame _

theorem commitTenant_frame (t : Fin 64) : Frame decideParts 0 s (commitTenant s t) := by
  have hcopy (u : State) (l : Fin 64) : Frame decideParts 0 u (copyRetained u l) :=
    (shadowWrite_frame u _ _ _).trans (shadowWrite_frame _ _ _ _)
  unfold commitTenant
  refine .trans ?_ (modTen_frame t _)
  exact (Frame.foldl (fun u l => .foldl (fun v e => takeEntry_frame v t e) _ u) _ s).trans (.foldl hcopy _ _)

theorem fallbackTenant_frame (t : Fin 64) : Frame decideParts 0 s (fallbackTenant s t) := by
  unfold fallbackTenant
  refine .trans (.trans ?_ (modCmt_frame _)) (modTen_frame t _)
  split
  · exact .foldl (fun u e => takeEntry_frame u t e) _ s
  · exact .refl

theorem tolerate_frame (t : Fin 64) (good : Bool) : Frame decideParts 0 s (tolerate s t good).2 :=
  (modTen_frame t _).trans (wr_frame _ (Nat.zero_le _))

theorem testCommands_frame (t : Fin 64) : Frame decideParts 0 s (testCommands s t) := by
  have hset (st : Nat) : Frame decideParts 0 s (setTState s t st) := (setTState_logFrame s t st).widen (hn := Nat.zero_le _)
  refine .trans (.trans ?_ (modTen_frame t _)) (wb_frame _ _ (Nat.zero_le _))
  exact .ite (fun _ => hset 4) (fun _ => .ite (fun _ => hset 3) (fun _ => .refl))

theorem countUncommitted_frame (t : Fin 64) (c : Nat) : Frame decideParts 0 s (countUncommitted s t c).2 := by
  refine .trans (.trans ?_ (modTen_frame t _)) (tolerate_frame _ t false)
  exact ((wr_frame _ (Nat.zero_le _)).trans (bump_frame 1 (Nat.zero_le _))).trans (raise_frame 1 (Nat.zero_le _))

theorem deadlineActive_frame (t : Fin 64) : Frame decideParts 0 s (deadlineActive s t) := by
  unfold deadlineActive
  refine .ite (fun _ => (fallbackTenant_frame s t).trans (enterStopped_tenantFrame _ t).widen) (fun _ => ?_)
  refine (testCommands_frame s t).trans ?_
  dsimp only
  split
  · exact (tolerate_frame _ t true).trans (commitTenant_frame _ t)
  · refine .trans (countUncommitted_frame _ t _) (.ite (fun _ => ?_) (fun _ => .refl))
    exact ((fallbackTenant_frame _ t).trans (wf_frame _ _ _ (Nat.zero_le _))).trans
      ((setTState_logFrame _ t 5).widen (hn := Nat.zero_le _))

theorem deadlineFaulted_frame (t : Fin 64) : Frame decideParts 0 s (deadlineFaulted s t) := by
  unfold deadlineFaulted
  extract_lets x s1 s2
  have h1 : Frame decideParts 0 s s1 := .ite (fun _ => wr_frame _ (Nat.zero_le _)) (fun _ => .refl)
  have h2 : Frame decideParts 0 s s2 := (h1.trans (modTen_frame t _)).trans (wb_frame _ _ (Nat.zero_le _))
  exact .ite (fun _ => h2.trans (fallbackTenant_frame _ t)) (fun _ => .ite (fun _ => h2.trans (enterStopped_tenantFrame _ t).widen)
    (fun _ => h2))

theorem deadlineFenced_frame (t : Fin 64) : Frame decideParts 0 s (deadlineFenced s t) := by
  unfold deadlineFenced
  refine .trans (.ite (fun _ => wr_frame _ (Nat.zero_le _)) (fun _ => .ite (fun _ => countUncommitted_frame s t 4) (fun _ => .refl)))
    (modTen_frame t _)

theorem lateFallback_frame (t : Fin 64) : Frame decideParts 0 s (lateFallback s t) :=
  .ite (fun _ => fallbackTenant_frame s t) (fun _ => modTen_frame t _)

theorem deadlineTenant_frame (t : Fin 64) : Frame decideParts 0 s (deadlineTenant s t) := by
  unfold deadlineTenant
  refine .trans ?_ (modTen_frame t _)
  split
  · exact deadlineActive_frame s t
  · exact deadlineActive_frame s t
  · exact deadlineFaulted_frame s t
  · exact (deadlineFenced_frame s t).trans (lateFallback_frame _ t)
  · exact lateFallback_frame s t

/-- The parts that the phases of a tick's deadline can change, but for the present. -/
abbrev deadlineParts : List Part := [.regs, .port, .sw, .core, .ten, .cmt, .arb, .plu, .recorder, .clu, .out, .freeCtr]

theorem doWatchdog_frame (l : Fin 64) : Frame deadlineParts 0 s (doWatchdog l s) := by
  unfold doWatchdog
  dsimp only
  split
  · refine .ite (fun _ => .ite (fun _ => setCore_frame l _) (fun _ => ?_)) (fun _ => .refl)
    exact (setCore_frame l _).trans (trap_frame _ l 4 0).widen
  · exact .refl

theorem countEntries_frame (t : Fin 64) : Frame deadlineParts 0 s (countEntries s t) :=
  (wf_frame _ _ _ (Nat.zero_le _)).trans (wf_frame _ _ _ (Nat.zero_le _))

theorem sendOn_frame (path : Path) (m : LeaseMsg) : Frame deadlineParts 0 s (sendOn s path m) := by
  unfold sendOn
  split
  · exact .ite (fun _ => .refl) (fun _ => emit_frame _)
  · exact .ite (fun _ => (originate_frame s _ _ _).widen.trans (emit_frame _)) (fun _ => .refl)

theorem sendNew_frame (kind : LeaseKind) (tick : Nat) : Frame deadlineParts 0 s (sendNew s kind tick) := by
  unfold sendNew
  extract_lets n s1 m s2
  have h : Frame deadlineParts 0 s s2 := (modPlu_frame _).trans (sendOn_frame s1 .pair m)
  exact .ite (fun _ => h.trans (sendOn_frame _ .net _)) (fun _ => h)

theorem swapFailed_frame : Frame deadlineParts 0 s (swapFailed s) :=
  ((wf_frame _ _ _ (Nat.zero_le _)).trans (raise_frame 6 (Nat.zero_le _))).trans ((logRec_frame _ _ _ _ _ _).widen (hn := Nat.zero_le _))

theorem pluDeadline_frame : Frame deadlineParts 0 s (pluDeadline s) := by
  unfold pluDeadline
  split
  · refine .ite (fun _ => ?_) (fun _ => .refl)
    exact (((modPlu_frame _).trans (stopControl_tenantFrame _).widen).trans (swapFailed_frame _)).trans (sendNew_frame _ _ _)
  · exact .refl

theorem setSticky_frame (c : Fin 8) (i : Fin 32) (b : Nat) : Frame [.regs, .out] 0 s (setSticky s c i b) :=
  .ite (fun _ => .refl) (fun _ => (wb_frame _ _ (Nat.zero_le _)).trans (raise_frame 0 (Nat.zero_le _)))

theorem cluDeadline_frame : Frame [.regs, .out] 0 s (cluDeadline s) := by
  refine .each (fun c u => .each (fun k v => .ite (fun _ => wb_frame _ _ (Nat.zero_le _)) (fun _ => ?_)) u) s
  exact ((wb_frame _ _ (Nat.zero_le _)).trans (raise_frame 1 (Nat.zero_le _))).trans (.foldl (fun w i => setSticky_frame w c i 3) _ _)

/-- A core that has stopped with nothing staged. -/
def StoppedBare (k : Core) : Prop := k.run ≠ .running ∧ k.entries = []

/-- A core not at TEND, stopped; what was staged dropped. -/
def lateStopped (k : Core) : Core := if k.run = .running then { k with run := .stopped, entries := [] } else { k with entries := [] }

theorem lateStopped_stoppedBare (k : Core) : StoppedBare (lateStopped k) := by
  unfold lateStopped
  split
  · exact ⟨by simp, rfl⟩
  · exact ⟨‹_›, rfl⟩

theorem stopLate_eq (l : Fin 64) : stopLate s l = setCore s l (lateStopped (getCore s l)) := by
  unfold stopLate lateStopped modCore
  split <;> rfl

theorem stopLate_frame {ps : List Part} {n : Nat} (l : Fin 64) (hp : .core ∈ ps := by decide) : Frame ps n s (stopLate s l) := by
  rw [stopLate_eq]
  exact setCore_frame l _ hp

theorem stopLate_all (l : Fin 64) : StoppedBare (getCore (each 64 (fun l s => stopLate s l) s) l) := by
  refine each_forall (P := fun l s => StoppedBare (getCore s l)) (fun i u => ?_) (fun i j u h => ?_) s l
  · rw [stopLate_eq, getCore_setCore_self]
    exact lateStopped_stoppedBare _
  · rw [stopLate_eq, getCore_setCore]
    split
    · exact lateStopped_stoppedBare _
    · exact h

/-- Watchdogs, the pair, the entries' counts and every tenant's commit, at the deadline. -/
def commitsDecided (s : State) : State :=
  let s := each 64 (fun l s => doWatchdog l s) s
  let s := pluDeadline (wb s Reg.cmtStatus 0 true)
  each 64 (fun t s => if t = 0 then s else deadlineTenant s t) (each 64 (fun t s => if t = 0 then s else countEntries s t) s)

/-- The cores stopped, and the CLUs' groups judged. -/
def deadlineStopped (s : State) : State := cluDeadline (each 64 (fun l s => stopLate s l) s)

/-- The length of the commit phase shown. -/
def phaseTimed (s : State) : State :=
  let (x, s) := drawLe s 5500
  wf (wf s Reg.cmtPhase 15 0 x) Reg.cmtPhase 31 16 (max x (rf s Reg.cmtPhase 31 16))

theorem exec_deadline (hp : s.cmt.phase = .window) (hrun : hcSt s ≤ 1) : exec .deadline s = .next
    (setPhase (phaseTimed (deadlineStopped (commitsDecided (toInstant s (s.time.edge + deadlineAt s))))) .applied) := by
  have eq : exec .deadline s = .next (doDeadline s) := rfl
  rw [eq, doDeadline, if_neg (by simp [hp, ticking, hrun])]
  rfl

theorem commitsDecided_frame : Frame deadlineParts 0 s (commitsDecided s) := by
  unfold commitsDecided
  extract_lets s1 s2
  have h1 : Frame deadlineParts 0 s s1 := .each (fun l u => doWatchdog_frame u l) s
  have h2 : Frame deadlineParts 0 s s2 := (h1.trans (wb_frame _ _ (Nat.zero_le _))).trans (pluDeadline_frame _)
  have h3 : Frame deadlineParts 0 s2 (each 64 (fun t s => if t = 0 then s else countEntries s t) s2) :=
    .each (fun t u => .ite (fun _ => .refl) (fun _ => countEntries_frame u t)) s2
  refine (h2.trans h3).trans ?_
  exact .each (fun t u => .ite (fun _ => .refl) (fun _ => (deadlineTenant_frame u t).widen)) _

theorem deadlineStopped_frame : Frame deadlineParts 0 s (deadlineStopped s) :=
  (Frame.each (fun l u => stopLate_frame u l) s).trans (cluDeadline_frame _).widen

theorem deadlineStopped_core (l : Fin 64) : StoppedBare (getCore (deadlineStopped s) l) := by
  rw [deadlineStopped, getCore, (cluDeadline_frame _).core_eq, ← getCore]
  exact stopLate_all s l

theorem phaseTimed_frame : Frame [.regs, .out, .freeCtr] 0 s (phaseTimed s) :=
  ((drawLe_frame 5500).trans (wf_frame _ _ _ (Nat.zero_le _))).trans (wf_frame _ _ _ (Nat.zero_le _))

theorem deadline_spec (hp : s.cmt.phase = .window) (hrun : hcSt s ≤ 1) : ∃ t, exec .deadline s = .next t ∧ t.cmt.phase = .applied ∧
    (∀ l, (getCore t l).run ≠ .running ∧ (getCore t l).entries = []) ∧ t.now = max s.now (s.time.edge + deadlineAt s) ∧
    KeepsBut [.regs, .now, .op, .port, .sw, .core, .ten, .cmt, .arb, .plu, .recorder, .clu, .out, .freeCtr] s t := by
  rw [exec_deadline s hp hrun]
  generalize s.time.edge + deadlineAt s = tm
  have hd := (commitsDecided_frame (toInstant s tm)).trans (deadlineStopped_frame _)
  have ht := phaseTimed_frame (deadlineStopped (commitsDecided (toInstant s tm)))
  refine ⟨_, rfl, rfl, fun l => ?_, ?_, ?_⟩
  · have h := deadlineStopped_core (commitsDecided (toInstant s tm)) l
    rwa [getCore, ← ht.core_eq, ← getCore] at h
  · exact ht.now_eq.trans hd.now_eq
  · exact (((toInstant_keeps s tm).mono (by decide)).trans hd.keepsBut).trans (ht.keepsBut.trans ((setPhase_keeps _ _).mono (by decide)))

end
end Sys2Proof.Machine
end

section
/-! PROOFS: the units at a swap (O36). -/

namespace Sys2Proof.Machine
set_option Elab.async false

/-! ## What a swap does besides the memory (R172, R177, R190, R191, R194, R197, R205, R212, R229, R256, R261, R281, R285) -/

/-- The parts that a swap can change besides the present, the commit state and the memory. -/
abbrev swapParts : List Part := [.regs, .port, .sw, .core, .ten, .arb, .plu, .recorder, .hif, .tru, .clu, .fio, .out, .freeCtr]

section
variable {ps : List Part} {n : Nat} {s : State}

theorem clu_frame (x : Clu) (hp : .clu ∈ ps := by decide) : Frame ps n s { s with clu := x } :=
  .of_part hp (fun q _ => by cases q <;> simp_all [Part.same]) rfl rfl
theorem modHif_frame (f : Hif → Hif) (hp : .hif ∈ ps := by decide) : Frame ps n s (modHif s f) :=
  .of_part hp (fun q _ => by cases q <;> simp_all [Part.same, modHif]) rfl rfl
theorem setTen_frame (t : Fin 64) (x : Tenant) (hp : .ten ∈ ps := by decide) : Frame ps n s (setTen s t x) :=
  .of_part hp (fun q _ => by cases q <;> simp_all [Part.same]) rfl rfl

end

section
variable (s : State)

theorem originatePub_frame (f : Sys2Proof.Frame) (tc : Nat) (ports : List (Fin 144)) (pub : Nat) :
    Frame switchParts 0 s (originatePub s f tc ports pub) := by
  unfold originatePub
  refine (originate_frame s f tc ports).trans ?_
  dsimp only
  split
  · exact sw_frame _
  · exact .refl

theorem sendGoose_frame (p : Nat) : Frame switchParts 0 s (sendGoose s p) :=
  .ite (fun _ => .refl) (fun _ => (signFrame_frame s p _).widen.trans (originatePub_frame _ _ _ _ _))

theorem newState_frame (p : Nat) : Frame swapParts 0 s (newState s p) := (modPub_frame p _).trans (sendGoose_frame _ p).widen

theorem pubVerdict_frame (p : Nat) (before : List Word) (touched force : Bool) : Frame swapParts 0 s (pubVerdict s p before touched force) := by
  unfold pubVerdict
  refine .ite (fun _ => .refl) (fun _ => ?_)
  split
  · exact .ite (fun _ => newState_frame s p) (fun _ => .ite (fun _ => .refl) (fun _ =>
      .ite (fun _ => modPub_frame p _) (fun _ => newState_frame s p)))
  · exact .ite (fun _ => .refl) (fun _ => newState_frame s p)

theorem markQuality_frame (p : Nat) (f : Word → Word) : Frame swapParts 0 s (markQuality s p f) := .foldl (fun u m => modPub_frame p _) _ s

theorem swapPubs_frame (ups : List (Nat × Entry)) (falls tests : List Nat) : Frame swapParts 0 s (swapPubs s ups falls tests) := by
  unfold swapPubs
  extract_lets touched fallPubs testPubs all before s1 s2 s3
  have h1 : Frame swapParts 0 s s1 := by
    refine .foldl (fun u e => ?_) _ s
    split
    · exact modPub_frame _ _
    · exact .refl
  have h2 : Frame swapParts 0 s1 s2 := .foldl (fun u p => markQuality_frame u p _) _ _
  have h3 : Frame swapParts 0 s2 s3 := .foldl (fun u p => markQuality_frame u p _) _ _
  exact (h1.trans h2).trans (h3.trans (.foldl (fun u e => pubVerdict_frame u _ _ _ _) _ _))

theorem armEntry_frame (i : Nat) (d : Bool) : Frame swapParts 0 s (armEntry s i d) := .ite (fun _ => .refl) (fun _ => modSlot_frame i _)

theorem swapArms_frame (ups : List (Nat × Entry)) (falls : List Nat) : Frame swapParts 0 s (swapArms s ups falls) := by
  have harm : Frame swapParts 0 s (ups.foldl (fun s e => match e.2 with | .arm i d => armEntry s i d | _ => s) s) := by
    refine .foldl (fun u e => ?_) _ s
    split
    · exact armEntry_frame u _ _
    · exact .refl
  exact harm.trans (.foldl (fun u t => modTru_frame _) _ _)

theorem commitOut_frame (k : Fin 16) (o : BcOut) (level : Bool) : Frame swapParts 0 s (commitOut s k o level) := by
  unfold commitOut
  extract_lets s1
  have h1 : Frame swapParts 0 s s1 := wb_frame _ level (Nat.zero_le _)
  refine h1.trans ?_
  cases o with
  | trip => exact .ite (fun _ => .refl) (fun _ => wb_frame _ _ (Nat.zero_le _))
  | close => exact .refl

theorem holdTests_frame : Frame swapParts 0 s (holdTests s) := .each (fun t u => .ite (fun _ => .refl) (fun _ => setTen_frame t _)) s

theorem swapOuts_frame (ups : List (Nat × Entry)) (falls : List Nat) : Frame swapParts 0 s (swapOuts s ups falls) := by
  unfold swapOuts
  extract_lets s1 named s2
  have h1 : Frame swapParts 0 s s1 := by
    refine .foldl (fun u e => ?_) _ s
    split
    · exact commitOut_frame u _ _ _
    · exact .refl
  have h2 : Frame swapParts 0 s1 s2 := .foldl (fun u t => .each (fun k v => .ite
    (fun _ => (commitOut_frame v k .trip false).trans (commitOut_frame _ k .close false)) (fun _ => .refl)) u) _ _
  have h3 : Frame swapParts 0 s2 (each 16 (fun k s => timeClose s k) (holdTests s2)) :=
    (holdTests_frame s2).trans (.each (fun k u => modCh_frame k _) _)
  exact (h1.trans (h2.trans h3)).trans ((evalAll_frame _).widen (hn := Nat.zero_le _))

theorem loopWrite_frame (c : Fin 8) (i : Fin 32) (j : Nat) (v : Word) : Frame [.regs, .out] 0 s (loopWrite s c i j v) :=
  .ite (fun _ => wr_frame _ (Nat.zero_le _)) (fun _ => .ite (fun _ => wr_frame _ (Nat.zero_le _)) (fun _ => .refl))

/-- Without register entries only loop words are written. -/
theorem swapWords_frame {ups : List (Nat × Entry)} (h : ∀ x ∈ ups, ∀ off v, x.2 ≠ .reg off v) : Frame swapParts 0 s (swapWords s ups) := by
  have hloop (u : State) (e : Nat × Entry) :
      Frame swapParts 0 u (match e.2 with | .loopWord c i j v => loopWrite u c i j v | _ => u) := by
    split
    · exact (loopWrite_frame u _ _ _ _).widen
    · exact .refl
  refine (Frame.foldl hloop ups s).trans (List.foldlRecOn _ _ .refl fun u hu e he => ?_)
  split
  · exact absurd ‹_› (h e he _ _)
  · exact hu

theorem modLoop_frame {ps : List Part} {n : Nat} {s : State} (c : Fin 8) (i : Fin 32) (f : LoopBox → LoopBox) (hp : .clu ∈ ps := by decide) :
    Frame ps n s (modLoop s c i f) := clu_frame _ hp

theorem modCap_frame {ps : List Part} {n : Nat} {s : State} (c : Fin 8) (k : Fin 2) (f : Cap → Cap) (hp : .clu ∈ ps := by decide) :
    Frame ps n s (modCap s c k f) := clu_frame _ hp

theorem showCap_frame (c : Fin 8) (k : Fin 2) : Frame swapParts 0 s (showCap s c k) :=
  ((wf_frame _ _ _ (Nat.zero_le _)).trans (wr_frame _ (Nat.zero_le _))).trans (wr_frame _ (Nat.zero_le _))

theorem capDone_frame (c : Fin 8) (k : Fin 2) : Frame swapParts 0 s (capDone s c k) := by
  unfold capDone
  refine .trans (.trans ?_ (showCap_frame _ c k)) (raise_frame _ (Nat.zero_le _))
  exact ((wb_frame _ _ (Nat.zero_le _)).trans (wb_frame _ _ (Nat.zero_le _))).trans (wb_frame _ _ (Nat.zero_le _))

theorem capSwap_frame (c : Fin 8) (k : Fin 2) (evaluated trig : Bool) : Frame swapParts 0 s (capSwap s c k evaluated trig) := by
  unfold capSwap
  extract_lets ctl start s1 x v s2 full stamp s3 s4
  have h1 : Frame swapParts 0 s s1 :=
    .ite (fun _ => (wb_frame _ _ (Nat.zero_le _)).trans (wb_frame _ _ (Nat.zero_le _))) (fun _ => .refl)
  have h2 : Frame swapParts 0 s s2 := h1.trans (.ite (fun _ => .refl) (fun _ => bump_frame 1 (Nat.zero_le _)))
  have h3 : Frame swapParts 0 s s3 := h2.trans (.ite (fun _ => wb_frame _ _ (Nat.zero_le _)) (fun _ => .refl))
  have h4 : Frame swapParts 0 s s4 := (h3.trans (modCap_frame c k _)).trans (showCap_frame _ c k)
  have hdone : Frame swapParts 0 s (capDone s4 c k) := h4.trans (capDone_frame s4 c k)
  refine .ite (fun _ => h1) (fun _ => .ite (fun _ => h1.trans (modCap_frame c k _)) (fun _ => .ite (fun _ => ?_) (fun _ => ?_)))
  · exact .ite (fun _ => hdone) (fun _ => h4)
  · exact .ite (fun _ => hdone) (fun _ => h4)

theorem cluSwap_frame (commits : Nat → Bool) : Frame swapParts 0 s (cluSwap s commits) := by
  unfold cluSwap
  extract_lets before ownerOf evald fresh s1 s2 s3
  have h1 : Frame swapParts 0 s s1 := by
    refine .each (fun c u => .each (fun k v => ?_) u) s
    split
    · exact .ite (fun _ => wr_frame _ (Nat.zero_le _)) (fun _ => .refl)
    · exact .refl
  have h2 : Frame swapParts 0 s1 s2 := .each (fun c u => wr_frame _ (Nat.zero_le _)) _
  have h3 : Frame swapParts 0 s2 s3 := .each (fun c u => .each (fun i v => modLoop_frame c i _) u) _
  exact ((h1.trans h2).trans (h3.trans (clu_frame _))).trans (.each (fun c u => .each (fun k v => capSwap_frame v c k _ _) u) _)

/-! ### Ownership at a swap (R172, R212, R233, R261, R332) -/

theorem grantChg_frame (t : Nat) : Frame [.regs, .out] 0 s (grantChg s t) := .ite (fun _ => .refl) (fun _ => raiseVf_frame _ 5 (Nat.zero_le _))

theorem clearLoop_frame (c : Fin 8) (i : Fin 32) : Frame swapParts 0 s (clearLoop s c i) :=
  (modLoop_frame c i _).trans (.foldl (fun u j => .ite (fun _ => wr_frame _ (Nat.zero_le _)) (fun _ => .refl)) _ _)

theorem evalCh_frame (k : Fin 16) : Frame fioParts counterBase s (evalCh s k) :=
  ((antiPump_frame s k).trans (outStep_frame _ k .close)).trans (outStep_frame _ k .trip)

theorem bcOwnerChanged_frame (k : Fin 16) : Frame swapParts 0 s (bcOwnerChanged s k) := by
  unfold bcOwnerChanged
  extract_lets s1 s2 s3 fix
  have hfix (u : State) (o : BcOut) : Frame fioParts 0 u (fix u o) := by
    unfold fix
    split
    · exact ((setOut_frame u k o .off).widen (hn := Nat.zero_le _)).trans ((modOut_frame _ k o _).widen (hn := Nat.zero_le _))
    · exact ((setOut_frame u k o .off).widen (hn := Nat.zero_le _)).trans ((modOut_frame _ k o _).widen (hn := Nat.zero_le _))
    · exact .refl
  have h2 : Frame fioParts 0 s s2 := ((modCh_frame k _).trans (wb_frame _ _ (Nat.zero_le _))).trans (wb_frame _ _ (Nat.zero_le _))
  have h3 : Frame fioParts 0 s s3 := h2.trans (wr_frame _ (Nat.zero_le _))
  exact ((h3.trans ((hfix s3 .trip).trans (hfix _ .close))).trans ((evalCh_frame _ k).widen (hn := Nat.zero_le _))).widen

theorem loadCores_frame (t : Nat) : Frame swapParts 0 s (loadCores s t) := by
  refine .foldl (fun u l => ?_) _ s
  split
  · exact modCore_frame l _
  · exact .refl

theorem foldl_grantChg_frame (ts : List Nat) : Frame swapParts 0 s (ts.foldl grantChg s) := .foldl (fun u t => (grantChg_frame u t).widen) ts s

theorem ownChange_frame (off : Nat) (v : Word) : Frame swapParts 0 s (ownChange s off v) := by
  have hg (u : State) (t : Nat) : Frame swapParts 0 u (grantChg u t) := (grantChg_frame u t).widen
  unfold ownChange
  extract_lets old s1 s2 ts s3
  have h1 : Frame swapParts 0 s s1 := wr_frame v (Nat.zero_le _)
  split
  · exact .ite (fun _ => h1) (fun _ => h1.trans (hg _ _))
  · exact .ite (fun _ => h1) (fun _ => (h1.trans (clearLoop_frame _ _ _)).trans ((hg _ _).trans (hg _ _)))
  · have h2 : Frame swapParts 0 s1 s2 := by
      unfold s2
      split
      · exact .foldl (fun u j => .ite (fun _ => .refl) (fun _ => bcOwnerChanged_frame u _)) _ _
      · exact .refl
    have h3 : Frame swapParts 0 s2 s3 := by
      unfold s3
      split
      · exact .foldl (fun u t => loadCores_frame u t) _ _
      · exact .refl
    exact ((h1.trans h2).trans h3).trans (foldl_grantChg_frame _ _)

/-- Waiting owners and partitions take effect; nothing else of the commit state changes. -/
theorem swapOwners_spec : Frame (.cmt :: swapParts) 0 s (swapOwners s) ∧
    (swapOwners s).cmt = { s.cmt with waiting := [], part := s.cmt.partNext } := by
  unfold swapOwners
  extract_lets l slots s1 s2 chg
  have hg : Frame swapParts 0 s (slots.foldl grantChg (slotOwners s)) := (modTru_frame _).trans (foldl_grantChg_frame _ _)
  have h2 : Frame swapParts 0 s1 s2 := .foldl (fun u e => ownChange_frame u _ _) _ _
  have h3 := foldl_grantChg_frame (modCmt s2 (fun c => { c with part := c.partNext })) chg
  refine ⟨(((hg.widen.trans (modCmt_frame _)).trans h2.widen).trans (modCmt_frame _)).trans h3.widen, ?_⟩
  rw [h3.cmt_eq]
  have hs1 : s1.cmt = { s.cmt with waiting := [] } := congrArg (fun c : Commit => { c with waiting := [] }) hg.cmt_eq
  have hs2 : s2.cmt = { s.cmt with waiting := [] } := h2.cmt_eq.trans hs1
  exact congrArg (fun c : Commit => { c with part := c.partNext }) hs2

/-! ### The registers of a commit, the pair (R205, R256, R281, R285) -/

theorem commitVector_frame (t : Fin 64) : Frame swapParts 0 s (commitVector s t) :=
  .ite (fun _ => .refl) (fun _ => .ite (fun _ => (modHif_frame _).trans (raiseVf_frame t 3 (Nat.zero_le _))) (fun _ => modHif_frame _))

theorem showCommit_frame : Frame swapParts 0 s (showCommit s) := by
  unfold showCommit
  extract_lets n hi s1
  have h1 : Frame swapParts 0 s s1 :=
    ((bump_frame 1 (Nat.zero_le _)).trans (wr_frame _ (Nat.zero_le _))).trans (wr_frame _ (Nat.zero_le _))
  exact h1.trans (.each (fun t u => .ite (fun _ => ((wr_frame _ (Nat.zero_le _)).trans (wr_frame _ (Nat.zero_le _))).trans
    (commitVector_frame _ t)) (fun _ => .refl)) _)

theorem plu_frame {ps : List Part} {n : Nat} {s : State} (x : Plu) (hp : .plu ∈ ps := by decide) : Frame ps n s { s with plu := x } :=
  .of_part hp (fun q _ => by cases q <;> simp_all [Part.same]) rfl rfl

theorem dropRequests_frame {ps : List Part} {n : Nat} {s : State} (bad : Nat → ArbReq → Bool) (hp : .arb ∈ ps := by decide) :
    Frame ps n s (dropRequests s bad) := arb_frame _ hp

theorem askOut_frame : Frame swapParts 0 s (askOut s) := by
  unfold askOut
  split
  · exact .refl
  · refine .ite (fun _ => .refl) (fun _ => (plu_frame _).trans (.foldl (fun u b => ?_) _ _))
    exact .ite (fun _ => .refl) (fun _ => request_frame _ _)

theorem takeCkpt_frame : Frame swapParts 0 s (takeCkpt s) := by
  unfold takeCkpt
  have hdrop : Frame swapParts 0 s (dropOut s) := (dropRequests_frame _).trans (plu_frame _)
  exact ((hdrop.trans (modPlu_frame _)).trans (wr_frame _ (Nat.zero_le _))).trans (askOut_frame _)

theorem ckptDue_frame : Frame swapParts 0 s (ckptDue s) :=
  .ite (fun _ => .refl) (fun _ => .ite (fun _ => (bump_frame 1 (Nat.zero_le _)).trans (raise_frame 7 (Nat.zero_le _)))
    (fun _ => takeCkpt_frame s))

theorem setPair_swapFrame (st : Nat) : Frame swapParts 0 s (setPair s st) :=
  ((wf_frame _ _ _ (Nat.zero_le _)).trans (raise_frame 0 (Nat.zero_le _))).trans ((logRec_frame _ _ _ _ _ _).widen (hn := Nat.zero_le _))

theorem yieldSwap_frame : Frame swapParts 0 s (yieldSwap s) := by
  unfold yieldSwap
  split
  · exact .refl
  · extract_lets s1 s2 s3 s4
    have h1 : Frame swapParts 0 s s1 := (modPlu_frame _).trans (wb_frame _ _ (Nat.zero_le _))
    have hend (x : Nat) : Frame swapParts 0 s (wf s1 Reg.pluSwapStat 18 16 x) := h1.trans (wf_frame _ _ _ (Nat.zero_le _))
    have hck : Frame swapParts 0 s s3 := (h1.trans ((closeGate_frame s1).widen (hn := Nat.zero_le _))).trans (takeCkpt_frame _)
    have hstop : Frame swapParts 0 s s4 := (hck.trans (stopControl_tenantFrame _).widen).trans (wb_frame _ _ (Nat.zero_le _))
    refine .ite (fun _ => .refl) (fun _ => .ite (fun _ => hend 3) (fun _ => .ite (fun _ => .ite (fun _ => hend 3) (fun _ => ?_))
      (fun _ => (hstop.trans (modPlu_frame _)).trans (setPair_swapFrame _ 1))))
    exact (h1.trans (modPlu_frame _)).trans (wf_frame _ _ _ (Nat.zero_le _))

theorem nextEpoch_frame : Frame swapParts 0 s (nextEpoch s) := by
  unfold nextEpoch wrp
  exact ((modPlu_frame _).trans (wr_frame _ (Nat.zero_le _))).trans ((persist_frame _ _).widen (hn := Nat.zero_le _))

theorem pluSwap_frame : Frame swapParts 0 s (pluSwap s) := by
  unfold pluSwap
  extract_lets s1 s2 s3
  have h1 : Frame swapParts 0 s s3 := by
    unfold s3
    split
    · refine .ite (fun _ => ?_) (fun _ => .refl)
      refine .trans (.trans ?_ (modPlu_frame _)) (setPair_swapFrame _ 0)
      refine .trans ?_ ((wf_frame _ _ _ (Nat.zero_le _)).trans (raise_frame 5 (Nat.zero_le _)))
      exact ((nextEpoch_frame s).trans (bump_frame 1 (Nat.zero_le _))).trans (raise_frame 1 (Nat.zero_le _))
    · exact .refl
  exact (h1.trans (yieldSwap_frame s3)).trans (ckptDue_frame _)

end
end Sys2Proof.Machine
end

section
/-! PROOFS: the swap (O36). -/

namespace Sys2Proof.Machine
set_option Elab.async false

/-! ## The swap (R18, R197, R198, R205) -/

/-- The memory's part of a swap: initial copies, aperture writes, restored items and the commit area join the shadow, which becomes
committed content. -/
def memorySwapped (s : State) : State := swapMemory (commitArea (pluApply (swapAperture (each 64 (fun t s => initCopies s t) s))))

/-- The units' part of a swap: publications, slots, outputs, loop words. -/
def unitsSwapped (s : State) (ups : List (Nat × Entry)) (falls tests : List Nat) : State :=
  swapWords (swapOuts (swapArms (swapPubs s ups falls tests) ups falls) ups falls) ups

/-- The rest of a swap: loops, owners, the registers of the commit, the pair. -/
def ownersSwapped (s : State) (commits : Nat → Bool) : State := pluSwap (showCommit (swapOwners (cluSwap s commits)))

/-- A swap's last step: the phase, and the outputs once more. -/
def swapEnded (s : State) : State := evalAll (modCmt s (fun c => { c with phase := .swapped, updates := [], fallbacks := [] }))

/-- Whether a tenant commits at the swap. -/
def committingAt (s : State) (t : Nat) : Bool := (getTen s (ten t)).committing && t != 0

/-- The tenants that commit in Test. -/
def testsAt (s : State) : List Nat := (List.range 64).filter (fun t => committingAt s t && (getTen s (ten t)).inTest)

section
variable (s : State)

theorem exec_swap (hp : s.cmt.phase = .applied) (hrun : hcSt s ≤ 1) : exec .swap s = .next (
    let u := toInstant s (s.time.edge + deadlineAt s + 5 * usec + 500 * nsec)
    let v := unitsSwapped (memorySwapped u) u.cmt.updates u.cmt.fallbacks (testsAt u)
    if v.cmt.phase ≠ .applied then v else swapEnded (ownersSwapped v (committingAt u))) := by
  have eq : exec .swap s = .next (doSwap s) := rfl
  rw [eq, doSwap, if_neg (by simp [hp, ticking, hrun])]
  rfl

/-! ### The memory -/

theorem initCopies_none (h : ∀ f, (getTen s f).initDue = false) : each 64 (fun t s => initCopies s t) s = s :=
  each_inv (Inv := fun u => u = s) (fun u t hu => by subst hu; rw [initCopies, h t]; rfl) rfl

theorem swapAperture_none (h : s.cmt.aperture = []) : (swapAperture s).mem = s.mem ∧ (swapAperture s).cmt = s.cmt ∧
    Frame [.cmt] counterBase s (swapAperture s) := by
  unfold swapAperture
  rw [h]
  refine ⟨rfl, ?_, modCmt_frame _⟩
  have hd : s.cmt.aperture.drop 1024 = s.cmt.aperture := by rw [h]; rfl
  exact congrArg (fun a => { s.cmt with aperture := a }) hd

theorem pluApply_none (h : s.plu.apply = []) : Frame [.regs, .plu, .out] 0 s (pluApply s) := by
  unfold pluApply
  rw [h]
  exact .ite (fun _ => .refl) (fun _ => (modPlu_frame _).trans (wb_frame _ _ (Nat.zero_le _)))

/-- The commit area's bytes join the shadow. -/
theorem commitArea_shadowed : Shadowed 0x1EFF100 0x1EFF900 s (commitArea s) := by
  unfold commitArea
  extract_lets n hi seq base s1
  have h1 : Shadowed 0x1EFF100 0x1EFF900 s s1 := shadowBytes_shadowed ⟨by omega, by simp [base]⟩
  refine each_inv (Inv := Shadowed 0x1EFF100 0x1EFF900 s) (fun u t hu => ?_) h1
  have hput {v : State} (d : Nat) (b : List Byte) (h : d + b.length ≤ 0x20) :
      Shadowed 0x1EFF100 0x1EFF900 v (shadowBytes v (base + 0x20 * t.val + d) b) := shadowBytes_shadowed ⟨by omega, by omega⟩
  dsimp only
  split
  · exact hu
  · refine hu.trans (.trans ?_ (hput 8 _ (by simp)))
    split
    · exact (hput 0 _ (by simp)).trans (hput 12 _ (by simp))
    · exact .refl

theorem memorySwapped_spec (hinit : ∀ f, (getTen s f).initDue = false) (hap : s.cmt.aperture = []) (hplu : s.plu.apply = []) :
    (∃ w, (memorySwapped s).cmt = { s.cmt with shadow := [], writeBack := w }) ∧
    (∀ a, (a < 0x1EFF100 ∨ 0x1EFF900 ≤ a) → peek (memorySwapped s).mem a = peek (s.cmt.shadow.foldl spliceStretch s.mem) a) ∧
    Frame (.cmt :: .mem :: swapParts) 0 s (memorySwapped s) := by
  obtain ⟨hm, hc, hf⟩ := swapAperture_none s hap
  have hp := pluApply_none (swapAperture s) (by rw [hf.plu_eq, hplu])
  obtain ⟨ha, l, hl, hin⟩ := commitArea_shadowed (pluApply (swapAperture s))
  obtain ⟨hmem, ⟨w, hw⟩, hs⟩ := swapMemory_spec (commitArea (pluApply (swapAperture s)))
  rw [memorySwapped, initCopies_none s hinit]
  refine ⟨⟨w, ?_⟩, fun a h => ?_, ?_⟩
  · rw [hw, hl, hp.cmt_eq, hc]
  · rw [hmem, hl, ha.mem_eq, hp.mem_eq, hm, hp.cmt_eq, hc, List.foldl_append]
    refine peek_splices l fun e he => ?_
    have := hin e he
    omega
  · exact ((hf.widen (hn := Nat.zero_le _)).trans hp.widen).trans ((ha.widen (hn := Nat.zero_le _)).trans (hs.widen (hn := Nat.zero_le _)))

/-! ### The units -/

theorem unitsSwapped_frame {ups : List (Nat × Entry)} (h : ∀ x ∈ ups, ∀ off v, x.2 ≠ .reg off v) (falls tests : List Nat) :
    Frame swapParts 0 s (unitsSwapped s ups falls tests) :=
  (((swapPubs_frame s _ _ _).trans (swapArms_frame _ _ _)).trans (swapOuts_frame _ _ _)).trans (swapWords_frame _ h)

theorem ownersSwapped_spec (commits : Nat → Bool) : Frame (.cmt :: swapParts) 0 s (ownersSwapped s commits) ∧
    (ownersSwapped s commits).cmt.shadow = s.cmt.shadow := by
  have hc := cluSwap_frame s commits
  obtain ⟨ho, hcmt⟩ := swapOwners_spec (cluSwap s commits)
  have hs := (showCommit_frame (swapOwners (cluSwap s commits))).trans (pluSwap_frame _)
  refine ⟨(hc.widen.trans ho).trans hs.widen, ?_⟩
  rw [ownersSwapped, hs.cmt_eq, hcmt, hc.cmt_eq]

theorem swapEnded_frame : Frame (.cmt :: swapParts) 0 s (swapEnded s) :=
  (modCmt_frame _).trans ((evalAll_frame _).widen (hn := Nat.zero_le _))

theorem swapEnded_cmt : (swapEnded s).cmt = { s.cmt with phase := .swapped, updates := [], fallbacks := [] } := by
  rw [swapEnded, (evalAll_frame _).cmt_eq]
  rfl

theorem swap_spec (hp : s.cmt.phase = .applied) (hrun : hcSt s ≤ 1) (hups : ∀ x ∈ s.cmt.updates, ∀ off v, x.2 ≠ .reg off v)
    (hplu : s.plu.apply = []) (hap : s.cmt.aperture = []) (hinit : ∀ f, (getTen s f).initDue = false) :
    ∃ t, exec .swap s = .next t ∧ t.cmt.phase = .swapped ∧ t.cmt.updates = [] ∧ t.cmt.shadow = [] ∧
      (∀ a, (a < 0x1EFF100 ∨ 0x1EFF900 ≤ a) → peek t.mem a = peek (s.cmt.shadow.foldl spliceStretch s.mem) a) ∧
      KeepsBut [.regs, .now, .op, .port, .sw, .core, .ten, .cmt, .arb, .plu, .recorder, .hif, .tru, .clu, .fio, .mem, .out, .freeCtr] s t := by
  rw [exec_swap s hp hrun]
  generalize s.time.edge + deadlineAt s + 5 * usec + 500 * nsec = tm
  have ht := toInstant_keeps s tm
  obtain ⟨⟨w, hw⟩, hmem, hm⟩ := memorySwapped_spec (toInstant s tm) hinit hap hplu
  have hu := unitsSwapped_frame (memorySwapped (toInstant s tm)) (ups := (toInstant s tm).cmt.updates) hups (toInstant s tm).cmt.fallbacks
    (testsAt (toInstant s tm))
  dsimp only
  generalize unitsSwapped (memorySwapped (toInstant s tm)) (toInstant s tm).cmt.updates (toInstant s tm).cmt.fallbacks
    (testsAt (toInstant s tm)) = v at hu ⊢
  have hv : v.cmt = { s.cmt with shadow := [], writeBack := w } := by rw [hu.cmt_eq, hw]; rfl
  obtain ⟨ho, hshadow⟩ := ownersSwapped_spec v (committingAt (toInstant s tm))
  have he := swapEnded_frame (ownersSwapped v (committingAt (toInstant s tm)))
  have hc := swapEnded_cmt (ownersSwapped v (committingAt (toInstant s tm)))
  rw [if_neg (by rw [hv]; exact not_not.mpr hp)]
  refine ⟨_, rfl, by rw [hc], by rw [hc], ?_, fun a h => ?_, ?_⟩
  · rw [hc]
    exact hshadow.trans (by rw [hv])
  · rw [he.mem_eq, ho.mem_eq, hu.mem_eq]
    exact hmem a h
  · exact ((ht.mono (by decide)).trans (hm.trans hu.widen).keepsBut).trans (ho.trans he).keepsBut

end
end Sys2Proof.Machine
end

section
/-! PROOFS: the Loom at an edge (O36). -/

namespace Sys2Proof.Machine
set_option Elab.async false

/-! ## The Loom at an edge (R42, R92, R95, R97, R99 to R103, R105 to R109) -/

/-- The parts that the blocks change at an edge before the cores start afresh. -/
abbrev edgeParts : List Part := [.regs, .port, .sw, .loom, .ten, .spare, .arb, .recorder, .arc, .hif, .hdl, .clu, .out, .freeCtr]

section
variable {ps : List Part} {n : Nat} {s : State}

theorem modLoom_frame (f : Loom → Loom) (hp : .loom ∈ ps := by decide) : Frame ps n s (modLoom s f) :=
  .of_part hp (fun q _ => by cases q <;> simp_all [Part.same, modLoom]) rfl rfl
theorem setWarp_frame (w : Fin 512) (x : WarpSt) (hp : .loom ∈ ps := by decide) : Frame ps n s (setWarp s w x) :=
  .of_part hp (fun q _ => by cases q <;> simp_all [Part.same]) rfl rfl
theorem modWarp_frame (w : Fin 512) (f : WarpSt → WarpSt) (hp : .loom ∈ ps := by decide) : Frame ps n s (modWarp s w f) :=
  setWarp_frame w _ hp
theorem modHdl_frame (f : Heddle → Heddle) (hp : .hdl ∈ ps := by decide) : Frame ps n s (modHdl s f) := hdl_frame _ hp
theorem modUnit_frame (u : Fin 17) (f : HUnit → HUnit) (hp : .hdl ∈ ps := by decide) : Frame ps n s (modUnit s u f) := hdl_frame _ hp

end

section
variable (s : State)

theorem edge_wr (off : Nat) (v : Word) : Frame edgeParts 0 s (wr s off v) := wr_frame v (Nat.zero_le _)
theorem edge_wb (off i : Nat) (b : Bool) : Frame edgeParts 0 s (wb s off i b) := wb_frame i b (Nat.zero_le _)
theorem edge_wf (off hi lo x : Nat) : Frame edgeParts 0 s (wf s off hi lo x) := wf_frame hi lo x (Nat.zero_le _)
theorem edge_wr64 (lo hi x : Nat) : Frame edgeParts 0 s (wr64 s lo hi x) := (edge_wr s _ _).trans (edge_wr _ _ _)
theorem edge_bump (off k : Nat) : Frame edgeParts 0 s (bump s off k) := bump_frame k (Nat.zero_le _)
theorem edge_raise (off bit : Nat) : Frame edgeParts 0 s (raise s off bit) := raise_frame bit (Nat.zero_le _)
theorem edge_logRec (irq severity cls detail : Nat) (ids : List Nat) : Frame edgeParts 0 s (logRec s irq severity cls detail ids) :=
  (logRec_frame s irq severity cls detail ids).widen (hn := Nat.zero_le _)
theorem edge_setTState (t : Fin 64) (st : Nat) : Frame edgeParts 0 s (setTState s t st) :=
  (setTState_logFrame s t st).widen (hn := Nat.zero_le _)

theorem archiveFeed_frame (row : Option Row) : Frame edgeParts 0 s (archiveFeed s row) := by
  unfold archiveFeed
  refine .ite (fun _ => .refl) (fun _ => .ite (fun _ => .ite (fun _ => .refl) (fun _ => (edge_bump _ _ _).trans (edge_raise _ _ _)))
    (fun _ => ?_))
  exact ((modArc_frame _).trans (askFree_frame _ _ _ _ (n := 0)).widen).trans ((showArc_frame _).widen (hn := Nat.zero_le _))

/-! ### Rows -/

theorem closeWarp_frame (placed : Option Sample) (flushed : Bool) (w : Fin 512) : Frame edgeParts 0 s (closeWarp s placed flushed w).2 := by
  unfold closeWarp
  extract_lets c x st miss absentN presentN
  split
  extract_lets e s1 s2 s3 s4
  have h2 : Frame edgeParts 0 s s2 := ((setWarp_frame w _).trans (edge_wf _ _ _ _ _)).trans (edge_wf _ _ _ _ _)
  have h3 : Frame edgeParts 0 s s3 := h2.trans (.ite (fun _ => edge_bump _ _ _) (fun _ => .refl))
  have h4 : Frame edgeParts 0 s s4 :=
    h3.trans (.ite (fun _ => (edge_raise _ _ _).trans (edge_logRec _ _ _ _ _ _)) (fun _ => .refl))
  exact .ite (fun _ => h4.trans (edge_raise _ _ _)) (fun _ => h4)

theorem histOverflow_frame : Frame edgeParts 0 s (histOverflow s) := by
  unfold histOverflow
  split
  · refine .ite (fun _ => ?_) (fun _ => .refl)
    exact ((((modLoom_frame _).trans (modLoom_frame _)).trans (archiveFeed_frame _ _)).trans (edge_raise _ _ _)).trans
      (edge_logRec _ _ _ _ _ _)
  · exact .refl

theorem closeRow_frame (k : Nat) (flushed disc : Bool) : Frame edgeParts 0 s (closeRow s k flushed disc) := by
  rw [closeRow]
  split
  rename_i es u heq
  have hu : Frame edgeParts 0 s u := by
    have h := congrArg Prod.snd heq
    dsimp only at h
    rw [← h]
    refine List.foldlRecOn (motive := fun a : Tab WarpEntry × State => Frame edgeParts 0 s a.2) _ _ .refl fun a ha w _ => ?_
    split
    · refine ha.trans (.trans ?_ (closeWarp_frame _ _ _ _))
      refine .ite (fun _ => ?_) (fun _ => .refl)
      split
      · exact edge_bump _ _ _
      · exact .refl
    · exact ha
  extract_lets pb flags idx row feed s1 s2
  have h1 : Frame edgeParts 0 u s1 := modLoom_frame _
  have h2 : Frame edgeParts 0 s1 s2 := edge_wr64 _ _ _ _
  exact (hu.trans (h1.trans h2)).trans (histOverflow_frame s2)

theorem rowEdge_frame (disc : Bool) : Frame edgeParts 0 s (rowEdge s disc) := by
  unfold rowEdge
  exact (closeRow_frame s _ _ disc).trans (.ite (fun _ => modLoom_frame _) (fun _ => .refl))

theorem blockEdge_frame (disc : Bool) : Frame edgeParts 0 s (blockEdge s disc) := by
  refine .each (fun t u => ?_) s
  dsimp only
  split
  · exact modLoom_frame _
  · exact modLoom_frame _

theorem leaveSim_frame : Frame edgeParts 0 s (leaveSim s) := by
  refine .foldl (fun u w => .ite (fun _ => .ite (fun _ => ?_) (fun _ => modWarp_frame w _)) (fun _ => .refl)) _ s
  exact (((modWarp_frame w _).trans (modLoom_frame _)).trans (modWarp_frame w _)).trans (edge_wb _ _ _ _)

/-! ### Gates and grants -/

theorem dropColls_frame (u : Fin 17) (g : Nat) (keep : GColl → Bool) : Frame edgeParts 0 s (dropColls s u g keep) :=
  .ite (fun _ => .refl) (fun _ => .ite (fun _ => modUnit_frame u _)
    (fun _ => ((modUnit_frame u _).trans (edge_bump _ _ _)).trans (edge_raise _ _ _)))

theorem gateFlush_frame : Frame edgeParts 0 s (gateFlush s) := .each (fun _ v => .each (fun _ w => dropColls_frame w _ _ _) v) s

theorem gateEdge_frame (k : Int) : Frame edgeParts 0 s (gateEdge s k) := .each (fun _ v => .each (fun _ w => dropColls_frame w _ _ _) v) s

theorem gateGrant_frame (w : Fin 512) : Frame edgeParts 0 s (gateGrant s w) := by
  unfold gateGrant
  split
  · exact .refl
  · exact .each (fun g u => .ite (fun _ => dropColls_frame u _ _ _) (fun _ => .refl)) s

theorem loomGrant_frame (w : Fin 512) (c : WarpCfg) (m : Bool) : Frame edgeParts 0 s (loomGrant s w c m) := by
  unfold loomGrant
  extract_lets o fresh keep s1 s2
  have h2 : Frame edgeParts 0 s s2 := ((edge_wr _ _ _).trans (edge_wr _ _ _)).trans ((edge_wr _ _ _).trans (edge_wr _ _ _))
  exact .ite (fun _ => (h2.trans ((modLoom_frame _).trans (setWarp_frame w _))).trans (edge_wr _ _ _))
    (fun _ => .ite (fun _ => h2.trans (modWarp_frame w _)) (fun _ => h2))

theorem loomRelease_frame (w : Fin 512) : Frame edgeParts 0 s (loomRelease s w) :=
  ((modLoom_frame _).trans (setWarp_frame w _)).trans ((edge_wr _ _ _).trans (edge_wr _ _ _))

theorem edge_grantChg (t : Nat) : Frame edgeParts 0 s (grantChg s t) := (grantChg_frame s t).widen

theorem regrant_frame (w : Fin 512) : Frame edgeParts 0 s (regrant s w) :=
  .ite (fun _ => ((loomGrant_frame s w _ true).trans (gateGrant_frame _ w)).trans (edge_grantChg _ _)) (fun _ => .refl)

theorem modStage_frame (u : Fin 17) (f : HUnit → HUnit) : Frame [.hdl] 0 s (modStage s u f) := by
  unfold modStage
  exact (modUnit_frame u f).trans (.ite (fun _ => modUnit_frame 16 _) (fun _ => .refl))

theorem unitAnswer_frame (u reason stage : Nat) : Frame edgeParts 0 s (unitAnswer s u reason stage) :=
  .ite (fun _ => (edge_wr _ _ _).trans (edge_wb _ _ _ _)) (fun _ => (edge_wr _ _ _).trans (edge_wb _ _ _ _))

theorem applyBinding_frame (u : Fin 17) (j : Nat) (v : Word) : Frame edgeParts 0 s (applyBinding s u j v) := by
  unfold applyBinding
  refine .trans ?_ (unitAnswer_frame _ _ _ _)
  exact (Frame.ite (fun _ => (modStage_frame s u _).widen) (fun _ => .refl)).trans (edge_wr _ _ _)

theorem applyGrant_frame (x : Session) : Frame edgeParts 0 s (applyGrant s x) := by
  unfold applyGrant
  extract_lets i diff changed setEntry old s1 w old' c s2 s3 s4 s5
  have hset (u : State) : Frame edgeParts 0 u (setEntry u) := by
    refine (Frame.foldl (fun v y => sw_frame _) x.entries u).trans (.foldl (fun v k => regrant_frame v _) _ _)
  have hend (u : State) (a b : Nat) : Frame edgeParts 0 u (if a = b then grantChg u a else grantChg (grantChg u a) b) :=
    .ite (fun _ => edge_grantChg _ _) (fun _ => (edge_grantChg _ _).trans (edge_grantChg _ _))
  refine .ite (fun _ => ((hset s).trans (modHif_frame _)).trans (hend _ _ _)) (fun _ => .trans ?_ (hend _ _ _))
  have h3 : Frame edgeParts 0 s s3 :=
    ((hset s).trans (gateGrant_frame _ w)).trans (.foldl (fun u b => applyBinding_frame u _ _ _) _ _)
  refine .ite (fun _ => .trans ?_ (loomRelease_frame _ w)) (fun _ => (h3.trans (loomGrant_frame _ w c changed)).trans (gateGrant_frame _ w))
  refine h3.trans ?_
  unfold s4
  split
  · exact edge_wr _ _ _
  · exact .refl

theorem applyGrants_frame : Frame edgeParts 0 s (applyGrants s) :=
  (modHif_frame _).trans (.foldl (fun u x => applyGrant_frame u x) _ _)

/-! ### Playback -/

theorem askDdr_frame {n : Nat} (port accesses off : Nat) : Frame [.arb] n s (askDdr s port accesses off) :=
  .ite (fun _ => .refl) (fun _ => request_frame _ _)

theorem askSpread_frame (port off k : Nat) : Frame edgeParts 0 s (askSpread s port off k) := by
  refine .foldl (fun u ch => ?_) _ s
  split
  · exact .refl
  · exact (askDdr_frame u _ _ _ (n := 0)).widen

theorem pbTargets_frame (on : Bool) : Frame edgeParts 0 s (pbTargets s on) :=
  .ite (fun _ => .foldl (fun _ _ => .ite (fun _ => edge_wb _ _ _ _) (fun _ => .refl)) _ s) (fun _ => .each (fun _ _ => edge_wb _ _ _ _) s)

theorem pbIdle_frame (done : Bool) : Frame edgeParts 0 s (pbIdle s done) := by
  unfold pbIdle
  have h := ((edge_wf s Reg.loomPbStatus 1 0 0).trans (pbTargets_frame _ false)).trans
    (modLoom_frame (fun l => { l with pbStop := false, pbHold := [] }))
  exact .ite (fun _ => h.trans (edge_raise _ _ _)) (fun _ => h)

theorem pbEmit_frame (row : Nat) : Frame edgeParts 0 s (pbEmit s row) := by
  refine .foldl (fun u e => .ite (fun _ => .ite (fun _ => ?_) (fun _ => modLoom_frame _)) (fun _ => modLoom_frame _)) _ s
  have hport (v : State) (f : Sys2Proof.Frame) (ports : List (Fin 144)) (c : Bool) :
      Frame edgeParts 0 v (if c then originate v f 6 ports else v) := .ite (fun _ => (originate_frame v f 6 ports).widen) (fun _ => .refl)
  exact ((modLoom_frame _).trans (hport _ _ _ _)).trans (.ite (fun _ => modLoom_frame _) (fun _ => .refl))

theorem pbRun_frame : Frame edgeParts 0 s (pbRun s) := by
  unfold pbRun
  extract_lets cons rows base play
  have hplay (c : Nat) : Frame edgeParts 0 s (play s c) := ((askSpread_frame s 0 _ _).trans (pbEmit_frame _ c)).trans (edge_wr _ _ _)
  exact .ite (fun _ => hplay _) (fun _ => .ite (fun _ => pbIdle_frame s true) (fun _ => .ite (fun _ => hplay _)
    (fun _ => (edge_bump _ _ _).trans (edge_raise _ _ _))))

theorem pbEdge_frame (stepEdge : Bool) : Frame edgeParts 0 s (pbEdge s stepEdge) := by
  have hstart : Frame edgeParts 0 s (pbTargets (wf s Reg.loomPbStatus 1 0 2) true) := (edge_wf _ _ _ _ _).trans (pbTargets_frame _ true)
  refine .ite (fun _ => .refl) (fun _ => .ite (fun _ => pbIdle_frame s true) (fun _ => .ite (fun _ => .ite
    (fun _ => hstart.trans (pbRun_frame _)) (fun _ => .ite (fun _ => ?_) (fun _ => .refl))) (fun _ => .trans ?_ (pbRun_frame _))))
  · exact ((hstart.trans (edge_wb _ _ _ _)).trans (edge_logRec _ _ _ _ _ _)).trans (pbRun_frame _)
  · exact .ite (fun _ => edge_wb _ _ _ _) (fun _ => .refl)

theorem loomEdge_frame (disc : Bool) : Frame edgeParts 0 s (loomEdge s disc) := by
  unfold loomEdge
  extract_lets chg s1 s2 cut s3 s4 s5
  have hdelay (d : Option Nat) : Frame edgeParts 0 s1 (match d with | some d => wf s1 Reg.loomStat 6 0 d | none => s1) := by
    cases d with
    | some d => exact edge_wf _ _ _ _ _
    | none => exact .refl
  have h2 : Frame edgeParts 0 s s2 := Frame.trans (t := s1) (modLoom_frame _) (hdelay chg)
  have h3 : Frame edgeParts 0 s2 s3 := .ite (fun _ => (modLoom_frame _).trans (gateFlush_frame _)) (fun _ => .refl)
  have h4 : Frame edgeParts 0 s3 s4 := ((blockEdge_frame s3 disc).trans (applyGrants_frame _)).trans (leaveSim_frame _)
  have h5 : Frame edgeParts 0 s4 s5 := .ite (fun _ => rowEdge_frame _ _) (fun _ => .refl)
  exact ((h2.trans h3).trans (h4.trans h5)).trans ((gateEdge_frame _ _).trans (pbEdge_frame _ disc))

theorem dropTick_frame : Frame edgeParts 0 s (dropTick s) := by
  unfold dropTick
  exact (clu_frame _).trans (dropRequests_frame _)

end
end Sys2Proof.Machine
end

section
/-! PROOFS: cores, tenants and units at an edge (O36). -/

namespace Sys2Proof.Machine
set_option Elab.async false

/-! ## Cores, tenants and units at an edge (R179, R181, R187, R192, R193, R203, R210, R347) -/

section
variable (s : State)

theorem spareTakes_frame (c : Fin 8) : Frame (.core :: edgeParts) 0 s (spareTakes s c) := by
  unfold spareTakes
  extract_lets x
  split
  · refine .ite (fun _ => ?_) (fun _ => modSpare_frame c _)
    extract_lets l t old s1 s2 s3 s4 s5 s6
    have h1 : Frame (.core :: edgeParts) 0 s s1 := ((edge_wf s _ _ _ _).trans (edge_wr _ _ _)).widen
    have h3 : Frame (.core :: edgeParts) 0 s1 s3 := (modCore_frame l _).trans (modSpare_frame c _)
    have h5 : Frame edgeParts 0 s3 s5 := (edge_wf _ _ _ _ _).trans
      (.ite (fun _ => (edge_wb _ _ _ _).trans (edge_wb _ _ _ _)) (fun _ => .refl))
    have h6 : Frame edgeParts 0 s5 s6 := modTen_frame t _
    exact (h1.trans h3).trans ((h5.trans h6).trans ((edge_raise _ _ _).trans (edge_logRec _ _ _ _ _ _))).widen
  · exact modSpare_frame c _

/-- The cores at an edge: spares take over, and every core is idle. -/
def coresFresh (s : State) : State := each 64 (fun l s => freshCore s l) (each 8 (fun c s => spareTakes s c) s)

theorem coresFresh_frame : Frame (.core :: edgeParts) 0 s (coresFresh s) :=
  (Frame.each (fun c u => spareTakes_frame u c) s).trans (.each (fun l u => modCore_frame l _) _)

/-- No core runs. -/
def NoneRuns (s : State) : Prop := ∀ l, (getCore s l).run ≠ .running

theorem coresFresh_idle : NoneRuns (coresFresh s) := by
  intro l
  refine each_forall (P := fun l s => (getCore s l).run ≠ .running) (fun i u => ?_) (fun i j u h => ?_) _ l
  · rw [freshCore, modCore, getCore_setCore_self]
    simp
  · rw [freshCore, modCore, getCore_setCore]
    split
    · simp
    · exact h

theorem NoneRuns.congr {s t : State} (h : NoneRuns s) (hc : t.core = s.core) : NoneRuns t := fun l => by
  rw [getCore, hc, ← getCore]
  exact h l

theorem freshPhys_frame (c : Fin 8) (p : Fin 9) : Frame edgeParts 0 s (freshPhys s c p) :=
  .ite (fun _ => edge_wb _ _ _ _) (fun _ => edge_wr _ _ _)

theorem startLoops_frame (t : Fin 64) : Frame edgeParts 0 s (startLoops s t) := by
  unfold startLoops
  have hclear : Frame edgeParts 0 s (each 8 (fun c s => each 32 (fun i s =>
      if loopOwner s c i = t then wr (modLoop s c i (fun _ => .reset)) (loopReg c i 30) 0 else s) s) s) :=
    .each (fun c u => .each (fun i v => .ite (fun _ => (modLoop_frame c i _).trans (edge_wr _ _ _)) (fun _ => .refl)) u) s
  refine hclear.trans ?_
  dsimp only
  split
  · refine .foldl (fun u e => .ite (fun _ => .foldl (fun v w => .ite (fun _ => (loopWrite_frame v _ _ _ _).widen) (fun _ => .refl)) _ u)
      (fun _ => .refl)) _ _
  · exact .refl

theorem startEdge_frame (t : Fin 64) : Frame edgeParts 0 s (startEdge s t) := by
  unfold startEdge
  extract_lets x st s1 s2 s3 b
  have h1 : Frame edgeParts 0 s s1 := .ite (fun _ => startLoops_frame s t) (fun _ => .refl)
  have h2 : Frame edgeParts 0 s s2 := (h1.trans (modTen_frame t _)).trans (edge_setTState _ t st)
  have h3 : Frame edgeParts 0 s s3 := h2.trans (.ite (fun _ => .refl) (fun _ => edge_logRec _ _ _ _ _ _))
  exact .ite (fun _ => .refl) (fun _ => .ite (fun _ => h3.trans (modLoom_frame _)) (fun _ => h3))

theorem freshTick_frame (t : Fin 64) : Frame edgeParts 0 s (freshTick s t) := by
  unfold freshTick
  exact ((modTen_frame t _).trans (startEdge_frame _ t)).trans (modTen_frame t _)

theorem shadowCore_frame (c : Fin 8) (k : Option Nat) : Frame edgeParts 0 s (shadowCore s c k) := by
  unfold shadowCore
  extract_lets s1
  have h1 : Frame edgeParts 0 s s1 := modSpare_frame c _
  refine h1.trans ?_
  cases k with
  | none => exact edge_wf _ _ _ _ _
  | some k => exact ((edge_wf _ _ _ _ _).trans (askFree_frame _ _ _ _ (n := 0)).widen).trans (askBanks_frame _ _ _ (n := 0)).widen

theorem shadowEdge_frame (c : Fin 8) : Frame edgeParts 0 s (shadowEdge s c) := by
  unfold shadowEdge
  extract_lets s1
  have h1 : Frame edgeParts 0 s s1 := .ite (fun _ => shadowCore_frame s c none) (fun _ => .refl)
  split
  · exact h1
  · exact (h1.trans (.ite (fun _ => shadowCore_frame _ c _) (fun _ => .refl))).trans (modSpare_frame c _)

theorem doShadowPeriodStart_frame : Frame edgeParts 0 s (doShadowPeriodStart s) := by
  unfold doShadowPeriodStart
  refine .ite (fun _ => .refl) (fun _ => ?_)
  split
  · exact .refl
  · extract_lets s1 s2
    have h1 : Frame edgeParts 0 s s1 := modHdl_frame _
    refine (h1.trans ?_).trans (modStage_frame s2 _ id).widen
    exact (((edge_wf _ _ _ _ _).trans (edge_wf _ _ _ _ _)).trans (edge_wb _ _ _ _)).trans ((edge_wr _ _ _).trans (edge_wr _ _ _))

theorem heddleEdge_frame : Frame edgeParts 0 s (heddleEdge s) :=
  .ite (fun _ => (modHdl_frame _).trans (doShadowPeriodStart_frame _)) (fun _ => modHdl_frame _)

/-- Physical cores, tenants, spares and the Heddle at an edge. -/
def tenantsFresh (s : State) : State :=
  let s := each 8 (fun c s => each 9 (fun p s => freshPhys s c p) s) s
  heddleEdge (each 8 (fun c s => shadowEdge s c) (each 64 (fun t s => if t = 0 then s else freshTick s t) s))

theorem tenantsFresh_frame : Frame edgeParts 0 s (tenantsFresh s) := by
  have hp : Frame edgeParts 0 s (each 8 (fun c s => each 9 (fun p s => freshPhys s c p) s) s) :=
    .each (fun c u => .each (fun p v => freshPhys_frame v c p) u) s
  have ht (u : State) : Frame edgeParts 0 u (each 64 (fun t s => if t = 0 then s else freshTick s t) u) :=
    .each (fun t u => .ite (fun _ => .refl) (fun _ => freshTick_frame u t)) u
  exact ((hp.trans (ht _)).trans (.each (fun c u => shadowEdge_frame u c) _)).trans (heddleEdge_frame _)

/-! ### Delivery -/

theorem clearMarks_frame (t : Fin 64) : Frame edgeParts 0 s (clearMarks s t) := by
  unfold clearMarks
  exact (Frame.foldl (fun u e => edge_wf _ _ _ _ _) _ s).trans (.foldl (fun u e => edge_wf _ _ _ _ _) _ _)

/-- A delivery fills a core's memory; the core runs or not as before. -/
theorem deliverCore_spec (t : Fin 64) (im : Image) (restore : Bool) (l : Fin 64) :
    Frame (.core :: edgeParts) 0 s (deliverCore s t im restore l) ∧ (NoneRuns s → NoneRuns (deliverCore s t im restore l)) := by
  unfold deliverCore
  extract_lets area init kept s1
  have h1 : Frame [.arb] 0 s s1 := .ite (fun _ => askBanks_frame s 8 _) (fun _ => .refl)
  refine ⟨h1.widen.trans (modCore_frame l _), fun hs k => ?_⟩
  rw [modCore, getCore_setCore]
  split
  · exact hs.congr h1.core_eq l
  · exact hs.congr h1.core_eq k

/-- A delivery: every part but those of an edge and the cores stays, and no core starts to run. -/
def Delivers (s t : State) : Prop := Frame (.core :: edgeParts) 0 s t ∧ (NoneRuns s → NoneRuns t)

theorem Delivers.of_frame {s t : State} (h : Frame edgeParts 0 s t) : Delivers s t := ⟨h.widen, fun hs => hs.congr h.core_eq⟩
theorem Delivers.trans {s t u : State} (h : Delivers s t) (k : Delivers t u) : Delivers s u := ⟨h.1.trans k.1, fun hs => k.2 (h.2 hs)⟩
theorem Delivers.refl {s : State} : Delivers s s := .of_frame .refl

theorem deliverTenant_delivers (t : Fin 64) : Delivers s (deliverTenant s t) := by
  unfold deliverTenant
  split
  · rename_i im him
    refine iteInduction (motive := Delivers s) (fun _ => .refl) (fun _ => ?_)
    extract_lets x s1
    have h1 : Delivers s s1 := .of_frame (modTen_frame t _)
    refine (h1.trans ?_).trans (.of_frame (clearMarks_frame _ t))
    refine List.foldlRecOn (motive := Delivers _) _ _ .refl fun u hu l _ => hu.trans ?_
    split
    · exact deliverCore_spec u t im _ l
    · exact .refl
  · exact .refl

theorem shuttleTime_frame (c : Fin 8) : Frame edgeParts 0 s (shuttleTime s c) :=
  .ite (fun _ => ((drawLe_frame 3000).trans (edge_wf _ _ _ _ _)).trans (edge_wf _ _ _ _ _)) (fun _ => .refl)

/-- The Shuttle's deliveries, and their times. -/
def delivered (s : State) : State := each 8 (fun c s => shuttleTime s c) (each 64 (fun t s => deliverTenant s t) s)

theorem delivered_delivers : Delivers s (delivered s) :=
  Delivers.trans (each_inv (Inv := Delivers s) (fun u t hu => hu.trans (deliverTenant_delivers u t)) .refl)
    (.of_frame (.each (fun c u => shuttleTime_frame u c) _))

theorem clearChanges_frame : Frame [.fio, .sw, .hdl] 0 s (clearChanges s) :=
  ⟨fun p hp => by cases p <;> simp_all [Part.same, clearChanges], fun _ _ => rfl, List.Sublist.refl _⟩

/-! ## The pair at an edge (R275, R283 to R285) -/

/-- The parts that the opening of the gate can change. -/
abbrev openParts : List Part := .plu :: .tru :: .fio :: edgeParts

/-- The opening of the gate: of the commit state it may change the shadow alone. -/
structure Opening (s t : State) : Prop where
  frame : Frame (.cmt :: .mem :: openParts) 0 s t
  cmt : ∃ sh, t.cmt = { s.cmt with shadow := sh }

namespace Opening
variable {s t u : State}
theorem of_frame (h : Frame openParts 0 s t) : Opening s t := ⟨h.widen, _, h.cmt_eq⟩
theorem trans (h : Opening s t) (k : Opening t u) : Opening s u := by
  obtain ⟨x, hx⟩ := h.cmt
  obtain ⟨y, hy⟩ := k.cmt
  exact ⟨h.frame.trans k.frame, y, by rw [hy, hx]⟩

theorem reserve (h : Opening s t) : t.cmt.reserve = s.cmt.reserve := by
  obtain ⟨sh, hsh⟩ := h.cmt
  rw [hsh]

end Opening

theorem applyItem_opening (i : CkptItem) : Opening s (applyItem s i) := by
  unfold applyItem
  split
  · exact ⟨(shadowWrite_frame s _ _ _).trans (shadowWrite_frame _ _ _ _), _, rfl⟩
  · exact .of_frame (.trans (.foldl (fun u e => (loopWrite_frame u _ _ _ _).widen) _ s) (modLoop_frame _ _ _))
  · exact .of_frame (modPub_frame _ _)
  · exact .of_frame (modSlot_frame _ _)
  · exact .of_frame (modTen_frame _ _)
  · exact .of_frame .refl

theorem restoreYield_opening : Opening s (restoreYield s) := by
  unfold restoreYield
  extract_lets l m s1
  have h1 : Opening s s1 := ⟨mem_frame _, _, rfl⟩
  exact (List.foldlRecOn (motive := Opening s) _ _ h1 fun u hu i _ => hu.trans (applyItem_opening u i)).trans (.of_frame (modPlu_frame _))

theorem openGate_frame : Frame openParts 0 s (openGate s) :=
  ((wb_frame _ _ (Nat.zero_le _)).trans (modPlu_frame _)).trans ((evalAll_frame _).widen (hn := Nat.zero_le _))

theorem logBudgets_frame (t : Fin 64) : Frame edgeParts 0 s (logBudgets s t) := by
  refine .foldl (fun u l => ?_) _ s
  split
  · exact .ite (fun _ => edge_logRec _ _ _ _ _ _) (fun _ => .refl)
  · exact .refl

theorem beginStart_frame (t : Fin 64) (n : Nat) (test : Bool) : Frame openParts 0 s (beginStart s t n test) := by
  unfold beginStart
  refine .trans (.trans ?_ (.ite (fun _ => plu_frame _) (fun _ => .refl))) ((logBudgets_frame _ t).trans (edge_setTState _ t 2)).widen
  refine Frame.widen (qs := edgeParts) (m := 0) ?_
  exact ((modTen_frame t _).trans (((edge_wr _ _ _).trans (edge_wr _ _ _)).trans (edge_wr _ _ _))).trans
    (.foldl (fun u l => edge_wr _ _ _) _ _)

theorem startControl_frame (ts : List (Fin 64)) (n : Nat) : Frame openParts 0 s (startControl s ts n) :=
  .foldl (fun u t => .ite (fun _ => beginStart_frame u t n false) (fun _ => .refl)) ts s

/-- Unless control tenants go back to the image of a yield, the memory stays. -/
theorem pluEdge_spec : Opening s (pluEdge s) ∧ (s.plu.restart = false → (pluEdge s).mem = s.mem) := by
  unfold pluEdge
  split
  · rename_i n hn
    by_cases hc : n ≤ s.time.tick ∧ holder s ∧ !failing s
    · rw [if_pos hc]
      dsimp only
      have hopen (u : State) : Frame openParts 0 u (openGate (modPlu u (fun p => { p with restart := false }))) :=
        (modPlu_frame _).trans (openGate_frame _)
      cases hr : s.plu.restart with
      | false =>
        have h := hopen s
        exact ⟨.of_frame h, fun _ => h.mem_eq⟩
      | true =>
        refine ⟨(restoreYield_opening s).trans (.of_frame ((hopen _).trans (.foldl (fun u t => .ite (fun _ => ?_) (fun _ => .refl)) _ _))),
          fun h => by cases h⟩
        exact (startControl_frame u _ _).trans (modTen_frame t _)
    · rw [if_neg hc]
      exact ⟨.of_frame .refl, fun _ => rfl⟩
  · exact ⟨.of_frame .refl, fun _ => rfl⟩

end
end Sys2Proof.Machine
end

section
/-! PROOFS: the tick edge and the settled statement (O36). -/

namespace Sys2Proof.Machine
set_option Elab.async false

/-! ## The tick edge (R40, R42 to R46) -/

/-- The parts that a tick edge can change, but for the present, operating time and the Time Unit. -/
abbrev tickParts : List Part := .cmt :: .mem :: .core :: openParts

/-- The reserve in force from an edge on. -/
def reserveTaken (s : State) : State := modCmt s (fun c => { c with reserve := rf s Reg.cmtCfg 5 0 })

/-- The blocks at an edge: arbiters, Loom and gates, and what the last tick leaves behind. -/
def blocksEdged (s : State) (disc : Bool) : State := dropTick (loomEdge (settleAll (reserveTaken s)) disc)

/-- An edge up to its delivery. -/
def edgeRun (s : State) (disc : Bool) : State := pluEdge (tenantsFresh (coresFresh (blocksEdged s disc)))

/-- The end of an edge: the tick is delivered, unless the module has left its tick path. -/
def edgeEnded (s : State) : State := if ticking s then setPhase (clearChanges (delivered s)) .delivered else clearChanges s

section
variable (s : State) (disc : Bool)

theorem exec_tickEdge_halted (h : hcSt s = 3) : exec .tickEdge s = .next s := by
  have eq : exec .tickEdge s = .next (doTickEdge s) := rfl
  rw [eq, doTickEdge, if_pos h]

theorem exec_tickEdge {u : State} (h : hcSt s ≠ 3) (hn : nextEdge s = (disc, u)) :
    exec .tickEdge s = .next (edgeEnded (edgeRun (if disc then skipDops u else u) disc)) := by
  have eq : exec .tickEdge s = .next (doTickEdge s) := rfl
  rw [eq, doTickEdge, if_neg h, hn]
  rfl

theorem blocksEdged_spec : Frame (.cmt :: .plu :: edgeParts) 0 s (blocksEdged s disc) ∧
    (blocksEdged s disc).cmt.reserve = rf s Reg.cmtCfg 5 0 ∧ (blocksEdged s disc).plu.restart = s.plu.restart := by
  have hr : Frame [.cmt] 0 s (reserveTaken s) := modCmt_frame _
  have hg := settleAll_granted (reserveTaken s)
  obtain ⟨w, hw⟩ := hg.cmt
  obtain ⟨r, o, hp⟩ := hg.plu
  have hl := (loomEdge_frame (settleAll (reserveTaken s)) disc).trans (dropTick_frame _)
  refine ⟨(hr.widen.trans (hg.frame.widen (hn := Nat.zero_le _))).trans hl.widen, ?_, ?_⟩
  · rw [blocksEdged, hl.cmt_eq, hw]
    rfl
  · rw [blocksEdged, hl.plu_eq, hp]
    rfl

theorem edgeRun_spec : Frame tickParts 0 s (edgeRun s disc) ∧ (edgeRun s disc).cmt.reserve = rf s Reg.cmtCfg 5 0 ∧
    NoneRuns (edgeRun s disc) ∧ (s.plu.restart = false → (edgeRun s disc).mem = s.mem) := by
  obtain ⟨hb, hreserve, hrestart⟩ := blocksEdged_spec s disc
  have hc := coresFresh_frame (blocksEdged s disc)
  have ht := tenantsFresh_frame (coresFresh (blocksEdged s disc))
  obtain ⟨ho, hmem⟩ := pluEdge_spec (tenantsFresh (coresFresh (blocksEdged s disc)))
  refine ⟨(hb.widen.trans hc.widen).trans (ht.widen.trans ho.frame.widen), ?_, ?_, fun h => ?_⟩
  · have hcmt : (tenantsFresh (coresFresh (blocksEdged s disc))).cmt = (blocksEdged s disc).cmt := ht.cmt_eq.trans hc.cmt_eq
    rw [edgeRun, ho.reserve, hcmt, hreserve]
  · exact ((coresFresh_idle _).congr ht.core_eq).congr ho.frame.core_eq
  · rw [edgeRun, hmem (by rw [ht.plu_eq, hc.plu_eq, hrestart, h]), ht.mem_eq, hc.mem_eq, hb.mem_eq]

theorem setPhase_cmt (u : State) (p : Phase) : (setPhase u p).cmt = { u.cmt with phase := p } := rfl
theorem clearChanges_rd (off : Nat) : rd (clearChanges s) off = rd s off := rfl

theorem edgeEnded_spec : Frame tickParts 0 s (edgeEnded s) ∧ (edgeEnded s).cmt.reserve = s.cmt.reserve ∧
    (NoneRuns s → NoneRuns (edgeEnded s)) ∧ (edgeEnded s).mem = s.mem ∧
    (hcSt (edgeEnded s) ≤ 1 → (edgeEnded s).cmt.phase = .delivered) := by
  obtain ⟨hd, hn⟩ := delivered_delivers s
  have hc := clearChanges_frame (delivered s)
  have hs := clearChanges_frame s
  have hp : Frame [.cmt] 0 (clearChanges (delivered s)) (setPhase (clearChanges (delivered s)) .delivered) := modCmt_frame _
  unfold edgeEnded
  by_cases ht : ticking s = true
  · rw [if_pos ht]
    have hcmt : (clearChanges (delivered s)).cmt = s.cmt := hc.cmt_eq.trans hd.cmt_eq
    refine ⟨(hd.widen.trans hc.widen).trans hp.widen, ?_, fun h => ((hn h).congr hc.core_eq).congr hp.core_eq, ?_, fun _ => ?_⟩
    · rw [setPhase_cmt, hcmt]
    · rw [hp.mem_eq, hc.mem_eq, hd.mem_eq]
    · rw [setPhase_cmt]
  · rw [if_neg ht]
    refine ⟨hs.widen, by rw [hs.cmt_eq], fun h => h.congr hs.core_eq, hs.mem_eq, fun h => ?_⟩
    rw [hcSt_congr (clearChanges_rd s _)] at h
    exact absurd (decide_eq_true h) ht

/-- What an edge does once its number and instant stand. -/
theorem edge_spec : let t := edgeEnded (edgeRun s disc);
    Frame tickParts 0 s t ∧ t.cmt.reserve = rf s Reg.cmtCfg 5 0 ∧ NoneRuns t ∧ (s.plu.restart = false → t.mem = s.mem) ∧
    (hcSt t ≤ 1 → t.cmt.phase = .delivered) := by
  obtain ⟨hr, hreserve, hidle, hmem⟩ := edgeRun_spec s disc
  obtain ⟨he, he1, he2, he3, he4⟩ := edgeEnded_spec (edgeRun s disc)
  exact ⟨hr.trans he, he1.trans hreserve, he2 hidle, fun h => he3.trans (hmem h), he4⟩

/-! ### The number and the instant of an edge -/

/-- The Time Unit at an edge with a number. -/
def edgeAt (s : State) (n : Nat) : State :=
  modTime (toInstant s (n * period s)) (fun t => { t with tick := n, edge := n * period s, ticking := true })

/-- The Time Unit moved to a number by a pending step. -/
def timeStepped (s : State) (T : Instant) (n : Nat) : State :=
  modTime { s with now := n * T } (fun t => { t with tick := n, edge := n * T, step := none, filt := [] })

/-- A pending step applied at an edge: the number, the instant, and the rest of the offset slewed. -/
def stepApplied (s : State) (T : Instant) (n : Nat) (rho : Int) : State := refreshClock (slew (timeStepped s T n) (rho.tdiv 36))

/-- The number of the discontinuity tick of a pending step. -/
def steppedNumber (s : State) (p : PendStep) : Nat := ((nextNumber s : Int) + p.k).toNat

/-- A pending step applied and shown. -/
def stepShown (s : State) (p : PendStep) : State :=
  showStep (stepApplied (edgeAt s (nextNumber s)) (period s) (steppedNumber s p) p.rho) s.time.tick (steppedNumber s p) p.k

variable {s}

theorem nextEdge_plain (hs : s.time.step = none) (hr : s.time.ratePend = none) : nextEdge s = (false, edgeAt s (nextNumber s)) := by
  unfold nextEdge
  extract_lets n F T old top s1 s2
  have h1 : s2.time.step = none := hs
  have h2 : s2.time.ratePend = none := hr
  rw [h1, h2]
  rfl

theorem nextEdge_step {p : PendStep} (hs : s.time.step = some p) (hp : p.top = false) : nextEdge s = (true, stepShown s p) := by
  unfold nextEdge
  extract_lets n F T old top s1 s2
  have h1 : s2.time.step = some p := hs
  rw [h1]
  simp only [Option.filter, hp, Bool.not_false, Bool.true_or, if_true]
  rfl

end

section
variable (s : State)

theorem slew_spec (delta : Int) : Frame [.time, .freeCtr] 0 s (slew s delta) ∧ ∃ a, (slew s delta).time = { s.time with slewAdj := a } := by
  unfold slew
  split
  · exact ⟨modTime_frame _, _, rfl⟩
  · exact ⟨(drawLe_frame 799999).trans (modTime_frame _), _, rfl⟩

theorem refreshClock_frame : Frame [.regs, .out] 0 s (refreshClock s) := by
  unfold refreshClock
  extract_lets q s1 s2 s3
  have h1 : Frame [.regs, .out] 0 s s1 :=
    ((wb_frame _ _ (Nat.zero_le _)).trans (wb_frame _ _ (Nat.zero_le _))).trans (wb_frame _ _ (Nat.zero_le _))
  have h2 : Frame [.regs, .out] 0 s1 s2 := (wf_frame _ _ _ (Nat.zero_le _)).trans (wf_frame _ _ _ (Nat.zero_le _))
  exact ((h1.trans h2).trans (wb_frame _ _ (Nat.zero_le _))).trans (wr_frame _ (Nat.zero_le _))

theorem showStep_frame (old new : Nat) (k : Int) : Frame logParts 0 s (showStep s old new k) := by
  unfold showStep wr64
  refine .trans (.trans ?_ (raise_frame 1 (Nat.zero_le _))) ((logRec_frame _ _ _ _ _ _).widen (hn := Nat.zero_le _))
  exact ((wf_frame _ _ _ (Nat.zero_le _)).trans (wr_frame _ (Nat.zero_le _))).trans (wr_frame _ (Nat.zero_le _))

theorem skipDops_frame : Frame (.cmt :: logParts) 0 s (skipDops s) :=
  .foldl (fun u i => .ite (fun _ => (modCmt_frame _).trans ((logRec_frame _ _ _ _ _ _).widen (hn := Nat.zero_le _))) (fun _ => .refl)) _ s

theorem edgeAt_keeps (n : Nat) : KeepsBut [.now, .op, .time] s (edgeAt s n) :=
  ((toInstant_keeps s _).mono (by decide)).trans (modTime_frame (n := 0) _).keeps

/-- A step applied leaves the Time Unit at the new number and instant, with no step pending. -/
theorem stepApplied_spec (T : Instant) (n : Nat) (rho : Int) : let t := stepApplied s T n rho;
    t.time.tick = n ∧ t.time.edge = n * T ∧ t.time.step = none ∧ t.now = n * T ∧ KeepsBut [.regs, .now, .time, .out, .freeCtr] s t := by
  intro t
  obtain ⟨hf, a, ha⟩ := slew_spec (timeStepped s T n) (rho.tdiv 36)
  have hr := refreshClock_frame (slew (timeStepped s T n) (rho.tdiv 36))
  have ht : t.time = _ := hr.time_eq.trans ha
  have hk : KeepsBut [.now, .time] s (timeStepped s T n) := fun p hp => by cases p <;> simp_all [Part.same, timeStepped, modTime]
  exact ⟨by rw [ht]; rfl, by rw [ht]; rfl, by rw [ht]; rfl, hr.now_eq.trans hf.now_eq,
    (hk.mono (by decide)).trans (hf.keepsBut.trans hr.keepsBut)⟩

end

/-- The parts that a tick edge can change. -/
abbrev tickEdgeParts : List Part := [.regs, .now, .op, .time, .port, .sw, .loom, .core, .ten, .cmt, .spare, .arb, .plu, .recorder, .arc,
  .hif, .hdl, .tru, .clu, .fio, .mem, .out, .freeCtr]

section
variable {s : State} (h : hcSt s ≠ 3)
include h

theorem tickEdge_plain (hr : s.time.ratePend = none) (hs : s.time.step = none) : ∃ t, exec .tickEdge s = .next t ∧
    t.time.tick = nextNumber s ∧ t.time.edge = nextNumber s * period s ∧ t.now = max s.now (nextNumber s * period s) ∧
    t.cmt.reserve = rf s Reg.cmtCfg 5 0 ∧ (∀ l, (getCore t l).run ≠ .running) ∧ (hcSt t ≤ 1 → t.cmt.phase = .delivered) ∧
    (s.plu.restart = false → t.mem = s.mem) ∧ KeepsBut tickEdgeParts s t := by
  obtain ⟨hf, hreserve, hidle, hmem, hphase⟩ := edge_spec (edgeAt s (nextNumber s)) false
  have hk := edgeAt_keeps s (nextNumber s)
  refine ⟨_, exec_tickEdge s false h (nextEdge_plain hs hr), ?_, ?_, hf.now_eq, hreserve, hidle, hphase, hmem,
    (hk.mono (by decide)).trans hf.keepsBut⟩
  · exact congrArg TimeUnit.tick hf.time_eq
  · exact congrArg TimeUnit.edge hf.time_eq

theorem tickEdge_step {p : PendStep} (hs : s.time.step = some p) (hp : p.top = false) : ∃ t, exec .tickEdge s = .next t ∧
    t.time.tick = steppedNumber s p ∧ t.time.edge = steppedNumber s p * period s ∧ t.time.step = none ∧
    t.now = steppedNumber s p * period s ∧ (s.plu.restart = false → t.mem = s.mem) ∧ t.ddr = s.ddr := by
  obtain ⟨htick, hedge, hstep, hnow, hk⟩ := stepApplied_spec (edgeAt s (nextNumber s)) (period s) (steppedNumber s p) p.rho
  have hshow : Frame (.cmt :: logParts) 0 _ (skipDops (stepShown s p)) := (showStep_frame
    (stepApplied (edgeAt s (nextNumber s)) (period s) (steppedNumber s p) p.rho) _ _ _).widen.trans (skipDops_frame (stepShown s p))
  have hall : KeepsBut [.regs, .now, .op, .time, .out, .freeCtr, .cmt, .arb, .recorder] s (skipDops (stepShown s p)) :=
    (((edgeAt_keeps s (nextNumber s)).mono (by decide)).trans (hk.mono (by decide))).trans hshow.keepsBut
  have hplu : (skipDops (stepShown s p)).plu = s.plu := hall .plu (by decide)
  have hmem0 : (skipDops (stepShown s p)).mem = s.mem := hall .mem (by decide)
  have hddr0 : (skipDops (stepShown s p)).ddr = s.ddr := hall .ddr (by decide)
  obtain ⟨hf, -, -, hmem, -⟩ := edge_spec (skipDops (stepShown s p)) true
  have hddr : (edgeEnded (edgeRun (skipDops (stepShown s p)) true)).ddr = (skipDops (stepShown s p)).ddr := hf.keeps .ddr (by decide)
  refine ⟨_, exec_tickEdge s true h (nextEdge_step hs hp), ?_⟩
  rw [if_pos rfl, hf.time_eq, hshow.time_eq, hf.now_eq, hshow.now_eq, hddr]
  exact ⟨htick, hedge, hstep, hnow, fun hr => (hmem (by rw [hplu, hr])).trans hmem0, hddr0⟩

end

/-- Settles O36: each phase is the lemma of its command. Frames say which parts the operations of a phase keep; what a phase sets is read
off its last operations. -/
theorem tickPhases : Obligations.TickPhases := by
  unfold Obligations.TickPhases
  intro s
  refine ⟨exec_tickEdge_halted s, fun h hr => ⟨fun n hs hn => ?_, fun p n hs hp hn => ?_⟩, fun hp => ?_, deadline_spec s, swap_spec s,
    commitComplete_spec, fun i hc hs => dopCopyDone_spec hc hs, fun l w hr hw => ⟨watchdog_traps hw hr, fun h hd hh hl =>
      watchdog_halted hw hr hd hh hl, watchdog_early hw⟩⟩
  · subst hn
    exact tickEdge_plain h hr hs
  · subst hn
    exact tickEdge_step h hs hp
  · refine ⟨_, exec_programWindowOpen hp, windowOpened_cmt s _, windowOpened_now s _, fun l ci h0 ha hi hserved => ?_,
      fun f h0 => windowOpened_ran _ h0, windowOpened_keeps s _⟩
    obtain ⟨hrun, hcyc, hstack, hpc, hhalt, hmem, hscr, hentries⟩ := windowOpened_opened (s.time.edge + 3 * usec) h0 ha hi hserved
    exact ⟨hrun, hcyc, hstack, hpc, hhalt, hmem, hscr, hentries⟩

end Sys2Proof.Machine
end

section
/-! PROOFS: the Time Unit's registers and clock states (O34, O35). -/

namespace Sys2Proof.Machine
set_option Elab.async false

/-! ## Fields and bits of a word that do not meet -/

theorem testBit_fld (w : Word) (hi lo i : Nat) : (fld w hi lo).testBit i = (decide (i < hi - lo + 1) && bitOf w (lo + i)) := by
  simp only [fld, Nat.testBit_mod_two_pow, Nat.testBit_shiftRight, bitOf, BitVec.testBit_toNat]

theorem fld_putBit_ne (w : Word) {i hi lo : Nat} (b : Bool) (h : i < 32) (hlo : lo ≤ hi) (hi' : i < lo ∨ hi < i) :
    fld (putBit w i b) hi lo = fld w hi lo := by
  refine Nat.eq_of_testBit_eq fun j => ?_
  rw [testBit_fld, testBit_fld, bitOf_putBit _ _ _ h]
  by_cases hj : j < hi - lo + 1
  · rw [if_neg (by omega)]
  · simp [hj]

theorem bitOf_eq_fld (w : Word) (i : Nat) : bitOf w i = (fld w i i).testBit 0 := by
  rw [testBit_fld]
  simp

theorem bitOf_setFld_ne (w : Word) {hi lo i : Nat} (x : Nat) (hlo : lo ≤ hi) (h : i < lo ∨ hi < i) :
    bitOf (setFld w hi lo x) i = bitOf w i := by
  rw [bitOf_eq_fld, bitOf_eq_fld, fld_setFld_ne w x hlo le_rfl (by omega)]

/-! ## Frames of the Time Unit's operations -/

/-- What an operation of the Time Unit leaves alone: the parts not named, and every register below the counters but those named. -/
structure ClockFrame (ps : List Part) (offs : List Nat) (s t : State) : Prop where
  keeps : KeepsBut ps s t
  rd : ∀ off < counterBase, off ∉ offs → Machine.rd t off = Machine.rd s off

namespace ClockFrame
variable {ps qs : List Part} {offs more : List Nat} {s t u : State}

theorem of_frame (h : Frame ps counterBase s t) : ClockFrame ps offs s t := ⟨h.keeps, fun off ho _ => h.rd off ho⟩

theorem refl : ClockFrame ps offs s s := of_frame .refl

theorem widen (h : ClockFrame qs more s t) (hp : qs ⊆ ps := by decide) (ho : more ⊆ offs := by decide) : ClockFrame ps offs s t :=
  ⟨h.keeps.mono hp, fun off hb hn => h.rd off hb (fun hm => hn (ho hm))⟩

theorem trans (h : ClockFrame ps offs s t) (k : ClockFrame ps offs t u) : ClockFrame ps offs s u :=
  ⟨h.keeps.trans k.keeps, fun off hb hn => (k.rd off hb hn).trans (h.rd off hb hn)⟩

/-- An operation that changes less comes next. -/
theorem andThen (h : ClockFrame ps offs s t) (k : ClockFrame qs more t u) (hp : qs ⊆ ps := by decide)
    (ho : more ⊆ offs := by decide) : ClockFrame ps offs s u := h.trans (k.widen hp ho)

theorem ite {c : Prop} [Decidable c] {a b : State} (ha : c → ClockFrame ps offs s a) (hb : ¬ c → ClockFrame ps offs s b) :
    ClockFrame ps offs s (if c then a else b) := by
  split
  · exact ha ‹_›
  · exact hb ‹_›

theorem keepsBut (h : ClockFrame qs offs s t) (hp : qs ⊆ ps := by decide) : KeepsBut ps s t := h.keeps.mono hp

theorem time_eq (h : ClockFrame ps offs s t) (hp : .time ∉ ps := by decide) : t.time = s.time := h.keeps .time hp
theorem op_eq (h : ClockFrame ps offs s t) (hp : .op ∉ ps := by decide) : t.op = s.op := h.keeps .op hp

theorem rd_eq (h : ClockFrame ps offs s t) {off : Nat} (hn : off ∉ offs := by decide) (hb : off < counterBase := by decide) :
    Machine.rd t off = Machine.rd s off := h.rd off hb hn

theorem rb_eq (h : ClockFrame ps offs s t) {off : Nat} (i : Nat) (hn : off ∉ offs := by decide) (hb : off < counterBase := by decide) :
    rb t off i = rb s off i := rb_congr (h.rd off hb hn) i

theorem clkState_eq (h : ClockFrame ps offs s t) (hn : Reg.timeState ∉ offs := by decide) : clkState t = clkState s :=
  congrArg (fun w => fld w 2 0) (h.rd_eq hn)

theorem clkRole_eq (h : ClockFrame ps offs s t) (hn : Reg.timeCtrl ∉ offs := by decide) : clkRole t = clkRole s :=
  congrArg (fun w => fld w 3 1) (h.rd_eq hn)

end ClockFrame

section
variable {s : State}

theorem wr_clockFrame (off : Nat) (v : Word) : ClockFrame [.regs] [off] s (wr s off v) :=
  ⟨wr_keeps s off v, fun b _ hn => rd_wr_ne s v (fun e => hn (by simp [e]))⟩

theorem wb_clockFrame (off i : Nat) (b : Bool) : ClockFrame [.regs] [off] s (wb s off i b) := wr_clockFrame off _
theorem wf_clockFrame (off hi lo x : Nat) : ClockFrame [.regs] [off] s (wf s off hi lo x) := wr_clockFrame off _

theorem raise_clockFrame (irq bit : Nat) : ClockFrame [.regs, .out] [irq] s (raise s irq bit) :=
  ⟨(raise_same s irq bit).keeps, fun _ _ hn => rd_raise_ne s bit (fun e => hn (by simp [e]))⟩

theorem logRec_clockFrame (irq severity cls detail : Nat) (ids : List Nat) :
    ClockFrame logParts [] s (logRec s irq severity cls detail ids) := .of_frame (logRec_frame s irq severity cls detail ids)

theorem modTime_clockFrame (f : TimeUnit → TimeUnit) : ClockFrame [.time] [] s (modTime s f) := .of_frame (modTime_frame f)

theorem toInstant_clockFrame (tm : Instant) : ClockFrame [.now, .op] [] s (toInstant s tm) := .of_frame (toInstant_frame tm)

theorem wrp_clockFrame (off : Nat) (v : Word) : ClockFrame logParts [off] s (wrp s off v) :=
  ((wr_clockFrame off v).widen (hp := by decide) (ho := List.Subset.refl _)).trans (.of_frame (persist_frame _ off))

theorem rb_raise_bit (off : Nat) {bit i : Nat} (h : bit < 32) (hi : bit ≠ i) : rb (raise s off bit) off i = rb s off i := by
  unfold raise
  dsimp only
  split <;> exact rb_wb_bit s off true h hi

@[simp] theorem modTime_time (f : TimeUnit → TimeUnit) : (modTime s f).time = f s.time := rfl
@[simp] theorem rd_modTime (f : TimeUnit → TimeUnit) (off : Nat) : rd (modTime s f) off = rd s off := rfl
@[simp] theorem clkState_modTime (f : TimeUnit → TimeUnit) : clkState (modTime s f) = clkState s := rfl
@[simp] theorem clkState_toInstant (tm : Instant) : clkState (toInstant s tm) = clkState s := rfl
@[simp] theorem clkRole_toInstant (tm : Instant) : clkRole (toInstant s tm) = clkRole s := rfl

end

/-! ## What the clock shows (R41, R56) -/

section
variable (s : State)

/-- The clock shown changes TIME_STATE and TIME_FREQ. -/
theorem refreshClock_clockFrame : ClockFrame [.regs] [Reg.timeState, Reg.timeFreq] s (refreshClock s) := by
  unfold refreshClock
  extract_lets q s1 s2 s3
  have h1 : ClockFrame [.regs] [Reg.timeState] s s1 := ((wb_clockFrame _ _ _).trans (wb_clockFrame _ _ _)).trans (wb_clockFrame _ _ _)
  have h2 : ClockFrame [.regs] [Reg.timeState] s1 s2 := (wf_clockFrame _ _ _ _).trans (wf_clockFrame _ _ _ _)
  exact ((h1.trans h2).trans (wb_clockFrame _ _ _)).widen.andThen (wr_clockFrame _ _)

@[simp] theorem refreshClock_time : (refreshClock s).time = s.time := (refreshClock_clockFrame s).time_eq

/-- TIME_STATE as the clock shows it: the state, the step flags and time_valid stay. -/
theorem rd_refreshClock_state : ∃ q g, rd (refreshClock s) Reg.timeState =
    putBit (setFld (setFld (putBit (putBit (putBit (rd s Reg.timeState) 3 s.time.step.isSome) 4 (s.time.slewAdj != 0)) 5
      (clkState s == 3 && s.time.holdOk)) 15 8 (Prod.fst q)) 23 16 (Prod.snd q)) 24 g := by
  unfold refreshClock
  dsimp only
  rw [rd_wr_ne _ _ (by decide)]
  simp only [wb, wf, rd_wr_self]
  exact ⟨clkQuality s, _, rfl⟩

/-- Showing the clock keeps its state. -/
@[simp] theorem clkState_refreshClock : clkState (refreshClock s) = clkState s := by
  obtain ⟨q, g, h⟩ := rd_refreshClock_state s
  rw [clkState, rf, h]
  simp (disch := decide) only [fld_putBit_ne, fld_setFld_ne]
  rfl

theorem rb_refreshClock_slewing : rb (refreshClock s) Reg.timeState 4 = (s.time.slewAdj != 0) := by
  obtain ⟨q, g, h⟩ := rd_refreshClock_state s
  rw [rb, h]
  simp (disch := decide) only [bitOf_putBit, bitOf_setFld_ne, Nat.reduceEqDiff, if_false, if_true]

theorem rb_refreshClock_inSpec : rb (refreshClock s) Reg.timeState 5 = (clkState s == 3 && s.time.holdOk) := by
  obtain ⟨q, g, h⟩ := rd_refreshClock_state s
  rw [rb, h]
  simp (disch := decide) only [bitOf_putBit, bitOf_setFld_ne, Nat.reduceEqDiff, if_false, if_true]

/-- time_valid and set_rej are not the clock's to show. -/
theorem rb_refreshClock_kept {i : Nat} (hi : i = 6 ∨ i = 7) : rb (refreshClock s) Reg.timeState i = rb s Reg.timeState i := by
  obtain ⟨q, g, h⟩ := rd_refreshClock_state s
  rw [rb, h]
  obtain rfl | rfl := hi <;>
    simp (disch := decide) only [bitOf_putBit, bitOf_setFld_ne, Nat.reduceEqDiff, if_false] <;> rfl

theorem rd_refreshClock_freq : rd (refreshClock s) Reg.timeFreq = BitVec.ofInt 32 (s.time.rate + s.time.slewAdj) := rd_wr_self ..

theorem setGm_clockFrame (gm : BitVec 64) :
    ClockFrame logParts [Reg.timeGmidLo, Reg.timeGmidHi, Reg.timeIrq] s (setGm s gm) := by
  unfold setGm
  refine .ite (fun _ => .refl) (fun _ => ?_)
  refine .andThen (.andThen ?_ (raise_clockFrame _ _)) (logRec_clockFrame _ _ _ _ _)
  exact (wr_clockFrame _ _).widen.andThen (wr_clockFrame _ _)

/-- The grandmaster's identity is shown. -/
theorem setGm_shows (gm : BitVec 64) : rd64 (setGm s gm) Reg.timeGmidLo Reg.timeGmidHi = gm.toNat := by
  unfold setGm
  split
  · assumption
  · dsimp only
    have hlog := logRec_clockFrame (s := raise (wr64 s Reg.timeGmidLo Reg.timeGmidHi gm.toNat) Reg.timeIrq 2) Reg.timeIrq 1 0
      (clkState (raise (wr64 s Reg.timeGmidLo Reg.timeGmidHi gm.toNat) Reg.timeIrq 2)) [gm.toNat / 2 ^ 32, gm.toNat % 2 ^ 32]
    rw [rd64, hlog.rd_eq, hlog.rd_eq, rd_raise_ne _ _ (by decide), rd_raise_ne _ _ (by decide), wr64, rd_wr_self,
      rd_wr_ne _ _ (by decide), rd_wr_self, BitVec.toNat_ofNat, BitVec.toNat_ofNat]
    omega

end

/-! ## Entering a clock state (R37) -/

/-- The parts that the clock can change. -/
abbrev clockParts : List Part := [.regs, .time, .arb, .recorder, .out]

/-- The registers that a change of the clock's state can change. -/
abbrev stateRegs : List Nat := [Reg.timeState, Reg.timeFreq, Reg.timeIrq]

/-- Leaving Locked, the length of the spell is kept. -/
def clockLeft (s : State) : State :=
  if clkState s = 2 then modTime s (fun t => { t with lockedFor := s.op - t.lockedSince }) else s

/-- The rate that Holdover freezes, and whether it is in specification, entered from a state. -/
def holdoverBegun (s : State) (old : Nat) : State :=
  let frozen := if old = 2 && !s.time.rateHist.isEmpty then meanInt s.time.rateHist else s.time.rate
  let spec := old == 2 && decide (24 * 3600 * second ≤ s.op - max s.time.lockedSince (s.hc.bootAt + 600 * second))
  modTime s (fun t => { t with holdSince := s.op, holdOk := spec, rate := frozen })

/-- The filter and the run towards lock start again. -/
def filterRestarted (s : State) : State := modTime s (fun t => { t with filt := [], lockRun := 0 })

/-- The actions of the entry to a clock state. -/
def clockActions (s : State) (old : Nat) : Nat → State
  | 0 => stopCorrecting s
  | 1 => filterRestarted s
  | 2 => wb (modTime s (fun t => { t with lockedSince := s.op, overRun := 0, step := none })) Reg.timeState 6 true
  | 3 => holdoverBegun (stopCorrecting s) old
  | _ => filterRestarted s

/-- A clock state shown, raised and logged. -/
def clockShown (s : State) (old new : Nat) : State :=
  refreshClock (logRec (raise (wf s Reg.timeState 2 0 new) Reg.timeIrq 0) Reg.timeIrq (if new = 3 ∨ new = 0 then 2 else 1) 0 new [old])

section
variable (s : State)

theorem enterClock_same {s : State} {new : Nat} (h : clkState s = new) : enterClock s new = refreshClock s := if_pos h

theorem enterClock_ne {s : State} {new : Nat} (h : clkState s ≠ new) :
    enterClock s new = clockShown (clockActions (clockLeft s) (clkState s) new) (clkState s) new := by
  unfold enterClock
  rw [if_neg h]
  match new with
  | 0 | 1 | 2 | 3 => rfl
  | _ + 4 => rfl

theorem stopCorrecting_clockFrame : ClockFrame [.time] [] s (stopCorrecting s) := modTime_clockFrame _
theorem filterRestarted_clockFrame : ClockFrame [.time] [] s (filterRestarted s) := modTime_clockFrame _
theorem holdoverBegun_clockFrame (old : Nat) : ClockFrame [.time] [] s (holdoverBegun s old) := by
  unfold holdoverBegun
  exact modTime_clockFrame _

theorem clockLeft_clockFrame : ClockFrame [.time] [] s (clockLeft s) := .ite (fun _ => modTime_clockFrame _) (fun _ => .refl)

theorem clockActions_clockFrame (old new : Nat) : ClockFrame [.regs, .time] [Reg.timeState] s (clockActions s old new) := by
  match new with
  | 0 => exact (stopCorrecting_clockFrame s).widen
  | 1 => exact (filterRestarted_clockFrame s).widen
  | 2 => exact (modTime_clockFrame _).widen.andThen (wb_clockFrame _ _ _)
  | 3 => exact (stopCorrecting_clockFrame s).widen.andThen (holdoverBegun_clockFrame _ _)
  | _ + 4 => exact (filterRestarted_clockFrame s).widen

theorem clockShown_clockFrame (old new : Nat) : ClockFrame logParts stateRegs s (clockShown s old new) := by
  unfold clockShown
  refine .andThen (.andThen (.andThen ?_ (raise_clockFrame _ _)) (logRec_clockFrame _ _ _ _ _)) (refreshClock_clockFrame _)
  exact (wf_clockFrame _ _ _ _).widen

/-- What leads to a clock state shows that state. -/
theorem clkState_clockShown (old : Nat) {new : Nat} (h : new < 8) : clkState (clockShown s old new) = new := by
  rw [clockShown, clkState_refreshClock, (logRec_clockFrame _ _ _ _ _).clkState_eq, (raise_clockFrame _ _).clkState_eq, clkState, rf,
    wf, rd_wr_self, fld_setFld _ _ (by decide) (by decide)]
  exact Nat.mod_eq_of_lt h

theorem rb_clockShown_kept (old new : Nat) {i : Nat} (hi : i = 6 ∨ i = 7) :
    rb (clockShown s old new) Reg.timeState i = rb s Reg.timeState i := by
  rw [clockShown, rb_refreshClock_kept _ hi, (logRec_clockFrame _ _ _ _ _).rb_eq, (raise_clockFrame _ _).rb_eq, rb, wf, rd_wr_self,
    bitOf_setFld_ne _ _ (by decide) (by omega), rb]

theorem enterClock_clockFrame (new : Nat) : ClockFrame clockParts stateRegs s (enterClock s new) := by
  by_cases h : clkState s = new
  · rw [enterClock_same h]
    exact (refreshClock_clockFrame s).widen
  · rw [enterClock_ne h]
    exact ((clockLeft_clockFrame s).widen.andThen (clockActions_clockFrame _ _ _)).andThen (clockShown_clockFrame _ _ _)

/-- The clock is in the state that it enters. -/
theorem clkState_enterClock {new : Nat} (h : new < 8) : clkState (enterClock s new) = new := by
  by_cases hs : clkState s = new
  · rw [enterClock_same hs, clkState_refreshClock, hs]
  · rw [enterClock_ne hs, clkState_clockShown _ _ h]

/-- A change of state leaves every interrupt but its own. -/
theorem rb_enterClock_irq (new : Nat) {i : Nat} (hi : i ≠ 0) : rb (enterClock s new) Reg.timeIrq i = rb s Reg.timeIrq i := by
  by_cases h : clkState s = new
  · rw [enterClock_same h, (refreshClock_clockFrame s).rb_eq]
  · rw [enterClock_ne h, clockShown, (refreshClock_clockFrame _).rb_eq, (logRec_clockFrame _ _ _ _ _).rb_eq,
      rb_raise_bit _ (by decide) (Ne.symm hi), (wf_clockFrame _ _ _ _).rb_eq, (clockActions_clockFrame _ _ _).rb_eq,
      (clockLeft_clockFrame s).rb_eq]

/-- The Time Unit as an entry to another clock state leaves it. -/
theorem enterClock_time {s : State} {new : Nat} (h : clkState s ≠ new) :
    (enterClock s new).time = (clockActions (clockLeft s) (clkState s) new).time := by
  rw [enterClock_ne h, (clockShown_clockFrame _ _ _).time_eq]

/-- An entry to a clock state keeps the source's run and the master. -/
theorem enterClock_source (new : Nat) : (enterClock s new).time.qual = s.time.qual ∧ (enterClock s new).time.best = s.time.best := by
  have hleft : (clockLeft s).time.qual = s.time.qual ∧ (clockLeft s).time.best = s.time.best := by
    unfold clockLeft
    split <;> exact ⟨rfl, rfl⟩
  by_cases h : clkState s = new
  · rw [enterClock_same h, refreshClock_time]
    exact ⟨rfl, rfl⟩
  · rw [enterClock_time h]
    match new with
    | 0 | 1 | 2 | 3 => exact hleft
    | _ + 4 => exact hleft

/-- Free-run and Holdover make no correction (R37, R38). -/
theorem enterClock_uncorrected {s : State} {new : Nat} (h : clkState s ≠ new) (hn : new = 0 ∨ new = 3) :
    (enterClock s new).time.step = none ∧ (enterClock s new).time.slewAdj = 0 := by
  rw [enterClock_time h]
  obtain rfl | rfl := hn <;> exact ⟨rfl, rfl⟩

/-- The lock makes the module's time valid. -/
theorem enterClock_valid {s : State} (h : clkState s ≠ 2) : rb (enterClock s 2) Reg.timeState 6 = true := by
  rw [enterClock_ne h, rb_clockShown_kept _ _ _ (.inl rfl)]
  exact rb_wb_self _ _ _ (by decide)

/-- Acquiring begins with an empty filter. -/
theorem enterClock_acquiring {s : State} (h : clkState s ≠ 1) :
    (enterClock s 1).time.filt = [] ∧ (enterClock s 1).time.lockRun = 0 := by
  rw [enterClock_time h]
  exact ⟨rfl, rfl⟩

end

end Sys2Proof.Machine
end

section
/-! PROOFS: the clock's source: its readings, gaps and loss (O34, O35). -/

namespace Sys2Proof.Machine
set_option Elab.async false

/-! ## A source is lost (R37, R44) -/

/-- The state in which the source is lost and its run has ended. -/
def runEnded (s : State) : State := modTime s (fun t => { t with qual := 0 })

section
variable {s : State}

theorem sourceLost_acquiring (h : clkState s = 1) : sourceLost s = enterClock (stopCorrecting (runEnded s)) 0 := by
  simp only [sourceLost, clkState_modTime, h]
  rfl

theorem sourceLost_locked (h : clkState s = 2) : sourceLost s = enterClock (runEnded s) 3 := by
  simp only [sourceLost, clkState_modTime, h]
  rfl

theorem sourceLost_relocking (h : clkState s = 4) : sourceLost s = enterClock (stopCorrecting (runEnded s)) 3 := by
  simp only [sourceLost, clkState_modTime, h]
  rfl

end

section
variable (s : State)

theorem sourceLost_clockFrame : ClockFrame clockParts stateRegs s (sourceLost s) := by
  have hrun : ClockFrame clockParts stateRegs s (modTime s (fun t => { t with qual := 0 })) := (modTime_clockFrame _).widen
  unfold sourceLost
  dsimp only
  split
  · exact (hrun.andThen (stopCorrecting_clockFrame _)).trans (enterClock_clockFrame _ _)
  · exact hrun.trans (enterClock_clockFrame _ _)
  · exact (hrun.andThen (stopCorrecting_clockFrame _)).trans (enterClock_clockFrame _ _)
  · exact hrun

/-- A lost source has no run; the master stays as it stands. -/
theorem sourceLost_source : (sourceLost s).time.qual = 0 ∧ (sourceLost s).time.best = s.time.best := by
  unfold sourceLost
  dsimp only
  split
  · exact enterClock_source _ _
  · exact enterClock_source _ _
  · exact enterClock_source _ _
  · exact ⟨rfl, rfl⟩

/-- Locked and Re-locking go to Holdover, Acquiring to Free-run. -/
theorem clkState_sourceLost : (clkState s = 2 → clkState (sourceLost s) = 3) ∧ (clkState s = 1 → clkState (sourceLost s) = 0) ∧
    (clkState s = 4 → clkState (sourceLost s) = 3) := by
  refine ⟨fun h => ?_, fun h => ?_, fun h => ?_⟩
  · rw [sourceLost_locked h, clkState_enterClock _ (by decide)]
  · rw [sourceLost_acquiring h, clkState_enterClock _ (by decide)]
  · rw [sourceLost_relocking h, clkState_enterClock _ (by decide)]

/-- Of the interrupts the loss of a source raises only the change of state. -/
theorem rb_sourceLost_irq {i : Nat} (hi : i ≠ 0) : rb (sourceLost s) Reg.timeIrq i = rb s Reg.timeIrq i := by
  unfold sourceLost
  dsimp only
  split
  · exact rb_enterClock_irq _ _ hi
  · exact rb_enterClock_irq _ _ hi
  · exact rb_enterClock_irq _ _ hi
  · rfl

/-- Holdover entered from Locked waits for no step. -/
theorem sourceLost_step {s : State} (h : clkState s = 2) : (sourceLost s).time.step = none := by
  rw [sourceLost_locked h]
  exact (enterClock_uncorrected (by rw [runEnded, clkState_modTime, h]; decide) (.inr rfl)).1

end

/-! ## One measured offset (R37, R40) -/

/-- The registers that a measured offset can change. -/
abbrev measureRegs : List Nat := Reg.timeOffset :: stateRegs

/-- The filtered offset with a new measurement in the filter. -/
def filteredOffset (s : State) (delta : Int) : Int := meanInt ((delta :: s.time.filt).take 8)

/-- The measurement in the filter, the rate in its history, and the filtered offset shown. -/
def offsetFiltered (s : State) (delta : Int) : State :=
  wr (modTime s (fun t => { t with filt := (delta :: s.time.filt).take 8, rateHist := (t.rate :: t.rateHist).take 64 }))
    Reg.timeOffset (BitVec.ofInt 32 (max (-(2 ^ 31 - 1)) (min (2 ^ 31 - 1) ((filteredOffset s delta).tdiv 4))))

/-- Consecutive filtered offsets beyond 1 µs, with one more. -/
def overRuns (s : State) (m : Int) : Nat := if 4000 < m.natAbs then s.time.overRun + 1 else 0

/-- Consecutive filtered offsets within 100 ns, with one more. -/
def lockRuns (s : State) (m : Int) : Nat := if m.natAbs ≤ 400 then s.time.lockRun + 1 else 0

/-- A filtered offset corrected, unless a step that TIME_SET asked for waits. -/
def offsetCorrected (s : State) (m : Int) : State := if setWaits s then s else correct s m false

section
variable {s : State} (delta : Int)

theorem measureOffset_locked (h : clkState s = 2) : measureOffset s delta =
    let m := filteredOffset s delta
    let u := modTime (offsetFiltered s delta) (fun t => { t with overRun := overRuns s m })
    if 4 ≤ overRuns s m then enterClock u 4 else refreshClock (correct u m false) := by
  unfold measureOffset
  simp only [h]
  rfl

theorem measureOffset_unlocked (h : clkState s = 1 ∨ clkState s = 4) : measureOffset s delta =
    let m := filteredOffset s delta
    let u := offsetCorrected (modTime (offsetFiltered s delta) (fun t => { t with lockRun := lockRuns s m })) m
    if 16 ≤ lockRuns s m then enterClock u 2 else refreshClock u := by
  unfold measureOffset
  obtain h | h := h <;> simp only [h] <;> rfl

theorem offsetFiltered_clockFrame : ClockFrame [.regs, .time] [Reg.timeOffset] s (offsetFiltered s delta) := by
  unfold offsetFiltered
  exact (modTime_clockFrame _).widen.andThen (wr_clockFrame _ _)

theorem slew_clockFrame : ClockFrame [.time, .freeCtr] [] s (slew s delta) := by
  refine .of_frame ?_
  unfold slew
  split
  · exact modTime_frame _
  · exact (drawLe_frame 799999).trans (modTime_frame _)

theorem correct_clockFrame (top : Bool) : ClockFrame [.time, .freeCtr] [] s (correct s delta top) := by
  unfold correct
  refine .ite (fun _ => ?_) (fun _ => (modTime_clockFrame _).widen)
  exact (modTime_clockFrame _).widen.andThen (slew_clockFrame _)

/-- A correction sets the step and the slew and nothing else of the Time Unit. -/
theorem correct_time (top : Bool) : ∃ p a, (correct s delta top).time = { s.time with step := p, slewAdj := a } := by
  unfold correct
  split
  · obtain ⟨-, a, h⟩ := slew_spec (modTime s (fun t => { t with step := none })) delta
    exact ⟨none, a, h⟩
  · exact ⟨_, _, rfl⟩

theorem offsetCorrected_clockFrame : ClockFrame [.time, .freeCtr] [] s (offsetCorrected s delta) :=
  .ite (fun _ => .refl) (fun _ => correct_clockFrame _ _)

theorem offsetCorrected_time : ∃ p a, (offsetCorrected s delta).time = { s.time with step := p, slewAdj := a } := by
  unfold offsetCorrected
  split
  · exact ⟨_, _, rfl⟩
  · exact correct_time _ _

/-- The offset measured and corrected outside Locked. -/
theorem offsetMeasured_clockFrame : let m := filteredOffset s delta
    ClockFrame [.regs, .time, .freeCtr] [Reg.timeOffset] s
      (offsetCorrected (modTime (offsetFiltered s delta) (fun t => { t with lockRun := lockRuns s m })) m) :=
  ((offsetFiltered_clockFrame delta).widen.andThen (modTime_clockFrame _)).andThen (offsetCorrected_clockFrame _)

/-- The first offset measured in Acquiring is the filter's only one, and does not lock the clock. -/
theorem measureOffset_first (h : clkState s = 1) (hf : s.time.filt = []) (hl : s.time.lockRun = 0) : let t := measureOffset s delta
    clkState t = 1 ∧ t.time.qual = s.time.qual ∧ t.time.filt = [delta] ∧ ClockFrame (.freeCtr :: clockParts) measureRegs s t := by
  intro t
  let m := filteredOffset s delta
  let u := modTime (offsetFiltered s delta) (fun t => { t with lockRun := lockRuns s m })
  have hruns : ¬ 16 ≤ lockRuns s m := by
    rw [lockRuns, hl]
    split <;> decide
  have ht : t = refreshClock (offsetCorrected u m) := (measureOffset_unlocked delta (.inl h)).trans (if_neg hruns)
  have hframe : ClockFrame [.regs, .time, .freeCtr] [Reg.timeOffset] s (offsetCorrected u m) := offsetMeasured_clockFrame delta
  obtain ⟨p, a, htime⟩ := offsetCorrected_time (s := u) m
  rw [ht, clkState_refreshClock, hframe.clkState_eq, refreshClock_time, htime]
  exact ⟨h, rfl, by simp [u, offsetFiltered, hf], hframe.widen.andThen (refreshClock_clockFrame _)⟩

/-- The filtered offset within 100 ns for the 16th time locks the clock. -/
theorem measureOffset_locks (h : clkState s = 1 ∨ clkState s = 4) (hm : (filteredOffset s delta).natAbs ≤ 400)
    (hl : s.time.lockRun = 15) : let t := measureOffset s delta
    clkState t = 2 ∧ rb t Reg.timeState 6 = true ∧ ClockFrame (.freeCtr :: clockParts) measureRegs s t := by
  intro t
  let m := filteredOffset s delta
  let u := modTime (offsetFiltered s delta) (fun t => { t with lockRun := lockRuns s m })
  have hruns : 16 ≤ lockRuns s m := by rw [lockRuns, if_pos hm, hl]
  have ht : t = enterClock (offsetCorrected u m) 2 := (measureOffset_unlocked delta h).trans (if_pos hruns)
  have hframe : ClockFrame [.regs, .time, .freeCtr] [Reg.timeOffset] s (offsetCorrected u m) := offsetMeasured_clockFrame delta
  have hne : clkState (offsetCorrected u m) ≠ 2 := by rw [hframe.clkState_eq]; omega
  rw [ht]
  exact ⟨clkState_enterClock _ (by decide), enterClock_valid hne, hframe.widen.andThen (enterClock_clockFrame _ _)⟩

/-- The filtered offset beyond 1 µs for the fourth time takes Locked to Re-locking. -/
theorem measureOffset_relocks (h : clkState s = 2) (hm : 4000 < (filteredOffset s delta).natAbs) (ho : s.time.overRun = 3) :
    let t := measureOffset s delta
    clkState t = 4 ∧ ClockFrame clockParts measureRegs s t := by
  intro t
  let m := filteredOffset s delta
  let u := modTime (offsetFiltered s delta) (fun t => { t with overRun := overRuns s m })
  have hruns : 4 ≤ overRuns s m := by rw [overRuns, if_pos hm, ho]
  have ht : t = enterClock u 4 := (measureOffset_locked delta h).trans (if_pos hruns)
  have hframe : ClockFrame [.regs, .time] [Reg.timeOffset] s u := (offsetFiltered_clockFrame delta).andThen (modTime_clockFrame _)
  rw [ht]
  exact ⟨clkState_enterClock _ (by decide), hframe.widen.andThen (enterClock_clockFrame _ _)⟩

end

/-! ## A reading of a source (R37) -/

/-- The run one reading longer. -/
def runGrown (s : State) : State := modTime s (fun t => { t with qual := t.qual + 1 })

section
variable {s : State} {need : Nat} (delta : Int)

theorem sourceReading_counts (h : clkState s = 0 ∨ clkState s = 3) (hq : s.time.qual + 1 < need) :
    sourceReading s need delta = runGrown s := if_pos ⟨h, hq⟩

/-- In a state with a source, a reading is an offset measured. -/
theorem sourceReading_measures (h : clkState s = 1 ∨ clkState s = 2 ∨ clkState s = 4) :
    sourceReading s need delta = measureOffset (runGrown s) delta := by
  have hne : ¬ ((clkState (runGrown s) = 0 ∨ clkState (runGrown s) = 3) ∧ (runGrown s).time.qual < need) := by
    rw [runGrown, clkState_modTime]
    omega
  have hq : sourceQualified (runGrown s) = runGrown s := by
    have hs : clkState (runGrown s) = clkState s := rfl
    unfold sourceQualified
    obtain h | h | h := h <;> simp only [hs, h]
  exact (if_neg hne).trans (by rw [← runGrown, hq])

/-- The qualifying reading takes Free-run to Acquiring, with its offset the first in the filter. -/
theorem sourceReading_starts (h : clkState s = 0) (hq : need ≤ s.time.qual + 1) : let t := sourceReading s need delta
    clkState t = 1 ∧ t.time.qual = s.time.qual + 1 ∧ t.time.filt = [delta] ∧ ClockFrame (.freeCtr :: clockParts) measureRegs s t := by
  intro t
  have hs : clkState (runGrown s) = 0 := h
  have hne : ¬ ((clkState (runGrown s) = 0 ∨ clkState (runGrown s) = 3) ∧ (runGrown s).time.qual < need) := fun hc =>
    absurd hc.2 (Nat.not_lt.mpr hq)
  have hqual : sourceQualified (runGrown s) = enterClock (runGrown s) 1 := by simp only [sourceQualified, hs]
  have ht : t = measureOffset (enterClock (runGrown s) 1) delta := (if_neg hne).trans (by rw [← runGrown, hqual])
  obtain ⟨hfilt, hrun⟩ := enterClock_acquiring (s := runGrown s) (by rw [hs]; decide)
  obtain ⟨hstate, hq', hf, hframe⟩ := measureOffset_first delta (clkState_enterClock (runGrown s) (new := 1) (by decide)) hfilt hrun
  rw [ht]
  refine ⟨hstate, hq'.trans (enterClock_source _ _).1, hf, .trans ?_ hframe⟩
  exact (modTime_clockFrame _).widen.andThen (enterClock_clockFrame _ _)

end

end Sys2Proof.Machine
end

section
/-! PROOFS: the best master (O34, O35). -/

namespace Sys2Proof.Machine
set_option Elab.async false

/-! ## The data-set comparison (R33) -/

/-- Of two lists of fields at most one comes before the other. -/
theorem betterMaster_lt_asymm : ∀ xs ys : List Nat, betterMaster.lt xs ys = true → betterMaster.lt ys xs = false
  | [], _, h => by simp [betterMaster.lt] at h
  | _ :: _, [], h => by simp [betterMaster.lt] at h
  | x :: xs, y :: ys, h => by
    have ih := betterMaster_lt_asymm xs ys
    simp only [betterMaster.lt, Bool.or_eq_true, Bool.and_eq_true, decide_eq_true_eq, beq_iff_eq] at h
    simp only [betterMaster.lt, Bool.or_eq_false_iff, Bool.and_eq_false_iff, decide_eq_false_iff_not, beq_eq_false_iff_ne]
    obtain h | ⟨h, hl⟩ := h
    · exact ⟨by omega, .inl (by omega)⟩
    · exact ⟨by omega, .inr (ih hl)⟩

theorem betterMaster_asymm {a b : Announce} (h : betterMaster a b = true) : betterMaster b a = false := betterMaster_lt_asymm _ _ h

/-- The best data set so far, and what one more port hears. -/
def betterHeard (s : State) (b : Option (Announce × Fin 144)) (p : Fin 144) : Option (Announce × Fin 144) :=
  match Tab.get none s.time.heard p, b with
  | none, _ => b
  | some (a, _), none => some (a, p)
  | some (a, _), some (m, _) => if betterMaster a m then some (a, p) else b

theorem bestHeard_eq (s : State) : bestHeard s = (List.finRange 144).foldl (betterHeard s) none := rfl

section
variable {s : State} {b : Option (Announce × Fin 144)} {p : Fin 144}

theorem betterHeard_silent (h : Tab.get none s.time.heard p = none) : betterHeard s b p = b := by
  unfold betterHeard
  rw [h]

theorem betterHeard_first {a : Announce} {x : Instant} (h : Tab.get none s.time.heard p = some (a, x)) :
    betterHeard s none p = some (a, p) := by
  unfold betterHeard
  rw [h]

theorem betterHeard_next {a m : Announce} {x : Instant} {q : Fin 144} (h : Tab.get none s.time.heard p = some (a, x)) :
    betterHeard s (some (m, q)) p = if betterMaster a m then some (a, p) else some (m, q) := by
  unfold betterHeard
  rw [h]

/-- Nothing is heard on any port. -/
theorem bestHeard_none (h : ∀ q : Fin 144, Tab.get none s.time.heard q = none) : bestHeard s = none := by
  rw [bestHeard_eq]
  exact List.foldlRecOn (motive := fun b => b = none) _ _ rfl (fun b hb q _ => (betterHeard_silent (h q)).trans hb)

/-- A data set that beats every other port's is the best heard. -/
theorem bestHeard_of_beats {m : Announce} {x : Instant} (hp : Tab.get none s.time.heard p = some (m, x))
    (hb : ∀ r a y, r ≠ p → Tab.get none s.time.heard (r : Fin 144) = some (a, y) → betterMaster m a = true) :
    bestHeard s = some (m, p) := by
  rw [bestHeard_eq]
  suffices h : ∀ (l : List (Fin 144)) (b : Option (Announce × Fin 144)),
      b = some (m, p) ∨ (p ∈ l ∧ ∀ a r, b = some (a, r) → betterMaster m a = true) →
        l.foldl (betterHeard s) b = some (m, p) from
    h _ _ (.inr ⟨List.mem_finRange p, fun _ _ e => by cases e⟩)
  intro l
  induction l with
  | nil => exact fun b h => h.resolve_right (fun hc => by cases hc.1)
  | cons r l ih =>
    intro b h
    refine ih _ ?_
    by_cases hr : r = p
    · subst hr
      refine .inl ?_
      obtain rfl | ⟨-, hw⟩ := h
      · rw [betterHeard_next hp]
        split <;> rfl
      · cases b with
        | none => exact betterHeard_first hp
        | some c => rw [betterHeard_next hp, if_pos (hw c.1 c.2 rfl)]
    · cases hq : Tab.get none s.time.heard r with
      | none =>
        rw [betterHeard_silent hq]
        exact h.imp id (fun hc => ⟨(List.mem_cons.mp hc.1).resolve_left (Ne.symm hr), hc.2⟩)
      | some c =>
        have hbeat := hb r c.1 c.2 hr hq
        obtain rfl | ⟨hm, hw⟩ := h
        · rw [betterHeard_next hq, if_neg (by rw [betterMaster_asymm hbeat]; decide)]
          exact .inl rfl
        · refine .inr ⟨(List.mem_cons.mp hm).resolve_left (Ne.symm hr), fun a q e => ?_⟩
          cases b with
          | none =>
            rw [betterHeard_first hq] at e
            cases e
            exact hbeat
          | some d =>
            rw [betterHeard_next hq] at e
            split at e
            · cases e
              exact hbeat
            · exact hw a q e

end

/-! ## The best master algorithm (R33, R37, R38) -/

/-- The master that the best master algorithm finds. -/
def masterFound (s : State) : Option (Announce × Fin 144) :=
  if !rb s Reg.timeCtrl 0 then none else match clkRole s with
    | 0 => (bestHeard s).filter (fun b => betterMaster b.1 (ownAnnounce s))
    | 1 => bestHeard s
    | _ => none

/-- The run and the last Sync of another master forgotten. -/
def masterFresh (s : State) : State := modTime (sourceGap s) (fun t => { t with syncAt := none })

/-- What becomes of the clock when one master follows another. -/
def masterChanged (s : State) (old new : Option (Announce × Fin 144)) : State :=
  match old, new with
  | some _, none => sourceLost s
  | some (a, _), some (b, _) =>
    if a.gm = b.gm then s
    else if clkState s = 1 ∨ clkState s = 2 ∨ clkState s = 4 then enterClock (masterFresh s) 3 else masterFresh s
  | none, some _ => masterFresh s
  | none, none => s

/-- The grandmaster reported: the master's, or the module itself. -/
def gmReported (s : State) (new : Option (Announce × Fin 144)) : State :=
  match new with
  | some (b, _) => setGm s b.gm
  | none => if isGm s then setGm s (clockId s) else s

/-- The master taken and what becomes of the clock with it. -/
def masterTaken (s : State) : State := masterChanged (modTime s (fun t => { t with best := masterFound s })) s.time.best (masterFound s)

theorem selectMaster_eq (s : State) : selectMaster s = refreshClock (gmReported (masterTaken s) (masterFound s)) := rfl

/-- The registers that the best master algorithm can change. -/
abbrev masterRegs : List Nat := Reg.timeGmidLo :: Reg.timeGmidHi :: stateRegs

section
variable (s : State)

theorem masterFresh_clockFrame : ClockFrame [.time] [] s (masterFresh s) := (modTime_clockFrame _).trans (modTime_clockFrame _)

theorem masterChanged_clockFrame (old new : Option (Announce × Fin 144)) :
    ClockFrame clockParts stateRegs s (masterChanged s old new) := by
  have hfresh : ClockFrame clockParts stateRegs s (masterFresh s) := (masterFresh_clockFrame s).widen
  unfold masterChanged
  split
  · exact sourceLost_clockFrame s
  · refine .ite (fun _ => .refl) (fun _ => .ite (fun _ => ?_) (fun _ => hfresh))
    exact hfresh.trans (enterClock_clockFrame _ _)
  · exact hfresh
  · exact .refl

theorem masterChanged_best (old new : Option (Announce × Fin 144)) : (masterChanged s old new).time.best = s.time.best := by
  unfold masterChanged
  split
  · exact (sourceLost_source s).2
  · split
    · rfl
    · split
      · exact (enterClock_source (masterFresh s) 3).2
      · rfl
  · rfl
  · rfl

theorem masterTaken_clockFrame : ClockFrame clockParts stateRegs s (masterTaken s) :=
  (modTime_clockFrame _).widen.trans (masterChanged_clockFrame _ _ _)

theorem gmReported_clockFrame (new : Option (Announce × Fin 144)) :
    ClockFrame logParts [Reg.timeGmidLo, Reg.timeGmidHi, Reg.timeIrq] s (gmReported s new) := by
  unfold gmReported
  split
  · exact setGm_clockFrame s _
  · exact .ite (fun _ => setGm_clockFrame s _) (fun _ => .refl)

theorem selectMaster_clockFrame : ClockFrame clockParts masterRegs s (selectMaster s) :=
  ((masterTaken_clockFrame s).widen.andThen (gmReported_clockFrame _ _)).andThen (refreshClock_clockFrame _)

theorem selectMaster_time : (selectMaster s).time = (masterTaken s).time := by
  rw [selectMaster_eq, refreshClock_time, (gmReported_clockFrame _ _).time_eq]

/-- The algorithm's result is the master followed. -/
theorem selectMaster_best : (selectMaster s).time.best = masterFound s := by
  rw [selectMaster_time, masterTaken, masterChanged_best]
  rfl

theorem clkState_selectMaster : clkState (selectMaster s) = clkState (masterTaken s) := by
  rw [selectMaster_eq, clkState_refreshClock, (gmReported_clockFrame _ _).clkState_eq]

/-- The grandmaster of the master followed is the one shown. -/
theorem selectMaster_shows {s : State} {b : Announce} {p : Fin 144} (h : masterFound s = some (b, p)) :
    rd64 (selectMaster s) Reg.timeGmidLo Reg.timeGmidHi = b.gm.toNat := by
  have hclock := refreshClock_clockFrame (setGm (masterTaken s) b.gm)
  rw [selectMaster_eq, h, rd64, show gmReported (masterTaken s) (some (b, p)) = setGm (masterTaken s) b.gm from rfl,
    hclock.rd_eq, hclock.rd_eq]
  exact setGm_shows _ _

variable {s}

theorem masterFound_slaveOnly (hen : rb s Reg.timeCtrl 0 = true) (hrole : clkRole s = 1) : masterFound s = bestHeard s := by
  simp only [masterFound, hen, hrole, Bool.not_true, Bool.false_eq_true, if_false]

/-- With nothing heard there is no master. -/
theorem masterFound_none (h : ∀ q : Fin 144, Tab.get none s.time.heard q = none) : masterFound s = none := by
  unfold masterFound
  rw [bestHeard_none h]
  split
  · rfl
  · split <;> rfl

/-- A clock without a master keeps its state when it finds none. -/
theorem selectMaster_idle (hb : s.time.best = none) (hf : masterFound s = none) :
    clkState (selectMaster s) = clkState s ∧ (selectMaster s).time = s.time := by
  have ht : masterTaken s = modTime s (fun t => { t with best := none }) := by
    rw [masterTaken, hb, hf]
    rfl
  rw [clkState_selectMaster, selectMaster_time, ht]
  refine ⟨rfl, ?_⟩
  rw [modTime_time, ← hb]

/-- The first master leaves the clock's state. -/
theorem selectMaster_first {b : Announce × Fin 144} (hb : s.time.best = none) (hf : masterFound s = some b) :
    clkState (selectMaster s) = clkState s := by
  rw [clkState_selectMaster, masterTaken, hb, hf]
  rfl

/-- Another grandmaster takes Locked to Holdover. -/
theorem selectMaster_other {a b : Announce} {p q : Fin 144} (hb : s.time.best = some (a, q)) (hf : masterFound s = some (b, p))
    (hgm : b.gm ≠ a.gm) (hs : clkState s = 2) : clkState (selectMaster s) = 3 := by
  have ht : masterTaken s = enterClock (masterFresh (modTime s (fun t => { t with best := some (b, p) }))) 3 := by
    rw [masterTaken, hb, hf]
    exact (if_neg (Ne.symm hgm)).trans (if_pos (.inr (.inl hs)))
  rw [clkState_selectMaster, ht, clkState_enterClock _ (by decide)]

/-- A clock left without a master has lost its source. -/
theorem selectMaster_lost {b : Announce × Fin 144} (hb : s.time.best = some b) (hf : masterFound s = none) :
    let u := modTime s (fun t => { t with best := none })
    clkState (selectMaster s) = clkState (sourceLost u) ∧ (selectMaster s).time = (sourceLost u).time := by
  have ht : masterTaken s = sourceLost (modTime s (fun t => { t with best := none })) := by
    rw [masterTaken, hb, hf]
    rfl
  rw [clkState_selectMaster, selectMaster_time, ht]
  exact ⟨rfl, rfl⟩

end

end Sys2Proof.Machine
end

section
/-! PROOFS: the clock's messages and the settled statement (O34). -/

namespace Sys2Proof.Machine
set_option Elab.async false

/-- The parts that a message, a reference input or the lack of them can change. -/
abbrev messageParts : List Part := [.regs, .now, .op, .time, .recorder, .arb, .out]

/-! ## Announce (R31, R33, R37, R38) -/

/-- A port's data set and the time of it. -/
def heardOn (s : State) (p : Fin 144) (m : Announce) : State :=
  modTime s (fun t => { t with heard := Tab.put none t.heard p (some (m, s.op)) })

/-- A port that has heard nothing. -/
def portSilent (s : State) (p : Fin 144) : State := modTime s (fun t => { t with heard := Tab.put none t.heard p none })

section
variable (s : State) (p : Fin 144) (m : Announce) (tm : Instant)

theorem exec_announceReceive : exec (.announceReceive p m tm) s = .next (doAnnounceReceive p m tm s) := rfl

theorem heardOn_heard (q : Fin 144) :
    Tab.get none (heardOn s p m).time.heard q = if p = q then some (m, s.op) else Tab.get none s.time.heard q := by
  simp only [heardOn, modTime_time, Tab.get_put, Fin.ext_iff]

theorem portSilent_heard (q : Fin 144) :
    Tab.get none (portSilent s p).time.heard q = if p = q then none else Tab.get none s.time.heard q := by
  simp only [portSilent, modTime_time, Tab.get_put, Fin.ext_iff]

theorem heardOn_clockFrame : ClockFrame [.time] [] s (heardOn s p m) := modTime_clockFrame _

theorem announceReceive_keeps : KeepsBut messageParts s (selectMaster (heardOn (toInstant s tm) p m)) :=
  (((toInstant_clockFrame tm).widen.andThen (heardOn_clockFrame _ p m)).andThen (selectMaster_clockFrame _)
    : ClockFrame messageParts masterRegs s _).keeps

variable {s p m}

/-- An Announce of another domain changes nothing here. -/
theorem announceReceive_foreign (h : m.domain ≠ rf s Reg.timePrio 23 16) :
    exec (.announceReceive p m tm) s = .next (toInstant s tm) := by
  rw [exec_announceReceive, doAnnounceReceive]
  exact congrArg _ (if_pos (by rw [bne_iff_ne.mpr (show m.domain ≠ rf (toInstant s tm) Reg.timePrio 23 16 from h), Bool.or_true]))

/-- The first Announce of a port that is not the master's is kept, and the best master algorithm runs. -/
theorem announceReceive_first (hd : m.domain = rf s Reg.timePrio 23 16) (hen : rb s Reg.timeCtrl 0 = true)
    (hheard : Tab.get none s.time.heard p = none) (hbest : s.time.best.map (·.2) ≠ some p) :
    exec (.announceReceive p m tm) s = .next (selectMaster (heardOn (toInstant s tm) p m)) := by
  have hdom : (!rb (toInstant s tm) Reg.timeCtrl 0 || m.domain != rf (toInstant s tm) Reg.timePrio 23 16) = false := by
    rw [show rb (toInstant s tm) Reg.timeCtrl 0 = true from hen, show rf (toInstant s tm) Reg.timePrio 23 16 = m.domain from hd.symm]
    simp
  rw [exec_announceReceive, doAnnounceReceive]
  simp only [hdom, toInstant_time, hheard, hbest, false_and, if_false, Bool.not_true, Bool.false_eq_true]
  rfl

/-- A slave-only clock that hears the best data set now finds its master there. -/
theorem masterFound_heardOn (hen : rb s Reg.timeCtrl 0 = true) (hrole : clkRole s = 1)
    (hbeats : ∀ r a y, r ≠ p → Tab.get none s.time.heard (r : Fin 144) = some (a, y) → betterMaster m a = true) :
    masterFound (heardOn (toInstant s tm) p m) = some (m, p) := by
  rw [masterFound_slaveOnly (s := heardOn (toInstant s tm) p m) hen hrole]
  refine bestHeard_of_beats (x := (toInstant s tm).op) (by rw [heardOn_heard, if_pos rfl]) (fun r a y hr h => ?_)
  rw [heardOn_heard, if_neg (Ne.symm hr)] at h
  exact hbeats r a y hr h

/-- The first master of a slave-only clock is taken, with its identity. -/
theorem announceReceive_takes (hd : m.domain = rf s Reg.timePrio 23 16) (hen : rb s Reg.timeCtrl 0 = true) (hrole : clkRole s = 1)
    (hbest : s.time.best = none) (hheard : ∀ q : Fin 144, Tab.get none s.time.heard q = none) :
    ∃ t, exec (.announceReceive p m tm) s = .next t ∧ t.time.best = some (m, p) ∧
      rd64 t Reg.timeGmidLo Reg.timeGmidHi = m.gm.toNat ∧ clkState t = clkState s ∧ KeepsBut messageParts s t := by
  have hfound := masterFound_heardOn (p := p) (m := m) tm hen hrole (fun r a y _ h => by rw [hheard r] at h; cases h)
  exact ⟨_, announceReceive_first tm hd hen (hheard p) (by simp [hbest]), (selectMaster_best _).trans hfound, selectMaster_shows hfound,
    selectMaster_first hbest hfound, announceReceive_keeps s p m tm⟩

/-- A better master of another grandmaster takes Locked to Holdover. -/
theorem announceReceive_betters {q : Fin 144} {a : Announce} {at0 : Instant} (hd : m.domain = rf s Reg.timePrio 23 16)
    (hen : rb s Reg.timeCtrl 0 = true) (hrole : clkRole s = 1) (hq : q ≠ p) (hbest : s.time.best = some (a, q))
    (ha : Tab.get none s.time.heard q = some (a, at0)) (hheard : ∀ r : Fin 144, r ≠ q → Tab.get none s.time.heard r = none)
    (hbetter : betterMaster m a = true) (hgm : m.gm ≠ a.gm) (hs : clkState s = 2) :
    ∃ t, exec (.announceReceive p m tm) s = .next t ∧ t.time.best = some (m, p) ∧ clkState t = 3 ∧
      rd64 t Reg.timeGmidLo Reg.timeGmidHi = m.gm.toNat ∧ KeepsBut messageParts s t := by
  have hfound := masterFound_heardOn (p := p) (m := m) tm hen hrole (fun r b y _ h => by
    by_cases hrq : r = q
    · rw [hrq, ha] at h
      cases h
      exact hbetter
    · rw [hheard r hrq] at h
      cases h)
  exact ⟨_, announceReceive_first tm hd hen (hheard p (Ne.symm hq)) (by simp [hbest, hq]), (selectMaster_best _).trans hfound,
    selectMaster_other hbest hfound hgm hs, selectMaster_shows hfound, announceReceive_keeps s p m tm⟩

end

/-! ## Sync (R37, R40) -/

/-- The gaps that a Sync shows: of the master's Syncs, and of its Announces. -/
def syncGapped (s : State) : State :=
  let s := if passed s s.time.syncAt (2 * logInterval (rf s Reg.timePtpcfg 3 0)) then sourceGap s else s
  if announceOverdue s then announceGap s else s

/-- The last Sync is the present one. -/
def syncStamped (s : State) : State := modTime s (fun t => { t with syncAt := some s.op })

/-- A gap of the master's Syncs or Announces. -/
def SyncGap (s : State) : Prop :=
  (∃ x, s.time.syncAt = some x ∧ x + 2 * logInterval (rf s Reg.timePtpcfg 3 0) ≤ s.op) ∨ announceOverdue s = true

theorem passed_iff (s : State) (since : Option Instant) (d : Instant) :
    passed s since d = true ↔ ∃ x, since = some x ∧ x + d ≤ s.op := by
  cases since <;> simp [passed]

theorem passed_eq_false (s : State) (since : Option Instant) (d : Instant) :
    passed s since d = false ↔ ∀ x, since = some x → s.op < x + d := by
  cases since <;> simp [passed]

section
variable {s : State} {p : Fin 144} {b : Announce} (tm : Instant)

theorem syncGapped_none (h : ¬ SyncGap s) : syncGapped s = s := by
  simp only [SyncGap, ← passed_iff, not_or, Bool.not_eq_true] at h
  obtain ⟨hsync, hann⟩ := h
  simp only [syncGapped, hsync, hann, Bool.false_eq_true, if_false]

theorem syncGapped_clockFrame : ClockFrame [.time] [] s (syncGapped s) := by
  unfold syncGapped
  exact .trans (.ite (fun _ => modTime_clockFrame _) (fun _ => .refl)) (.ite (fun _ => modTime_clockFrame _) (fun _ => .refl))

/-- A gap starts the run again. -/
theorem syncGapped_gap (h : SyncGap s) : (syncGapped s).time.qual = 0 := by
  unfold syncGapped
  by_cases hsync : passed s s.time.syncAt (2 * logInterval (rf s Reg.timePtpcfg 3 0)) = true
  · rw [if_pos hsync]
    dsimp only
    split <;> rfl
  · have hann : announceOverdue s = true := h.resolve_left (fun hx => hsync ((passed_iff _ _ _).mpr hx))
    rw [if_neg hsync]
    dsimp only
    rw [if_pos hann]
    rfl

theorem exec_syncReceive (gm : BitVec 64) (ofs : Int) : exec (.syncReceive p gm ofs tm) s = .next (doSyncReceive p gm ofs tm s) := rfl

section
variable (ofs : Int)

/-- A Sync of another grandmaster is left alone. -/
theorem syncReceive_other {gm : BitVec 64} (hbest : s.time.best = some (b, p)) (hgm : gm ≠ b.gm) :
    exec (.syncReceive p gm ofs tm) s = .next (toInstant s tm) := by
  rw [exec_syncReceive, doSyncReceive]
  simp only [toInstant_time, hbest, Ne.symm hgm, ne_eq, not_false_eq_true, or_true, if_true]
  split <;> rfl

variable (hen : rb s Reg.timeCtrl 0 = true) (hrole : clkRole s ≤ 1) (hbest : s.time.best = some (b, p))
include hen hrole hbest

/-- A Sync of the master is a reading of the source, after the gaps it shows. -/
theorem syncReceive_reads : exec (.syncReceive p b.gm ofs tm) s = .next
    (let u := syncStamped (syncGapped (toInstant s tm)); sourceReading u (rf u Reg.timePtpcfg 23 16) ofs) := by
  have hrole' : (clkRole s != 0 && clkRole s != 1) = false := by
    rw [Bool.and_eq_false_iff, bne_eq_false_iff_eq, bne_eq_false_iff_eq]
    omega
  have hstart : (!rb (toInstant s tm) Reg.timeCtrl 0 || (clkRole (toInstant s tm) != 0 && clkRole (toInstant s tm) != 1)) = false := by
    rw [show rb (toInstant s tm) Reg.timeCtrl 0 = true from hen, clkRole_toInstant, hrole']
    rfl
  rw [exec_syncReceive, doSyncReceive]
  simp only [hstart, toInstant_time, hbest, ne_eq, not_true, or_self, Bool.false_eq_true, if_false]
  rfl

/-- Without a gap the reading begins from the run so far. -/
theorem syncReceive_steady (hgap : ¬ SyncGap (toInstant s tm)) : exec (.syncReceive p b.gm ofs tm) s = .next
    (sourceReading (syncStamped (toInstant s tm)) (rf s Reg.timePtpcfg 23 16) ofs) := by
  rw [syncReceive_reads tm ofs hen hrole hbest, syncGapped_none hgap]
  rfl

end

theorem syncStamped_clockFrame : ClockFrame [.now, .op, .time] [] s (syncStamped (toInstant s tm)) :=
  (toInstant_clockFrame tm).widen.andThen (modTime_clockFrame _)

end

/-! ## No Announce, no reference (R37, R44, R57) -/

/-- A reference input shown absent. -/
def refAbsent (s : State) (irig : Bool) : State :=
  if irig then wb (wb s Reg.timeRefstat 1 false) Reg.timeRefstat 2 false else wb s Reg.timeRefstat 0 false

section
variable {s : State}

theorem exec_announceTimeout (p : Fin 144) (tm : Instant) : exec (.announceTimeout ⟨p, tm⟩) s = .next (doAnnounceTimeout p tm s) := rfl

section
variable {p : Fin 144} {tm at0 : Instant} {a : Announce} (hp : Tab.get none s.time.heard p = some (a, at0))
include hp

/-- The port forgets what it heard, and the best master algorithm runs. -/
theorem announceTimeout_due
    (hdue : at0 + rf s Reg.timePtpcfg 11 8 * logInterval (rf s Reg.timePtpcfg 7 4) ≤ s.op + (tm - s.now)) :
    exec (.announceTimeout ⟨p, tm⟩) s = .next (selectMaster (portSilent (toInstant s tm) p)) := by
  have hpass : passed (toInstant s tm) (some at0) (rf s Reg.timePtpcfg 11 8 * logInterval (rf s Reg.timePtpcfg 7 4)) = true :=
    decide_eq_true hdue
  rw [exec_announceTimeout, doAnnounceTimeout]
  simp only [toInstant_time, hp]
  exact congrArg _ (if_pos hpass)

theorem announceTimeout_early
    (hdue : ¬ at0 + rf s Reg.timePtpcfg 11 8 * logInterval (rf s Reg.timePtpcfg 7 4) ≤ s.op + (tm - s.now)) :
    exec (.announceTimeout ⟨p, tm⟩) s = .next (toInstant s tm) := by
  have hpass : ¬ passed (toInstant s tm) (some at0) (rf s Reg.timePtpcfg 11 8 * logInterval (rf s Reg.timePtpcfg 7 4)) = true :=
    fun h => hdue (of_decide_eq_true h)
  rw [exec_announceTimeout, doAnnounceTimeout]
  simp only [toInstant_time, hp]
  exact congrArg _ (if_neg hpass)

/-- The master's port alone had heard one: the source is lost. -/
theorem announceTimeout_loses {b : Announce} (hbest : s.time.best = some (b, p))
    (hheard : ∀ r : Fin 144, r ≠ p → Tab.get none s.time.heard r = none)
    (hdue : at0 + rf s Reg.timePtpcfg 11 8 * logInterval (rf s Reg.timePtpcfg 7 4) ≤ s.op + (tm - s.now)) :
    ∃ t, exec (.announceTimeout ⟨p, tm⟩) s = .next t ∧ t.time.best = none ∧ t.time.qual = 0 ∧
      (clkState s = 2 → clkState t = 3) ∧ (clkState s = 1 → clkState t = 0) ∧ (clkState s = 4 → clkState t = 3) ∧
      KeepsBut messageParts s t := by
  have hfound : masterFound (portSilent (toInstant s tm) p) = none := masterFound_none (fun q => by
    rw [portSilent_heard]
    split
    · rfl
    · exact hheard q (Ne.symm ‹_›))
  obtain ⟨hstate, htime⟩ := selectMaster_lost (s := portSilent (toInstant s tm) p) hbest hfound
  obtain ⟨h2, h1, h4⟩ := clkState_sourceLost (modTime (portSilent (toInstant s tm) p) (fun t => { t with best := none }))
  have hframe : ClockFrame messageParts masterRegs s (selectMaster (portSilent (toInstant s tm) p)) :=
    ((toInstant_clockFrame tm).widen.andThen (modTime_clockFrame _)).andThen (selectMaster_clockFrame _)
  refine ⟨_, announceTimeout_due hp hdue, (selectMaster_best _).trans hfound, ?_, ?_, ?_, ?_, hframe.keeps⟩
  · rw [htime]
    exact (sourceLost_source _).1
  · exact fun h => hstate.trans (h2 h)
  · exact fun h => hstate.trans (h1 h)
  · exact fun h => hstate.trans (h4 h)

end

theorem refAbsent_clockFrame (irig : Bool) : ClockFrame [.regs] [Reg.timeRefstat] s (refAbsent s irig) :=
  .ite (fun _ => (wb_clockFrame _ _ _).trans (wb_clockFrame _ _ _)) (fun _ => wb_clockFrame _ _ _)

theorem rb_refAbsent (irig : Bool) : rb (refAbsent s irig) Reg.timeRefstat (if irig then 1 else 0) = false := by
  cases irig
  · exact rb_wb_self _ _ _ (by decide)
  · exact (rb_wb_bit _ _ _ (by decide) (by decide)).trans (rb_wb_self _ _ _ (by decide))

section
variable (tm : Instant) {irig : Bool} (hrole : clkRole s = (if irig then 2 else 3))
  (hlast : ∀ x, (if irig then s.time.irigAt else s.time.edgeAt) = some x → x + 2 * second ≤ s.op + (tm - s.now))
include hrole hlast

/-- In the role that uses the input its absence is the loss of the source. -/
theorem exec_referenceLost : exec (.referenceLost ⟨irig, tm⟩) s =
    .next (sourceLost (raise (refAbsent (toInstant s tm) irig) Reg.timeIrq 4)) := by
  let last := if irig then s.time.irigAt else s.time.edgeAt
  have hgone : (last.isSome && !passed (toInstant s tm) last (2 * second)) = false := by
    cases h : last with
    | none => rfl
    | some x =>
      rw [show passed (toInstant s tm) (some x) (2 * second) = true from decide_eq_true (hlast x h)]
      rfl
  have hrole' : clkRole (refAbsent (toInstant s tm) irig) = (if irig then 2 else 3) :=
    (refAbsent_clockFrame irig).clkRole_eq.trans hrole
  have he : doReferenceLost irig tm s = if (last.isSome && !passed (toInstant s tm) last (2 * second)) = true then toInstant s tm
    else if clkRole (refAbsent (toInstant s tm) irig) = (if irig then 2 else 3)
      then sourceLost (raise (refAbsent (toInstant s tm) irig) Reg.timeIrq 4) else refAbsent (toInstant s tm) irig := rfl
  exact congrArg _ (he.trans ((if_neg (by rw [hgone]; decide)).trans (if_pos hrole')))

theorem referenceLost_spec : ∃ t, exec (.referenceLost ⟨irig, tm⟩) s = .next t ∧
    rb t Reg.timeRefstat (if irig then 1 else 0) = false ∧ rb t Reg.timeIrq 4 = true ∧ t.time.qual = 0 ∧
    (clkState s = 2 → clkState t = 3 ∧ t.time.step = none) ∧ KeepsBut messageParts s t := by
  have habsent : ClockFrame messageParts [Reg.timeRefstat] s (refAbsent (toInstant s tm) irig) :=
    (toInstant_clockFrame tm).widen.andThen (refAbsent_clockFrame irig)
  have hraised : ClockFrame messageParts (Reg.timeRefstat :: stateRegs) s (raise (refAbsent (toInstant s tm) irig) Reg.timeIrq 4) :=
    habsent.widen.andThen (raise_clockFrame _ _)
  have hstate : clkState (raise (refAbsent (toInstant s tm) irig) Reg.timeIrq 4) = clkState s := by
    rw [(raise_clockFrame _ _).clkState_eq, habsent.clkState_eq]
  refine ⟨_, exec_referenceLost tm hrole hlast, ?_, ?_, (sourceLost_source _).1, fun h => ?_, ?_⟩
  · rw [(sourceLost_clockFrame _).rb_eq, (raise_clockFrame _ _).rb_eq, rb_refAbsent]
  · rw [rb_sourceLost_irq _ (by decide), rb_raise_self _ _ (by decide)]
  · exact ⟨(clkState_sourceLost _).1 (hstate.trans h), sourceLost_step (hstate.trans h)⟩
  · exact (hraised.andThen (sourceLost_clockFrame _)).keeps

end

end

/-! ## Slews, Holdover, calibration and ageing (R35, R39, R40, R311) -/

section
variable (s : State) (tm : Instant)

theorem exec_slewDone : exec (.slewDone tm) s =
    .next (refreshClock (modTime (toInstant s tm) (fun t => { t with slewAdj := 0 }))) := rfl

/-- A finished slew leaves the rate. -/
theorem slewDone_spec : ∃ t, exec (.slewDone tm) s = .next t ∧ t.time = { s.time with slewAdj := 0 } ∧
    rb t Reg.timeState 4 = false ∧ rd t Reg.timeFreq = BitVec.ofInt 32 s.time.rate ∧ KeepsBut [.regs, .now, .op, .time] s t := by
  refine ⟨_, exec_slewDone s tm, refreshClock_time _, rb_refreshClock_slewing _, (rd_refreshClock_freq _).trans ?_, ?_⟩
  · simp
  · exact (((toInstant_clockFrame tm).widen.andThen (modTime_clockFrame _)).andThen (refreshClock_clockFrame _)
      : ClockFrame _ [Reg.timeState, Reg.timeFreq] s _).keeps

variable {s tm}

/-- In Holdover an expiry acts once the minutes in specification have passed. -/
theorem exec_holdoverSpecExpiry (h : clkState s = 3) : exec (.holdoverSpecExpiry tm) s = .next
    (if passed (toInstant s tm) (some s.time.holdSince) (rf s Reg.timeHoldcfg 7 0 * (60 * second)) = true
      then refreshClock (modTime (toInstant s tm) (fun t => { t with holdOk := false })) else toInstant s tm) := by
  have he : exec (.holdoverSpecExpiry tm) s = .next (doHoldoverSpecExpiry tm s) := rfl
  rw [he]
  unfold doHoldoverSpecExpiry
  extract_lets u
  rw [decide_eq_true (show clkState u = 3 from h), Bool.true_and]
  rfl

/-- The specified Holdover ends after its minutes. -/
theorem holdoverSpecExpiry_due (h : clkState s = 3)
    (hdue : s.time.holdSince + rf s Reg.timeHoldcfg 7 0 * (60 * second) ≤ s.op + (tm - s.now)) :
    ∃ t, exec (.holdoverSpecExpiry tm) s = .next t ∧ t.time.holdOk = false ∧ rb t Reg.timeState 5 = false ∧
      KeepsBut [.regs, .now, .op, .time] s t := by
  have hpass := (passed_iff (toInstant s tm) (some s.time.holdSince) (rf s Reg.timeHoldcfg 7 0 * (60 * second))).mpr ⟨_, rfl, hdue⟩
  refine ⟨_, (exec_holdoverSpecExpiry h).trans (congrArg _ (if_pos hpass)), ?_, ?_, ?_⟩
  · rw [refreshClock_time]
    rfl
  · rw [rb_refreshClock_inSpec]
    exact Bool.and_false _
  · exact (((toInstant_clockFrame tm).widen.andThen (modTime_clockFrame _)).andThen (refreshClock_clockFrame _)
      : ClockFrame _ [Reg.timeState, Reg.timeFreq] s _).keeps

theorem holdoverSpecExpiry_early (h : clkState s = 3)
    (hdue : ¬ s.time.holdSince + rf s Reg.timeHoldcfg 7 0 * (60 * second) ≤ s.op + (tm - s.now)) :
    exec (.holdoverSpecExpiry tm) s = .next (toInstant s tm) := by
  refine (exec_holdoverSpecExpiry h).trans (congrArg _ (if_neg (fun hpass => ?_)))
  obtain ⟨x, hx, hop⟩ := (passed_iff _ _ _).mp hpass
  cases hx
  exact hdue hop

/-- A calibrated port is remembered. -/
theorem timestampCalibration_spec (s : State) (p : Fin 144) : ∃ t, exec (.timestampCalibration p) s = .next t ∧
    p.val ∈ t.time.calibrated ∧ (∀ k, k ≠ p.val → (k ∈ t.time.calibrated ↔ k ∈ s.time.calibrated)) ∧
    KeepsBut [.time] s t := by
  refine ⟨_, rfl, ?_, fun k hk => ?_, (modTime_clockFrame _).keeps⟩
  · rw [modTime_time]
    dsimp only
    split
    · exact List.contains_iff_mem.mp ‹_›
    · exact List.mem_cons_self
  · rw [modTime_time]
    dsimp only
    split
    · rfl
    · simp [hk]

/-- A measured delay is kept for its port. -/
theorem pdelayReceive_spec (s : State) (p : Fin 144) (d : Nat) (tm : Instant) : ∃ t, exec (.pdelayReceive p d tm) s = .next t ∧
    Tab.get 0 t.time.linkDelay p = d ∧ (∀ k, k ≠ p.val → Tab.get 0 t.time.linkDelay k = Tab.get 0 s.time.linkDelay k) ∧
    KeepsBut [.now, .op, .time] s t := by
  refine ⟨_, rfl, Tab.get_put_self _ _ _ _, fun k hk => (Tab.get_put _ _ _ _ _).trans (if_neg (Ne.symm hk)), ?_⟩
  exact ((toInstant_clockFrame tm).widen.andThen (modTime_clockFrame _) : ClockFrame _ [] s _).keeps

/-- The ageing model is kept in Locked, once in 24 hours of operating time. -/
theorem ocxoAgeingUpdate_due {m : Word} (h : clkState s = 2) (hdue : s.rec'.ageAt + 24 * 3600 * second ≤ s.op) :
    ∃ t, exec (.ocxoAgeingUpdate m) s = .next t ∧ t.rec'.panAgeing = m ∧ t.rec'.ageAt = s.op ∧
      KeepsBut [.regs, .recorder, .arb, .out] s t := by
  let u : State := { s with rec' := { s.rec' with panAgeing := m, ageAt := s.op } }
  have he : exec (.ocxoAgeingUpdate m) s = .next (persistWord u 4098) :=
    congrArg _ (if_neg (by rw [not_or, not_not]; exact ⟨h, Nat.not_lt.mpr hdue⟩))
  obtain ⟨x, r, f, -, hrec⟩ := persist_rec u (panKey 4098)
  have hu : KeepsBut [.recorder] s u := fun q hq => by cases q <;> simp_all [Part.same, u]
  refine ⟨_, he, ?_, ?_, (hu.mono (by decide)).trans ((persistWord_frame u 4098).keepsBut)⟩ <;> rw [persistWord, hrec]

theorem ocxoAgeingUpdate_idle {m : Word} (h : clkState s ≠ 2 ∨ s.op < s.rec'.ageAt + 24 * 3600 * second) :
    exec (.ocxoAgeingUpdate m) s = .next s := congrArg _ (if_pos h)

end

/-! ## A Sync of the master, from its state on -/

section
variable {s : State} {p : Fin 144} {b : Announce} (tm : Instant) (ofs : Int) (hen : rb s Reg.timeCtrl 0 = true) (hrole : clkRole s ≤ 1)
  (hbest : s.time.best = some (b, p))
include hen hrole hbest

section
variable (hgap : ¬ SyncGap (toInstant s tm))
include hgap

/-- Before qualification a Sync without a gap only counts its interval. -/
theorem syncReceive_counts (hs : clkState s = 0 ∨ clkState s = 3) (hq : s.time.qual + 1 < rf s Reg.timePtpcfg 23 16) :
    ∃ t, exec (.syncReceive p b.gm ofs tm) s = .next t ∧
      t.time = { s.time with qual := s.time.qual + 1, syncAt := some (s.op + (tm - s.now)) } ∧ KeepsBut [.now, .op, .time] s t :=
  ⟨_, (syncReceive_steady tm ofs hen hrole hbest hgap).trans (congrArg _ (sourceReading_counts ofs hs hq)), rfl,
    (((syncStamped_clockFrame tm).andThen (modTime_clockFrame _)) : ClockFrame _ [] s _).keeps⟩

/-- The qualifying Sync takes Free-run to Acquiring. -/
theorem syncReceive_qualifies (hs : clkState s = 0) (hq : rf s Reg.timePtpcfg 23 16 ≤ s.time.qual + 1) :
    ∃ t, exec (.syncReceive p b.gm ofs tm) s = .next t ∧ clkState t = 1 ∧ t.time.qual = s.time.qual + 1 ∧ t.time.filt = [ofs] ∧
      KeepsBut (.freeCtr :: messageParts) s t := by
  obtain ⟨hstate, hqual, hfilt, hframe⟩ := sourceReading_starts (s := syncStamped (toInstant s tm)) ofs hs hq
  exact ⟨_, syncReceive_steady tm ofs hen hrole hbest hgap, hstate, hqual, hfilt,
    ((syncStamped_clockFrame tm).widen.andThen hframe : ClockFrame _ measureRegs s _).keeps⟩

/-- The 16th filtered offset within 100 ns locks the clock. -/
theorem syncReceive_locks (hs : clkState s = 1 ∨ clkState s = 4) (hm : (filteredOffset s ofs).natAbs ≤ 400)
    (hl : s.time.lockRun = 15) : ∃ t, exec (.syncReceive p b.gm ofs tm) s = .next t ∧ clkState t = 2 ∧
      rb t Reg.timeState 6 = true ∧ KeepsBut (.freeCtr :: messageParts) s t := by
  obtain ⟨hstate, hvalid, hframe⟩ := measureOffset_locks (s := runGrown (syncStamped (toInstant s tm))) ofs hs hm hl
  refine ⟨_, (syncReceive_steady tm ofs hen hrole hbest hgap).trans (congrArg _ (sourceReading_measures ofs (hs.imp id .inr))),
    hstate, hvalid, ?_⟩
  exact (((syncStamped_clockFrame tm).widen.andThen (modTime_clockFrame _)).andThen hframe : ClockFrame _ measureRegs s _).keeps

/-- The fourth filtered offset beyond 1 µs takes Locked to Re-locking. -/
theorem syncReceive_relocks (hs : clkState s = 2) (hm : 4000 < (filteredOffset s ofs).natAbs) (ho : s.time.overRun = 3) :
    ∃ t, exec (.syncReceive p b.gm ofs tm) s = .next t ∧ clkState t = 4 ∧ KeepsBut messageParts s t := by
  obtain ⟨hstate, hframe⟩ := measureOffset_relocks (s := runGrown (syncStamped (toInstant s tm))) ofs hs hm ho
  refine ⟨_, (syncReceive_steady tm ofs hen hrole hbest hgap).trans (congrArg _ (sourceReading_measures ofs (.inr (.inl hs)))),
    hstate, ?_⟩
  exact (((syncStamped_clockFrame tm).widen.andThen (modTime_clockFrame _)).andThen hframe : ClockFrame _ measureRegs s _).keeps

end

/-- A gap starts the run again. -/
theorem syncReceive_restarts (hgap : SyncGap (toInstant s tm)) (hs : clkState s = 0) (hq : 1 < rf s Reg.timePtpcfg 23 16) :
    ∃ t, exec (.syncReceive p b.gm ofs tm) s = .next t ∧ t.time.qual = 1 ∧ clkState t = 0 ∧ KeepsBut [.now, .op, .time] s t := by
  let u := syncStamped (syncGapped (toInstant s tm))
  have hframe : ClockFrame [.now, .op, .time] [] s u :=
    ((toInstant_clockFrame tm).widen.andThen syncGapped_clockFrame).andThen (modTime_clockFrame _)
  have hqual : u.time.qual = 0 := syncGapped_gap hgap
  have hstate : clkState u = 0 := hframe.clkState_eq.trans hs
  have hneed : rf u Reg.timePtpcfg 23 16 = rf s Reg.timePtpcfg 23 16 := congrArg (fun w => fld w 23 16) hframe.rd_eq
  have hcount := sourceReading_counts (s := u) (need := rf u Reg.timePtpcfg 23 16) ofs (.inl hstate) (by rw [hqual, hneed]; exact hq)
  exact ⟨_, (syncReceive_reads tm ofs hen hrole hbest).trans (congrArg _ hcount), congrArg (· + 1) hqual, hstate,
    (hframe.andThen (modTime_clockFrame _)).keeps⟩

end

/-- Settles O34: each message is the lemma of its case; a change of master or the loss of the source is an entry to a clock state, whose
actions, frame and shown state are said once. -/
theorem clockMessages : Obligations.ClockMessages := by
  unfold Obligations.ClockMessages
  intro s p tm
  refine ⟨fun m => ⟨announceReceive_foreign tm, fun hd hen hrole => ?_⟩, fun b ofs hen hrole hbest => ?_,
    fun d => pdelayReceive_spec s p d tm, fun b a at0 _ hbest hp hheard => ?_, fun irig => referenceLost_spec tm, slewDone_spec s tm,
    fun h => ⟨holdoverSpecExpiry_due h, holdoverSpecExpiry_early h⟩, timestampCalibration_spec s p,
    fun m => ⟨ocxoAgeingUpdate_due, ocxoAgeingUpdate_idle⟩⟩
  · exact ⟨announceReceive_takes tm hd hen hrole, fun q a at0 => announceReceive_betters tm hd hen hrole⟩
  · refine ⟨fun gm => syncReceive_other tm ofs hbest, fun hgap => ?_, syncReceive_restarts tm ofs hen hrole hbest⟩
    exact ⟨syncReceive_counts tm ofs hen hrole hbest hgap, syncReceive_qualifies tm ofs hen hrole hbest hgap,
      syncReceive_locks tm ofs hen hrole hbest hgap, syncReceive_relocks tm ofs hen hrole hbest hgap⟩
  · exact ⟨announceTimeout_loses hp hbest hheard, announceTimeout_early hp⟩

end Sys2Proof.Machine
end

section
/-! PROOFS: the reference inputs, the 1PPS output and the TIME registers (O35). -/

namespace Sys2Proof.Machine
set_option Elab.async false

/-! ## The timing edge ring (R50) -/

section
variable {s : State} (e : TimeEdge)

/-- A full ring takes no edge and says so. -/
theorem pushEdge_full (h : 64 ≤ s.time.ring.length) : pushEdge s e = raise (wb s Reg.timeEdgeInfo 31 true) Reg.timeIrq 3 := if_pos h

theorem pushEdge_clockFrame : ClockFrame [.regs, .time, .out] [Reg.timeEdgeInfo, Reg.timeIrq] s (pushEdge s e) := by
  unfold pushEdge
  refine .ite (fun _ => (wb_clockFrame _ _ _).widen.andThen (raise_clockFrame _ _)) (fun _ => ?_)
  dsimp only
  have hring (f : TimeUnit → TimeUnit) : ClockFrame [.regs, .time, .out] [Reg.timeEdgeInfo, Reg.timeIrq] s (modTime s f) :=
    (modTime_clockFrame f).widen
  exact .ite (fun _ => (hring _).andThen (raise_clockFrame _ _)) (fun _ => hring _)

/-- A ring with room takes the edge as its newest. -/
theorem pushEdge_time (h : s.time.ring.length < 64) : (pushEdge s e).time = { s.time with ring := s.time.ring ++ [e] } := by
  unfold pushEdge
  rw [if_neg (Nat.not_le.mpr h)]
  dsimp only
  split
  · exact (raise_clockFrame _ _).time_eq
  · rfl

/-- Of the Time Unit an edge changes the ring alone. -/
theorem pushEdge_ring : ∃ r, (pushEdge s e).time = { s.time with ring := r } := by
  by_cases h : 64 ≤ s.time.ring.length
  · rw [pushEdge_full e h, (raise_clockFrame _ _).time_eq, (wb_clockFrame _ _ _).time_eq]
    exact ⟨_, rfl⟩
  · exact ⟨_, pushEdge_time e (Nat.lt_of_not_le h)⟩

end

/-! ## Edges of the 1PPS input (R47) -/

/-- A 1PPS edge stamped less its delay, in the ring. -/
def ppsStamped (s : State) : State :=
  pushEdge (wb s Reg.timeRefstat 0 true) ⟨s.now - nsec * rf s Reg.timeRefdly 15 0, false⟩

/-- A stamped 1PPS edge entered, with its instant kept. -/
def ppsEntered (s : State) : State := modTime (ppsStamped s) (fun t => { t with edgeAt := some (ppsStamped s).op })

/-- The parts and the registers that a stamped reference edge can change. -/
abbrev edgeStampParts : List Part := [.regs, .time, .out]
abbrev edgeRegs : List Nat := [Reg.timeRefstat, Reg.timeEdgeInfo, Reg.timeIrq]

section
variable {s : State} {rising : Bool} (tm : Instant)

theorem exec_ppsInEdge : exec (.ppsInEdge ⟨rising, tm⟩) s = .next (doPpsInEdge rising tm s) := rfl

theorem ppsStamped_clockFrame : ClockFrame edgeStampParts edgeRegs s (ppsStamped s) :=
  (wb_clockFrame _ _ _).widen.andThen (pushEdge_clockFrame _)

theorem ppsEntered_clockFrame : ClockFrame edgeStampParts edgeRegs s (ppsEntered s) :=
  ppsStamped_clockFrame.andThen (modTime_clockFrame _)

theorem ppsStamped_op : (ppsStamped s).op = s.op := ppsStamped_clockFrame.op_eq

theorem ppsEntered_time (h : s.time.ring.length < 64) : (ppsEntered s).time = { s.time with
    ring := s.time.ring ++ [⟨s.now - nsec * rf s Reg.timeRefdly 15 0, false⟩], edgeAt := some s.op } := by
  rw [ppsEntered, modTime_time, ppsStamped_op, ppsStamped, pushEdge_time (s := wb s Reg.timeRefstat 0 true) _ h]
  rfl

theorem ppsStamped_ring : ∃ r, (ppsStamped s).time = { s.time with ring := r } :=
  pushEdge_ring (s := wb s Reg.timeRefstat 0 true) _

theorem ppsEntered_present : rb (ppsEntered s) Reg.timeRefstat 0 = true :=
  ((pushEdge_clockFrame _).rb_eq 0).trans (rb_wb_self _ _ _ (by decide))

/-- An edge of the other polarity, or with the input off, is not taken. -/
theorem ppsInEdge_other (h : rising = rb s Reg.timeRefin 1) : exec (.ppsInEdge ⟨rising, tm⟩) s = .next (toInstant s tm) := by
  have hsel : (!rb (toInstant s tm) Reg.timeRefin 0 || rising == rb (toInstant s tm) Reg.timeRefin 1) = true := by
    rw [show rb (toInstant s tm) Reg.timeRefin 1 = rising from h.symm, beq_self_eq_true, Bool.or_true]
  rw [exec_ppsInEdge, doPpsInEdge]
  exact congrArg _ (if_pos hsel)

theorem ppsInEdge_keeps : KeepsBut [.regs, .now, .op, .time, .out] s (ppsEntered (toInstant s tm)) :=
  ((toInstant_clockFrame tm).widen.andThen ppsEntered_clockFrame : ClockFrame _ edgeRegs s _).keeps

section
variable (hon : rb s Reg.timeRefin 0 = true) (h : rising ≠ rb s Reg.timeRefin 1)
include hon h

/-- A selected edge is entered; in role 3, after a TIME_SET, it is a reading of the source. -/
theorem ppsInEdge_selected : exec (.ppsInEdge ⟨rising, tm⟩) s = .next
    (let u := ppsEntered (toInstant s tm)
     if (decide (clkRole u ≠ 3) || !rb u Reg.timeCtrl 0 || !u.time.timeSet) = true then u
     else sourceReading (if passed (ppsStamped (toInstant s tm)) (ppsStamped (toInstant s tm)).time.edgeAt (2 * second) = true
       then sourceGap u else u) 4 (refOffset ((toInstant s tm).now - nsec * rf (toInstant s tm) Reg.timeRefdly 15 0))) := by
  have hsel : ¬ (!rb (toInstant s tm) Reg.timeRefin 0 || rising == rb (toInstant s tm) Reg.timeRefin 1) = true := by
    rw [show rb (toInstant s tm) Reg.timeRefin 0 = true from hon,
      beq_eq_false_iff_ne.mpr (show rising ≠ rb (toInstant s tm) Reg.timeRefin 1 from h)]
    decide
  rw [exec_ppsInEdge, doPpsInEdge]
  exact congrArg _ (if_neg hsel)

theorem ppsInEdge_enters (hrole : clkRole s ≠ 3) : exec (.ppsInEdge ⟨rising, tm⟩) s = .next (ppsEntered (toInstant s tm)) := by
  have hr : clkRole (ppsEntered (toInstant s tm)) ≠ 3 := by rwa [ppsEntered_clockFrame.clkRole_eq]
  rw [ppsInEdge_selected tm hon h]
  exact congrArg _ (if_pos (by rw [decide_eq_true hr]; rfl))

/-- The edge is entered while there is room. -/
theorem ppsInEdge_room (hrole : clkRole s ≠ 3) (hring : s.time.ring.length < 64) :
    ∃ t, exec (.ppsInEdge ⟨rising, tm⟩) s = .next t ∧ t.time = { s.time with
      ring := s.time.ring ++ [⟨max s.now tm - nsec * rf s Reg.timeRefdly 15 0, false⟩], edgeAt := some (s.op + (tm - s.now)) } ∧
    rb t Reg.timeRefstat 0 = true ∧ KeepsBut [.regs, .now, .op, .time, .out] s t :=
  ⟨_, ppsInEdge_enters tm hon h hrole, ppsEntered_time (s := toInstant s tm) hring, ppsEntered_present, ppsInEdge_keeps tm⟩

/-- A full ring sets the overflow bit. -/
theorem ppsInEdge_overflow (hrole : clkRole s ≠ 3) (hring : 64 ≤ s.time.ring.length) :
    ∃ t, exec (.ppsInEdge ⟨rising, tm⟩) s = .next t ∧ t.time = { s.time with edgeAt := some (s.op + (tm - s.now)) } ∧
    rb t Reg.timeEdgeInfo 31 = true ∧ rb t Reg.timeIrq 3 = true ∧
    KeepsBut [.regs, .now, .op, .time, .out] s t := by
  let u := wb (toInstant s tm) Reg.timeRefstat 0 true
  have hfull : ppsStamped (toInstant s tm) = raise (wb u Reg.timeEdgeInfo 31 true) Reg.timeIrq 3 := pushEdge_full (s := u) _ hring
  refine ⟨_, ppsInEdge_enters tm hon h hrole, ?_, ?_, ?_, ppsInEdge_keeps tm⟩
  · rw [ppsEntered, modTime_time, ppsStamped_op, hfull, (raise_clockFrame _ _).time_eq]
    rfl
  · rw [ppsEntered, rb_congr (rd_modTime _ _), hfull, (raise_clockFrame _ _).rb_eq, rb_wb_self _ _ _ (by decide)]
  · rw [ppsEntered, rb_congr (rd_modTime _ _), hfull, rb_raise_self _ _ (by decide)]

/-- The fourth edge without a gap qualifies the source of role 3. -/
theorem ppsInEdge_qualifies (hrole : clkRole s = 3) (hen : rb s Reg.timeCtrl 0 = true) (hset : s.time.timeSet = true)
    (hq : s.time.qual = 3) (hs : clkState s = 0) (hgap : ∀ x, s.time.edgeAt = some x → s.op + (tm - s.now) < x + 2 * second) :
    ∃ t, exec (.ppsInEdge ⟨rising, tm⟩) s = .next t ∧ clkState t = 1 ∧ t.time.qual = 4 ∧
      KeepsBut [.regs, .now, .op, .time, .recorder, .arb, .out, .freeCtr] s t := by
  let u := ppsEntered (toInstant s tm)
  obtain ⟨r, hr⟩ := ppsStamped_ring (s := toInstant s tm)
  have hframe : ClockFrame edgeStampParts edgeRegs (toInstant s tm) u := ppsEntered_clockFrame
  have htime : u.time = { (ppsStamped (toInstant s tm)).time with edgeAt := some (ppsStamped (toInstant s tm)).op } := rfl
  have hreads : ¬ (decide (clkRole u ≠ 3) || !rb u Reg.timeCtrl 0 || !u.time.timeSet) = true := by
    rw [hframe.clkRole_eq, hframe.rb_eq, htime, hr]
    simp [hrole, hset, show rb (toInstant s tm) Reg.timeCtrl 0 = true from hen]
  have hsteady : ¬ passed (ppsStamped (toInstant s tm)) (ppsStamped (toInstant s tm)).time.edgeAt (2 * second) = true := by
    rw [Bool.not_eq_true, passed_eq_false, ppsStamped_op, hr]
    exact hgap
  have hqual : u.time.qual = 3 := by rw [htime, hr]; exact hq
  obtain ⟨hstate, hqual', -, hk⟩ := sourceReading_starts (s := u) (need := 4)
    (refOffset ((toInstant s tm).now - nsec * rf (toInstant s tm) Reg.timeRefdly 15 0)) (hframe.clkState_eq.trans hs) (by rw [hqual])
  refine ⟨_, (ppsInEdge_selected tm hon h).trans (congrArg _ ((if_neg hreads).trans (by rw [if_neg hsteady]))), hstate, by
    rw [hqual', hqual], ?_⟩
  exact (((toInstant_clockFrame tm).widen.andThen hframe).andThen hk : ClockFrame _ (edgeRegs ++ measureRegs) s _).keeps

end

end

/-! ## IRIG-B frames (R47, R48) -/

/-- The on-time marker of an IRIG-B frame stamped less its delay, in the ring. -/
def irigStamped (s : State) (m : IrigFrame) : State :=
  pushEdge (wf (wb s Reg.timeRefstat 1 true) Reg.timeRefstat 7 4 m.quality.toNat) ⟨s.now - nsec * rf s Reg.timeRefdly 31 16, true⟩

/-- A stamped IRIG-B frame entered, with what it tells. -/
def irigEntered (s : State) (m : IrigFrame) : State :=
  modTime (irigStamped s m) (fun t => { t with
    irigAt := some (irigStamped s m).op, irigUtc := if m.ok then m.ext.map (fun x => (x, m.leap)) else t.irigUtc })

/-- The offset that a frame measures, in quarter ns: its second in the module's time less the stamp. -/
def irigOffset (s : State) (m : IrigFrame) : Int :=
  (((m.utcSec : Int) + (utcOffset (irigEntered s m)).1) * (second : Int) - ((s.now - nsec * rf s Reg.timeRefdly 31 16 : Nat) : Int)).tdiv 36

section
variable {s : State} {m : IrigFrame} (tm : Instant)

theorem exec_irigBFrame : exec (.irigBFrame m tm) s = .next (doIrigBFrame m tm s) := rfl

theorem irigStamped_clockFrame : ClockFrame edgeStampParts edgeRegs s (irigStamped s m) :=
  ((wb_clockFrame _ _ _).widen.andThen (wf_clockFrame _ _ _ _)).andThen (pushEdge_clockFrame _)

theorem irigEntered_clockFrame : ClockFrame edgeStampParts edgeRegs s (irigEntered s m) :=
  irigStamped_clockFrame.andThen (modTime_clockFrame _)

theorem irigStamped_op : (irigStamped s m).op = s.op := irigStamped_clockFrame.op_eq

theorem irigEntered_time (h : s.time.ring.length < 64) : (irigEntered s m).time = { s.time with
    ring := s.time.ring ++ [⟨s.now - nsec * rf s Reg.timeRefdly 31 16, true⟩], irigAt := some s.op,
    irigUtc := if m.ok then m.ext.map (fun x => (x, m.leap)) else s.time.irigUtc } := by
  rw [irigEntered, modTime_time, irigStamped_op, irigStamped,
    pushEdge_time (s := wf (wb s Reg.timeRefstat 1 true) Reg.timeRefstat 7 4 m.quality.toNat) _ h]
  rfl

/-- The input is present and its time quality shown. -/
theorem irigEntered_shown : rb (irigEntered s m) Reg.timeRefstat 1 = true ∧
    rf (irigEntered s m) Reg.timeRefstat 7 4 = m.quality.toNat := by
  have hrd : rd (irigEntered s m) Reg.timeRefstat = setFld (putBit (rd s Reg.timeRefstat) 1 true) 7 4 m.quality.toNat := by
    rw [irigEntered, rd_modTime, irigStamped, (pushEdge_clockFrame _).rd_eq, wf, rd_wr_self, wb, rd_wr_self]
  rw [rb, rf, hrd]
  refine ⟨?_, (fld_setFld _ _ (by decide) (by decide)).trans (Nat.mod_eq_of_lt m.quality.isLt)⟩
  rw [bitOf_setFld_ne _ _ (by decide) (by decide), bitOf_putBit _ _ _ (by decide), if_pos rfl]

section
variable (hon : rb s Reg.timeRefin 2 = true)
include hon

/-- A frame is entered; in role 2 a qualifying one is a reading of the source, another ends its run. -/
theorem irigBFrame_selected : exec (.irigBFrame m tm) s = .next
    (let u := irigEntered (toInstant s tm) m
     if (decide (clkRole u ≠ 2) || !rb u Reg.timeCtrl 0) = true then u
     else if (!m.ok || decide (4 < m.quality.toNat)) = true then sourceGap (wb u Reg.timeRefstat 2 false)
     else
       let w := sourceReading (if passed (irigStamped (toInstant s tm) m) (irigStamped (toInstant s tm) m).time.irigAt (2 * second) = true
         then sourceGap u else u) 4 (irigOffset (toInstant s tm) m)
       wb w Reg.timeRefstat 2 (decide (4 ≤ w.time.qual))) := by
  have hsel : ¬ (!rb (toInstant s tm) Reg.timeRefin 2) = true := by
    rw [show rb (toInstant s tm) Reg.timeRefin 2 = true from hon]
    decide
  rw [exec_irigBFrame, doIrigBFrame]
  exact congrArg _ (if_neg hsel)

theorem irigBFrame_enters (hring : s.time.ring.length < 64) (hrole : clkRole s ≠ 2) : ∃ t, exec (.irigBFrame m tm) s = .next t ∧
    t.time = { s.time with
      ring := s.time.ring ++ [⟨max s.now tm - nsec * rf s Reg.timeRefdly 31 16, true⟩], irigAt := some (s.op + (tm - s.now)),
      irigUtc := if m.ok then m.ext.map (fun x => (x, m.leap)) else s.time.irigUtc } ∧
    rb t Reg.timeRefstat 1 = true ∧ rf t Reg.timeRefstat 7 4 = m.quality.toNat ∧ KeepsBut [.regs, .now, .op, .time, .out] s t := by
  have hr : clkRole (irigEntered (toInstant s tm) m) ≠ 2 := by rwa [irigEntered_clockFrame.clkRole_eq]
  obtain ⟨hpresent, hquality⟩ := irigEntered_shown (s := toInstant s tm) (m := m)
  refine ⟨_, (irigBFrame_selected tm hon).trans (congrArg _ (if_pos (by rw [decide_eq_true hr]; rfl))),
    irigEntered_time (s := toInstant s tm) hring, hpresent, hquality, ?_⟩
  exact ((toInstant_clockFrame tm).widen.andThen irigEntered_clockFrame : ClockFrame _ edgeRegs s _).keeps

/-- The fourth qualifying frame without a gap qualifies the source of role 2. -/
theorem irigBFrame_qualifies (hring : s.time.ring.length < 64) (hrole : clkRole s = 2) (hen : rb s Reg.timeCtrl 0 = true)
    (hok : m.ok = true) (hquality : m.quality.toNat ≤ 4) (hq : s.time.qual = 3) (hs : clkState s = 0)
    (hgap : ∀ x, s.time.irigAt = some x → s.op + (tm - s.now) < x + 2 * second) :
    ∃ t, exec (.irigBFrame m tm) s = .next t ∧ clkState t = 1 ∧ rb t Reg.timeRefstat 2 = true ∧ t.time.qual = 4 ∧
      KeepsBut [.regs, .now, .op, .time, .recorder, .arb, .out, .freeCtr] s t := by
  let u := irigEntered (toInstant s tm) m
  have hframe : ClockFrame edgeStampParts edgeRegs (toInstant s tm) u := irigEntered_clockFrame
  have hreads : ¬ (decide (clkRole u ≠ 2) || !rb u Reg.timeCtrl 0) = true := by
    rw [hframe.clkRole_eq, hframe.rb_eq]
    simp [hrole, show rb (toInstant s tm) Reg.timeCtrl 0 = true from hen]
  have hgood : ¬ (!m.ok || decide (4 < m.quality.toNat)) = true := by simp [hok, hquality]
  have hsteady : ¬ passed (irigStamped (toInstant s tm) m) (irigStamped (toInstant s tm) m).time.irigAt (2 * second) = true := by
    rw [Bool.not_eq_true, passed_eq_false, irigStamped_op, irigStamped,
      pushEdge_time (s := wf (wb (toInstant s tm) Reg.timeRefstat 1 true) Reg.timeRefstat 7 4 m.quality.toNat) _ hring]
    exact hgap
  have hqual : u.time.qual = 3 := by rw [irigEntered_time (s := toInstant s tm) hring]; exact hq
  obtain ⟨hstate, hqual', -, hk⟩ := sourceReading_starts (s := u) (need := 4) (irigOffset (toInstant s tm) m)
    (hframe.clkState_eq.trans hs) (by rw [hqual])
  have hread : exec (.irigBFrame m tm) s = .next (wb (sourceReading u 4 (irigOffset (toInstant s tm) m)) Reg.timeRefstat 2 true) := by
    refine (irigBFrame_selected tm hon).trans (congrArg _ ((if_neg hreads).trans ((if_neg hgood).trans ?_)))
    dsimp only
    rw [if_neg hsteady, hqual', hqual]
    rfl
  refine ⟨_, hread, (wb_clockFrame _ _ _).clkState_eq.trans hstate, rb_wb_self _ _ _ (by decide), by
    rw [wb, wr_time, hqual', hqual], ?_⟩
  exact ((((toInstant_clockFrame tm).widen.andThen hframe).andThen hk).andThen (wb_clockFrame _ _ _)
    : ClockFrame _ (edgeRegs ++ measureRegs) s _).keeps

end

end

/-! ## The 1PPS output (R49) -/

section
variable {s : State}

/-- The output asserted at the present instant. -/
def ppsAsserted (s : State) : State := modTime s (fun t => { t with pps := true, ppsAt := s.op })

/-- A number rounded up to a multiple. -/
theorem roundUp_spec (n : Nat) {k : Nat} (hk : 0 < k) :
    (n + (k - 1)) / k * k % k = 0 ∧ n ≤ (n + (k - 1)) / k * k ∧ (n + (k - 1)) / k * k < n + k := by
  have hdiv := Nat.div_add_mod' (n + (k - 1)) k
  have hmod := Nat.mod_lt (n + (k - 1)) hk
  exact ⟨Nat.mul_mod_left _ _, by omega, by omega⟩

/-- The next top of a second: the first instant from the present on that is one. -/
theorem nextSecond_spec : nextSecond s % second = 0 ∧ s.now ≤ nextSecond s ∧ nextSecond s < s.now + second :=
  roundUp_spec s.now (by decide)

/-- The pulse starts at the top of a second. -/
theorem ppsOut_starts (hon : rb s Reg.timePpsout 0 = true) (hw : warned s = false) : ∃ t, exec .ppsOut s = .next t ∧
    t.now % second = 0 ∧ s.now ≤ t.now ∧ t.now < s.now + second ∧ t.op = s.op + (t.now - s.now) ∧
    t.time = { s.time with pps := true, ppsAt := t.op } ∧ KeepsBut [.now, .op, .time] s t := by
  obtain ⟨htop, hle, hlt⟩ := nextSecond_spec (s := s)
  have hmax : max s.now (nextSecond s) = nextSecond s := Nat.max_eq_right hle
  have he : exec .ppsOut s = .next (ppsAsserted (toInstant s (nextSecond s))) := congrArg _ (if_pos (by rw [hon, hw]; rfl))
  refine ⟨_, he, ?_, ?_, ?_, ?_, rfl, ?_⟩
  · exact (congrArg (· % second) hmax).trans htop
  · exact Nat.le_max_left _ _
  · exact hmax.trans_lt hlt
  · exact congrArg (fun n => s.op + (n - s.now)) hmax.symm
  · exact ((toInstant_clockFrame _).widen.andThen (modTime_clockFrame _) : ClockFrame _ [] s _).keeps

theorem ppsOut_idle (h : rb s Reg.timePpsout 0 = false ∨ warned s = true) : exec .ppsOut s = .next s :=
  congrArg _ (if_neg (by obtain h | h := h <;> simp [h]))

theorem add_advance (a b n : Nat) : a + (n + (b - a) - n) = max a b := by omega

/-- The pulse ends after its width. -/
theorem ppsOutEnd_ends (h : s.time.pps = true) : ∃ t, exec .ppsOutEnd s = .next t ∧
    t.op = max s.op (s.time.ppsAt + rf s Reg.timePpsout 9 1 * msec) ∧ t.now = s.now + (t.op - s.op) ∧
    t.time = { s.time with pps := false } ∧ KeepsBut [.now, .op, .time] s t := by
  let d := s.time.ppsAt + rf s Reg.timePpsout 9 1 * msec - s.op
  have he : exec .ppsOutEnd s = .next (modTime (toInstant s (s.now + d)) (fun t => { t with pps := false })) := congrArg _ (if_pos h)
  have hop : s.op + (s.now + d - s.now) = max s.op (s.time.ppsAt + rf s Reg.timePpsout 9 1 * msec) := add_advance _ _ _
  have hnow : max s.now (s.now + d) = s.now + (s.op + (s.now + d - s.now) - s.op) := by
    rw [Nat.add_sub_cancel_left, Nat.add_sub_cancel_left, Nat.max_eq_right (Nat.le_add_right _ _)]
  exact ⟨_, he, hop, hnow, rfl, ((toInstant_clockFrame _).widen.andThen (modTime_clockFrame _) : ClockFrame _ [] s _).keeps⟩

end

end Sys2Proof.Machine
end

section
/-! PROOFS: the TIME registers with a command of their own and the settled statement (O35). -/

namespace Sys2Proof.Machine
set_option Elab.async false

/-! ## TIME_CTRL (R53) -/

theorem bitOf_setFld (w : Word) {hi lo : Nat} (x i : Nat) (hi32 : hi < 32) (hlo : lo ≤ hi) :
    bitOf (setFld w hi lo x) i = if lo ≤ i ∧ i ≤ hi then x.testBit (i - lo) else bitOf w i := by
  split
  case isTrue h =>
    have hbit := getLsbD_setFld w x (i - lo) hi32 hlo (by omega)
    rwa [Nat.add_sub_of_le h.1] at hbit
  case isFalse h => exact bitOf_setFld_ne w x hlo (by omega)

/-- TIME_CTRL made of its fields. -/
theorem timeCtrl_fields (v : Word) :
    putBit (setFld (setFld (putBit 0 0 (bitOf v 0)) 3 1 (fld v 3 1)) 5 4 (fld v 5 4)) 6 (bitOf v 6) = v &&& 0x7F := by
  have hmask : ∀ i < 32, (0x7F : Word).getLsbD i = decide (i < 7) := by decide
  refine BitVec.eq_of_getLsbD_eq fun i hi => ?_
  change bitOf _ i = _
  rw [bitOf_putBit _ _ _ (by decide), bitOf_setFld _ _ _ (by decide) (by decide), bitOf_setFld _ _ _ (by decide) (by decide),
    bitOf_putBit _ _ _ (by decide), testBit_fld, testBit_fld, BitVec.getLsbD_and, hmask i hi, ← bitOf]
  obtain rfl | h | h | rfl | h : i = 6 ∨ (4 ≤ i ∧ i ≤ 5) ∨ (1 ≤ i ∧ i ≤ 3) ∨ i = 0 ∨ 7 ≤ i := by omega
  · simp
  · rw [if_neg (by omega), if_pos h, Nat.add_sub_of_le h.1, decide_eq_true (by omega), decide_eq_true (by omega),
      Bool.true_and, Bool.and_true]
  · rw [if_neg (by omega), if_neg (by omega), if_pos h, Nat.add_sub_of_le h.1, decide_eq_true (by omega), decide_eq_true (by omega),
      Bool.true_and, Bool.and_true]
  · simp
  · rw [if_neg (by omega), if_neg (by omega), if_neg (by omega), if_neg (by omega), decide_eq_false (by omega), Bool.and_false]
    exact BitVec.getLsbD_zero

/-- A clock disabled: Free-run, no master and nothing heard. -/
def clockDisabled (s : State) : State :=
  refreshClock (enterClock (wb (modTime (stopCorrecting s)
    (fun t => { t with qual := 0, best := none, heard := [] })) Reg.timeRefstat 2 false) 0)

/-- A clock in another role: the source of the old one is lost. -/
def roleChanged (s : State) : State :=
  selectMaster (sourceLost (wb (modTime s (fun t => { t with best := none })) Reg.timeRefstat 2 false))

section
variable {s : State} {v : Word}

theorem clockDisabled_clockFrame : ClockFrame clockParts (Reg.timeRefstat :: masterRegs) s (clockDisabled s) :=
  ((((modTime_clockFrame _).widen.andThen (modTime_clockFrame _)).andThen (wb_clockFrame _ _ _)).andThen
    (enterClock_clockFrame _ _)).andThen (refreshClock_clockFrame _)

theorem roleChanged_clockFrame : ClockFrame clockParts (Reg.timeRefstat :: masterRegs) s (roleChanged s) :=
  (((modTime_clockFrame _).widen.andThen (wb_clockFrame _ _ _)).andThen (sourceLost_clockFrame _)).andThen (selectMaster_clockFrame _)

theorem clockDisabled_spec : clkState (clockDisabled s) = 0 ∧ (clockDisabled s).time.step = none ∧
    (clockDisabled s).time.slewAdj = 0 ∧ (clockDisabled s).time.qual = 0 ∧ (clockDisabled s).time.best = none := by
  let u := wb (modTime (stopCorrecting s) (fun t => { t with qual := 0, best := none, heard := [] })) Reg.timeRefstat 2 false
  obtain ⟨hqual, hbest⟩ := enterClock_source u 0
  have hstopped : (enterClock u 0).time.step = none ∧ (enterClock u 0).time.slewAdj = 0 := by
    by_cases h : clkState u = 0
    · rw [enterClock_same h, refreshClock_time]
      exact ⟨rfl, rfl⟩
    · exact enterClock_uncorrected h (.inl rfl)
  unfold clockDisabled
  rw [clkState_refreshClock, refreshClock_time]
  exact ⟨clkState_enterClock _ (by decide), hstopped.1, hstopped.2, hqual, hbest⟩

/-- TIME_CTRL with legal fields is stored whole; then en and the role act. -/
theorem exec_timeCtrlWrite (hrun : hcSt s ≠ 3) (hrole : fld v 3 1 < 4) (hprof : fld v 5 4 ≠ 3) : exec (.timeCtrlWrite v) s = .next
    (let u := wrp s Reg.timeCtrl (v &&& 0x7F)
     if bitOf v 0 = false then clockDisabled u else if fld v 3 1 ≠ clkRole s then roleChanged u else selectMaster u) := by
  have he : exec (.timeCtrlWrite v) s = .next (doTimeCtrlWrite v s) := congrArg _ (live_of_running _ hrun)
  have hen : bitOf (v &&& 0x7F) 0 = bitOf v 0 := by
    rw [bitOf, BitVec.getLsbD_and]
    exact Bool.and_true _
  rw [he]
  simp only [doTimeCtrlWrite, if_neg (Nat.not_le.mpr hrole), if_neg hprof, timeCtrl_fields, hen]
  cases bitOf v 0 <;> rfl

/-- A write with legal fields is stored; en = 0 leads to Free-run, and a clock without a master stays as it is. -/
theorem timeCtrlWrite_spec (hrun : hcSt s ≠ 3) (hrole : fld v 3 1 < 4) (hprof : fld v 5 4 ≠ 3) :
    ∃ t, exec (.timeCtrlWrite v) s = .next t ∧ rd t Reg.timeCtrl = v &&& 0x7F ∧
      (bitOf v 0 = true → fld v 3 1 = clkRole s → s.time.best = none → (∀ q : Fin 144, Tab.get none s.time.heard q = none) →
        clkState t = clkState s ∧ t.time = s.time) ∧
      (bitOf v 0 = false → clkState t = 0 ∧ t.time.step = none ∧ t.time.slewAdj = 0 ∧ t.time.qual = 0 ∧ t.time.best = none) ∧
      KeepsBut [.regs, .time, .recorder, .arb, .out] s t := by
  let u := wrp s Reg.timeCtrl (v &&& 0x7F)
  have hstored : ClockFrame logParts [Reg.timeCtrl] s u := wrp_clockFrame _ _
  have hword : rd u Reg.timeCtrl = v &&& 0x7F := (wrp_spec s _ (by decide)).1
  have hacts : ClockFrame clockParts (Reg.timeRefstat :: masterRegs) u
      (if bitOf v 0 = false then clockDisabled u else if fld v 3 1 ≠ clkRole s then roleChanged u else selectMaster u) :=
    .ite (fun _ => clockDisabled_clockFrame) (fun _ => .ite (fun _ => roleChanged_clockFrame) (fun _ => (selectMaster_clockFrame u).widen))
  refine ⟨_, exec_timeCtrlWrite hrun hrole hprof, hacts.rd_eq.trans hword, fun hen hsame hbest hheard => ?_, fun hoff => ?_, ?_⟩
  · have hnone : masterFound u = none := masterFound_none (by rwa [hstored.time_eq])
    obtain ⟨hstate, htime⟩ := selectMaster_idle (s := u) (by rw [hstored.time_eq, hbest]) hnone
    dsimp only
    rw [if_neg (by rw [hen]; decide), if_neg (not_not.mpr hsame), hstate, htime]
    exact ⟨hstored.clkState_eq, hstored.time_eq⟩
  · dsimp only
    rw [if_pos hoff]
    exact clockDisabled_spec
  · exact hstored.keepsBut.trans hacts.keepsBut

end

/-! ## TIME_PTPCFG and TIME_TICKCFG (R46, R54, R55) -/

section
variable {s : State} {v : Word}

/-- TIME_PTPCFG is stored whole where every field is in range, and refused otherwise. -/
theorem doTimePtpcfgWrite_eq [Decidable (PtpcfgInRange v)] : doTimePtpcfgWrite v s =
    if PtpcfgInRange v then wrp s Reg.timePtpcfg (v &&& 0xFFFFFF) else raise s Reg.timeIrq 6 := by
  unfold doTimePtpcfgWrite
  simp only [Bool.and_eq_true, decide_eq_true_eq]
  refine if_congr ?_ rfl rfl
  simp only [PtpcfgInRange, and_assoc]

theorem timePtpcfgWrite_stores (hrun : hcSt s ≠ 3) (h : PtpcfgInRange v) : ∃ t, exec (.timePtpcfgWrite v) s = .next t ∧
    rd t Reg.timePtpcfg = v &&& 0xFFFFFF ∧ KeepsBut [.regs, .recorder, .arb, .out] s t := by
  classical
  have he : exec (.timePtpcfgWrite v) s = .next (wrp s Reg.timePtpcfg (v &&& 0xFFFFFF)) :=
    congrArg _ ((live_of_running _ hrun).trans (doTimePtpcfgWrite_eq.trans (if_pos h)))
  obtain ⟨hword, -, hkeeps⟩ := wrp_spec s (off := Reg.timePtpcfg) (v &&& 0xFFFFFF) (by decide)
  exact ⟨_, he, hword, hkeeps.mono (by decide)⟩

theorem timePtpcfgWrite_refused (hrun : hcSt s ≠ 3) (h : ¬ PtpcfgInRange v) :
    exec (.timePtpcfgWrite v) s = .next (raise s Reg.timeIrq 6) := by
  classical
  exact congrArg _ ((live_of_running _ hrun).trans (doTimePtpcfgWrite_eq.trans (if_neg h)))

/-- The rate in force is that of TIME_TICKCFG's field. -/
theorem rateHz_congr {t : State} (h : rf t Reg.timeTickcfg 1 0 = rf s Reg.timeTickcfg 1 0) : rateHz t = rateHz s := by
  rw [rateHz, h, rateHz]

theorem period_congr {t : State} (h : rd t Reg.timeTickcfg = rd s Reg.timeTickcfg) : period t = period s := by
  rw [period, rateHz_congr (congrArg (fun w => fld w 1 0) h), period]

/-- Every tick rate has a period. -/
theorem period_pos : 0 < period s := by
  unfold period rateHz
  split <;> decide

/-- A tick rate that waits for the top of second, shown pending. -/
def rateWaiting (s : State) (r : Nat) : State := wb (modTime s (fun t => { t with ratePend := some r })) Reg.timeTickcfg 8 true

theorem exec_timeTickcfgWrite (hrun : hcSt s ≠ 3) : exec (.timeTickcfgWrite v) s = .next (doTimeTickcfgWrite v s) :=
  congrArg _ (live_of_running _ hrun)

/-- An accepted tick rate waits, and the rate in force stays. -/
theorem timeTickcfgWrite_waits (hrun : hcSt s ≠ 3) (hfree : allIdle s = true ∧ rf s Reg.loomPbStatus 1 0 = 0) :
    ∃ t, exec (.timeTickcfgWrite v) s = .next t ∧ t.time = { s.time with ratePend := some (fld v 1 0) } ∧
      rateHz t = rateHz s ∧ rb t Reg.timeTickcfg 8 = true ∧ rb t Reg.timeTickcfg 9 = false ∧
      KeepsBut [.regs, .time, .recorder, .arb, .out] s t := by
  let u := persist (wb s Reg.timeTickcfg 9 false) Reg.timeTickcfg
  have hpersist : ClockFrame logParts [] (wb s Reg.timeTickcfg 9 false) u := .of_frame (persist_frame _ _)
  have hu : ClockFrame logParts [Reg.timeTickcfg] s u := (wb_clockFrame _ _ _).widen.andThen hpersist
  have he : exec (.timeTickcfgWrite v) s = .next (rateWaiting u (fld v 1 0)) :=
    (exec_timeTickcfgWrite hrun).trans (congrArg _ (if_pos (by rw [hfree.1, hfree.2]; rfl)))
  have hword : rd (rateWaiting u (fld v 1 0)) Reg.timeTickcfg = putBit (putBit (rd s Reg.timeTickcfg) 9 false) 8 true := by
    rw [rateWaiting, wb, rd_wr_self, rd_modTime, hpersist.rd_eq, wb, rd_wr_self]
  refine ⟨_, he, ?_, rateHz_congr ?_, ?_, ?_, ?_⟩
  · rw [rateWaiting, (wb_clockFrame _ _ _).time_eq, modTime_time, hu.time_eq]
  · rw [rf, hword, fld_putBit_ne _ _ (by decide) (by decide) (by decide), fld_putBit_ne _ _ (by decide) (by decide) (by decide), rf]
  · rw [rb, hword, bitOf_putBit _ _ _ (by decide), if_pos rfl]
  · rw [rb, hword, bitOf_putBit _ _ _ (by decide), if_neg (by decide), bitOf_putBit _ _ _ (by decide), if_pos rfl]
  · exact ((hu.widen.andThen (modTime_clockFrame _)).andThen (wb_clockFrame _ _ _) : ClockFrame _ [Reg.timeTickcfg] s _).keeps

theorem timeTickcfgWrite_refused (hrun : hcSt s ≠ 3) (hfree : ¬ (allIdle s = true ∧ rf s Reg.loomPbStatus 1 0 = 0)) :
    exec (.timeTickcfgWrite v) s = .next (wb s Reg.timeTickcfg 9 true) :=
  (exec_timeTickcfgWrite hrun).trans (congrArg _ (if_neg (fun h => hfree (by simpa using h))))

/-! ## TIME_LATCH (R52) -/

/-- Time and tick number captured. -/
def timeLatched (s : State) : State :=
  let s := wr (wr (wr s Reg.timeSecHi (W (secOf s.now / 2 ^ 32 % 2 ^ 16))) Reg.timeSecLo (W (secOf s.now))) Reg.timeNs (nsWord s.now)
  wr (wr s Reg.timeTickHi (W (s.time.tick / 2 ^ 32 % 2 ^ 16))) Reg.timeTickLo (W s.time.tick)

theorem timeLatched_shown : rd (timeLatched s) Reg.timeSecLo = W (secOf s.now) ∧ rd (timeLatched s) Reg.timeNs = nsWord s.now ∧
    rd (timeLatched s) Reg.timeTickLo = W s.time.tick ∧ rd (timeLatched s) Reg.timeTickHi = W (s.time.tick / 2 ^ 32 % 2 ^ 16) := by
  unfold timeLatched
  refine ⟨?_, ?_, ?_, ?_⟩ <;> simp (disch := decide) only [rd_wr_ne, rd_wr_self, wr_time]

theorem timeLatched_keeps : KeepsBut [.regs] s (timeLatched s) :=
  ((((wr_keeps _ _ _).trans (wr_keeps _ _ _)).trans (wr_keeps _ _ _)).trans (wr_keeps _ _ _)).trans (wr_keeps _ _ _)

theorem timeLatch_spec (tm : Instant) (hrun : hcSt s ≠ 3) : ∃ t, exec (.timeLatch 1 tm) s = .next t ∧
    rd t Reg.timeSecLo = W (secOf (max s.now tm)) ∧ rd t Reg.timeNs = nsWord (max s.now tm) ∧ rd t Reg.timeTickLo = W s.time.tick ∧
    rd t Reg.timeTickHi = W (s.time.tick / 2 ^ 32 % 2 ^ 16) ∧ KeepsBut [.regs, .now, .op] s t := by
  obtain ⟨hsec, hns, hlo, hhi⟩ := timeLatched_shown (s := toInstant s tm)
  have hlive : exec (.timeLatch 1 tm) s = .next (doTimeLatch 1 tm s) := congrArg _ (live_of_running _ hrun)
  have he : exec (.timeLatch 1 tm) s = .next (timeLatched (toInstant s tm)) :=
    hlive.trans (congrArg _ (by unfold doTimeLatch; exact if_pos rfl))
  exact ⟨_, he, hsec, hns, hlo, hhi, ((toInstant_keeps s tm).mono (by decide)).trans (timeLatched_keeps.mono (by decide))⟩

end

/-! ## TIME_SET_GO (R40, R44) -/

/-- A time set accepted. -/
def timeSetTaken (s : State) : State :=
  let s := wb (wb s Reg.timeState 7 false) Reg.timeState 6 true
  modTime s (fun t => { t with timeSet := true, qual := if clkRole s = 3 then 0 else t.qual })

/-- The offset that a time set asks for, in quarter ns: the seconds to set less the next top of second. -/
def setOffset (s : State) : Int :=
  let target : Nat := (rf s Reg.timeSetSecHi 15 0 * 2 ^ 32 + (rd s Reg.timeSetSecLo).toNat) * second
  ((target : Int) - ((secOf s.now + 1) * second : Nat)).tdiv 36

section
variable {s : State}

theorem timeSetTaken_clockFrame : ClockFrame [.regs, .time] [Reg.timeState] s (timeSetTaken s) := by
  unfold timeSetTaken
  exact ((wb_clockFrame _ _ _).widen.andThen (wb_clockFrame _ _ _)).andThen (modTime_clockFrame _)

theorem clkState_timeSetTaken : clkState (timeSetTaken s) = clkState s := by
  rw [timeSetTaken, clkState_modTime, clkState, rf, wb, rd_wr_self, wb, rd_wr_self, fld_putBit_ne _ _ (by decide) (by decide) (by decide),
    fld_putBit_ne _ _ (by decide) (by decide) (by decide), clkState, rf]

theorem timeSetTaken_flags : rb (timeSetTaken s) Reg.timeState 6 = true ∧ rb (timeSetTaken s) Reg.timeState 7 = false := by
  rw [timeSetTaken, rb_congr (rd_modTime _ _), rb_congr (rd_modTime _ _)]
  exact ⟨rb_wb_self _ _ _ (by decide), (rb_wb_bit _ _ _ (by decide) (by decide)).trans (rb_wb_self _ _ _ (by decide))⟩

/-- An offset ahead is slewed with at most 50 ppm. -/
theorem slew_ahead {delta : Int} (h : 0 < delta) :
    ∃ a, (slew s delta).time = { s.time with slewAdj := a } ∧ 0 < a ∧ a ≤ 800000 := by
  have hlt := Nat.mod_lt (Config.freeWord s.freeCtr).toNat (show 0 < 799999 + 1 by decide)
  unfold slew
  rw [if_neg (by omega)]
  simp only [drawLe, if_pos h]
  exact ⟨_, rfl, by omega, by omega⟩

/-- In Locked every offset is slewed. -/
theorem correct_locked {delta : Int} {top : Bool} (h : clkState s = 2) :
    correct s delta top = slew (modTime s (fun t => { t with step := none })) delta := if_pos (.inr h)

/-- Outside Locked an offset beyond 1 ms is a step that waits. -/
theorem correct_steps {delta : Int} {top : Bool} (h : clkState s ≠ 2) (hd : 4000000 < delta.natAbs) : correct s delta top =
    modTime s (fun t => { t with
      step := some ⟨(splitStep (period s) (delta * 36)).1, (splitStep (period s) (delta * 36)).2, top⟩, slewAdj := 0 }) :=
  if_neg (by omega)

/-- An offset split into whole periods and a residue within half a period. -/
theorem splitStep_spec {T : Int} (hT : 0 < T) (delta : Int) : (splitStep T delta).1 * T + (splitStep T delta).2 = delta ∧
    -T < 2 * (splitStep T delta).2 ∧ 2 * (splitStep T delta).2 ≤ T := by
  have hdiv := Int.mul_fdiv_add_fmod (T - 2 * delta) (2 * T)
  have hlo := Int.fmod_nonneg_of_pos (T - 2 * delta) (show 0 < 2 * T by omega)
  have hhi := Int.fmod_lt_of_pos (T - 2 * delta) (show 0 < 2 * T by omega)
  have hprod : 2 * T * (T - 2 * delta).fdiv (2 * T) = 2 * ((T - 2 * delta).fdiv (2 * T) * T) := by ring
  simp only [splitStep, Int.neg_mul]
  generalize (T - 2 * delta).fdiv (2 * T) * T = q at *
  omega

section
variable (tm : Instant) (hrun : hcSt s ≠ 3)
include hrun

theorem timeSetGo_accepted (h : clkState s = 0 ∨ clkRole s = 3) : exec (.timeSetGo 1 tm) s =
    .next (refreshClock (correct (timeSetTaken (toInstant s tm)) (setOffset (toInstant s tm)) true)) := by
  have he : exec (.timeSetGo 1 tm) s = .next (doTimeSetGo 1 tm s) := congrArg _ (live_of_running _ hrun)
  rw [he]
  unfold doTimeSetGo
  extract_lets u
  rw [if_neg (by decide), if_pos (show clkState u = 0 ∨ clkRole u = 3 from h)]
  rfl

/-- In Locked the set time is slewed. -/
theorem timeSetGo_slews (hrole : clkRole s = 3) (hs : clkState s = 2) (hd : 0 < setOffset (toInstant s tm)) :
    ∃ t, exec (.timeSetGo 1 tm) s = .next t ∧ t.time.step = none ∧ 0 < t.time.slewAdj ∧ t.time.slewAdj ≤ 800000 ∧
      t.time.timeSet = true ∧ KeepsBut [.regs, .now, .op, .time, .freeCtr] s t := by
  let u := timeSetTaken (toInstant s tm)
  have hu : clkState u = 2 := clkState_timeSetTaken.trans hs
  obtain ⟨a, ha, hpos, hle⟩ := slew_ahead (s := modTime u (fun t => { t with step := none })) hd
  have ht : (refreshClock (correct u (setOffset (toInstant s tm)) true)).time =
      { (modTime u (fun t => { t with step := none })).time with slewAdj := a } := by rw [refreshClock_time, correct_locked hu, ha]
  refine ⟨_, timeSetGo_accepted tm hrun (.inr hrole), ?_, ?_, ?_, ?_, ?_⟩
  · rw [ht]
    rfl
  · rw [ht]
    exact hpos
  · rw [ht]
    exact hle
  · rw [ht]
    rfl
  · exact ((((toInstant_clockFrame tm).widen.andThen timeSetTaken_clockFrame).andThen (correct_clockFrame _ _)).andThen
      (refreshClock_clockFrame _) : ClockFrame _ [Reg.timeState, Reg.timeFreq] s _).keeps

/-- Beyond 1 ms the set time is a step of whole periods and a residue. -/
theorem timeSetGo_steps (h : clkState s = 0 ∨ clkRole s = 3) (hs : clkState s ≠ 2)
    (hd : 4000000 < (setOffset (toInstant s tm)).natAbs) :
    ∃ t k rho, exec (.timeSetGo 1 tm) s = .next t ∧ t.time.step = some ⟨k, rho, true⟩ ∧
      k * period s + rho = setOffset (toInstant s tm) * 36 ∧ -(period s : Int) < 2 * rho ∧ 2 * rho ≤ period s ∧
      t.time.timeSet = true ∧ rb t Reg.timeState 6 = true ∧ rb t Reg.timeState 7 = false ∧
      KeepsBut [.regs, .now, .op, .time] s t := by
  let u := timeSetTaken (toInstant s tm)
  have hu : clkState u ≠ 2 := by rwa [clkState_timeSetTaken]
  have hperiod : period u = period s := period_congr (timeSetTaken_clockFrame.rd_eq (s := toInstant s tm))
  obtain ⟨hsum, hlo, hhi⟩ := splitStep_spec (T := period s) (by exact_mod_cast period_pos) (setOffset (toInstant s tm) * 36)
  obtain ⟨hvalid, hrej⟩ := timeSetTaken_flags (s := toInstant s tm)
  have hstep := correct_steps (top := true) hu hd
  rw [hperiod] at hstep
  refine ⟨_, _, _, timeSetGo_accepted tm hrun h, ?_, hsum, hlo, hhi, ?_, ?_, ?_, ?_⟩
  · rw [refreshClock_time, hstep]
    rfl
  · rw [refreshClock_time, hstep]
    rfl
  · rw [rb_refreshClock_kept _ (.inl rfl), hstep]
    exact hvalid
  · rw [rb_refreshClock_kept _ (.inr rfl), hstep]
    exact hrej
  · rw [hstep]
    exact ((((toInstant_clockFrame tm).widen.andThen timeSetTaken_clockFrame).andThen (modTime_clockFrame _)).andThen
      (refreshClock_clockFrame _) : ClockFrame _ [Reg.timeState, Reg.timeFreq] s _).keeps

theorem timeSetGo_refused (h0 : clkState s ≠ 0) (h3 : clkRole s ≠ 3) :
    exec (.timeSetGo 1 tm) s = .next (wb (toInstant s tm) Reg.timeState 7 true) := by
  have he : exec (.timeSetGo 1 tm) s = .next (doTimeSetGo 1 tm s) := congrArg _ (live_of_running _ hrun)
  rw [he]
  unfold doTimeSetGo
  extract_lets u
  rw [if_neg (by decide), if_neg (show ¬ (clkState u = 0 ∨ clkRole u = 3) from not_or.mpr ⟨h0, h3⟩)]

end

end

/-! ## TIME_EDGE_POP (R50, R51) -/

/-- TIME_EDGE_INFO of an edge taken from the ring, with the edges left in it. -/
def edgeInfo (w : Word) (e : TimeEdge) (left : Nat) : Word :=
  setFld (setFld (setFld (putBit w 30 true) 15 0 (secOf e.stamp / 2 ^ 32)) 16 16 (b2n e.irig)) 22 17 left

theorem edgeInfo_fields (w : Word) (e : TimeEdge) {left : Nat} (h : left < 64) : bitOf (edgeInfo w e left) 16 = e.irig ∧
    fld (edgeInfo w e left) 22 17 = left ∧ bitOf (edgeInfo w e left) 30 = true := by
  unfold edgeInfo
  refine ⟨?_, (fld_setFld _ _ (by decide) (by decide)).trans (Nat.mod_eq_of_lt h), ?_⟩
  · rw [bitOf_setFld_ne _ _ (by decide) (by decide), bitOf_setFld _ _ _ (by decide) (by decide), if_pos (by decide)]
    cases e.irig <;> rfl
  · rw [bitOf_setFld_ne _ _ (by decide) (by decide), bitOf_setFld_ne _ _ (by decide) (by decide),
      bitOf_setFld_ne _ _ (by decide) (by decide), bitOf_putBit _ _ _ (by decide), if_pos rfl]

/-- An edge moved from the ring to the edge registers. -/
def edgePopped (s : State) (e : TimeEdge) (rest : List TimeEdge) : State :=
  let s := wr (wr (modTime s (fun t => { t with ring := rest })) Reg.timeEdgeSec (W (secOf e.stamp))) Reg.timeEdgeNs (nsWord e.stamp)
  wr s Reg.timeEdgeInfo (edgeInfo (rd s Reg.timeEdgeInfo) e rest.length)

section
variable {s : State} (hrun : hcSt s ≠ 3)
include hrun

theorem exec_timeEdgePop : exec (.timeEdgePop 1) s = .next (match s.time.ring with
    | [] => wb (wf s Reg.timeEdgeInfo 22 17 0) Reg.timeEdgeInfo 30 false
    | e :: rest => edgePopped s e rest) := by
  have hlive : exec (.timeEdgePop 1) s = .next (doTimeEdgePop 1 s) := congrArg _ (live_of_running _ hrun)
  rw [hlive, doTimeEdgePop, if_neg (by decide)]
  cases s.time.ring <;> rfl

/-- A popped edge is shown and leaves. -/
theorem timeEdgePop_pops {e : TimeEdge} {rest : List TimeEdge} (h : s.time.ring = e :: rest) (hl : rest.length < 64) :
    ∃ t, exec (.timeEdgePop 1) s = .next t ∧ t.time = { s.time with ring := rest } ∧ rd t Reg.timeEdgeSec = W (secOf e.stamp) ∧
      rd t Reg.timeEdgeNs = nsWord e.stamp ∧ rb t Reg.timeEdgeInfo 16 = e.irig ∧ rf t Reg.timeEdgeInfo 22 17 = rest.length ∧
      rb t Reg.timeEdgeInfo 30 = true ∧ KeepsBut [.regs, .time] s t := by
  have he : exec (.timeEdgePop 1) s = .next (edgePopped s e rest) := by
    rw [exec_timeEdgePop hrun, h]
  let u := wr (wr (modTime s (fun t => { t with ring := rest })) Reg.timeEdgeSec (W (secOf e.stamp))) Reg.timeEdgeNs (nsWord e.stamp)
  obtain ⟨hirig, hleft, hvalid⟩ := edgeInfo_fields (rd u Reg.timeEdgeInfo) e hl
  have hinfo : rd (edgePopped s e rest) Reg.timeEdgeInfo = edgeInfo (rd u Reg.timeEdgeInfo) e rest.length := rd_wr_self _ _ _
  refine ⟨_, he, rfl, ?_, ?_, ?_, ?_, ?_, ?_⟩
  · exact (rd_wr_ne _ _ (by decide)).trans ((rd_wr_ne _ _ (by decide)).trans (rd_wr_self _ _ _))
  · exact (rd_wr_ne _ _ (by decide)).trans (rd_wr_self _ _ _)
  · rw [rb, hinfo, hirig]
  · rw [rf, hinfo, hleft]
  · rw [rb, hinfo, hvalid]
  · exact ((((modTime_clockFrame _).widen.andThen (wr_clockFrame _ _)).andThen (wr_clockFrame _ _)).andThen (wr_clockFrame _ _)
      : ClockFrame _ [Reg.timeEdgeSec, Reg.timeEdgeNs, Reg.timeEdgeInfo] s _).keeps

/-- An empty ring shows no edge. -/
theorem timeEdgePop_empty (h : s.time.ring = []) : ∃ t, exec (.timeEdgePop 1) s = .next t ∧ rb t Reg.timeEdgeInfo 30 = false ∧
    rf t Reg.timeEdgeInfo 22 17 = 0 ∧ KeepsBut [.regs] s t := by
  have he : exec (.timeEdgePop 1) s = .next (wb (wf s Reg.timeEdgeInfo 22 17 0) Reg.timeEdgeInfo 30 false) := by
    rw [exec_timeEdgePop hrun, h]
  refine ⟨_, he, rb_wb_self _ _ _ (by decide), ?_, (wr_keeps _ _ _).trans (wr_keeps _ _ _)⟩
  rw [rf, wb, rd_wr_self, fld_putBit_ne _ _ (by decide) (by decide) (by decide), wf, rd_wr_self, fld_setFld _ _ (by decide) (by decide)]
  rfl

end

/-- Settles O35: each input and register is the lemma of its case; a stamped edge that qualifies its source is the reading of O34. -/
theorem timeInputsAndRegisters : Obligations.TimeInputsAndRegisters := by
  unfold Obligations.TimeInputsAndRegisters
  intro s v tm
  refine ⟨fun rising hon => ⟨ppsInEdge_other tm, fun h hrole => ⟨ppsInEdge_room tm hon h hrole, ppsInEdge_overflow tm hon h hrole⟩,
      ppsInEdge_qualifies tm hon⟩, fun m hon hring => ⟨irigBFrame_enters tm hon hring, irigBFrame_qualifies tm hon hring⟩,
    ppsOut_starts, ppsOut_idle, ppsOutEnd_ends, timeCtrlWrite_spec, timePtpcfgWrite_stores, timePtpcfgWrite_refused,
    fun hrun => ⟨timeTickcfgWrite_waits hrun, timeTickcfgWrite_refused hrun⟩, timeLatch_spec tm,
    fun hrun => ⟨timeSetGo_slews tm hrun, timeSetGo_steps tm hrun, timeSetGo_refused tm hrun⟩,
    fun e rest hrun => timeEdgePop_pops hrun, timeEdgePop_empty⟩

end Sys2Proof.Machine
end

section
/-! PROOFS: the switch core: registers and ports that its operations leave alone (O20, O21, O23). -/

namespace Sys2Proof.Machine
set_option Elab.async false

/-! ## Registers the switch core counts in (R73, R76, R80) -/

/-- The registers that counting on a port and holding frames write: the overflow's and the free cells', SWC_IRQ and the
half-range flags. -/
def switchRegs : List Nat :=
  [Reg.swcOvfStat, Reg.swcDescFree, Reg.swcBufFree, Reg.swcIrq] ++ (List.range 5).map Reg.swcCntirqSum ++
    (List.range 144).map Reg.swcPCntirqLo ++ (List.range 144).map Reg.swcPCntirqHi

/-- An offset outside the places of these registers in the SWC window and in the ports' windows. -/
theorem notMem_switchRegs {off : Nat} (h : off < 0x300014 ∨ (0x30001c < off ∧ off < 0x300080) ∨ 0x490000 ≤ off ∨
    (0x3000a0 < off ∧ off % 4096 ≠ 0x24 ∧ off % 4096 ≠ 0x28)) : off ∉ switchRegs := by
  simp only [switchRegs, List.mem_append, List.mem_cons, List.mem_map, List.mem_range, List.not_mem_nil, or_false]
  unfold Reg.swcOvfStat Reg.swcDescFree Reg.swcBufFree Reg.swcIrq Reg.swcCntirqSum Reg.swcPCntirqLo Reg.swcPCntirqHi
  rintro (((_ | ⟨i, _, _⟩) | ⟨i, _, _⟩) | ⟨i, _, _⟩) <;> omega

theorem cntirqSum_mem (p : Fin 144) : Reg.swcCntirqSum (p / 32) ∈ switchRegs := by
  have : p.val / 32 < 5 := by omega
  simp only [switchRegs, List.mem_append, List.mem_map, List.mem_range]
  exact .inl (.inl (.inr ⟨_, this, rfl⟩))

theorem cntirq_mem (p : Fin 144) (i : Nat) : (if i < 32 then Reg.swcPCntirqLo p else Reg.swcPCntirqHi p) ∈ switchRegs := by
  simp only [switchRegs, List.mem_append, List.mem_map, List.mem_range]
  split
  · exact .inl (.inr ⟨p, p.isLt, rfl⟩)
  · exact .inr ⟨p, p.isLt, rfl⟩

section
variable (p : Fin 144)
theorem swcPStatus_kept : Reg.swcPStatus p ∉ switchRegs := notMem_switchRegs (by unfold Reg.swcPStatus; omega)
theorem swcPPvid_kept : Reg.swcPPvid p ∉ switchRegs := notMem_switchRegs (by unfold Reg.swcPPvid; omega)
theorem swcPMacsec_kept : Reg.swcPMacsec p ∉ switchRegs := notMem_switchRegs (by unfold Reg.swcPMacsec; omega)
theorem portReg_low {off : Nat} (h : off < 0x500000) : off < counterBase := by unfold counterBase Reg.panOptime; omega
theorem swcPStatus_low : Reg.swcPStatus p < counterBase := portReg_low (by unfold Reg.swcPStatus; omega)
theorem swcPCfg_low : Reg.swcPCfg p < counterBase := portReg_low (by unfold Reg.swcPCfg; omega)
theorem swcPMacsec_low : Reg.swcPMacsec p < counterBase := portReg_low (by unfold Reg.swcPMacsec; omega)
end

/-- The Colander's registers and all above them are none of these. -/
theorem colReg_kept {off : Nat} (h : 0x500000 ≤ off) : off ∉ switchRegs := notMem_switchRegs (by omega)

namespace ClockFrame
variable {ps : List Part} {offs : List Nat} {s t u : State}

theorem foldl {α : Type} {f : State → α → State} (h : ∀ t a, ClockFrame ps offs t (f t a)) (l : List α) (s : State) :
    ClockFrame ps offs s (l.foldl f s) :=
  List.foldlRecOn l f refl fun t ht a _ => ht.trans (h t a)

theorem each {k : Nat} {f : Fin k → State → State} (h : ∀ i t, ClockFrame ps offs t (f i t)) (s : State) :
    ClockFrame ps offs s (each k f s) :=
  foldl (fun t i => h i t) _ s

theorem port_eq (h : ClockFrame ps offs s t) (hp : .port ∉ ps := by decide) : t.port = s.port := h.keeps .port hp
theorem sw_eq (h : ClockFrame ps offs s t) (hp : .sw ∉ ps := by decide) : t.sw = s.sw := h.keeps .sw hp

theorem pState_eq (h : ClockFrame ps offs s t) (p : Fin 144) (hp : Reg.swcPStatus p ∉ offs) : pState t p = pState s p := by
  rw [pState, rf, h.rd_eq hp (swcPStatus_low p)]
  rfl

end ClockFrame

theorem getPort_congr {s t : State} (h : t.port = s.port) (p : Fin 144) : getPort t p = getPort s p := by rw [getPort, h, getPort]

/-! ## Counting on a port (R79, R80) -/

section
variable (s : State) (p q : Fin 144) (i n : Nat)

theorem getPort_modPort (f : Port → Port) : getPort (modPort s p f) q = if p = q then f (getPort s p) else getPort s q :=
  getPort_setPort ..

@[simp] theorem getPort_modPort_self (f : Port → Port) : getPort (modPort s p f) p = f (getPort s p) := getPort_setPort_self ..

theorem getPort_modPort_ne (f : Port → Port) (h : q ≠ p) : getPort (modPort s p f) q = getPort s q := by
  rw [getPort_modPort, if_neg (Ne.symm h)]

/-- A port with its counter i advanced. -/
def advanced (x : Port) : Port := { x with cnt := Tab.put 0 x.cnt i ((Tab.get 0 x.cnt i + n) % 2 ^ 40) }

/-- Counting advances the counter, and may set half-range flags and the interrupt that reports them. -/
theorem count_flags : ClockFrame [.regs, .out] switchRegs (modPort s p (fun x => advanced i n x)) (count s p i n) := by
  have hflag (u : State) : ClockFrame [.regs, .out] switchRegs u
      (wb u (if i < 32 then Reg.swcPCntirqLo p else Reg.swcPCntirqHi p) (i % 32) true) :=
    (wb_clockFrame _ _ _).widen (ho := by simpa using cntirq_mem p i)
  have hsum (u : State) : ClockFrame [.regs, .out] switchRegs u (raise (wb u (Reg.swcCntirqSum (p / 32)) (p % 32) true) Reg.swcIrq 3) :=
    ((wb_clockFrame _ _ _).widen (ho := by simpa using cntirqSum_mem p)).andThen (raise_clockFrame _ _)
  exact .ite (fun _ => .ite (fun _ => (hflag _).trans (hsum _)) (fun _ => hflag _)) (fun _ => .refl)

theorem count_clockFrame : ClockFrame [.regs, .port, .out] switchRegs s (count s p i n) :=
  .andThen (.of_frame (modPort_frame p _)) (count_flags s p i n) (ho := List.Subset.refl _)

theorem getPort_count : getPort (count s p i n) q = if p = q then advanced i n (getPort s p) else getPort s q := by
  rw [getPort_congr (count_flags s p i n).port_eq, getPort_modPort]

/-- A port counted on shows one frame more. -/
theorem count_shows : Tab.get 0 (getPort (count s p i) p).cnt i = (Tab.get 0 (getPort s p).cnt i + 1) % 2 ^ 40 := by
  rw [getPort_count, if_pos rfl, advanced, Tab.get_put_self]

end

/-- Every port is as it was but for its statistics, and counter k of each stands. -/
def PortsCounted (k : Nat) (s t : State) : Prop :=
  ∀ q, ∃ c, getPort t q = { getPort s q with cnt := c } ∧ Tab.get 0 c k = Tab.get 0 (getPort s q).cnt k

namespace PortsCounted
variable {k : Nat} {s t u : State}

theorem of_port (h : t.port = s.port) : PortsCounted k s t := fun q => ⟨_, getPort_congr h q, rfl⟩

theorem refl : PortsCounted k s s := of_port rfl

theorem trans (h : PortsCounted k s t) (g : PortsCounted k t u) : PortsCounted k s u := by
  intro q
  obtain ⟨c, hc, hk⟩ := h q
  obtain ⟨d, hd, hl⟩ := g q
  rw [hc] at hd hl
  exact ⟨d, hd, hl.trans hk⟩

theorem ite {c : Prop} [Decidable c] {a b : State} (ha : PortsCounted k s a) (hb : PortsCounted k s b) :
    PortsCounted k s (if c then a else b) := by
  split
  · exact ha
  · exact hb

theorem count (s : State) (p : Fin 144) {i : Nat} (n : Nat) (h : i ≠ k) : PortsCounted k s (count s p i n) := by
  intro q
  rw [getPort_count]
  split
  · subst_vars
    exact ⟨_, rfl, by rw [Tab.get_put, if_neg h]⟩
  · exact ⟨_, rfl, rfl⟩

theorem wire (h : PortsCounted k s t) (q : Fin 144) : (getPort t q).wire = (getPort s q).wire := by
  obtain ⟨c, hc, -⟩ := h q
  rw [hc]

theorem lowPower (h : PortsCounted k s t) (q : Fin 144) : (getPort t q).lowPower = (getPort s q).lowPower := by
  obtain ⟨c, hc, -⟩ := h q
  rw [hc]

theorem cnt (h : PortsCounted k s t) (q : Fin 144) : Tab.get 0 (getPort t q).cnt k = Tab.get 0 (getPort s q).cnt k := by
  obtain ⟨c, hc, hk⟩ := h q
  rw [hc, hk]

end PortsCounted

/-! ## The overflow and its pause (R73, R76) -/

section
variable (s : State)

theorem showOvf_clockFrame : ClockFrame [.regs] switchRegs s (showOvf s) := (wr_clockFrame _ _).widen

/-- One port's PFC frame. -/
theorem sendPfc_step_clockFrame (quanta : Nat) (p : Fin 144) : ClockFrame [.regs, .port, .out] switchRegs s
    (count (emit s (.frame p (pfcFrame s p quanta) s.now)) p 31) :=
  .trans (.of_frame (emit_frame _)) (count_clockFrame _ p 31 1)

theorem sendPfc_clockFrame (quanta : Nat) : ClockFrame [.regs, .port, .out] switchRegs s (sendPfc s quanta) :=
  .each (fun p u => .ite (fun _ => sendPfc_step_clockFrame u quanta p) (fun _ => .refl)) s

theorem sendPfc_counted (quanta : Nat) {k : Nat} (h : 31 ≠ k) : PortsCounted k s (sendPfc s quanta) :=
  each_inv (Inv := fun u => PortsCounted k s u) (fun u p hu => hu.trans
    (.ite (.trans (t := emit u _) (.of_port rfl) (.count _ p 1 h)) .refl)) .refl

/-- The pause state set as the occupancy asks, shown and raised. -/
theorem pauseCheck_cases : pauseCheck s = showOvf s ∨
    pauseCheck s = sendPfc (raise (showOvf { s with sw := { s.sw with pausing := true } }) Reg.swcIrq 4) 0xFFFF ∨
    pauseCheck s = sendPfc (showOvf { s with sw := { s.sw with pausing := false } }) 0 := by
  unfold pauseCheck
  split
  · exact .inr (.inl rfl)
  · split
    · exact .inr (.inr rfl)
    · exact .inl rfl

theorem pauseCheck_clockFrame : ClockFrame [.regs, .port, .sw, .out] switchRegs s (pauseCheck s) := by
  have hset (b : Bool) : ClockFrame [.regs, .port, .sw, .out] switchRegs s (showOvf { s with sw := { s.sw with pausing := b } }) :=
    .andThen (.of_frame (sw_frame _)) (showOvf_clockFrame _) (ho := List.Subset.refl _)
  rcases pauseCheck_cases s with h | h | h <;> rw [h]
  · exact (showOvf_clockFrame s).widen (ho := List.Subset.refl _)
  · exact ((hset true).andThen (raise_clockFrame _ _)).andThen (sendPfc_clockFrame _ _) (ho := List.Subset.refl _)
  · exact (hset false).andThen (sendPfc_clockFrame _ _) (ho := List.Subset.refl _)

theorem pauseCheck_counted {k : Nat} (h : 31 ≠ k) : PortsCounted k s (pauseCheck s) := by
  rcases pauseCheck_cases s with e | e | e <;> rw [e]
  · exact .of_port rfl
  · refine .trans ?_ (sendPfc_counted _ _ h)
    exact .of_port (raise_clockFrame Reg.swcIrq 4).port_eq
  · refine .trans ?_ (sendPfc_counted _ _ h)
    exact .of_port rfl

/-- A pause check changes nothing of the switch core but the pause. -/
theorem pauseCheck_sw : ∃ b, (pauseCheck s).sw = { s.sw with pausing := b } := by
  rcases pauseCheck_cases s with h | h | h <;> rw [h]
  · exact ⟨_, rfl⟩
  · exact ⟨true, (sendPfc_clockFrame _ _).sw_eq.trans (raise_clockFrame Reg.swcIrq 4).sw_eq⟩
  · exact ⟨false, (sendPfc_clockFrame _ _).sw_eq⟩

/-! ## References (R74) -/

/-- The cells and the descriptor of a frame on chip are free again. -/
theorem cellsFreed_clockFrame (c : Nat) : ClockFrame [.regs] switchRegs s
    (wr (wr s Reg.swcBufFree (rd s Reg.swcBufFree + W c)) Reg.swcDescFree (rd s Reg.swcDescFree + 1)) :=
  (wr_clockFrame _ _).widen.trans (wr_clockFrame _ _).widen

/-- The buffer of a frame is given back: to the overflow, or to its pool. -/
def bufferFreed (s : State) (x : Stored) : State :=
  if x.ddr then pauseCheck { s with sw := { s.sw with ovfBytes := s.sw.ovfBytes - x.frame.len } }
  else wr (wr s Reg.swcBufFree (rd s Reg.swcBufFree + W x.cells)) Reg.swcDescFree (rd s Reg.swcDescFree + 1)

/-- A stored frame changed, or dropped. -/
def putStored (s : State) (id : Nat) (x : Option Stored) : State :=
  { s with sw := { s.sw with frames := Tab.put none s.sw.frames id x } }

theorem freeRef_eq (id : Nat) : freeRef s id = match stored s id with
    | none => s
    | some x => if 1 < x.refs then putStored s id (some { x with refs := x.refs - 1 }) else bufferFreed (putStored s id none) x := by
  rw [freeRef, stored]
  rfl

theorem bufferFreed_clockFrame (x : Stored) : ClockFrame [.regs, .port, .sw, .out] switchRegs s (bufferFreed s x) :=
  .ite (fun _ => .trans (.of_frame (sw_frame _)) (pauseCheck_clockFrame _))
    (fun _ => (cellsFreed_clockFrame s x.cells).widen (ho := List.Subset.refl _))

theorem bufferFreed_counted (x : Stored) {k : Nat} (h : 31 ≠ k) : PortsCounted k s (bufferFreed s x) :=
  .ite (.trans (.of_port rfl) (pauseCheck_counted _ h)) (.of_port rfl)

theorem bufferFreed_stored (x : Stored) (id : Nat) : stored (bufferFreed s x) id = stored s id := by
  unfold bufferFreed
  split
  · obtain ⟨b, h⟩ := pauseCheck_sw { s with sw := { s.sw with ovfBytes := s.sw.ovfBytes - x.frame.len } }
    rw [stored, h]
    rfl
  · rfl

theorem freeRef_clockFrame (id : Nat) : ClockFrame [.regs, .port, .sw, .out] switchRegs s (freeRef s id) := by
  rw [freeRef_eq]
  cases stored s id with
  | none => exact .refl
  | some x => exact .ite (fun _ => .of_frame (sw_frame _)) (fun _ => .trans (.of_frame (sw_frame _)) (bufferFreed_clockFrame _ x))

theorem freeRef_counted (id : Nat) {k : Nat} (h : 31 ≠ k) : PortsCounted k s (freeRef s id) := by
  rw [freeRef_eq]
  cases stored s id with
  | none => exact .refl
  | some x => exact .ite (.of_port rfl) (.trans (t := putStored s id none) (.of_port rfl) (bufferFreed_counted _ x h))

/-- The last reference takes the frame out of the switch core. -/
theorem freeRef_last {id : Nat} {x : Stored} (h : stored s id = some x) (hr : x.refs = 1) :
    freeRef s id = bufferFreed (putStored s id none) x := by
  rw [freeRef_eq, h]
  exact if_neg (by omega)

theorem putStored_none (id : Nat) : stored (putStored s id none) id = none := by
  simp [stored, putStored]

end

/-! ## Port states and queues (R60, R77, R78) -/

section
variable (s : State) (p : Fin 144)

/-- A change of a port's state writes SWC_P_STATUS, and may raise SWC_IRQ.link_chg. -/
theorem setPState_clockFrame (st : Nat) (link : Bool) : ClockFrame [.regs, .out] [Reg.swcPStatus p, Reg.swcIrq] s (setPState s p st link) := by
  unfold setPState
  refine .trans (.trans ?_ ((wf_clockFrame _ _ _ _).widen (ho := by simp))) (.trans ((wb_clockFrame _ _ _).widen (ho := by simp))
    ((wb_clockFrame _ _ _).widen (ho := by simp)))
  exact .ite (fun _ => .refl) (fun _ => (raise_clockFrame _ _).widen (ho := by simp))

theorem pState_setPState (st : Nat) (link : Bool) : pState (setPState s p st link) p = st % 8 := by
  unfold setPState pState
  rw [rf, wb, rd_wr_self, fld_putBit_ne _ _ (by decide) (by decide) (by decide), wb, rd_wr_self,
    fld_putBit_ne _ _ (by decide) (by decide) (by decide), wf, rd_wr_self, fld_setFld _ _ (by decide) (by decide)]
  rfl

theorem link_setPState (st : Nat) (link : Bool) : rb (setPState s p st link) (Reg.swcPStatus p) 3 = link := by
  unfold setPState
  rw [rb_wb_bit _ _ _ (by decide) (by decide), rb_wb_self _ _ _ (by decide)]

/-- The parts that emptying a port's queues can change. -/
abbrev discardParts : List Part := [.regs, .port, .sw, .out]

theorem discardQueues_clockFrame : ClockFrame discardParts switchRegs s (discardQueues s p) := by
  have hstep (u : State) (id : Nat) : ClockFrame discardParts switchRegs u (count (freeRef u id) p 47) :=
    (freeRef_clockFrame u id).andThen (count_clockFrame _ p 47 1) (ho := List.Subset.refl _)
  unfold discardQueues
  extract_lets x ids s1 s2
  have h2 : ClockFrame discardParts switchRegs s s2 := .trans (.of_frame (modPort_frame p _)) (.foldl hstep ids s1)
  split
  · exact h2.trans (freeRef_clockFrame _ _)
  · exact h2

/-- Everything a port held is gone. -/
def emptied (x : Port) : Port := { x with trips := [], wire := none, paused := 0 }

/-- The last step of discarding everything empties the port's trip queue and its wire. -/
theorem discardAll_eq : ∃ u, ClockFrame discardParts switchRegs s u ∧ discardAll s p = modPort u p emptied := by
  unfold discardAll
  extract_lets s1 x s2 s3
  have h1 : ClockFrame discardParts switchRegs s s1 := discardQueues_clockFrame s p
  have h2 : ClockFrame discardParts switchRegs s1 s2 :=
    .foldl (fun u _ => (count_clockFrame u p 47 1).widen (ho := List.Subset.refl _)) x.trips s1
  refine ⟨s3, (h1.trans h2).trans ?_, rfl⟩
  unfold s3
  split
  · exact freeRef_clockFrame _ _
  · exact .refl

theorem discardAll_clockFrame : ClockFrame discardParts switchRegs s (discardAll s p) := by
  obtain ⟨u, hu, h⟩ := discardAll_eq s p
  rw [h]
  exact hu.trans (.of_frame (modPort_frame p _))

/-- No port's low-power hold changes. -/
def PowersKept (s t : State) : Prop := ∀ q, (getPort t q).lowPower = (getPort s q).lowPower

theorem PowersKept.trans {s t u : State} (h : PowersKept s t) (k : PowersKept t u) : PowersKept s u := fun q => (k q).trans (h q)

theorem PowersKept.foldl {α : Type} {f : State → α → State} (h : ∀ t a, PowersKept t (f t a)) (l : List α) (s : State) :
    PowersKept s (l.foldl f s) :=
  List.foldlRecOn l f (fun _ => rfl) fun t ht a _ => PowersKept.trans ht (h t a)

theorem modPort_powers (f : Port → Port) (h : ∀ x, (f x).lowPower = x.lowPower) : PowersKept s (modPort s p f) := by
  intro q
  rw [getPort_modPort]
  split
  · subst_vars
    exact h _
  · rfl

theorem count_powers (i n : Nat) : PowersKept s (count s p i n) := (PortsCounted.count (k := i + 1) s p n (by omega)).lowPower

theorem freeRef_powers (id : Nat) : PowersKept s (freeRef s id) := (freeRef_counted s id (k := 0) (by decide)).lowPower

theorem discardQueues_powers : PowersKept s (discardQueues s p) := by
  unfold discardQueues
  extract_lets x ids s1 s2
  have h1 : PowersKept s s1 := modPort_powers s p _ (fun _ => rfl)
  have h2 : PowersKept s s2 := h1.trans (.foldl (fun u id => .trans (freeRef_powers u id) (count_powers _ p 47 1)) ids s1)
  split
  · exact h2.trans (freeRef_powers _ _)
  · exact h2

theorem discardAll_powers : PowersKept s (discardAll s p) := by
  unfold discardAll
  extract_lets s1 x s2 s3
  have h2 : PowersKept s s2 := .trans (discardQueues_powers s p) (.foldl (fun u _ => count_powers u p 47 1) x.trips s1)
  have h3 : PowersKept s2 s3 := by
    unfold s3
    split
    · exact freeRef_powers _ _
    · exact fun _ => rfl
  exact (h2.trans h3).trans (modPort_powers _ p _ (fun _ => rfl))

theorem getPort_discardAll : ∃ x, getPort (discardAll s p) p = emptied x := by
  obtain ⟨u, -, h⟩ := discardAll_eq s p
  exact ⟨_, by rw [h, getPort_modPort_self]⟩

end

end Sys2Proof.Machine
end

section
/-! PROOFS: port configuration, link, verify and fence events (O20). -/

namespace Sys2Proof.Machine
set_option Elab.async false

/-! ## Fields under a mask -/

theorem bitOf_and (w m : Word) (i : Nat) : bitOf (w &&& m) i = (bitOf w i && bitOf m i) := BitVec.getLsbD_and ..

/-- A field that a mask covers stands under it. -/
theorem fld_and (w m : Word) {hi lo : Nat} (h : ∀ i < hi - lo + 1, bitOf m (lo + i) = true) : fld (w &&& m) hi lo = fld w hi lo := by
  refine Nat.eq_of_testBit_eq fun i => ?_
  rw [testBit_fld, testBit_fld, bitOf_and]
  by_cases hi' : i < hi - lo + 1
  · simp [h i hi']
  · simp [hi']

/-! ## SWC_P_CFG and SWC_P_MACSEC (R58, R60, R69) -/

section
variable {s : State} {p : Fin 144} {v : Word}

/-- A word stored in a port's window, accepted. -/
def portStored (s : State) (p : Fin 144) (off : Nat) (v : Word) : State := wb (wrp s off v) (Reg.swcPStatus p) 4 false

theorem portStored_clockFrame (off : Nat) : ClockFrame logParts [off, Reg.swcPStatus p] s (portStored s p off v) :=
  .andThen ((wrp_clockFrame off v).widen (hp := by decide) (ho := by simp)) (wb_clockFrame _ _ _) (ho := by simp)

theorem rd_portStored {off : Nat} (hb : off < counterBase) (hs : Reg.swcPStatus p ≠ off) : rd (portStored s p off v) off = v := by
  rw [portStored, rd_wb_ne _ _ _ hs, (wrp_spec s v hb).1]

theorem swcPCfg_ne_status : Reg.swcPStatus p ≠ Reg.swcPCfg p := by unfold Reg.swcPStatus Reg.swcPCfg; omega
theorem swcPMacsec_ne_status : Reg.swcPStatus p ≠ Reg.swcPMacsec p := by unfold Reg.swcPStatus Reg.swcPMacsec; omega

/-- Storing a configuration leaves the port's state. -/
theorem pState_portStored {off : Nat} (hs : Reg.swcPStatus p ≠ off) : pState (portStored s p off v) p = pState s p := by
  have h : rd (wrp s off v) (Reg.swcPStatus p) = rd s (Reg.swcPStatus p) :=
    (wrp_clockFrame off v).rd_eq (by simpa using hs) (swcPStatus_low p)
  rw [pState, rf, portStored, wb, rd_wr_self, fld_putBit_ne _ _ (by decide) (by decide) (by decide), h]
  rfl

theorem speed_mask : fld (v &&& 0x1FF) 2 1 = fld v 2 1 := fld_and _ _ (by decide)

variable (hrun : hcSt s ≠ 3)
include hrun

theorem exec_swcPCfgWrite : exec (.swcPCfgWrite p v) s = .next (doSwcPCfgWrite p v s) := congrArg _ (live_of_running _ hrun)

/-- A reserved speed, or speed 0 on a front port, only sets the rejected bit. -/
theorem swcPCfgWrite_refused (h : fld v 2 1 = 3 ∨ (96 ≤ p.val ∧ fld v 2 1 = 0)) :
    exec (.swcPCfgWrite p v) s = .next (wb s (Reg.swcPStatus p) 4 true) := by
  rw [exec_swcPCfgWrite hrun, doSwcPCfgWrite, speed_mask, if_pos (h.imp id .inl)]
  rfl

/-- Enabling a Disabled port alone in its cage stores the word and starts the training. -/
theorem swcPCfgWrite_trains (hst : pState s p = 0) (hv : bitOf v 0 = true) (h3 : fld v 2 1 ≠ 3) (h0 : p.val < 96 ∨ fld v 2 1 ≠ 0)
    (hc : ∀ q ∈ cageMates p, rb s (Reg.swcPCfg q) 0 = false) : ∃ t, exec (.swcPCfgWrite p v) s = .next t ∧ pState t p = 1 ∧
      rd t (Reg.swcPCfg p) = v &&& 0x1FF ∧ KeepsBut [.regs, .recorder, .arb, .out] s t := by
  have hen : bitOf (v &&& 0x1FF) 0 = true := by rw [bitOf_and, hv]; rfl
  have hmates : (cageMates p).any (fun q => rb s (Reg.swcPCfg q) 0 && rf s (Reg.swcPCfg q) 2 1 != fld v 2 1) = false :=
    List.any_eq_false.mpr fun q hq => by simp [hc q hq]
  have hgood : ¬ (fld v 2 1 = 3 ∨ (96 ≤ p.val ∧ fld v 2 1 = 0) ∨ (bitOf (v &&& 0x1FF) 0 ∧
      (cageMates p).any (fun q => rb s (Reg.swcPCfg q) 0 && rf s (Reg.swcPCfg q) 2 1 != fld v 2 1))) := by
    rw [hmates]
    simp only [Bool.false_eq_true, and_false, or_false]
    omega
  have he : exec (.swcPCfgWrite p v) s = .next (setPState (portStored s p (Reg.swcPCfg p) (v &&& 0x1FF)) p 1 false) := by
    rw [exec_swcPCfgWrite hrun, doSwcPCfgWrite, speed_mask, if_neg hgood]
    have hst' := (pState_portStored (s := s) (v := v &&& 0x1FF) (swcPCfg_ne_status (p := p))).trans hst
    rw [portStored] at hst'
    simp only [hen, hst', Bool.not_true, Bool.false_eq_true, if_false, portStored]
  have hset := setPState_clockFrame (portStored s p (Reg.swcPCfg p) (v &&& 0x1FF)) p 1 false
  have hcfg : Reg.swcPCfg p ∉ [Reg.swcPStatus p, Reg.swcIrq] := by
    simp only [List.mem_cons, List.not_mem_nil, or_false]
    unfold Reg.swcPCfg Reg.swcPStatus Reg.swcIrq
    omega
  refine ⟨_, he, pState_setPState _ _ _ _, ?_, ?_⟩
  · rw [hset.rd_eq hcfg (swcPCfg_low p), rd_portStored (swcPCfg_low p) swcPCfg_ne_status]
  · exact ((portStored_clockFrame _).keeps.mono (by decide)).trans (hset.keeps.mono (by decide))

theorem exec_swcPMacsecWrite : exec (.swcPMacsecWrite p v) s = .next (doSwcPMacsecWrite p v s) := congrArg _ (live_of_running _ hrun)

/-- MACsec is not enabled on a port that carries the fast path. -/
theorem swcPMacsecWrite_refused (hv : bitOf v 0 = true) (hf : fastPath s p = true) :
    exec (.swcPMacsecWrite p v) s = .next (wb s (Reg.swcPStatus p) 4 true) := by
  rw [exec_swcPMacsecWrite hrun, doSwcPMacsecWrite, hv, hf]
  rfl

theorem swcPMacsecWrite_stores (h : bitOf v 0 = false ∨ fastPath s p = false) :
    ∃ t, exec (.swcPMacsecWrite p v) s = .next t ∧ rd t (Reg.swcPMacsec p) = v &&& 0x7F ∧ KeepsBut [.regs, .recorder, .arb, .out] s t := by
  have hn : ¬ (bitOf v 0 && fastPath s p) = true := by rcases h with h | h <;> simp [h]
  refine ⟨portStored s p (Reg.swcPMacsec p) (v &&& 0x7F), ?_, ?_, (portStored_clockFrame _).keeps.mono (by decide)⟩
  · rw [exec_swcPMacsecWrite hrun, doSwcPMacsecWrite, if_neg hn]
    rfl
  · exact rd_portStored (swcPMacsec_low p) swcPMacsec_ne_status

end

/-! ## Block lock and loss of lock (R60, R62, R78) -/

section
variable (s : State) (p : Fin 144)

theorem macOf_congr {s t : State} (h : ∀ off < 0x200000, rd t off = rd s off) (n : Nat) : macOf t n = macOf s n := by
  rw [macOf, rf, h _ (by decide), h _ (by decide)]
  rfl

/-- A verify mPacket is the port's own frame: nothing but the module's address goes into it. -/
theorem portFrame_congr {s t : State} (h : ∀ off < 0x200000, rd t off = rd s off) (dst : BitVec 48) (len : Nat) (body : Payload) :
    portFrame t p dst len body = portFrame s p dst len body := by
  rw [portFrame, macOf_congr h]
  rfl

/-- The registers an event of a port's link can write. -/
abbrev linkRegs (p : Fin 144) : List Nat := Reg.swcPStatus p :: Reg.swcPPreempt p :: switchRegs

theorem preempt_ne_status (q : Fin 144) : Reg.swcPPreempt p ≠ Reg.swcPStatus q := by unfold Reg.swcPPreempt Reg.swcPStatus; omega

theorem setPState_linkFrame (st : Nat) (link : Bool) : ClockFrame [.regs, .out] (linkRegs p) s (setPState s p st link) := by
  refine (setPState_clockFrame s p st link).widen (ho := ?_)
  have : Reg.swcIrq ∈ switchRegs := by decide
  simp [this]

/-- A port entering Up whose preemption is configured: the first verify attempt leaves. -/
def upVerifying (s : State) (p : Fin 144) : State := sendVerify (wr (setPState s p 2 true) (Reg.swcPPreempt p) 0x11) p .verify

theorem setPState_cfg (st : Nat) (link : Bool) (i : Nat) : rb (setPState s p st link) (Reg.swcPCfg p) i = rb s (Reg.swcPCfg p) i :=
  (setPState_clockFrame s p st link).rb_eq i
    (by simp only [List.mem_cons, List.not_mem_nil, or_false]; unfold Reg.swcPCfg Reg.swcPStatus Reg.swcIrq; omega) (swcPCfg_low p)

theorem enterUp_eq : enterUp s p =
    if rb s (Reg.swcPCfg p) 6 then upVerifying s p else wr (setPState s p 2 true) (Reg.swcPPreempt p) 0 := by
  rw [enterUp, setPState_cfg]
  rfl

theorem wr_preempt_status (v : Word) : rd (wr s (Reg.swcPPreempt p) v) (Reg.swcPStatus p) = rd s (Reg.swcPStatus p) :=
  rd_wr_ne _ _ (preempt_ne_status p p)

/-- Entry to Up leaves SWC_P_STATUS as the change of state wrote it. -/
theorem enterUp_status : rd (enterUp s p) (Reg.swcPStatus p) = rd (setPState s p 2 true) (Reg.swcPStatus p) := by
  rw [enterUp_eq]
  split
  · rw [upVerifying, sendVerify, rd_congr (emit_regs _ _), wr_preempt_status]
  · rw [wr_preempt_status]

theorem upVerifying_out : (upVerifying s p).out =
    .frame p (portFrame s p 0 64 .verify) s.now :: (setPState s p 2 true).out := by
  have hset := setPState_clockFrame s p 2 true
  have hlow : ∀ off < 0x200000, rd (wr (setPState s p 2 true) (Reg.swcPPreempt p) 0x11) off = rd s off := fun off ho => by
    have hn : off ∉ [Reg.swcPStatus p, Reg.swcIrq] := by
      simp only [List.mem_cons, List.not_mem_nil, or_false]
      unfold Reg.swcPStatus Reg.swcIrq
      omega
    rw [rd_wr_ne _ _ (by unfold Reg.swcPPreempt; omega), hset.rd_eq hn (portReg_low (by omega))]
  have hnow : (setPState s p 2 true).now = s.now := hset.keeps .now (by decide)
  rw [upVerifying, sendVerify, emit_out, wr_out, wr_now, hnow, portFrame_congr p hlow]

theorem enterUp_keeps : KeepsBut [.regs, .out] s (enterUp s p) := by
  have hwr (v : Word) : KeepsBut [.regs, .out] s (wr (setPState s p 2 true) (Reg.swcPPreempt p) v) :=
    (setPState_clockFrame s p 2 true).keeps.trans ((wr_keeps _ _ _).mono (by decide))
  rw [enterUp_eq]
  split
  · exact (hwr 0x11).trans (emit_frame (n := 0) _).keeps
  · exact hwr 0

theorem blockLock_up (tm : Instant) (hst : pState s p = 1) (hl : (getPort s p).lowPower = false) :
    ∃ t, exec (.blockLock p tm) s = .next t ∧ pState t p = 2 ∧ rb t (Reg.swcPStatus p) 3 = true ∧
      (rb s (Reg.swcPCfg p) 6 = true → rf t (Reg.swcPPreempt p) 1 0 = 1 ∧ rf t (Reg.swcPPreempt p) 7 4 = 1 ∧
        ∃ l, t.out = .frame p (portFrame s p 0 64 .verify) (max s.now tm) :: l) ∧ KeepsBut [.regs, .now, .op, .out] s t := by
  have he : exec (.blockLock p tm) s = .next (enterUp (toInstant s tm) p) := by
    have hc : pState (toInstant s tm) p = 1 ∧ (!(getPort (toInstant s tm) p).lowPower) = true :=
      ⟨hst, by rw [Bool.not_eq_true']; exact hl⟩
    exact congrArg _ (if_pos hc)
  have hstatus := enterUp_status (toInstant s tm) p
  refine ⟨_, he, ?_, ?_, fun h => ?_, ((toInstant_keeps s tm).mono (by decide)).trans ((enterUp_keeps _ p).mono (by decide))⟩
  · rw [pState, rf, hstatus]
    exact pState_setPState _ p 2 true
  · rw [rb, hstatus]
    exact link_setPState _ p 2 true
  · have hv : enterUp (toInstant s tm) p = upVerifying (toInstant s tm) p := (enterUp_eq _ p).trans (if_pos h)
    have hpre : rd (upVerifying (toInstant s tm) p) (Reg.swcPPreempt p) = 0x11 := by
      rw [upVerifying, sendVerify, rd_congr (emit_regs _ _), rd_wr_self]
    rw [hv, rf, rf, hpre]
    exact ⟨rfl, rfl, _, upVerifying_out _ p⟩

theorem trainingTimeout_counts (hst : pState s p = 1) : ∃ t, exec (.trainingTimeout p) s = .next t ∧
    Tab.get 0 (getPort t p).cnt 46 = (Tab.get 0 (getPort s p).cnt 46 + 1) % 2 ^ 40 ∧ pState t p = 1 ∧
    KeepsBut [.regs, .port, .out] s t := by
  have he : exec (.trainingTimeout p) s = .next (count s p 46) := congrArg _ (if_pos hst)
  have hc := count_clockFrame s p 46 1
  exact ⟨_, he, count_shows s p 46, (hc.pState_eq p (swcPStatus_kept p)).trans hst, hc.keeps⟩

/-- The parts that a return to Training can change. -/
abbrev retrainParts : List Part := [.regs, .port, .sw, .recorder, .arb, .out]

/-- A port leaving Up or Fenced: the state before its log record. -/
def retrained (s : State) (p : Fin 144) : State :=
  wr (setPState (count (discardAll s p) p 46) p 1 false) (Reg.swcPPreempt p) 0

theorem retrained_clockFrame : ClockFrame discardParts (linkRegs p) s (retrained s p) := by
  have hstat : switchRegs ⊆ linkRegs p := fun _ h => List.mem_cons_of_mem _ (List.mem_cons_of_mem _ h)
  refine .andThen (.andThen (.andThen ((discardAll_clockFrame s p).widen (ho := hstat)) (count_clockFrame _ p 46 1) (ho := hstat))
    (setPState_linkFrame _ p 1 false) (ho := List.Subset.refl _)) (wr_clockFrame _ _) (ho := by simp)

theorem retrain_eq : retrain s p true = logRec (retrained s p) Reg.swcIrq 2 0 1 [p] := rfl

theorem retrain_clockFrame : ClockFrame retrainParts (linkRegs p) s (retrain s p true) := by
  rw [retrain_eq]
  exact ((retrained_clockFrame s p).widen (ho := List.Subset.refl _)).andThen (logRec_clockFrame _ _ _ _ _) (ho := by simp)

/-- A port that leaves Up or Fenced is in Training, with no trip frame left and nothing on its wire. -/
theorem retrain_spec : pState (retrain s p true) p = 1 ∧ (getPort (retrain s p true) p).trips = [] ∧
    (getPort (retrain s p true) p).wire = none ∧ PowersKept s (retrain s p true) := by
  have hlog := logRec_clockFrame (s := retrained s p) Reg.swcIrq 2 0 1 [p]
  have hset := setPState_clockFrame (count (discardAll s p) p 46) p 1 false
  have hport (q : Fin 144) : getPort (retrain s p true) q = getPort (count (discardAll s p) p 46) q :=
    getPort_congr (hlog.port_eq.trans hset.port_eq) q
  obtain ⟨x, hx⟩ := getPort_discardAll s p
  refine ⟨?_, ?_, ?_, fun q => ?_⟩
  · rw [retrain_eq, hlog.pState_eq p (by simp), pState, rf, retrained, rd_wr_ne _ _ (preempt_ne_status p p)]
    exact pState_setPState _ p 1 false
  · rw [hport, getPort_count, if_pos rfl, hx]
    rfl
  · rw [hport, getPort_count, if_pos rfl, hx]
    rfl
  · rw [hport]
    exact (discardAll_powers s p).trans (count_powers _ p 46 1) q

theorem lossOfLock_trains (hst : pState s p = 2) : ∃ t, exec (.lossOfLock p) s = .next t ∧ pState t p = 1 ∧ (getPort t p).trips = [] ∧
    (getPort t p).wire = none ∧ KeepsBut retrainParts s t := by
  obtain ⟨hst', htrips, hwire, -⟩ := retrain_spec s p
  have he : exec (.lossOfLock p) s = .next (retrain s p true) := congrArg _ (if_pos (.inl hst))
  exact ⟨_, he, hst', htrips, hwire, (retrain_clockFrame s p).keeps⟩

end

end Sys2Proof.Machine
end

section
/-! PROOFS: fences, verification, high-power modules and the settled statement (O20). -/

namespace Sys2Proof.Machine
set_option Elab.async false

/-! ## Fences (R60, R77) -/

section
variable (s : State) (p : Fin 144)

theorem unfencePort_up : pState (unfencePort s p) p = 2 ∧ KeepsBut [.regs, .port, .recorder, .arb, .out] s (unfencePort s p) := by
  let u := modPort s p (fun x => { x with errs := [] })
  have hlog := logRec_clockFrame (s := setPState u p 2 true) Reg.swcIrq 1 0 2 [p]
  have hset := setPState_clockFrame u p 2 true
  have hport : ClockFrame [.port] [] s u := .of_frame (modPort_frame p _)
  exact ⟨(hlog.pState_eq p (by simp)).trans (pState_setPState u p 2 true),
    ((hport.keeps.mono (by decide)).trans (hset.keeps.mono (by decide))).trans (hlog.keeps.mono (by decide))⟩

variable {s p}

theorem fenceRelease_up (hrun : hcSt s ≠ 3) (hst : pState s p = 3) : ∃ t, exec (.fenceRelease p) s = .next t ∧ pState t p = 2 ∧
    KeepsBut [.regs, .port, .recorder, .arb, .out] s t := by
  have he : exec (.fenceRelease p) s = .next (unfencePort s p) := congrArg _ ((live_of_running _ hrun).trans (if_pos hst))
  exact ⟨_, he, unfencePort_up s p⟩

theorem exec_fenceAutoRelease (tm : Instant) (hst : pState s p = 3) (ha : rb s (Reg.swcPFence p) 31 = true) :
    exec (.fenceAutoRelease p tm) s = .next
      (if (getPort s p).lastErr + rf s (Reg.swcPFence p) 30 24 * second ≤ s.op + (tm - s.now) then unfencePort (toInstant s tm) p
       else toInstant s tm) := by
  have hst' : pState (toInstant s tm) p = 3 := hst
  have ha' : rb (toInstant s tm) (Reg.swcPFence p) 31 = true := ha
  have he : exec (.fenceAutoRelease p tm) s = .next (doFenceAutoRelease p tm s) := rfl
  rw [he, doFenceAutoRelease, hst', ha']
  simp only [passed, decide_true, Bool.true_and, decide_eq_true_eq]
  rfl

theorem fenceAutoRelease_clean (tm : Instant) (hst : pState s p = 3) (ha : rb s (Reg.swcPFence p) 31 = true)
    (hc : (getPort s p).lastErr + rf s (Reg.swcPFence p) 30 24 * second ≤ s.op + (tm - s.now)) :
    ∃ t, exec (.fenceAutoRelease p tm) s = .next t ∧ pState t p = 2 ∧ KeepsBut [.regs, .now, .op, .port, .recorder, .arb, .out] s t := by
  obtain ⟨hup, hk⟩ := unfencePort_up (toInstant s tm) p
  refine ⟨_, (exec_fenceAutoRelease tm hst ha).trans (congrArg _ (if_pos hc)), hup, ?_⟩
  exact ((toInstant_keeps s tm).mono (by decide)).trans (hk.mono (by decide))

/-! ## Verification (R62) -/

theorem verifyResponse_active (h : rf s (Reg.swcPPreempt p) 1 0 = 1) :
    exec (.verifyResponse p) s = .next (wf s (Reg.swcPPreempt p) 1 0 2) := congrArg _ (if_pos h)

/-- The third attempt has gone unanswered: the status is Failed. -/
theorem verifyAttemptTimeout_fails (h : rf s (Reg.swcPPreempt p) 1 0 = 1) (hn : 3 ≤ rf s (Reg.swcPPreempt p) 7 4) :
    ∃ t, exec (.verifyAttemptTimeout p) s = .next t ∧ rf t (Reg.swcPPreempt p) 1 0 = 3 ∧ rb t Reg.swcIrq 1 = true ∧
      KeepsBut [.regs, .out] s t := by
  have he : exec (.verifyAttemptTimeout p) s = .next (raise (wf s (Reg.swcPPreempt p) 1 0 3) Reg.swcIrq 1) :=
    congrArg _ ((if_neg (not_not.mpr h)).trans (if_pos hn))
  have hne : Reg.swcIrq ≠ Reg.swcPPreempt p := by unfold Reg.swcIrq Reg.swcPPreempt; omega
  refine ⟨_, he, ?_, rb_raise_self _ _ (by decide), ((wr_same s _ _).trans (raise_same _ _ _)).keeps⟩
  rw [rf, rd_raise_ne _ _ hne, wf, rd_wr_self, fld_setFld _ _ (by decide) (by decide)]
  rfl

/-- The next attempt counted. -/
def attemptCounted (s : State) (p : Fin 144) : State := wf s (Reg.swcPPreempt p) 7 4 (rf s (Reg.swcPPreempt p) 7 4 + 1)

theorem pState_attemptCounted : pState (attemptCounted s p) p = pState s p := by
  rw [pState, rf, attemptCounted, wf, rd_wr_ne _ _ (preempt_ne_status p p)]
  rfl

theorem portFrame_attemptCounted (dst : BitVec 48) (len : Nat) (body : Payload) :
    portFrame (attemptCounted s p) p dst len body = portFrame s p dst len body :=
  portFrame_congr p (fun off ho => by rw [attemptCounted, wf, rd_wr_ne _ _ (by unfold Reg.swcPPreempt; omega)]) dst len body

theorem exec_verifyAttemptTimeout (h : rf s (Reg.swcPPreempt p) 1 0 = 1) (hn : rf s (Reg.swcPPreempt p) 7 4 < 3) :
    exec (.verifyAttemptTimeout p) s = .next
      (if pState s p = 3 then attemptCounted s p else emit (attemptCounted s p) (.frame p (portFrame s p 0 64 .verify) s.now)) := by
  have he : exec (.verifyAttemptTimeout p) s = .next
      (if pState (attemptCounted s p) p = 3 then attemptCounted s p else sendVerify (attemptCounted s p) p .verify) :=
    congrArg _ ((if_neg (not_not.mpr h)).trans (if_neg (Nat.not_le.mpr hn)))
  rw [he, pState_attemptCounted, sendVerify, portFrame_attemptCounted]
  rfl

/-- An unanswered attempt is followed by the next, which leaves unless the port is Fenced. -/
theorem verifyAttemptTimeout_next (h : rf s (Reg.swcPPreempt p) 1 0 = 1) (hn : rf s (Reg.swcPPreempt p) 7 4 < 3) :
    ∃ t, exec (.verifyAttemptTimeout p) s = .next t ∧ rf t (Reg.swcPPreempt p) 7 4 = rf s (Reg.swcPPreempt p) 7 4 + 1 ∧
      rf t (Reg.swcPPreempt p) 1 0 = 1 ∧
      t.out = (if pState s p = 3 then s.out else .frame p (portFrame s p 0 64 .verify) s.now :: s.out) ∧ KeepsBut [.regs, .out] s t := by
  have hcount : rf (attemptCounted s p) (Reg.swcPPreempt p) 7 4 = rf s (Reg.swcPPreempt p) 7 4 + 1 := by
    rw [rf, attemptCounted, wf, rd_wr_self, fld_setFld _ _ (by decide) (by decide)]
    exact Nat.mod_eq_of_lt (by omega)
  have hstatus : rf (attemptCounted s p) (Reg.swcPPreempt p) 1 0 = 1 := by
    rw [rf, attemptCounted, wf, rd_wr_self, fld_setFld_ne _ _ (by decide) (by decide) (by decide)]
    exact h
  have hk : KeepsBut [.regs, .out] s (attemptCounted s p) := (wr_same s _ _).keeps
  refine ⟨_, exec_verifyAttemptTimeout h hn, ?_⟩
  split
  · exact ⟨hcount, hstatus, rfl, hk⟩
  · exact ⟨hcount, hstatus, rfl, hk.trans (emit_frame (n := 0) _).keeps⟩

end

/-! ## A high-power module (R371) -/

section
variable (s : State) (p q : Fin 144)

theorem swcPStatus_injective {p q : Fin 144} (h : Reg.swcPStatus p = Reg.swcPStatus q) : p = q := by
  unfold Reg.swcPStatus at h
  omega

/-- A port of the cage of an inserted high-power module: held in low power, and retrained if it carries a link. -/
def heldLow (s : State) (q : Fin 144) : State :=
  let u := modPort s q (fun x => { x with lowPower := true })
  if pState s q = 2 ∨ pState s q = 3 then retrain u q true else u

theorem heldLow_frame : ClockFrame retrainParts (linkRegs q) s (heldLow s q) := by
  have hmod : ClockFrame retrainParts (linkRegs q) s (modPort s q (fun x => { x with lowPower := true })) := .of_frame (modPort_frame q _)
  exact .ite (fun _ => hmod.trans (retrain_clockFrame _ q)) (fun _ => hmod)

/-- The ports of a cage that a high-power module takes out of service, one after another. -/
def cageHeld (cage : Fin 12) (s : State) : State :=
  each 144 (fun q s => if 96 ≤ q.val ∧ (q.val - 96) / 4 = cage.val then heldLow s q else s) s

theorem exec_qsfpInserted (cage : Fin 12) : exec (.qsfp28ModuleInserted cage true) s = .next (cageHeld cage s) := by
  have he : exec (.qsfp28ModuleInserted cage true) s = .next (doQsfpInserted cage true s) := rfl
  rw [he, doQsfpInserted, cageHeld]
  congr 2
  funext q u
  simp only [true_and]
  rfl

theorem cageHeld_keeps (cage : Fin 12) : KeepsBut retrainParts s (cageHeld cage s) :=
  each_inv (Inv := fun u => KeepsBut retrainParts s u) (fun u q hu => by
    split
    · exact hu.trans (heldLow_frame u q).keeps
    · exact hu) (ClockFrame.refl (offs := [])).keeps

variable {s p q}

/-- Holding another port of the cage leaves a port's state and hold. -/
theorem heldLow_other (h : q ≠ p) : pState (heldLow s q) p = pState s p ∧ (getPort (heldLow s q) p).lowPower = (getPort s p).lowPower := by
  have hn : Reg.swcPStatus p ∉ linkRegs q := by
    simp only [linkRegs, List.mem_cons, not_or]
    exact ⟨fun e => h (swcPStatus_injective e).symm, (preempt_ne_status q p).symm, swcPStatus_kept p⟩
  refine ⟨(heldLow_frame s q).pState_eq p hn, ?_⟩
  have hmod : (getPort (modPort s q (fun x => { x with lowPower := true })) p).lowPower = (getPort s p).lowPower := by
    rw [getPort_modPort_ne _ _ _ _ h.symm]
  obtain ⟨-, -, -, hkept⟩ := retrain_spec (modPort s q (fun x => { x with lowPower := true })) q
  unfold heldLow
  dsimp only
  split
  · exact (hkept p).trans hmod
  · exact hmod

/-- A port that is Up is held in Training. -/
theorem heldLow_self (h : pState s p = 2) : pState (heldLow s p) p = 1 ∧ (getPort (heldLow s p) p).lowPower = true := by
  obtain ⟨htrain, -, -, hkept⟩ := retrain_spec (modPort s p (fun x => { x with lowPower := true })) p
  have he : heldLow s p = retrain (modPort s p (fun x => { x with lowPower := true })) p true := if_pos (.inl h)
  rw [he]
  exact ⟨htrain, (hkept p).trans (by rw [getPort_modPort_self])⟩

/-- What a port shows of the hold: its state and whether it is held. -/
def linkShown (p : Fin 144) (s : State) : Nat × Bool := (pState s p, (getPort s p).lowPower)

theorem qsfp28ModuleInserted_trains (cage : Fin 12) (hp : 96 ≤ p.val) (hc : (p.val - 96) / 4 = cage.val) (hst : pState s p = 2) :
    ∃ t, exec (.qsfp28ModuleInserted cage true) s = .next t ∧ pState t p = 1 ∧ (getPort t p).lowPower = true ∧
      KeepsBut retrainParts s t := by
  obtain ⟨u, -, hu, ht⟩ := each_at (Inv := fun _ => True) (g := linkShown p) (i := p) (s := s)
    (f := fun q s => if 96 ≤ q.val ∧ (q.val - 96) / 4 = cage.val then heldLow s q else s) (fun _ _ _ => trivial)
    (fun u q _ hq => by
      split
      · obtain ⟨h1, h2⟩ := heldLow_other (s := u) hq
        exact Prod.ext h1 h2
      · rfl) trivial
  rw [if_pos ⟨hp, hc⟩] at ht
  obtain ⟨htrain, hlow⟩ := heldLow_self (s := u) (p := p) ((congrArg Prod.fst hu).trans hst)
  exact ⟨_, exec_qsfpInserted s cage, (congrArg Prod.fst ht).trans htrain, (congrArg Prod.snd ht).trans hlow, cageHeld_keeps s cage⟩

end

/-- Settles O20: each event is the lemma of its case; `setPState` and `retrain` say what entering and leaving a state does. -/
theorem portStateCommands : Obligations.PortStateCommands := by
  unfold Obligations.PortStateCommands
  intro s p v tm
  refine ⟨swcPCfgWrite_trains, swcPCfgWrite_refused, swcPMacsecWrite_refused, swcPMacsecWrite_stores, blockLock_up s p tm,
    trainingTimeout_counts s p, lossOfLock_trains s p, fenceRelease_up, fun hst ha => ⟨fenceAutoRelease_clean tm hst ha, fun hc => ?_⟩,
    fun h => ⟨verifyAttemptTimeout_next h, verifyAttemptTimeout_fails h, verifyResponse_active h⟩,
    fun cage hp hc hst => qsfp28ModuleInserted_trains cage hp hc hst⟩
  rw [exec_fenceAutoRelease tm hst ha, if_neg hc]

end Sys2Proof.Machine
end

section
/-! PROOFS: egress, frame completion, pause and the latched counters (O21). -/

namespace Sys2Proof.Machine
set_option Elab.async false

/-! ## Egress of a trip frame (R71, R275) -/

section
variable {s : State} {p : Fin 144} (tm : Instant)

/-- A trip frame at the head of its queue, on the wire. -/
def tripStarted (s : State) (p : Fin 144) (x : TripItem) (xs : List TripItem) : State :=
  modPort s p (fun y => { y with trips := xs, wire := some (.trip x) })

theorem tripStarted_self (x : TripItem) (xs : List TripItem) :
    getPort (tripStarted s p x xs) p = { getPort s p with trips := xs, wire := some (.trip x) } := getPort_modPort_self ..

theorem onWire_out (f : Sys2Proof.Frame) : (onWire s p f).out = if pState s p = 4 then s.out else .frame p f s.now :: s.out := by
  unfold onWire
  split <;> rfl

theorem onWire_frame {n : Nat} (f : Sys2Proof.Frame) : Frame [.out] n s (onWire s p f) :=
  .ite (fun _ => .refl) (fun _ => emit_frame _)

variable (hrun : hcSt s ≠ 3)
include hrun

/-- With an idle wire the first trip frame starts, unless the gate mutes it. -/
theorem exec_egressDequeue_trip {x : TripItem} {xs : List TripItem} (hst : 2 ≤ pState s p) (hw : (getPort s p).wire = none)
    (ht : (getPort s p).trips = x :: xs) (hm : pubMuted s x.pub = false) : exec (.egressDequeue p tm) s =
      .next (onWire (tripStarted (toInstant s tm) p (tripOut s x) xs) p (tripOut s x).frame) := by
  have he : exec (.egressDequeue p tm) s = .next (doEgressDequeue p tm s) := congrArg _ (live_of_running _ hrun)
  have hst' : ¬ pState (toInstant s tm) p < 2 := Nat.not_lt.mpr hst
  have hw' : (getPort (toInstant s tm) p).wire = none := hw
  have ht' : (getPort (toInstant s tm) p).trips = x :: xs := ht
  have hm' : pubMuted (toInstant s tm) x.pub = false := hm
  rw [he, doEgressDequeue]
  simp only [if_neg hst', hw', serve, ht', hm', Bool.false_eq_true, if_false]
  rfl

theorem egressDequeue_trip {x : TripItem} {xs : List TripItem} (hst : 2 ≤ pState s p) (hw : (getPort s p).wire = none)
    (ht : (getPort s p).trips = x :: xs) (hm : pubMuted s x.pub = false) : ∃ t, exec (.egressDequeue p tm) s = .next t ∧
      t.out = (if pState s p = 4 then s.out else .frame p (tripOut s x).frame (max s.now tm) :: s.out) ∧
      (getPort t p).wire = some (.trip (tripOut s x)) ∧ (getPort t p).trips = xs ∧ (∀ q, q ≠ p → getPort t q = getPort s q) ∧
      KeepsBut [.now, .op, .port, .out] s t := by
  let u := tripStarted (toInstant s tm) p (tripOut s x) xs
  have hk : Frame [.out] 0 u (onWire u p (tripOut s x).frame) := onWire_frame _
  have hport (q : Fin 144) : getPort (onWire u p (tripOut s x).frame) q = getPort u q := getPort_congr hk.port_eq q
  refine ⟨_, exec_egressDequeue_trip tm hrun hst hw ht hm, onWire_out _, ?_, ?_, fun q hq => ?_, ?_⟩
  · rw [hport, tripStarted_self]
  · rw [hport, tripStarted_self]
  · rw [hport]
    exact getPort_modPort_ne _ _ _ _ hq
  · exact (((toInstant_frame tm).trans (modPort_frame p _)).trans hk.widen : Frame [.now, .op, .port, .out] 0 s _).keeps

end

/-! ## A frame finishes (R74, R79) -/

section
variable (s : State) (p : Fin 144)

theorem countFrame_clockFrame (base : Nat) (f : Sys2Proof.Frame) : ClockFrame [.regs, .port, .out] switchRegs s (countFrame s p base f) :=
  (((count_clockFrame _ p _ _).trans (count_clockFrame _ p _ _)).trans (count_clockFrame _ p _ _)).trans (count_clockFrame _ p _ _)

/-- The first counter of a good frame advances by one; the others lie above it. -/
theorem countFrame_first (base : Nat) (f : Sys2Proof.Frame) :
    Tab.get 0 (getPort (countFrame s p base f) p).cnt base = (Tab.get 0 (getPort s p).cnt base + 1) % 2 ^ 40 := by
  have h : PortsCounted base (count s p base) (countFrame s p base f) :=
    ((PortsCounted.count _ p _ (by omega)).trans (.count _ p _ (by omega))).trans (.count _ p _ (by omega))
  rw [h.cnt, count_shows]

/-- A stored frame that has left its port: counted, the wire idle, before its reference is freed. -/
def wireCleared (s : State) (p : Fin 144) (f : Sys2Proof.Frame) : State :=
  modPort (countFrame s p 16 f) p (fun y => { y with wire := none })

theorem wireCleared_self (f : Sys2Proof.Frame) :
    getPort (wireCleared s p f) p = { getPort (countFrame s p 16 f) p with wire := none } := getPort_modPort_self ..

theorem wireCleared_clockFrame (f : Sys2Proof.Frame) : ClockFrame [.regs, .port, .out] switchRegs s (wireCleared s p f) :=
  (countFrame_clockFrame s p 16 f).trans (.of_frame (modPort_frame p _))

variable {s p} (tm : Instant)

theorem exec_frameSent_stored (hrun : hcSt s ≠ 3) {id : Nat} {f : Sys2Proof.Frame} (hst : pState s p ≠ 4)
    (hw : (getPort s p).wire = some (.stored id f)) :
    exec (.frameSent p tm) s = .next (freeRef (wireCleared (toInstant s tm) p f) id) := by
  have he : exec (.frameSent p tm) s = .next (doFrameSent p tm s) := congrArg _ (live_of_running _ hrun)
  have hst' : ¬ pState (toInstant s tm) p = 4 := hst
  have hw' : (getPort (toInstant s tm) p).wire = some (.stored id f) := hw
  rw [he, doFrameSent]
  simp only [if_neg hst', wireDone, hw']
  rfl

/-- The last reference of a sent frame: it leaves the wire, is counted, and leaves the switch core. -/
theorem frameSent_last (hrun : hcSt s ≠ 3) {id : Nat} {f : Sys2Proof.Frame} {x : Stored} (hst : pState s p ≠ 4)
    (hw : (getPort s p).wire = some (.stored id f)) (hx : stored s id = some x) (hr : x.refs = 1) :
    ∃ t, exec (.frameSent p tm) s = .next t ∧ (getPort t p).wire = none ∧ stored t id = none ∧
      Tab.get 0 (getPort t p).cnt 16 = (Tab.get 0 (getPort s p).cnt 16 + 1) % 2 ^ 40 ∧
      KeepsBut [.regs, .now, .op, .port, .sw, .out] s t := by
  let u := wireCleared (toInstant s tm) p f
  have hclear : ClockFrame [.regs, .port, .out] switchRegs (toInstant s tm) u := wireCleared_clockFrame _ p f
  have hstored : stored u id = some x := by
    rw [stored, hclear.sw_eq]
    exact hx
  have hfree : PortsCounted 16 u (freeRef u id) := freeRef_counted u id (by decide)
  refine ⟨_, exec_frameSent_stored tm hrun hst hw, ?_, ?_, ?_, ?_⟩
  · rw [hfree.wire, wireCleared_self]
  · rw [freeRef_last u hstored hr, bufferFreed_stored, putStored_none]
  · rw [hfree.cnt, wireCleared_self, countFrame_first, getPort_congr (toInstant_port s tm)]
  · exact (((toInstant_keeps s tm).mono (by decide)).trans (hclear.keeps.mono (by decide))).trans
      ((freeRef_clockFrame u id).keeps.mono (by decide))

end

/-! ## Pause (R76) -/

section
variable {s : State}

/-- While overflow pauses, the check ends the pause below the resume threshold and goes on with it at or above. -/
theorem pauseCheck_pausing (hp : s.sw.pausing = true) : (pauseCheck s).sw.pausing = decide (resumeThr s ≤ s.sw.ovfBytes) := by
  unfold pauseCheck
  by_cases hr : s.sw.ovfBytes < resumeThr s
  · rw [if_neg (by simp [hp]), if_pos (by simp [hp, hr]), (sendPfc_clockFrame _ _).sw_eq, decide_eq_false (Nat.not_le.mpr hr)]
    rfl
  · rw [if_neg (by simp [hp]), if_neg (by simp [hp, hr])]
    exact hp.trans (decide_eq_true (Nat.not_lt.mp hr)).symm

theorem pfcRepeat_pauses (hrun : hcSt s ≠ 3) (hp : s.sw.pausing = true) : ∃ t, exec .pfcRepeat s = .next t ∧
    t.sw.pausing = decide (resumeThr s ≤ s.sw.ovfBytes) ∧ KeepsBut [.regs, .port, .sw, .out] s t := by
  have he : exec .pfcRepeat s = .next (if (pauseCheck s).sw.pausing then sendPfc (pauseCheck s) 0xFFFF else pauseCheck s) :=
    congrArg _ (live_of_running _ hrun)
  have hcheck := pauseCheck_clockFrame s
  refine ⟨_, he, ?_, ?_⟩
  · split
    · rw [(sendPfc_clockFrame _ _).sw_eq, pauseCheck_pausing hp]
    · exact pauseCheck_pausing hp
  · split
    · exact hcheck.keeps.trans ((sendPfc_clockFrame _ _).keeps.mono (by decide))
    · exact hcheck.keeps

theorem oneHot_class : ∀ tc k : Fin 5, (BitVec.ofNat 5 (2 ^ tc.val)).getLsbD k.val = decide (k = tc) := by decide

/-- An expired pause makes its class eligible. -/
theorem pauseQuantaExpiry_eligible (s : State) (p : Fin 144) (tc : Fin 5) : ∃ t, exec (.pauseQuantaExpiry p tc) s = .next t ∧
    (∀ k : Fin 5, (getPort t p).paused.getLsbD k = (decide (k ≠ tc) && (getPort s p).paused.getLsbD k)) ∧
    (∀ q, q ≠ p → getPort t q = getPort s q) ∧ KeepsBut [.port] s t := by
  have he : exec (.pauseQuantaExpiry p tc) s =
      .next (modPort s p (fun x => { x with paused := x.paused &&& ~~~(BitVec.ofNat 5 (2 ^ tc.val)) })) := rfl
  refine ⟨_, he, fun k => ?_, fun q hq => getPort_modPort_ne s p q _ hq, (modPort_frame (n := 0) p _).keeps⟩
  rw [getPort_modPort_self, BitVec.getLsbD_and, BitVec.getLsbD_not, oneHot_class, Bool.and_comm]
  simp

end

/-! ## The overflow configuration (R73) -/

/-- The ranges of SWC_OVF_CFG: pause, resume below it, spill. -/
abbrev OvfInRange (v : Word) : Prop :=
  1 ≤ fld v 12 8 ∧ fld v 12 8 ≤ 16 ∧ fld v 20 16 < fld v 12 8 ∧ 8 ≤ fld v 29 24 ∧ fld v 29 24 ≤ 42

section
variable {s : State} {v : Word} (hrun : hcSt s ≠ 3)
include hrun

theorem swcOvfCfgWrite_stores (hg : OvfInRange v) :
    ∃ t, exec (.swcOvfCfgWrite v) s = .next t ∧ rd t Reg.swcOvfCfg = v &&& 0x3F1F1F01 ∧
      KeepsBut [.regs, .port, .sw, .recorder, .arb, .out] s t := by
  have he : exec (.swcOvfCfgWrite v) s = .next (pauseCheck (wrp s Reg.swcOvfCfg (v &&& 0x3F1F1F01))) :=
    congrArg _ ((live_of_running (doSwcOvfCfgWrite v) hrun).trans (if_pos hg))
  obtain ⟨hrd, -, hk⟩ := wrp_spec (off := Reg.swcOvfCfg) s (v &&& 0x3F1F1F01) (by decide)
  have hcheck := pauseCheck_clockFrame (wrp s Reg.swcOvfCfg (v &&& 0x3F1F1F01))
  exact ⟨_, he, (hcheck.rd_eq (notMem_switchRegs (by decide))).trans hrd,
    (hk.mono (by decide)).trans (hcheck.keeps.mono (by decide))⟩

theorem swcOvfCfgWrite_refused (hg : ¬ OvfInRange v) : exec (.swcOvfCfgWrite v) s = .next (raise s Reg.swcIrq 6) :=
  congrArg _ ((live_of_running (doSwcOvfCfgWrite v) hrun).trans (if_neg hg))

end

/-! ## The latched counters (R80) -/

section
variable (s : State) (p : Fin 144)

/-- A counter's two latch words written. -/
def counterLatched (c : Tab Nat) (p : Fin 144) (i : Fin 64) (s : State) : State :=
  wr (wr s (Reg.swcPCnt p (2 * i)) (W (Tab.get 0 c i))) (Reg.swcPCnt p (2 * i + 1)) (W (Tab.get 0 c i / 2 ^ 32))

/-- The two latch words of a counter. -/
def latchWords (p : Fin 144) (i : Fin 64) (s : State) : Word × Word := (rd s (Reg.swcPCnt p (2 * i)), rd s (Reg.swcPCnt p (2 * i + 1)))

theorem latchWords_counterLatched (c : Tab Nat) (i : Fin 64) :
    latchWords p i (counterLatched c p i s) = (W (Tab.get 0 c i), W (Tab.get 0 c i / 2 ^ 32)) := by
  have hne : Reg.swcPCnt p (2 * i + 1) ≠ Reg.swcPCnt p (2 * i) := by unfold Reg.swcPCnt; omega
  rw [latchWords, counterLatched, rd_wr_ne _ _ hne, rd_wr_self, rd_wr_self]

theorem latchWords_other (c : Tab Nat) {i j : Fin 64} (h : j ≠ i) : latchWords p i (counterLatched c p j s) = latchWords p i s := by
  have hv : j.val ≠ i.val := fun e => h (Fin.ext e)
  rw [latchWords, counterLatched, rd_wr_ne, rd_wr_ne, rd_wr_ne, rd_wr_ne, latchWords] <;> unfold Reg.swcPCnt <;> omega

/-- All counters of a port latched, with the instant. -/
def countersLatched (s : State) (p : Fin 144) : State :=
  wr (wr (each 64 (fun i u => counterLatched (getPort s p).cnt p i u) s) (Reg.swcPLatchSec p) (W (secOf s.now)))
    (Reg.swcPLatchNs p) (nsWord s.now)

theorem countersLatched_keeps : KeepsBut [.regs] s (countersLatched s p) := by
  have heach : KeepsBut [.regs] s (each 64 (fun i u => counterLatched (getPort s p).cnt p i u) s) :=
    each_inv (Inv := fun u => KeepsBut [.regs] s u) (fun u i hu => hu.trans ((wr_keeps _ _ _).trans (wr_keeps _ _ _)))
      (ClockFrame.refl (offs := [])).keeps
  exact heach.trans ((wr_keeps _ _ _).trans (wr_keeps _ _ _))

theorem countersLatched_words (i : Fin 64) : latchWords p i (countersLatched s p) =
    (W (Tab.get 0 (getPort s p).cnt i), W (Tab.get 0 (getPort s p).cnt i / 2 ^ 32)) := by
  obtain ⟨u, -, -, he⟩ := each_at (Inv := fun _ => True) (g := latchWords p i) (i := i) (s := s)
    (f := fun j u => counterLatched (getPort s p).cnt p j u) (fun _ _ _ => trivial)
    (fun u _ _ hj => latchWords_other u p (getPort s p).cnt hj) trivial
  have hstamp (v : State) (a b : Word) : latchWords p i (wr (wr v (Reg.swcPLatchSec p) a) (Reg.swcPLatchNs p) b) = latchWords p i v := by
    have hsec (j : Nat) : Reg.swcPLatchSec p ≠ Reg.swcPCnt p j := by unfold Reg.swcPLatchSec Reg.swcPCnt; omega
    have hns (j : Nat) : Reg.swcPLatchNs p ≠ Reg.swcPCnt p j := by unfold Reg.swcPLatchNs Reg.swcPCnt; omega
    rw [latchWords, rd_wr_ne _ _ (hns _), rd_wr_ne _ _ (hsec _), rd_wr_ne _ _ (hns _), rd_wr_ne _ _ (hsec _), latchWords]
  rw [countersLatched, hstamp, he, latchWords_counterLatched]

theorem countersLatched_sec : rd (countersLatched s p) (Reg.swcPLatchSec p) = W (secOf s.now) := by
  have hne : Reg.swcPLatchNs p ≠ Reg.swcPLatchSec p := by unfold Reg.swcPLatchNs Reg.swcPLatchSec; omega
  rw [countersLatched, rd_wr_ne _ _ hne, rd_wr_self]

/-- The live counters zeroed at the same edge. -/
def countersZeroed (s : State) (p : Fin 144) : State := modPort s p (fun x => { x with cnt := [] })

variable {s p} {v : Word} (tm : Instant)

theorem exec_swcPLatch (hrun : hcSt s ≠ 3) (hv : bitOf v 0 = true) : exec (.swcPLatch p v tm) s = .next
    (if bitOf v 1 then countersZeroed (countersLatched (toInstant s tm) p) p else countersLatched (toInstant s tm) p) := by
  have he : exec (.swcPLatch p v tm) s = .next (doSwcPLatch p v tm s) := congrArg _ (live_of_running _ hrun)
  rw [he, doSwcPLatch, hv]
  rfl

/-- A latch write shows every counter, with its instant. -/
theorem swcPLatch_shows (hrun : hcSt s ≠ 3) (hv : bitOf v 0 = true) (i : Fin 64) : ∃ t, exec (.swcPLatch p v tm) s = .next t ∧
    rd t (Reg.swcPCnt p (2 * i)) = BitVec.ofNat 32 (Tab.get 0 (getPort s p).cnt i) ∧
    rd t (Reg.swcPCnt p (2 * i + 1)) = BitVec.ofNat 32 (Tab.get 0 (getPort s p).cnt i / 2 ^ 32) ∧
    rd t (Reg.swcPLatchSec p) = BitVec.ofNat 32 (secOf (max s.now tm)) ∧
    (getPort t p).cnt = (if bitOf v 1 then [] else (getPort s p).cnt) ∧ KeepsBut [.regs, .now, .op, .port] s t := by
  have hwords := countersLatched_words (toInstant s tm) p i
  have hlo : rd (countersLatched (toInstant s tm) p) (Reg.swcPCnt p (2 * i)) = W (Tab.get 0 (getPort s p).cnt i) :=
    congrArg Prod.fst hwords
  have hhi : rd (countersLatched (toInstant s tm) p) (Reg.swcPCnt p (2 * i + 1)) = W (Tab.get 0 (getPort s p).cnt i / 2 ^ 32) :=
    congrArg Prod.snd hwords
  have hzero (off : Nat) : rd (countersZeroed (countersLatched (toInstant s tm) p) p) off = rd (countersLatched (toInstant s tm) p) off :=
    rd_congr (setPort_regs _ _ _) off
  have hsec := countersLatched_sec (toInstant s tm) p
  have hk : KeepsBut [.regs, .now, .op, .port] s (countersLatched (toInstant s tm) p) :=
    ((toInstant_keeps s tm).mono (by decide)).trans ((countersLatched_keeps _ p).mono (by decide))
  have hport : getPort (countersLatched (toInstant s tm) p) p = getPort s p := getPort_congr (countersLatched_keeps _ p .port (by decide)) p
  refine ⟨_, exec_swcPLatch tm hrun hv, ?_⟩
  split
  · exact ⟨(hzero _).trans hlo, (hzero _).trans hhi, (hzero _).trans hsec, by rw [countersZeroed, getPort_modPort_self],
      hk.trans (modPort_frame (n := 0) p _).keeps⟩
  · exact ⟨hlo, hhi, hsec, congrArg Port.cnt hport, hk⟩

end

end Sys2Proof.Machine
end

section
/-! PROOFS: frames of the module taken into the switch core and the settled statement (O21). -/

namespace Sys2Proof.Machine
set_option Elab.async false

/-! ## Admission on chip (R72, R74) -/

section
variable (s : State)

/-- A frame stored on chip for its targets. -/
def storedFor (s : State) (f : Sys2Proof.Frame) (tags : Tab (Option (BitVec 16))) (ring : Option (Fin 144 × Sys2Proof.Frame)) (tc : Nat)
    (targets : List (Fin 144)) (inPort : Option (Fin 144)) : Stored :=
  ⟨f, tags, ring, tc, cellsOf f.len, targets.length, s.now, inPort, false, none⟩

/-- The frame stored under the next identifier, before it is queued. -/
def frameStored (s : State) (x : Stored) : State :=
  { s with sw := { s.sw with frames := Tab.put none s.sw.frames s.sw.nextFrame (some x), nextFrame := s.sw.nextFrame + 1 } }

/-- The stored frame queued at its targets. -/
def frameQueued (s : State) (x : Stored) (targets : List (Fin 144)) : State :=
  targets.foldl (fun u p => pushQ u p x.tc s.sw.nextFrame) (frameStored s x)

/-- Its cells and its descriptor taken. -/
def cellsTaken (s : State) (c : Nat) : State :=
  wr (wr s Reg.swcBufFree (rd s Reg.swcBufFree - W c)) Reg.swcDescFree (rd s Reg.swcDescFree - 1)

theorem frameQueued_frame {n : Nat} (x : Stored) (targets : List (Fin 144)) : Frame [.port, .sw] n s (frameQueued s x targets) :=
  .trans (sw_frame _) (.foldl (fun u p => modPort_frame p _) _ _)

theorem frameQueued_stored (x : Stored) (targets : List (Fin 144)) : stored (frameQueued s x targets) s.sw.nextFrame = some x := by
  have h : Frame [.port] 0 (frameStored s x) (frameQueued s x targets) := .foldl (fun u p => modPort_frame p _) _ _
  have hsw : (frameQueued s x targets).sw = (frameStored s x).sw := h.keeps .sw (by decide)
  rw [stored, hsw]
  exact Tab.get_put_self none s.sw.frames s.sw.nextFrame (some x)

/-- A frame of an express class or of the PTP class with room in its pool is stored on chip for all its targets. -/
theorem takeIn_onChip (f : Sys2Proof.Frame) (tags : Tab (Option (BitVec 16))) (ring : Option (Fin 144 × Sys2Proof.Frame)) {tc : Nat}
    {targets : List (Fin 144)} (inPort : Option (Fin 144)) (ht : targets ≠ []) (htc : 4 < tc)
    (hcells : (poolUse s (poolOf tc)).1 + cellsOf f.len ≤ poolCells (poolOf tc))
    (hdesc : (poolUse s (poolOf tc)).2 + 1 ≤ poolDesc (poolOf tc)) :
    takeIn s f tags ring tc targets inPort =
      cellsTaken (frameQueued s (storedFor s f tags ring tc targets inPort) targets) (cellsOf f.len) := by
  have hne : targets.isEmpty = false := by simpa using ht
  have hspill : ¬ (decide (tc ≤ 4) && targets.any (fun p => spillNow s p tc)) = true := by simp [Nat.not_le.mpr htc]
  have hpool : poolOf tc ≠ 0 := by unfold poolOf; omega
  have hroom : ¬ (poolCells (poolOf tc) < (poolUse s (poolOf tc)).1 + cellsOf f.len + 0 ∨
      poolDesc (poolOf tc) < (poolUse s (poolOf tc)).2 + 1) := by omega
  rw [takeIn, hne]
  simp only [if_neg hspill, if_pos htc, if_neg hpool, if_neg hroom, Bool.false_eq_true, if_false]
  rfl

/-- Counting and holding frames leave the pair modes. -/
theorem pairMode_congr {ps : List Part} {s t : State} (h : ClockFrame ps switchRegs s t) (k : Fin 72) : pairMode t k = pairMode s k := by
  have hk : k.val / 16 < 5 := by omega
  have hn : Reg.colPairmode (k / 16) ∉ switchRegs := colReg_kept (by unfold Reg.colPairmode; omega)
  have hb : Reg.colPairmode (k / 16) < counterBase := by unfold counterBase Reg.panOptime Reg.colPairmode; omega
  rw [pairMode, rf, h.rd_eq hn hb]
  rfl

/-- A frame the module originates for one port that is Up and of no pair: taken in untagged. -/
theorem originate_single {p : Fin 144} (f : Sys2Proof.Frame) (hst : pState s p = 2) (hm : pairMode s (pairOf p) = 0)
    (hcells : (poolUse s 1).1 + cellsOf f.len ≤ 8192) (hdesc : (poolUse s 1).2 + 1 ≤ 4096) :
    originate s f 5 [p] = cellsTaken (frameQueued s (storedFor s f [] none 5 [p] none) [p]) (cellsOf f.len) := by
  have hports : [p].filter (fun p => pState s p == 2 || pState s p == 4) = [p] := by simp [hst]
  have htags : pairTags s [p] = [] := by simp [pairTags, hm]
  have htake := takeIn_onChip s f [] none (tc := 5) none (List.cons_ne_nil p []) (by decide) hcells hdesc
  have hmode : pairMode (takeIn s f [] none 5 [p] none) (pairOf p) = 0 := by
    have hlow : ClockFrame [.regs, .port, .sw] switchRegs s (takeIn s f [] none 5 [p] none) := by
      rw [htake]
      have hq := frameQueued_frame (n := counterBase) s (storedFor s f [] none 5 [p] none) [p]
      exact .trans (.of_frame hq.widen) (.trans (wr_clockFrame _ _).widen (wr_clockFrame _ _).widen)
    rw [pairMode_congr hlow, hm]
  unfold originate
  dsimp only
  rw [hports, htags, advancePairs]
  simp only [List.map_cons, List.map_nil, List.eraseDups_cons, List.filter_nil, List.eraseDups_nil, List.foldl_cons, List.foldl_nil,
    if_pos hmode]
  exact htake

end

/-! ## PTP messages of the module (R32, R35, R64, R81) -/

section
variable {s : State} {p : Fin 144} (tm : Instant)

/-- Place of a port's Sync messages in the sequence counters. -/
def syncKey (p : Fin 144) : Nat := 8 * p.val + ptpIdx .sync

/-- The Sync message a port sends next. -/
def nextSync (s : State) (p : Fin 144) : PtpMsg := ptpMessage s p .sync (Tab.get 0 s.time.ptpSeq (syncKey p))

/-- Its number taken. -/
def syncNumbered (s : State) (p : Fin 144) : State :=
  modTime s (fun t => { t with ptpSeq := Tab.put 0 t.ptpSeq (syncKey p) ((Tab.get 0 t.ptpSeq (syncKey p) + 1) % 2 ^ 16) })

theorem exec_ptpTransmit_sync (hrun : hcSt s ≠ 3) (hon : rb s Reg.timeCtrl 0 = true) (hr : ptpRole s p = .master) (hst : pState s p = 2) :
    exec (.ptpTransmit p .sync tm) s = .next
      (originate (syncNumbered (toInstant s tm) p) (ptpFrame (syncNumbered (toInstant s tm) p) p (nextSync (toInstant s tm) p)) 5 [p]) := by
  have he : exec (.ptpTransmit p .sync tm) s = .next (doPtpTransmit p .sync tm s) := congrArg _ (live_of_running _ hrun)
  have hon' : rb (toInstant s tm) Reg.timeCtrl 0 = true := hon
  have hr' : ptpRole (toInstant s tm) p = .master := hr
  have hst' : pState (toInstant s tm) p = 2 := hst
  rw [he, doPtpTransmit]
  simp only [hon', hr', hst', BEq.rfl, bne_self_eq_false, Bool.not_true, Bool.or_false, Bool.false_eq_true, if_false]
  rfl

/-- A Sync frame is the port's own and fits one cell. -/
theorem ptpFrame_sync (u : State) (m : PtpMsg) (hk : m.kind = .sync) :
    (ptpFrame u p m).src = macOf u p ∧ (ptpFrame u p m).body = .ptp m ∧ cellsOf (ptpFrame u p m).len = 1 := by
  unfold ptpFrame
  dsimp only
  split
  · exact ⟨rfl, rfl, by simp [portFrame, hk, ptpLen, cellsOf]⟩
  · exact ⟨rfl, rfl, by simp [portFrame, hk, ptpLen, cellsOf]⟩

/-- A Sync of a master port is stored in TC5 for the port. -/
theorem ptpTransmit_sync (hrun : hcSt s ≠ 3) (hon : rb s Reg.timeCtrl 0 = true) (hr : ptpRole s p = .master) (hst : pState s p = 2)
    (hm : pairMode s (pairOf p) = 0) (hcells : (poolUse s 1).1 < 8192) (hdesc : (poolUse s 1).2 < 4096) :
    ∃ t x m, exec (.ptpTransmit p .sync tm) s = .next t ∧ stored t s.sw.nextFrame = some x ∧ x.tc = 5 ∧ x.refs = 1 ∧
      x.frame.src = macOf s p ∧ x.frame.body = .ptp m ∧ m.kind = .sync ∧ m.source = portIdentity s p ∧
      m.domain = rf s Reg.timePrio 23 16 ∧ KeepsBut [.regs, .now, .op, .time, .port, .sw] s t := by
  let u := syncNumbered (toInstant s tm) p
  let m := nextSync (toInstant s tm) p
  obtain ⟨hsrc, hbody, hlen⟩ := ptpFrame_sync (p := p) u m rfl
  have he : exec (.ptpTransmit p .sync tm) s =
      .next (cellsTaken (frameQueued u (storedFor u (ptpFrame u p m) [] none 5 [p] none) [p]) (cellsOf (ptpFrame u p m).len)) := by
    have ho := originate_single u (p := p) (ptpFrame u p m) hst hm (by rw [hlen]; exact hcells) hdesc
    rw [exec_ptpTransmit_sync tm hrun hon hr hst, ← ho]
  have hu : Frame [.now, .op, .time] 0 s u := (toInstant_frame tm).trans (modTime_frame _)
  have hq : Frame [.port, .sw] 0 u (frameQueued u (storedFor u (ptpFrame u p m) [] none 5 [p] none) [p]) := frameQueued_frame u _ _
  refine ⟨_, storedFor u (ptpFrame u p m) [] none 5 [p] none, m, he, frameQueued_stored u _ _, rfl, rfl, hsrc, hbody, rfl, rfl, rfl, ?_⟩
  exact ((hu.keeps.mono (by decide)).trans (hq.keeps.mono (by decide))).trans
    (((wr_keeps _ _ _).trans (wr_keeps _ _ _)).mono (by decide))

end

/-- Settles O21: each command is the lemma of its case. -/
theorem egressAndPauseCommands : Obligations.EgressAndPauseCommands := by
  unfold Obligations.EgressAndPauseCommands
  intro s p tm
  exact ⟨fun hrun => ⟨fun x xs hst hw ht hm => egressDequeue_trip tm hrun hst hw ht hm,
      fun id f x hst hw hx hr => frameSent_last tm hrun hst hw hx hr, pfcRepeat_pauses hrun,
      fun hon hr hst hm hc hd => ptpTransmit_sync tm hrun hon hr hst hm hc hd⟩,
    pauseQuantaExpiry_eligible s p, fun v i hrun hv => swcPLatch_shows tm hrun hv i,
    fun v => ⟨fun hrun hg => swcOvfCfgWrite_stores hrun hg, fun hrun hg => swcOvfCfgWrite_refused hrun hg⟩⟩

end Sys2Proof.Machine
end

section
/-! PROOFS: the forwarding, VLAN, pair-mode and duplicate tables (O22). -/

namespace Sys2Proof.Machine
set_option Elab.async false

/-! ## Forwarding entries (R70) -/

section
variable {s t : State}

theorem fdbFind_congr (h : t.sw.fdb = s.sw.fdb) (vid : BitVec 12) (mac : BitVec 48) : fdbFind t vid mac = fdbFind s vid mac := by
  rw [fdbFind, h, fdbFind]

variable (s) (vid v : BitVec 12) (mac m : BitVec 48)

/-- The entry of a key. -/
def ofKey (vid : BitVec 12) (mac : BitVec 48) (e : FdbEntry) : Bool := e.vid == vid && e.mac == mac

theorem ofKey_iff (e : FdbEntry) : ofKey vid mac e = true ↔ (e.vid, e.mac) = (vid, mac) := by simp [ofKey]

/-- A deleted key has no entry, every other key its own. -/
theorem fdbFind_fdbDel : fdbFind (fdbDel s vid mac) v m = if (v, m) = (vid, mac) then none else fdbFind s v m := by
  have hfind : fdbFind (fdbDel s vid mac) v m = s.sw.fdb.find? (fun e => (!ofKey vid mac e) = true ∧ ofKey v m e = true) :=
    List.find?_filter
  rw [hfind]
  split
  case isTrue h =>
    obtain ⟨rfl, rfl⟩ := Prod.mk.inj h
    exact List.find?_eq_none.mpr fun e _ => by simp
  case isFalse h =>
    have hother (e : FdbEntry) : ((!ofKey vid mac e) = true ∧ ofKey v m e = true) ↔ ofKey v m e = true := by
      refine and_iff_right_of_imp fun he => ?_
      rw [Bool.not_eq_true', ← Bool.not_eq_true, ofKey_iff, (ofKey_iff v m e).mp he]
      exact h
    simp only [hother, Bool.decide_eq_true]
    rfl

/-- An entry written in front of the others. -/
def fdbPut (s : State) (e : FdbEntry) : State := { s with sw := { s.sw with fdb := e :: s.sw.fdb } }

theorem fdbFind_fdbPut (e : FdbEntry) : fdbFind (fdbPut s e) v m = if (v, m) = (e.vid, e.mac) then some e else fdbFind s v m := by
  have hfind : fdbFind (fdbPut s e) v m = (e :: s.sw.fdb).find? (ofKey v m) := rfl
  rw [hfind, List.find?_cons]
  split
  case h_1 h => rw [if_pos ((ofKey_iff v m e).mp h).symm]
  case h_2 h =>
    rw [if_neg fun he => Bool.false_ne_true (h.symm.trans ((ofKey_iff v m e).mpr he.symm))]
    rfl

/-- SWC_FDB_STAT shown: nothing but that register. -/
theorem fdbStat_clockFrame (nf bf : Bool) : ClockFrame [.regs] [Reg.swcFdbStat] s (fdbStat s nf bf) :=
  ((wb_clockFrame _ _ _).trans (wb_clockFrame _ _ _)).trans (wb_clockFrame _ _ _)

theorem fdbStat_notFound (nf bf : Bool) : rb (fdbStat s nf bf) Reg.swcFdbStat 1 = nf := by
  rw [fdbStat, rb_wb_bit _ _ _ (by decide) (by decide), rb_wb_self _ _ _ (by decide)]

theorem fdbStat_full (nf bf : Bool) : rb (fdbStat s nf bf) Reg.swcFdbStat 2 = bf := rb_wb_self _ _ _ (by decide)

theorem fdbFind_fdbStat (nf bf : Bool) : fdbFind (fdbStat s nf bf) v m = fdbFind s v m :=
  fdbFind_congr (congrArg Switch.fdb (fdbStat_clockFrame s nf bf).sw_eq) v m

theorem cfgDirty_keeps : KeepsBut [.regs] s (cfgDirty s) := wr_keeps _ _ _

theorem fdbFind_cfgDirty : fdbFind (cfgDirty s) v m = fdbFind s v m := rfl

theorem sw_keeps (x : Switch) : KeepsBut [.sw] s { s with sw := x } := (sw_frame (n := 0) x).keeps

end

section
variable {s : State} (tm : Instant)

theorem passed_since (x d : Nat) : passed s (some x) d = true ↔ x + d ≤ s.op := decide_eq_true_iff

/-- A learned entry without a frame for its age goes. -/
theorem fdbAgeOut_removes {mac : BitVec 48} {vid : BitVec 12} {e : FdbEntry} (h0 : rf s Reg.swcFdbAge 15 0 ≠ 0)
    (hf : fdbFind s vid mac = some e) (hs : e.static = false)
    (ha : e.at' + rf s Reg.swcFdbAge 15 0 * second ≤ s.op + (tm - s.now)) :
    ∃ t, exec (.fdbAgeOut mac vid tm) s = .next t ∧ fdbFind t vid mac = none ∧ KeepsBut [.now, .op, .sw] s t := by
  have he : exec (.fdbAgeOut mac vid tm) s = .next (doFdbAgeOut mac vid tm s) := rfl
  have hf' : fdbFind (toInstant s tm) vid mac = some e := hf
  have hp : passed (toInstant s tm) (some e.at') (rf s Reg.swcFdbAge 15 0 * second) = true := (passed_since _ _).mpr ha
  have hrf : rf (toInstant s tm) Reg.swcFdbAge 15 0 = rf s Reg.swcFdbAge 15 0 := rfl
  have hage : exec (.fdbAgeOut mac vid tm) s = .next (fdbDel (toInstant s tm) vid mac) := by
    rw [he, doFdbAgeOut]
    simp [hf', hs, hrf, h0, hp]
  exact ⟨_, hage, by rw [fdbFind_fdbDel, if_pos rfl], ((toInstant_keeps s tm).mono (by decide)).trans ((sw_keeps _ _).mono (by decide))⟩

variable (hrun : hcSt s ≠ 3)
include hrun

theorem exec_fdbRead : exec .fdbRead s = .next (doFdbRead s) := congrArg _ (live_of_running _ hrun)
theorem exec_fdbDelete : exec .fdbDelete s = .next (doFdbDelete s) := congrArg _ (live_of_running _ hrun)
theorem exec_fdbWriteStatic : exec .fdbWriteStatic s = .next (doFdbWriteStatic s) := congrArg _ (live_of_running _ hrun)

theorem fdbRead_found {e : FdbEntry} (hf : fdbFind s (fdbKey s).1 (fdbKey s).2 = some e) : ∃ t, exec .fdbRead s = .next t ∧
    rd t Reg.swcFdbData = e.data ∧ rb t Reg.swcFdbStat 1 = false ∧ KeepsBut [.regs] s t := by
  have hstat := fdbStat_clockFrame (wr s Reg.swcFdbData e.data) false false
  refine ⟨fdbStat (wr s Reg.swcFdbData e.data) false false, ?_, ?_, fdbStat_notFound _ _ _, (wr_keeps _ _ _).trans hstat.keeps⟩
  · rw [exec_fdbRead hrun, doFdbRead, hf]
  · rw [hstat.rd_eq, rd_wr_self]

theorem fdbRead_missing (hf : fdbFind s (fdbKey s).1 (fdbKey s).2 = none) : ∃ t, exec .fdbRead s = .next t ∧
    rb t Reg.swcFdbStat 1 = true ∧ KeepsBut [.regs] s t := by
  refine ⟨fdbStat s true false, ?_, fdbStat_notFound _ _ _, (fdbStat_clockFrame s true false).keeps⟩
  rw [exec_fdbRead hrun, doFdbRead, hf]

/-- A delete removes exactly the entry of the key. -/
theorem fdbDelete_found {e : FdbEntry} (hf : fdbFind s (fdbKey s).1 (fdbKey s).2 = some e) : ∃ t, exec .fdbDelete s = .next t ∧
    fdbFind t (fdbKey s).1 (fdbKey s).2 = none ∧ (∀ v m, (v, m) ≠ fdbKey s → fdbFind t v m = fdbFind s v m) ∧
    KeepsBut [.regs, .sw] s t := by
  let u := if e.static then cfgDirty (fdbDel s (fdbKey s).1 (fdbKey s).2) else fdbDel s (fdbKey s).1 (fdbKey s).2
  have he : exec .fdbDelete s = .next (fdbStat u false false) := by
    rw [exec_fdbDelete hrun, doFdbDelete, hf]
  have hfind (v : BitVec 12) (m : BitVec 48) : fdbFind u v m = if (v, m) = fdbKey s then none else fdbFind s v m := by
    have h : fdbFind u v m = fdbFind (fdbDel s (fdbKey s).1 (fdbKey s).2) v m := by
      unfold u
      split <;> rfl
    rw [h, fdbFind_fdbDel]
  have hk : KeepsBut [.regs, .sw] s u := by
    have hdel : KeepsBut [.regs, .sw] s (fdbDel s (fdbKey s).1 (fdbKey s).2) := (sw_keeps _ _).mono (by decide)
    unfold u
    split
    · exact hdel.trans ((cfgDirty_keeps _).mono (by decide))
    · exact hdel
  refine ⟨_, he, ?_, fun v m hne => ?_, hk.trans ((fdbStat_clockFrame u false false).keeps.mono (by decide))⟩
  · rw [fdbFind_fdbStat, hfind, if_pos rfl]
  · rw [fdbFind_fdbStat, hfind, if_neg hne]

theorem fdbDelete_missing (hf : fdbFind s (fdbKey s).1 (fdbKey s).2 = none) : ∃ t, exec .fdbDelete s = .next t ∧
    rb t Reg.swcFdbStat 1 = true ∧ KeepsBut [.regs] s t := by
  refine ⟨fdbStat s true false, ?_, fdbStat_notFound _ _ _, (fdbStat_clockFrame s true false).keeps⟩
  rw [exec_fdbDelete hrun, doFdbDelete, hf]

/-- The static entry that the FDB registers spell. -/
def fdbStatic (s : State) : FdbEntry := ⟨(fdbKey s).1, (fdbKey s).2, rd s Reg.swcFdbData, true, 0⟩

/-- A static write replaces the entry of its key, or enters one. -/
theorem fdbWriteStatic_enters (h : fdbFind s (fdbKey s).1 (fdbKey s).2 ≠ none ∨ bucketFull s (fdbKey s).1 (fdbKey s).2 = false) :
    ∃ t, exec .fdbWriteStatic s = .next t ∧ fdbFind t (fdbKey s).1 (fdbKey s).2 = some (fdbStatic s) ∧
      (∀ v m, (v, m) ≠ fdbKey s → fdbFind t v m = fdbFind s v m) ∧ KeepsBut [.regs, .sw] s t := by
  let u := fdbPut (fdbDel s (fdbKey s).1 (fdbKey s).2) (fdbStatic s)
  have hroom : ¬ (!(fdbFind s (fdbKey s).1 (fdbKey s).2).isSome && bucketFull s (fdbKey s).1 (fdbKey s).2) = true := by
    rcases h with h | h
    · simp [Option.isSome_iff_ne_none.mpr h]
    · simp [h]
  have he : exec .fdbWriteStatic s = .next (fdbStat (cfgDirty u) false false) := by
    rw [exec_fdbWriteStatic hrun, doFdbWriteStatic, if_neg hroom]
    rfl
  have hfind (v : BitVec 12) (m : BitVec 48) : fdbFind (fdbStat (cfgDirty u) false false) v m =
      if (v, m) = fdbKey s then some (fdbStatic s) else fdbFind (fdbDel s (fdbKey s).1 (fdbKey s).2) v m := by
    rw [fdbFind_fdbStat, fdbFind_cfgDirty, fdbFind_fdbPut]
    rfl
  refine ⟨_, he, ?_, fun v m hne => ?_, ?_⟩
  · rw [hfind, if_pos rfl]
  · rw [hfind, if_neg hne, fdbFind_fdbDel, if_neg hne]
  · have hu : KeepsBut [.regs, .sw] s u := ((sw_keeps _ _).trans (sw_keeps _ _)).mono (by decide)
    exact (hu.trans ((cfgDirty_keeps u).mono (by decide))).trans ((fdbStat_clockFrame _ false false).keeps.mono (by decide))

theorem fdbWriteStatic_full (hf : fdbFind s (fdbKey s).1 (fdbKey s).2 = none) (hb : bucketFull s (fdbKey s).1 (fdbKey s).2 = true) :
    ∃ t, exec .fdbWriteStatic s = .next t ∧ rb t Reg.swcFdbStat 2 = true ∧ KeepsBut [.regs] s t := by
  refine ⟨fdbStat s false true, ?_, fdbStat_full _ _ _, (fdbStat_clockFrame s false true).keeps⟩
  rw [exec_fdbWriteStatic hrun, doFdbWriteStatic, hf, hb]
  rfl

/-- A flush keeps the static entries. -/
theorem fdbFlushLearned_keepsStatic : ∃ t, exec .fdbFlushLearned s = .next t ∧ (∀ e, e ∈ t.sw.fdb ↔ e ∈ s.sw.fdb ∧ e.static = true) ∧
    KeepsBut [.regs, .sw] s t := by
  have he : exec .fdbFlushLearned s = .next (doFdbFlushLearned s) := congrArg _ (live_of_running _ hrun)
  have hstat := fdbStat_clockFrame { s with sw := { s.sw with fdb := s.sw.fdb.filter (fun e => e.static) } } false false
  refine ⟨_, he, fun e => ?_, ((sw_keeps _ _).mono (by decide)).trans (hstat.keeps.mono (by decide))⟩
  rw [doFdbFlushLearned, hstat.sw_eq, List.mem_filter]

end

/-! ## The duplicate table (R65) -/

section
variable {s : State} (tm : Instant)

/-- An entry of the duplicate table without traffic for the forget time is forgotten. -/
theorem dupEntryForget_forgets (pair : Fin 72) (mac : BitVec 48) : ∃ t, exec (.dupEntryForget pair mac tm) s = .next t ∧
    (∀ e, e ∈ t.sw.dup ↔ e ∈ s.sw.dup ∧ ¬ (e.pair = pair ∧ e.mac = mac ∧
      e.at' + rf s Reg.colDupcfg 15 0 * msec ≤ s.op + (tm - s.now))) ∧ KeepsBut [.regs, .now, .op, .sw] s t := by
  have he : exec (.dupEntryForget pair mac tm) s = .next (doDupEntryForget pair mac tm s) := rfl
  refine ⟨_, he, fun e => ?_, ?_⟩
  · have hmem : e ∈ (doDupEntryForget pair mac tm s).sw.dup ↔ e ∈ s.sw.dup ∧ (!(e.pair == pair && e.mac == mac &&
        passed (toInstant s tm) (some e.at') (rf s Reg.colDupcfg 15 0 * msec))) = true := List.mem_filter
    rw [hmem, Bool.not_eq_true', ← Bool.not_eq_true, Bool.and_eq_true, Bool.and_eq_true, passed_since, beq_iff_eq, beq_iff_eq, and_assoc]
    rfl
  · exact ((toInstant_keeps s tm).mono (by decide)).trans (((sw_keeps _ _).mono (by decide)).trans ((wr_keeps _ _ _).mono (by decide)))

end

/-! ## VLAN entries (R70) -/

section
variable {s : State} (hrun : hcSt s ≠ 3)

/-- The VLAN entry that the VLAN registers spell. -/
def vlanSpelt (s : State) : Vlan := ⟨bitmap144 s Reg.swcVlanMem, bitmap144 s Reg.swcVlanUntag, rd s Reg.swcVlanCtl &&& 0xF⟩

theorem vlanIdx_lt : vlanIdx s < 4096 := Nat.mod_lt _ (by decide)

theorem vlanIdx_toNat : (BitVec.ofNat 12 (vlanIdx s)).toNat = vlanIdx s := Nat.mod_eq_of_lt vlanIdx_lt

/-- The two words of a VLAN entry's bitmaps written. -/
def vlanWords (e : Vlan) (i : Fin 5) (s : State) : State :=
  wr (wr s (Reg.swcVlanMem i) (W (e.mem.toNat / 2 ^ (32 * i.val)))) (Reg.swcVlanUntag i) (W (e.untag.toNat / 2 ^ (32 * i.val)))

/-- The two words of the bitmaps as the registers hold them. -/
def vlanShown (i : Fin 5) (s : State) : Word × Word := (rd s (Reg.swcVlanMem i), rd s (Reg.swcVlanUntag i))

theorem vlanShown_vlanWords (e : Vlan) (i : Fin 5) :
    vlanShown i (vlanWords e i s) = (W (e.mem.toNat / 2 ^ (32 * i.val)), W (e.untag.toNat / 2 ^ (32 * i.val))) := by
  have hne : Reg.swcVlanUntag i ≠ Reg.swcVlanMem i := by unfold Reg.swcVlanUntag Reg.swcVlanMem; omega
  rw [vlanShown, vlanWords, rd_wr_ne _ _ hne, rd_wr_self, rd_wr_self]

theorem vlanShown_other (e : Vlan) {i j : Fin 5} (h : j ≠ i) : vlanShown i (vlanWords e j s) = vlanShown i s := by
  have hv : j.val ≠ i.val := fun e => h (Fin.ext e)
  have hmm : Reg.swcVlanMem j ≠ Reg.swcVlanMem i := by unfold Reg.swcVlanMem; omega
  have huu : Reg.swcVlanUntag j ≠ Reg.swcVlanUntag i := by unfold Reg.swcVlanUntag; omega
  have hum : Reg.swcVlanUntag j ≠ Reg.swcVlanMem i := by unfold Reg.swcVlanUntag Reg.swcVlanMem; omega
  have hmu : Reg.swcVlanMem j ≠ Reg.swcVlanUntag i := by unfold Reg.swcVlanUntag Reg.swcVlanMem; omega
  rw [vlanShown, vlanWords, rd_wr_ne _ _ hum, rd_wr_ne _ _ hmm, rd_wr_ne _ _ huu, rd_wr_ne _ _ hmu, vlanShown]

/-- A VLAN entry's bitmaps shown. -/
def vlanMapsShown (s : State) (e : Vlan) : State := each 5 (fun i u => vlanWords e i u) s

theorem vlanMapsShown_keeps (e : Vlan) : KeepsBut [.regs] s (vlanMapsShown s e) :=
  each_inv (Inv := fun u => KeepsBut [.regs] s u) (fun _ _ hu => hu.trans ((wr_keeps _ _ _).trans (wr_keeps _ _ _)))
    (ClockFrame.refl (offs := [])).keeps

theorem vlanMapsShown_words (e : Vlan) (i : Fin 5) :
    vlanShown i (vlanMapsShown s e) = (W (e.mem.toNat / 2 ^ (32 * i.val)), W (e.untag.toNat / 2 ^ (32 * i.val))) := by
  obtain ⟨u, -, -, he⟩ := each_at (Inv := fun _ => True) (g := vlanShown i) (i := i) (s := s) (f := fun j u => vlanWords e j u)
    (fun _ _ _ => trivial) (fun _ _ _ hj => vlanShown_other e hj) trivial
  rw [vlanMapsShown, he, vlanShown_vlanWords]

include hrun

/-- A VLAN entry is stored as its registers spell it. -/
theorem vlanWrite_stores (h1 : 1 ≤ vlanIdx s) (h2 : vlanIdx s ≤ 4094) : ∃ t, exec .vlanWrite s = .next t ∧
    vlanOf t (BitVec.ofNat 12 (vlanIdx s)) = some (vlanSpelt s) ∧ KeepsBut [.regs, .sw] s t := by
  have hidx : ¬ (vlanIdx s = 0 ∨ 4094 < vlanIdx s) := by omega
  have he : exec .vlanWrite s =
      .next (cfgDirty { s with sw := { s.sw with vlan := Tab.put none s.sw.vlan (vlanIdx s) (some (vlanSpelt s)) } }) :=
    congrArg _ ((live_of_running doVlanWrite hrun).trans (if_neg hidx))
  refine ⟨_, he, ?_, ((sw_keeps _ _).mono (by decide)).trans ((cfgDirty_keeps _).mono (by decide))⟩
  rw [vlanOf, vlanIdx_toNat, cfgDirty, wb, wr_sw]
  exact Tab.get_put_self none s.sw.vlan (vlanIdx s) (some (vlanSpelt s))

/-- A VLAN entry reads back in its registers; an unwritten one is zeros. -/
theorem vlanRead_shows {i : Nat} (hi : i < 5) {v : Vlan} (hv : v = (vlanOf s (BitVec.ofNat 12 (vlanIdx s))).getD ⟨0, 0, 0⟩) :
    ∃ t, exec .vlanRead s = .next t ∧ rd t (Reg.swcVlanMem i) = BitVec.ofNat 32 (v.mem.toNat / 2 ^ (32 * i)) ∧
      rd t (Reg.swcVlanUntag i) = BitVec.ofNat 32 (v.untag.toNat / 2 ^ (32 * i)) ∧ rf t Reg.swcVlanCtl 3 0 = fld v.ctl 3 0 ∧
      KeepsBut [.regs] s t := by
  rw [vlanOf, vlanIdx_toNat] at hv
  have he : exec .vlanRead s = .next (wf (vlanMapsShown s v) Reg.swcVlanCtl 3 0 (fld v.ctl 3 0)) := by
    have hlive : exec .vlanRead s = .next (doVlanRead s) := congrArg _ (live_of_running _ hrun)
    rw [hlive, hv]
    rfl
  have hwords := vlanMapsShown_words (s := s) v ⟨i, hi⟩
  have hmem : rd (vlanMapsShown s v) (Reg.swcVlanMem i) = W (v.mem.toNat / 2 ^ (32 * i)) := congrArg Prod.fst hwords
  have huntag : rd (vlanMapsShown s v) (Reg.swcVlanUntag i) = W (v.untag.toNat / 2 ^ (32 * i)) := congrArg Prod.snd hwords
  refine ⟨_, he, ?_, ?_, ?_, (vlanMapsShown_keeps v).trans (wr_keeps _ _ _)⟩
  · rw [wf, rd_wr_ne _ _ (by unfold Reg.swcVlanCtl Reg.swcVlanMem; omega), hmem]
  · rw [wf, rd_wr_ne _ _ (by unfold Reg.swcVlanCtl Reg.swcVlanUntag; omega), huntag]
  · rw [rf, wf, rd_wr_self, fld_setFld _ _ (by decide) (by decide)]
    exact Nat.mod_eq_of_lt (Nat.mod_lt _ (by decide))

end

/-! ## Pair modes (R65) -/

section
variable {s : State} {i : Fin 5} {v : Word}

/-- The modes a word of COL_PAIRMODE names. -/
def pairModes (i : Fin 5) (v : Word) : List Nat := (List.range (if i = 4 then 8 else 16)).map (fun j => fld v (2 * j + 1) (2 * j))

/-- The HSR pairs there would be with a word of COL_PAIRMODE. -/
def hsrPairs (s : State) (i : Fin 5) (v : Word) : Nat :=
  ((List.finRange 72).filter (fun q => q.val / 16 ≠ i.val ∧ pairMode s q = 2)).length + ((pairModes i v).filter (· == 2)).length

theorem lastWord_iff : (i.val = 4) = (i = 4) := propext ⟨fun h => Fin.ext h, fun h => by rw [h]; rfl⟩

theorem exec_colPairmodeWrite (hrun : hcSt s ≠ 3) : exec (.colPairmodeWrite i v) s = .next
    (if 3 ∈ pairModes i v ∨ 16 < hsrPairs s i v then raise s Reg.colIrq 0
     else wrp s (Reg.colPairmode i) (if i = 4 then v &&& 0xFFFF else v)) := by
  have he : exec (.colPairmodeWrite i v) s = .next (doColPairmodeWrite i v s) := congrArg _ (live_of_running _ hrun)
  rw [he, doColPairmodeWrite]
  simp only [lastWord_iff, List.contains_iff_mem]
  rfl

theorem colPairmodeWrite_stores (hrun : hcSt s ≠ 3) (h3 : 3 ∉ pairModes i v) (hn : hsrPairs s i v ≤ 16) :
    ∃ t, exec (.colPairmodeWrite i v) s = .next t ∧ rd t (Reg.colPairmode i) = (if i = 4 then v &&& 0xFFFF else v) ∧
      KeepsBut [.regs, .recorder, .arb, .out] s t := by
  have hlow : Reg.colPairmode i < counterBase := by unfold counterBase Reg.panOptime Reg.colPairmode; omega
  obtain ⟨hrd, -, hk⟩ := wrp_spec (off := Reg.colPairmode i) s (if i = 4 then v &&& 0xFFFF else v) hlow
  have hgood : ¬ (3 ∈ pairModes i v ∨ 16 < hsrPairs s i v) := not_or.mpr ⟨h3, Nat.not_lt.mpr hn⟩
  exact ⟨_, (exec_colPairmodeWrite hrun).trans (congrArg _ (if_neg hgood)), hrd, hk.mono (by decide)⟩

end

end Sys2Proof.Machine
end

section
/-! PROOFS: the match table and the settled statement (O22). -/

namespace Sys2Proof.Machine
set_option Elab.async false

/-! ## Reading an entry (R82) -/

section
variable {s : State}

/-- The fields of an entry but its identifier shown in the key registers. -/
def keyShown (s : State) (e : MatchEntry) : State :=
  let u := wr64 s Reg.colKeyMacLo Reg.colKeyMacHi e.mac.toNat
  let u := wr u Reg.colKeyMisc (W (e.vid.toNat + 4096 * e.appid.toNat + 268435456 * b2n e.express + 536870912 * b2n e.valid))
  wr (wr u Reg.colKeyGrp (W e.grp.toNat)) Reg.colKeyIdlen (W e.id.length)

/-- A word of an entry's identifier. -/
abbrev idWord (e : MatchEntry) (k : Nat) : Word := W (leNat ((e.id.drop (4 * k)).take 4))

/-- An entry shown in the key registers. -/
def entryShown (s : State) (e : MatchEntry) : State :=
  (List.range 17).foldl (fun u k => wr u (Reg.colKeyId k) (idWord e k)) (keyShown s e)

theorem entryShown_keeps (e : MatchEntry) : KeepsBut [.regs] s (entryShown s e) :=
  .trans (((((wr_keeps _ _ _).trans (wr_keeps _ _ _)).trans (wr_keeps _ _ _)).trans (wr_keeps _ _ _)).trans (wr_keeps _ _ _))
    (foldl_wr_keeps _ _ _ _)

theorem rd_entryShown (e : MatchEntry) {off : Nat} (h : off < Reg.colKeyId 0) : rd (entryShown s e) off = rd (keyShown s e) off :=
  rd_foldl_wr_ne _ _ (fun k _ => by unfold Reg.colKeyId at *; omega) _

theorem entryShown_words (e : MatchEntry) : rd (entryShown s e) Reg.colKeyMacLo = W e.mac.toNat ∧
    rd (entryShown s e) Reg.colKeyGrp = W e.grp.toNat ∧ rd (entryShown s e) Reg.colKeyIdlen = W e.id.length := by
  refine ⟨?_, ?_, ?_⟩
  · rw [rd_entryShown _ (by decide), keyShown, rd_wr_ne _ _ (by decide), rd_wr_ne _ _ (by decide), rd_wr_ne _ _ (by decide), wr64,
      rd_wr_ne _ _ (by decide), rd_wr_self]
  · rw [rd_entryShown _ (by decide), keyShown, rd_wr_ne _ _ (by decide), rd_wr_self]
  · rw [rd_entryShown _ (by decide), keyShown, rd_wr_self]

/-- A match read shows the entry in force. -/
theorem colMatchRead_shows (hrun : hcSt s ≠ 3) (hi : matchIdx s ≤ 2559) : ∃ t, exec .colMatchRead s = .next t ∧
    rd t Reg.colKeyMacLo = BitVec.ofNat 32 (getMatch s (matchIdx s)).mac.toNat ∧
    rd t Reg.colKeyGrp = BitVec.ofNat 32 (getMatch s (matchIdx s)).grp.toNat ∧
    rd t Reg.colKeyIdlen = BitVec.ofNat 32 (getMatch s (matchIdx s)).id.length ∧ KeepsBut [.regs] s t := by
  let u := entryShown s (getMatch s (matchIdx s))
  have he : exec .colMatchRead s = .next (wb (wb u Reg.colMatchStat 1 false) Reg.colMatchStat 2
      (matchIdx s < 512 && (boundAt u (Fin.ofNat 512 (matchIdx s))).isSome)) :=
    congrArg _ ((live_of_running doColMatchRead hrun).trans (if_neg (Nat.not_lt.mpr hi)))
  obtain ⟨hmac, hgrp, hlen⟩ := entryShown_words (s := s) (getMatch s (matchIdx s))
  have hstat (b : Bool) : ClockFrame [.regs] [Reg.colMatchStat] u (wb (wb u Reg.colMatchStat 1 false) Reg.colMatchStat 2 b) :=
    (wb_clockFrame _ _ _).trans (wb_clockFrame _ _ _)
  exact ⟨_, he, ((hstat _).rd_eq).trans hmac, ((hstat _).rd_eq).trans hgrp, ((hstat _).rd_eq).trans hlen,
    (entryShown_keeps _).trans (hstat _).keeps⟩

end

/-! ## Changing an entry (R69, R82) -/

section
variable {s : State} (e : MatchEntry)

/-- Outside a grant session a change is in force at once. -/
theorem changeMatch_now (hs : s.hif.session = none) {i : Nat} : getMatch (changeMatch s i e) i = e ∧
    (∀ j, j ≠ i → getMatch (changeMatch s i e) j = getMatch s j) ∧ KeepsBut [.regs, .sw] s (changeMatch s i e) := by
  let u := wb s Reg.colMatchStat 1 false
  have hu : KeepsBut [.regs, .sw] s u := (wr_keeps _ _ _).mono (by decide)
  have hc : changeMatch s i e = cfgDirty { u with sw := { u.sw with matchTab := Tab.put .reset u.sw.matchTab i e } } := by
    have hsu : u.hif.session = none := hs
    rw [changeMatch]
    simp only [u, hsu]
  have hget (j : Nat) : getMatch (changeMatch s i e) j = if i = j then e else getMatch s j := by
    rw [hc]
    exact Tab.get_put MatchEntry.reset s.sw.matchTab i j e
  refine ⟨by rw [hget, if_pos rfl], fun j hj => by rw [hget, if_neg (Ne.symm hj)], ?_⟩
  rw [hc]
  exact hu.trans (((sw_keeps _ _).mono (by decide)).trans ((cfgDirty_keeps _).mono (by decide)))

/-- In an open grant session a change is held. -/
theorem changeMatch_held {x : Session} (hs : s.hif.session = some x) {i : Nat} :
    (changeMatch s i e).hif.session = some { x with entries := Tab.ins x.entries i e } ∧ KeepsBut [.regs, .hif] s (changeMatch s i e) := by
  let u := wb s Reg.colMatchStat 1 false
  have hu : KeepsBut [.regs, .hif] s u := (wr_keeps _ _ _).mono (by decide)
  have hc : changeMatch s i e = { u with hif := { u.hif with session := some { x with entries := Tab.ins x.entries i e } } } := by
    have hsu : u.hif.session = some x := hs
    rw [changeMatch]
    simp only [u, hsu]
  have hhif (y : Hif) : KeepsBut [.regs, .hif] u { u with hif := y } := fun q hq => by cases q <;> simp_all [Part.same]
  rw [hc]
  exact ⟨rfl, hu.trans (hhif _)⟩

/-- An SV entry is changed through a warp grant alone. -/
theorem matchAllowed (hi : matchIdx s ≤ 2559) (h : 512 ≤ matchIdx s ∨ svSession s = true) :
    ¬ (2559 < matchIdx s ∨ (matchIdx s < 512 ∧ !svSession s)) := by
  rintro (h1 | ⟨h1, h2⟩)
  · omega
  · rcases h with h | h
    · omega
    · simp [h] at h2

variable (hrun : hcSt s ≠ 3)
include hrun

theorem exec_colMatchWrite : exec .colMatchWrite s = .next
    (if 2559 < matchIdx s ∨ (matchIdx s < 512 ∧ !svSession s) ∨ macsecForbids s (matchIdx s) (keyEntry s (512 ≤ matchIdx s))
     then matchRej s else changeMatch s (matchIdx s) (keyEntry s (512 ≤ matchIdx s))) :=
  congrArg _ (live_of_running _ hrun)

theorem exec_colMatchInvalidate : exec .colMatchInvalidate s = .next
    (if 2559 < matchIdx s ∨ (matchIdx s < 512 ∧ !svSession s) then matchRej s
     else changeMatch s (matchIdx s) { heldMatch s (matchIdx s) with valid := false }) :=
  congrArg _ (live_of_running _ hrun)

theorem colMatchWrite_allowed (hi : matchIdx s ≤ 2559) (h : 512 ≤ matchIdx s ∨ svSession s = true)
    (hm : macsecForbids s (matchIdx s) (keyEntry s (512 ≤ matchIdx s)) = false) :
    exec .colMatchWrite s = .next (changeMatch s (matchIdx s) (keyEntry s (512 ≤ matchIdx s))) := by
  have hok := matchAllowed hi h
  rw [exec_colMatchWrite hrun, if_neg]
  rw [hm, ← or_assoc]
  simpa using hok

theorem colMatchInvalidate_allowed (hi : matchIdx s ≤ 2559) (h : 512 ≤ matchIdx s ∨ svSession s = true) :
    exec .colMatchInvalidate s = .next (changeMatch s (matchIdx s) { heldMatch s (matchIdx s) with valid := false }) := by
  rw [exec_colMatchInvalidate hrun, if_neg (matchAllowed hi h)]

/-- A GOOSE entry outside a grant session. -/
theorem gooseMatch_now (hl : 512 ≤ matchIdx s) (hi : matchIdx s ≤ 2559) (hs : s.hif.session = none) :
    (∃ t, exec .colMatchWrite s = .next t ∧ getMatch t (matchIdx s) = keyEntry s true ∧
      (∀ j, j ≠ matchIdx s → getMatch t j = getMatch s j) ∧ KeepsBut [.regs, .sw] s t) ∧
    (∃ t, exec .colMatchInvalidate s = .next t ∧ getMatch t (matchIdx s) = { getMatch s (matchIdx s) with valid := false } ∧
      (∀ j, j ≠ matchIdx s → getMatch t j = getMatch s j) ∧ KeepsBut [.regs, .sw] s t) := by
  have hgoose : decide (512 ≤ matchIdx s) = true := decide_eq_true hl
  have hm : macsecForbids s (matchIdx s) (keyEntry s (512 ≤ matchIdx s)) = false := by
    simp [macsecForbids, Nat.not_lt.mpr hl]
  have hheld : heldMatch s (matchIdx s) = getMatch s (matchIdx s) := by rw [heldMatch, hs]
  refine ⟨⟨_, colMatchWrite_allowed hrun hi (.inl hl) hm, ?_⟩, ⟨_, colMatchInvalidate_allowed hrun hi (.inl hl), ?_⟩⟩
  · rw [hgoose]
    exact changeMatch_now _ hs
  · rw [hheld]
    exact changeMatch_now _ hs

/-- An entry in an open grant session, an SV one in a warp's. -/
theorem match_held {x : Session} (hs : s.hif.session = some x) (hi : matchIdx s ≤ 2559) (hk : 512 ≤ matchIdx s ∨ x.kind = 0) :
    (macsecForbids s (matchIdx s) (keyEntry s (512 ≤ matchIdx s)) = false → ∃ t, exec .colMatchWrite s = .next t ∧
      t.hif.session = some { x with entries := Tab.ins x.entries (matchIdx s) (keyEntry s (512 ≤ matchIdx s)) } ∧
      KeepsBut [.regs, .hif] s t) ∧
    (∃ t, exec .colMatchInvalidate s = .next t ∧
      t.hif.session = some { x with entries := Tab.ins x.entries (matchIdx s) { heldMatch s (matchIdx s) with valid := false } } ∧
      KeepsBut [.regs, .hif] s t) := by
  have hsv : 512 ≤ matchIdx s ∨ svSession s = true := hk.imp id fun h => by simp [svSession, hs, h]
  exact ⟨fun hm => ⟨_, colMatchWrite_allowed hrun hi hsv hm, changeMatch_held _ hs⟩,
    ⟨_, colMatchInvalidate_allowed hrun hi hsv, changeMatch_held _ hs⟩⟩

/-- An SV entry outside a warp grant. -/
theorem svMatch_refused (hl : matchIdx s < 512) (hs : ∀ x, s.hif.session = some x → x.kind ≠ 0) :
    exec .colMatchWrite s = .next (raise (wb s Reg.colMatchStat 1 true) Reg.colIrq 0) ∧
    exec .colMatchInvalidate s = .next (raise (wb s Reg.colMatchStat 1 true) Reg.colIrq 0) := by
  have hsv : (!svSession s) = true := by
    rw [svSession]
    cases hx : s.hif.session with
    | none => rfl
    | some x => simpa using hs x hx
  refine ⟨?_, ?_⟩
  · rw [exec_colMatchWrite hrun, if_pos (.inr (.inl ⟨hl, hsv⟩)), matchRej]
  · rw [exec_colMatchInvalidate hrun, if_pos (.inr ⟨hl, hsv⟩), matchRej]

end

/-- Settles O22: each command is the lemma of its case; `fdbFind_fdbDel` and `Tab.get_put` say that no other entry changes. -/
theorem forwardingAndMatchTables : Obligations.ForwardingAndMatchTables := by
  unfold Obligations.ForwardingAndMatchTables
  intro s tm
  refine ⟨fun mac vid e h0 hf hs ha => fdbAgeOut_removes tm h0 hf hs ha, dupEntryForget_forgets tm, fun hrun =>
    ⟨fun e hf => ⟨fdbRead_found hrun hf, fdbDelete_found hrun hf⟩, fun hf => ⟨fdbRead_missing hrun hf, fdbDelete_missing hrun hf⟩,
      fdbWriteStatic_enters hrun, fdbWriteStatic_full hrun, fdbFlushLearned_keepsStatic hrun, vlanWrite_stores hrun,
      fun i hi => vlanRead_shows hrun hi rfl, fun i v => ⟨fun h => ?_, colPairmodeWrite_stores hrun⟩, colMatchRead_shows hrun,
      gooseMatch_now hrun, fun x hs hi hk => match_held hrun hs hi hk, svMatch_refused hrun⟩⟩
  exact (exec_colPairmodeWrite hrun).trans (congrArg _ (if_pos h))

end Sys2Proof.Machine
end

section
/-! PROOFS: tag verdicts, loopback ASDUs, the expiry of a subscription, and frames that go no further (O23). -/

namespace Sys2Proof

/-- What holds of the unlisted entry and of every entry's image holds of a lookup in the images. -/
theorem Tab.get_map_of {α β : Type} {P : β → Prop} {d : β} {g : α → β} (hd : P d) (hg : ∀ x, P (g x)) (t : Tab α) (k : Nat) :
    P (Tab.get d (t.map (fun e => (e.1, g e.2))) k) := by
  induction t with
  | nil => exact hd
  | cons e t ih =>
    rw [List.map_cons, Tab.get_cons]
    split
    · exact hg _
    · exact ih

end Sys2Proof

namespace Sys2Proof.Machine
set_option Elab.async false

/-! ## The end of a tag check (R169, R170) -/

/-- A placed sample after the verdict of check c: it waits for that check no more. -/
def sampleSettled (c : Nat) (z : Sample) : Sample := if z.chk == some c then { z with chk := none } else z

theorem sampleSettled_chk (c : Nat) (z : Sample) : (sampleSettled c z).chk ≠ some c := by
  unfold sampleSettled
  split
  · exact nofun
  · simpa using ‹¬ (z.chk == some c) = true›

/-- An open row after the verdict of check c: a failure takes the samples of its frame out. -/
def rowSettled (c : Nat) (pass : Bool) (e : Tab (Option Sample)) : Tab (Option Sample) :=
  (e.filter (fun y => pass || !(match y.2 with | some z => z.chk == some c | none => false))).map
    (fun y => (y.1, y.2.map (sampleSettled c)))

/-- The verdict kept, the check ended, and nothing waiting for it. -/
def checkEnded (s : State) (c : Nat) (pass : Bool) : State :=
  let u := { s with sw := { s.sw with checks := s.sw.checks.filter (fun y => y.id != c) } }
  let u := modHdl u (fun h => { h with verdict := (c, pass) :: h.verdict })
  let u := modLoom u (fun l => { l with openRows := l.openRows.map (fun e => (e.1, rowSettled c pass e.2)) })
  modHdl u (fun h => { h with acted := h.acted.filter (fun r => r.deciding != c) })

/-- A failure counted at the unit its check names. -/
def failureCounted (s : State) (u : Option Nat) : State :=
  match u with
  | some k => raise (bump s (Reg.hdlUAuthfail k)) (Reg.hdlUIrq k) 6
  | none => s

section
variable {s : State} {c : Nat} {x : TagCheck} {rest : List TagCheck}

theorem checkEnded_row (pass : Bool) (n : Nat) (w : Fin 512) (z : Sample) (h : rowSlot (checkEnded s c pass) n w = some z) :
    z.chk ≠ some c := by
  have hsample (y : Option Sample) : ∀ z, y.map (sampleSettled c) = some z → z.chk ≠ some c := by
    intro z hz
    obtain ⟨a, -, rfl⟩ := Option.map_eq_some_iff.mp hz
    exact sampleSettled_chk c a
  have hunlisted : ∀ z, (none : Option Sample) = some z → z.chk ≠ some c := fun z hz => by cases hz
  have hrow (e : Tab (Option Sample)) : ∀ z, Tab.get none (rowSettled c pass e) w = some z → z.chk ≠ some c :=
    Tab.get_map_of (P := fun y : Option Sample => ∀ z, y = some z → z.chk ≠ some c) hunlisted hsample _ _
  exact Tab.get_map_of (P := fun e => ∀ z, Tab.get none e w = some z → z.chk ≠ some c) hunlisted hrow
    s.loom.openRows n z h

theorem checkEnded_keeps (pass : Bool) : KeepsBut [.sw, .loom, .hdl] s (checkEnded s c pass) :=
  ((((sw_frame _).trans (modHdl_frame _)).trans (modLoom_frame _)).trans (modHdl_frame _) : Frame [.sw, .loom, .hdl] 0 s _).keeps

theorem checkEnded_checks (pass : Bool) (h : s.sw.checks = x :: rest) (hx : x.id = c) (hr : ∀ y ∈ rest, y.id ≠ c) :
    (checkEnded s c pass).sw.checks = rest := by
  have hf : (checkEnded s c pass).sw.checks = s.sw.checks.filter (fun y => y.id != c) := rfl
  rw [hf, h, List.filter_cons_of_neg (by simp [hx]), List.filter_eq_self.mpr fun y hy => by simpa using hr y hy]

theorem checkEnded_verdict (pass : Bool) : verdictOf (checkEnded s c pass) c = some pass := by
  have hv : (checkEnded s c pass).hdl.verdict = (c, pass) :: s.hdl.verdict := rfl
  rw [verdictOf, hv, List.find?_cons_of_pos (by simp)]
  rfl

theorem failureCounted_same (u : Option Nat) : SameButRegs s (failureCounted s u) := by
  cases u with
  | none => exact .refl s
  | some k => exact (bump_same s _ _).trans (raise_same _ _ _)

theorem failureCounted_rd (u : Fin 17) :
    rd (failureCounted s (some u.val)) (Reg.hdlUAuthfail u) = rd s (Reg.hdlUAuthfail u) + 1 := by
  have hne : Reg.hdlUIrq u ≠ Reg.hdlUAuthfail u := by unfold Reg.hdlUIrq Reg.hdlUAuthfail; omega
  rw [failureCounted, rd_raise_ne _ _ hne, bump, rd_wr_self]
  rfl

theorem exec_tagVerdict (h : s.sw.checks = x :: rest) (hx : x.id = c) (ha : ∀ r ∈ s.hdl.acted, r.deciding ≠ c) :
    exec (.tagVerdict c) s = .next (if x.ok then checkEnded s c x.ok else failureCounted (checkEnded s c x.ok) x.unit) := by
  have he : exec (.tagVerdict c) s = .next (doTagVerdict c s) := rfl
  have hfind : s.sw.checks.find? (fun y => y.id == c) = some x := by rw [h, List.find?_cons_of_pos (by simp [hx])]
  have hdue : s.hdl.acted.filter (fun r => r.deciding == c) = [] := List.filter_eq_nil_iff.mpr fun r hr => by simpa using ha r hr
  have heq : doTagVerdict c s = if x.ok then checkEnded s c x.ok
      else (s.hdl.acted.filter (fun r => r.deciding == c)).foldl atvFail (failureCounted (checkEnded s c x.ok) x.unit) := by
    rw [doTagVerdict, hfind]
    rfl
  rw [he, heq, hdue]
  rfl

/-- A verdict is kept, its check ends, no sample of an open row waits for it, and a failure is counted at the unit the check names. -/
theorem tagVerdict_ends (h : s.sw.checks = x :: rest) (hx : x.id = c) (hr : ∀ y ∈ rest, y.id ≠ c)
    (ha : ∀ r ∈ s.hdl.acted, r.deciding ≠ c) : ∃ t, exec (.tagVerdict c) s = .next t ∧ t.sw.checks = rest ∧ verdictOf t c = some x.ok ∧
      (∀ n w z, rowSlot t n w = some z → z.chk ≠ some c) ∧
      (∀ u : Fin 17, x.ok = false → x.unit = some u.val → rd t (Reg.hdlUAuthfail u) = rd s (Reg.hdlUAuthfail u) + 1) ∧
      (x.unit = none → t.regs = s.regs) ∧ KeepsBut [.regs, .sw, .loom, .hdl, .out] s t := by
  have hk : KeepsBut [.regs, .sw, .loom, .hdl, .out] s (checkEnded s c x.ok) := (checkEnded_keeps x.ok).mono (by decide)
  have hchecks := checkEnded_checks x.ok h hx hr
  have hverdict := checkEnded_verdict (s := s) (c := c) x.ok
  have hrow := checkEnded_row (s := s) (c := c) x.ok
  refine ⟨_, exec_tagVerdict h hx ha, ?_⟩
  split
  case isTrue hok => exact ⟨hchecks, hverdict, hrow, fun u hf => absurd (hok.symm.trans hf) nofun, fun _ => rfl, hk⟩
  case isFalse =>
    have hcount := (failureCounted_same (s := checkEnded s c x.ok) x.unit).keeps
    have hsw : (failureCounted (checkEnded s c x.ok) x.unit).sw = (checkEnded s c x.ok).sw := hcount .sw (by decide)
    have hhdl : (failureCounted (checkEnded s c x.ok) x.unit).hdl = (checkEnded s c x.ok).hdl := hcount .hdl (by decide)
    have hloom : (failureCounted (checkEnded s c x.ok) x.unit).loom = (checkEnded s c x.ok).loom := hcount .loom (by decide)
    refine ⟨by rw [hsw, hchecks], by rw [verdictOf, hhdl, ← verdictOf, hverdict], fun n w z hz => ?_, fun u _ hu => ?_, fun hu => ?_,
      hk.trans (hcount.mono (by decide))⟩
    · rw [rowSlot, hloom, ← rowSlot] at hz
      exact hrow n w z hz
    · rw [hu, failureCounted_rd]
      rfl
    · rw [hu]
      rfl

end

/-! ## Loopback ASDUs (R106, R107) -/

section
variable {s : State}

/-- The oldest playback ASDU taken from the queue. -/
def loopTaken (s : State) (rest : List (Nat × Nat × Bool × SvAsdu × Instant)) : State := { s with loom := { s.loom with pbLoop := rest } }

theorem exec_loopbackAsdu (hrun : hcSt s ≠ 3) {stream w : Fin 512} {sim : Bool} {a : SvAsdu} {ts : Instant}
    {rest : List (Nat × Nat × Bool × SvAsdu × Instant)} (h : s.loom.pbLoop = (stream.val, w.val, sim, a, ts) :: rest) :
    exec (.loopbackAsdu stream) s = .next (if a.dsLen ≠ 8 * (warpCfg s w).nvals
      then raise (bump (loopTaken s rest) Reg.colMalformed) Reg.colIrq 2 else deliverAsdu (loopTaken s rest) w 0 sim a ts true none) := by
  have he : exec (.loopbackAsdu stream) s = .next (doLoopbackAsdu stream s) := congrArg _ (live_of_running _ hrun)
  have hfind : s.loom.pbLoop.find? (fun e => e.1 == stream.val) = some (stream.val, w.val, sim, a, ts) := by
    rw [h, List.find?_cons_of_pos (by simp)]
  have hrest : s.loom.pbLoop.eraseP (fun x => x.1 == stream.val) = rest := by
    rw [h, List.eraseP_cons_of_pos (by simp)]
  have hw : Fin.ofNat 512 w.val = w := Fin.ofNat_val_eq_self w
  rw [he, doLoopbackAsdu, hfind]
  dsimp only
  rw [modLoom, hrest, hw]
  rfl

end

/-! ## Subscriptions (R193) -/

section
variable {s t : State}

theorem getSub_congr (h : t.sw.sub = s.sw.sub) (g : Fin 2048) : getSub t g = getSub s g := by rw [getSub, h, getSub]

theorem setSub_frame {ps : List Part} {n : Nat} (g : Fin 2048) (x : GooseSub) (hp : .sw ∈ ps := by decide) : Frame ps n s (setSub s g x) :=
  sw_frame _ hp

theorem gooseTalExpiry_expires (tm : Instant) {g : Fin 2048} (hv : (getSub s g).valid = true)
    (hu : (getSub s g).until' ≤ s.op + (tm - s.now)) : ∃ t, exec (.gooseTalExpiry g tm) s = .next t ∧
      getSub t g = { getSub s g with valid := false, expired := true } ∧ (∀ h, h ≠ g → getSub t h = getSub s h) ∧
      KeepsBut [.now, .op, .sw] s t := by
  have he : exec (.gooseTalExpiry g tm) s = .next (setSub (toInstant s tm) g { getSub s g with valid := false, expired := true }) := by
    have hc : ((getSub (toInstant s tm) g).valid && decide ((getSub (toInstant s tm) g).until' ≤ (toInstant s tm).op)) = true := by
      rw [Bool.and_eq_true, decide_eq_true_eq]
      exact ⟨hv, hu⟩
    exact congrArg _ (if_pos hc)
  refine ⟨_, he, getSub_setSub_self _ _ _, fun h hh => ?_, ?_⟩
  · rw [getSub_setSub, if_neg (Ne.symm hh)]
    rfl
  · exact (((toInstant_frame tm).trans (setSub_frame g _)) : Frame [.now, .op, .sw] 0 s _).keeps

end

end Sys2Proof.Machine
end

section
/-! PROOFS: received frames and the settled statement (O23). -/

namespace Sys2Proof.Machine
set_option Elab.async false

/-! ## Frames that go no further (R60, R63, R77) -/

/-- The longest frame a port takes. -/
def longest (s : State) (p : Fin 144) : Nat := if rb s (Reg.swcPCfg p) 5 then 9216 else 1522

/-- A frame of a length the port takes, without an error of its own. -/
def GoodFrame (s : State) (p : Fin 144) (f : Sys2Proof.Frame) : Prop :=
  64 ≤ f.len ∧ f.len ≤ longest s p ∧ f.fcsErr = false ∧ f.symErr = false

section
variable {s : State} {p : Fin 144} {f : Sys2Proof.Frame}

theorem exec_frameReceive (tm : Instant) (hrun : hcSt s ≠ 3) : exec (.frameReceive p f tm) s =
    .next (if pState s p = 4 then toInstant s tm else receive (toInstant s tm) p f) := congrArg _ (live_of_running _ hrun)

theorem longest_ge : 64 ≤ longest s p := by
  unfold longest
  split <;> decide

theorem receive_down (h : pState s p < 2) : receive s p f = s := if_pos h

theorem receive_short (h : 2 ≤ pState s p) (hl : f.len < 64) : receive s p f = count s p 33 :=
  (if_neg (Nat.not_lt.mpr h)).trans (if_pos hl)

theorem receive_long (h : 2 ≤ pState s p) (hl : longest s p < f.len) : receive s p f = count s p 34 := by
  have h64 := longest_ge (s := s) (p := p)
  exact (if_neg (Nat.not_lt.mpr h)).trans ((if_neg (by omega)).trans (if_pos hl))

/-- What follows the checks of a frame's length and errors. -/
theorem receive_good (h : 2 ≤ pState s p) (hg : GoodFrame s p f) : receive s p f =
    if pState s p = 3 then count s p 44 else if f.reasmErr then count s p 36 else
    match f.body with
    | .verify => if rb s (Reg.swcPCfg p) 6 && pState s p == 2 then sendVerify s p .respond else s
    | .respond => doVerifyResponse p s
    | _ =>
      match f.body with
      | .pfc en quanta => pfc (countFrame s p 0 f) p en quanta
      | .pause quanta => pauseAll (countFrame s p 0 f) p quanta
      | _ => match macsecIn (countFrame s p 0 f) p f with
        | (some f, s) => colander s p f
        | (none, s) => s := by
  obtain ⟨hmin, hmax, hfcs, hsym⟩ := hg
  have hmax' : ¬ (if rb s (Reg.swcPCfg p) 5 then 9216 else 1522) < f.len := Nat.not_lt.mpr hmax
  rw [receive]
  simp only [if_neg (Nat.not_lt.mpr h), if_neg (Nat.not_lt.mpr hmin), if_neg hmax', hfcs, hsym, Bool.false_eq_true, if_false] <;> rfl

end

/-! ## Pause (R76) -/

section
variable {s : State} {p : Fin 144}

/-- Updates of one port, one after another: that port takes them all, and no other port any. -/
theorem foldl_modPort (g : Nat → Port → Port) (l : List Nat) (s : State) (q : Fin 144) :
    getPort (l.foldl (fun u i => modPort u p (g i)) s) q = if p = q then l.foldl (fun x i => g i x) (getPort s p) else getPort s q := by
  induction l generalizing s with
  | nil =>
    split
    · subst_vars; rfl
    · rfl
  | cons i l ih =>
    rw [List.foldl_cons, ih, getPort_modPort_self, getPort_modPort, List.foldl_cons]
    split <;> rfl

/-- The pause bits after a pause of one class. -/
def classPaused (quanta : Nat) (b : BitVec 5) (tc : Nat) : BitVec 5 :=
  if quanta = 0 then b &&& ~~~(BitVec.ofNat 5 (2 ^ tc)) else b ||| BitVec.ofNat 5 (2 ^ tc)

theorem foldl_paused (quanta : Nat) (l : List Nat) (x : Port) :
    l.foldl (fun x i => { x with paused := classPaused quanta x.paused i }) x =
      { x with paused := l.foldl (classPaused quanta) x.paused } := by
  induction l generalizing x with
  | nil => rfl
  | cons i l ih => rw [List.foldl_cons, ih, List.foldl_cons]

/-- The pause of TC0 to TC4 sets or clears all five bits. -/
theorem classesPaused (quanta : Nat) (b : BitVec 5) : (List.range 5).foldl (classPaused quanta) b = if quanta = 0 then 0 else 31 := by
  by_cases h : quanta = 0
  · subst h
    revert b
    decide
  · have hp : classPaused quanta = classPaused 1 := by
      funext b tc
      rw [classPaused, if_neg h, classPaused, if_neg (by decide)]
    rw [hp, if_neg h]
    revert b
    decide

theorem pauseAll_eq (quanta : Nat) : pauseAll s p quanta =
    (List.range 5).foldl (fun u i => modPort u p (fun x => { x with paused := classPaused quanta x.paused i })) (count s p 15) := rfl

theorem pauseAll_port (quanta : Nat) (q : Fin 144) : getPort (pauseAll s p quanta) q =
    if p = q then { advanced 15 1 (getPort s p) with paused := if quanta = 0 then 0 else 31 } else getPort s q := by
  rw [pauseAll_eq, foldl_modPort, getPort_count, getPort_count, if_pos rfl, foldl_paused, classesPaused]
  split <;> rfl

theorem pauseAll_clockFrame (quanta : Nat) : ClockFrame [.regs, .port, .out] switchRegs s (pauseAll s p quanta) := by
  rw [pauseAll_eq]
  exact (count_clockFrame s p 15 1).trans (.foldl (fun u i => .of_frame (modPort_frame p _)) _ _)

theorem getPort_countFrame_ne (base : Nat) (f : Sys2Proof.Frame) {q : Fin 144} (h : q ≠ p) :
    getPort (countFrame s p base f) q = getPort s q := by
  have hc (u : State) (i n : Nat) : getPort (count u p i n) q = getPort u q := by rw [getPort_count, if_neg (Ne.symm h)]
  rw [countFrame, hc, hc, hc, hc]

/-- A pause that reaches an Up port sets or clears the pause of TC0 to TC4. -/
theorem frameReceive_pause (tm : Instant) (hrun : hcSt s ≠ 3) {f : Sys2Proof.Frame} {quanta : Nat} (hst : pState s p = 2)
    (hg : GoodFrame s p f) (hr : f.reasmErr = false) (hb : f.body = .pause quanta) : ∃ t, exec (.frameReceive p f tm) s = .next t ∧
      (getPort t p).paused = (if quanta = 0 then 0 else 31) ∧ (∀ q, q ≠ p → getPort t q = getPort s q) ∧
      KeepsBut [.regs, .now, .op, .port, .out] s t := by
  have hst' : pState (toInstant s tm) p = 2 := hst
  have he : exec (.frameReceive p f tm) s = .next (pauseAll (countFrame (toInstant s tm) p 0 f) p quanta) := by
    rw [exec_frameReceive tm hrun, hst, if_neg (by decide), receive_good (s := toInstant s tm) hst'.ge hg, hst', hr, hb]
    rfl
  refine ⟨_, he, ?_, fun q hq => ?_, ?_⟩
  · rw [pauseAll_port, if_pos rfl]
  · rw [pauseAll_port, if_neg (Ne.symm hq), getPort_countFrame_ne _ _ hq]
    rfl
  · exact ((toInstant_keeps s tm).mono (by decide)).trans
      (((countFrame_clockFrame _ p 0 f).trans (pauseAll_clockFrame quanta)).keeps.mono (by decide))

end

/-! ## Matching (R66) and tags (R298), seen after counting -/

section
variable {ps : List Part} {s t : State} (h : ClockFrame ps switchRegs s t)
include h

theorem colander_rd {off : Nat} (hl : 0x500000 ≤ off) (hh : off < counterBase) : rd t off = rd s off := h.rd_eq (colReg_kept hl) hh

theorem logical_congr (p : Fin 144) : logical t p = logical s p := by rw [logical, pairMode_congr h, logical]

theorem inGroup_congr {g : Nat} (hg : g < 64) (q : Fin 144) : inGroup t g q = inGroup s g q := by
  have hp : rd t (Reg.colPgrp g (q / 32)) = rd s (Reg.colPgrp g (q / 32)) :=
    colander_rd h (by unfold Reg.colPgrp; omega) (by unfold counterBase Reg.panOptime Reg.colPgrp; omega)
  have hx : rd t (Reg.colPgrpx g) = rd s (Reg.colPgrpx g) :=
    colander_rd h (by unfold Reg.colPgrpx; omega) (by unfold counterBase Reg.panOptime Reg.colPgrpx; omega)
  rw [inGroup, rb_congr hp, rb_congr hx, inGroup]

theorem entriesFor_congr (hs : t.sw = s.sw) (p : Fin 144) (f : Sys2Proof.Frame) (vid : BitVec 12) (appid : Nat)
    (id : Option (List Byte)) (lo hi : Nat) : entriesFor t p f vid appid id lo hi = entriesFor s p f vid appid id lo hi := by
  have hin (e : MatchEntry) : inEntry t e p = inEntry s e p := by
    have hg : inGroup t e.grp.toNat = inGroup s e.grp.toNat := funext fun q => inGroup_congr h e.grp.isLt q
    rw [inEntry, logical_congr h, hg, inEntry]
  simp only [entriesFor, hs, hin]

theorem frameVid_congr (p : Fin 144) (f : Sys2Proof.Frame) : frameVid t p f = frameVid s p f := by
  have hr : rd t (Reg.swcPPvid p) = rd s (Reg.swcPPvid p) := h.rd_eq (swcPPvid_kept p) (portReg_low (by unfold Reg.swcPPvid; omega))
  rw [frameVid, rf, hr]
  rfl

theorem tagOk_congr (hks : t.ks = s.ks) (kind obj : Nat) (tag : Option SecTag) : tagOk t kind obj tag = tagOk s kind obj tag := by
  have hslot (i : Nat) : ksSlot t i = ksSlot s i := by rw [ksSlot, hks, ksSlot]
  have hbind : binding t kind obj = binding s kind obj := by rw [binding, hks, binding]
  have hkey : keyless t = keyless s := rb_congr (colander_rd h (by decide) (by decide)) 1
  simp only [tagOk, hslot, hbind, hkey]

end

/-! ## Subscriptions in the switch core (R74, R193) -/

/-- No subscription changes. -/
def SubsKept (s t : State) : Prop := t.sw.sub = s.sw.sub

namespace SubsKept
variable {s t u : State}

theorem trans (h : SubsKept s t) (k : SubsKept t u) : SubsKept s u := Eq.trans k h

theorem of_sw (h : t.sw = s.sw) : SubsKept s t := congrArg Switch.sub h

theorem of_frame {ps : List Part} {n : Nat} (h : Frame ps n s t) (hp : .sw ∉ ps := by decide) : SubsKept s t := of_sw (h.keeps .sw hp)

theorem ite {c : Prop} [Decidable c] {a b : State} (ha : SubsKept s a) (hb : SubsKept s b) : SubsKept s (if c then a else b) := by
  split
  · exact ha
  · exact hb

theorem foldl {α : Type} {f : State → α → State} (h : ∀ t a, SubsKept t (f t a)) (l : List α) (s : State) : SubsKept s (l.foldl f s) :=
  List.foldlRecOn l f rfl fun t ht a _ => SubsKept.trans ht (h t a)

end SubsKept

section
variable (s : State)

theorem pauseCheck_subs : SubsKept s (pauseCheck s) := by
  obtain ⟨b, h⟩ := pauseCheck_sw s
  rw [SubsKept, h]

theorem askFree_subs (port core accesses : Nat) : SubsKept s (askFree s port core accesses) :=
  .of_frame (askFree_frame (n := 0) s port core accesses)

theorem foldl_modPort_subs (g : State → Fin 144 → Port → Port) (l : List (Fin 144)) :
    SubsKept s (l.foldl (fun u p => modPort u p (g u p)) s) :=
  .foldl (fun _ p => .of_frame (modPort_frame (ps := [.port]) (n := 0) p _)) l s

theorem takeIn_subs (f : Sys2Proof.Frame) (tags : Tab (Option (BitVec 16))) (ring : Option (Fin 144 × Sys2Proof.Frame)) (tc : Nat)
    (targets : List (Fin 144)) (inPort : Option (Fin 144)) : SubsKept s (takeIn s f tags ring tc targets inPort) := by
  unfold takeIn
  extract_lets drop spill s1 id put done sw asked cells use lost s2
  have hdrop (v : State) : SubsKept v (drop v) := by
    cases inPort with
    | none => exact rfl
    | some p => exact .of_sw (count_clockFrame v p _ 1).sw_eq
  have hput (v : State) (ddr : Bool) (cells : Nat) : SubsKept v (put v ddr cells) := foldl_modPort_subs _ _ targets
  have h1 : SubsKept s s1 := .ite rfl (foldl_modPort_subs s _ targets)
  have hraise : SubsKept s1 (raise s1 Reg.swcIrq 5) := .of_sw (raise_clockFrame Reg.swcIrq 5).sw_eq
  have hasked : SubsKept s1 asked := askFree_subs _ 1 0 _
  refine .ite rfl (.ite (.ite ((h1.trans hraise).trans (hdrop _)) (.ite (h1.trans (hdrop _)) ?_)) (.ite (h1.trans (hdrop _)) ?_))
  · exact ((h1.trans hasked).trans (hput _ _ _)).trans (pauseCheck_subs _)
  · exact h1.trans (hput _ _ _)

theorem advancePairs_subs (ports : List (Fin 144)) : SubsKept s (advancePairs s ports) := by
  refine SubsKept.foldl (fun u k => ?_) _ s
  split <;> rfl

theorem forward_subs (p : Fin 144) (f g : Sys2Proof.Frame) (tc : Nat) (ts : List (Fin 144)) (ring : Bool) :
    SubsKept s (forward s p f g tc ts ring) := (takeIn_subs s _ _ _ _ _ _).trans (advancePairs_subs _ _)

theorem forward_frame (p : Fin 144) (f g : Sys2Proof.Frame) (tc : Nat) (ts : List (Fin 144)) (ring : Bool) :
    Frame switchParts 0 s (forward s p f g tc ts ring) :=
  (takeIn_frame s _ _ _ _ _ _).trans (advancePairs_frame _ _ (n := 0)).widen

/-- Learning a source changes the forwarding table, or counts a full bucket. -/
theorem learn_spec (p : Fin 144) (vid : BitVec 12) (src : BitVec 48) :
    SubsKept s (learn s p vid src) ∧ Frame [.regs, .sw, .out] 0 s (learn s p vid src) := by
  unfold learn
  split
  · exact ⟨rfl, .refl⟩
  · split
    · split
      · exact ⟨rfl, .refl⟩
      · exact ⟨rfl, sw_frame _⟩
    · split
      · exact ⟨rfl, wf_frame _ _ _ (Nat.zero_le _)⟩
      · exact ⟨rfl, sw_frame _⟩

end

/-! ## GOOSE (R63, R66, R169, R193) -/

section
variable {s : State} {p : Fin 144} {f : Sys2Proof.Frame} {appid : Nat} {m : GooseMsg}

/-- A subscription after a message whose tag passes. -/
def messageTaken (op : Instant) (m : GooseMsg) (x : GooseSub) : GooseSub :=
  { x with valid := true, until' := op + m.talMs * msec, expired := false, test := m.test, sim := m.sim, ndsCom := m.ndsCom, tagFail := false,
           changes := if x.seen && x.stNum != m.stNum then min 255 (x.changes + 1) else x.changes, stNum := m.stNum, sqNum := m.sqNum,
           seen := true, members := m.members.map GooseVal.toWord }

theorem gooseSub_passes {g : Fin 2048} (h : tagOk s 2 g f.tag = true) :
    gooseSub s g f m = setSub s g (messageTaken s.op m (getSub s g)) := by
  rw [gooseSub, h]
  rfl

/-- A GOOSE frame that only one subscription's entry matches is that subscription's message. -/
theorem gooseFrame_single {g : Fin 2048} {other : Bool}
    (hm : entriesFor s p f (frameVid s p f) appid (some m.goCbRef) 512 2560 = ([512 + g.val], other)) (ht : tagOk s 2 g f.tag = true) :
    ∃ express, gooseFrame s p f appid true m =
      (express, setSub (count s p 13) g (messageTaken s.op m (getSub s g))) := by
  have hc := count_clockFrame s p 13 1
  have hm' : entriesFor (count s p 13) p f (frameVid (count s p 13) p f) appid (some m.goCbRef) 512 2560 = ([512 + g.val], other) := by
    rw [entriesFor_congr hc hc.sw_eq, frameVid_congr hc, hm]
  have hg : Fin.ofNat 2048 (512 + g.val - 512) = g := by
    rw [Nat.add_sub_cancel_left]
    exact Fin.ofNat_val_eq_self g
  have ht' : tagOk (count s p 13) 2 g f.tag = true := (tagOk_congr hc (hc.keeps .ks (by decide)) 2 g f.tag).trans ht
  have hsub : gooseSub (count s p 13) g f m = setSub (count s p 13) g (messageTaken s.op m (getSub s g)) := by
    rw [gooseSub_passes ht', hc.op_eq, getSub_congr (congrArg Switch.sub hc.sw_eq)]
  rw [gooseFrame, hm']
  simp only [List.isEmpty_cons, Bool.false_eq_true, if_false, Bool.not_true, List.foldl_cons, List.foldl_nil, hg, hsub]
  exact ⟨_, rfl⟩

/-- A GOOSE frame past the checks of its port is delivered and then switched. -/
theorem colander_goose {u : State} {express : Bool} (hb : f.body = .goose appid true m) (hm : pairMode s (pairOf p) = 0)
    (hv : rb s (Reg.swcPPvid p) 12 = false) (hd : gooseFrame s p f appid true m = (express, u)) :
    ∃ g tc ts, colander s p f = forward (learn u p (frameVid s p f) f.src) p f g tc ts false := by
  rw [colander, hm]
  simp only [hv, hb, deliver, hd, Bool.false_and, Bool.false_eq_true, if_false, Nat.reduceEqDiff, false_and]
  exact ⟨_, _, _, rfl⟩

/-- A port without MACsec takes a frame as it is. -/
theorem macsecIn_off (h : rb s (Reg.swcPMacsec p) 0 = false) : macsecIn s p f = (some f, s) := by
  rw [macsecIn, h]
  rfl

/-- A GOOSE message counted on its port and stored in its subscription. -/
def messageStored (s : State) (p : Fin 144) (f : Sys2Proof.Frame) (g : Fin 2048) (m : GooseMsg) : State :=
  setSub (count (countFrame s p 0 f) p 13) g (messageTaken s.op m (getSub s g))

/-- Counting a received frame, as a GOOSE frame too, writes statistics and nothing of the switch core. -/
theorem gooseCounted_clockFrame : ClockFrame [.regs, .port, .out] switchRegs s (count (countFrame s p 0 f) p 13) :=
  (countFrame_clockFrame s p 0 f).trans (count_clockFrame _ p 13 1)

theorem getSub_messageStored (g k : Fin 2048) :
    getSub (messageStored s p f g m) k = if g = k then messageTaken s.op m (getSub s g) else getSub s k := by
  rw [messageStored, getSub_setSub, getSub_congr (congrArg Switch.sub gooseCounted_clockFrame.sw_eq)]

theorem messageStored_keeps (g : Fin 2048) : KeepsBut [.regs, .port, .sw, .out] s (messageStored s p f g m) :=
  (gooseCounted_clockFrame.keeps.mono (by decide)).trans (setSub_frame (n := 0) g _).keeps

/-- A GOOSE frame whose only match is one subscription, and whose tag passes, is stored there and switched. -/
theorem receive_goose {g : Fin 2048} {other : Bool} (hst : pState s p = 2) (hg : GoodFrame s p f)
    (hr : f.reasmErr = false) (hb : f.body = .goose appid true m) (hmac : rb s (Reg.swcPMacsec p) 0 = false)
    (hpair : pairMode s (pairOf p) = 0) (hv : rb s (Reg.swcPPvid p) 12 = false)
    (hm : entriesFor s p f (frameVid s p f) appid (some m.goCbRef) 512 2560 = ([512 + g.val], other)) (ht : tagOk s 2 g f.tag = true) :
    ∃ vid f' tc ts, receive s p f = forward (learn (messageStored s p f g m) p vid f.src) p f f' tc ts false := by
  have hu : ClockFrame [.regs, .port, .out] switchRegs s (countFrame s p 0 f) := countFrame_clockFrame s p 0 f
  have hpvid : rd (countFrame s p 0 f) (Reg.swcPPvid p) = rd s (Reg.swcPPvid p) :=
    hu.rd_eq (swcPPvid_kept p) (portReg_low (by unfold Reg.swcPPvid; omega))
  have hmacsec : rd (countFrame s p 0 f) (Reg.swcPMacsec p) = rd s (Reg.swcPMacsec p) := hu.rd_eq (swcPMacsec_kept p) (swcPMacsec_low p)
  have hin := macsecIn_off (f := f) ((rb_congr hmacsec 0).trans hmac)
  obtain ⟨express, hgoose⟩ := gooseFrame_single (f := f) (m := m)
    (by rw [entriesFor_congr hu hu.sw_eq, frameVid_congr hu, hm]) ((tagOk_congr hu (hu.keeps .ks (by decide)) 2 g f.tag).trans ht)
  obtain ⟨f', tc, ts, hcol⟩ := colander_goose hb ((pairMode_congr hu _).trans hpair) ((rb_congr hpvid 12).trans hv) hgoose
  rw [hu.op_eq, getSub_congr (congrArg Switch.sub hu.sw_eq), ← messageStored] at hcol
  refine ⟨frameVid (countFrame s p 0 f) p f, f', tc, ts, ?_⟩
  rw [receive_good hst.ge hg, hst, hr, hb]
  simp only [Bool.false_eq_true, if_false, Nat.reduceEqDiff, hin]
  exact hcol

/-- Such a frame writes its subscription and no other. -/
theorem frameReceive_goose (tm : Instant) (hrun : hcSt s ≠ 3) {g : Fin 2048} {other : Bool} (hst : pState s p = 2) (hg : GoodFrame s p f)
    (hr : f.reasmErr = false) (hb : f.body = .goose appid true m) (hmac : rb s (Reg.swcPMacsec p) 0 = false)
    (hpair : pairMode s (pairOf p) = 0) (hv : rb s (Reg.swcPPvid p) 12 = false)
    (hm : entriesFor s p f (frameVid s p f) appid (some m.goCbRef) 512 2560 = ([512 + g.val], other)) (ht : tagOk s 2 g f.tag = true) :
    ∃ t, exec (.frameReceive p f tm) s = .next t ∧ getSub t g = messageTaken (s.op + (tm - s.now)) m (getSub s g) ∧
      (∀ h, h ≠ g → getSub t h = getSub s h) ∧ KeepsBut [.regs, .now, .op, .port, .sw, .arb, .freeCtr, .out] s t := by
  obtain ⟨vid, f', tc, ts, hrec⟩ := receive_goose (s := toInstant s tm) hst hg hr hb hmac hpair hv hm ht
  let w := messageStored (toInstant s tm) p f g m
  obtain ⟨hlearn, hlearned⟩ := learn_spec w p vid f.src
  have he : exec (.frameReceive p f tm) s = .next (forward (learn w p vid f.src) p f f' tc ts false) := by
    rw [exec_frameReceive tm hrun, hst, if_neg (by decide), hrec]
  have hsub (k : Fin 2048) : getSub (forward (learn w p vid f.src) p f f' tc ts false) k =
      if g = k then messageTaken (s.op + (tm - s.now)) m (getSub s g) else getSub s k :=
    (getSub_congr (hlearn.trans (forward_subs _ p f f' tc ts false)) k).trans (getSub_messageStored g k)
  refine ⟨_, he, by rw [hsub, if_pos rfl], fun k hk => by rw [hsub, if_neg (Ne.symm hk)], ?_⟩
  have hrest : Frame switchParts 0 w (forward (learn w p vid f.src) p f f' tc ts false) :=
    hlearned.widen.trans (forward_frame _ p f f' tc ts false)
  exact (((toInstant_keeps s tm).mono (by decide)).trans ((messageStored_keeps g).mono (by decide))).trans (hrest.keeps.mono (by decide))

end

/-- Settles O23: `receive_good` says what follows a frame's checks; each other command is the lemma of its case. -/
theorem receptionCommands : Obligations.ReceptionCommands := by
  unfold Obligations.ReceptionCommands
  intro s p f tm
  refine ⟨fun hrun => ⟨fun h => ?_, fun h h4 hl => ?_, fun h h4 hl => ?_, fun h hg => ?_,
      fun quanta hst hg hr hb => frameReceive_pause tm hrun hst hg hr hb, fun appid m g other hst hg hr hb hmac hpair hv hm ht => ?_,
      fun stream w sim a ts rest h => ⟨fun hl => ?_, fun hl => ?_⟩⟩,
    fun c x rest h hx hr ha => tagVerdict_ends h hx hr ha, fun g hv hu => gooseTalExpiry_expires tm hv hu⟩
  · rw [exec_frameReceive tm hrun]
    split
    · rfl
    · exact congrArg _ (receive_down (s := toInstant s tm) (h.resolve_right ‹_›))
  · rw [exec_frameReceive tm hrun, if_neg h4, receive_short (s := toInstant s tm) h hl]
  · rw [exec_frameReceive tm hrun, if_neg h4, receive_long (s := toInstant s tm) h hl]
  · have h' : pState (toInstant s tm) p = 3 := h
    rw [exec_frameReceive tm hrun, if_neg (by omega), receive_good (s := toInstant s tm) (by omega) hg, if_pos h']
  · obtain ⟨t, he, hsub, hother, hk⟩ := frameReceive_goose tm hrun hst hg hr hb hmac hpair hv hm ht
    refine ⟨t, he, ?_⟩
    rw [hsub]
    refine ⟨rfl, rfl, rfl, rfl, rfl, rfl, ?_, hother, hk⟩
    simp only [messageTaken, Bool.and_eq_true, bne_iff_ne]
  · rw [exec_loopbackAsdu hrun h, if_neg (not_not.mpr hl)]
    rfl
  · rw [exec_loopbackAsdu hrun h, if_pos hl]
    rfl

end Sys2Proof.Machine
end

section
/-! PROOFS: placing a time-aligned sample and the settled statement (O24). -/

namespace Sys2Proof.Machine
set_option Elab.async false

/-! ## Open rows (R86 to R90) -/

section
variable {s t : State} {w : Fin 512}

theorem rowSlot_congr (h : t.loom.openRows = s.loom.openRows) (n : Nat) (w : Fin 512) : rowSlot t n w = rowSlot s n w := by
  rw [rowSlot, h, rowSlot]

/-- A slot holds what was placed in it, and placing it leaves every other slot of every row. -/
theorem rowSlot_setSlot (n : Nat) (w : Fin 512) (x : Option Sample) (n' : Nat) (w' : Fin 512) :
    rowSlot (setSlot s n w x) n' w' = if (n', w') = (n, w) then x else rowSlot s n' w' := by
  have h : rowSlot (setSlot s n w x) n' w' =
      Tab.get none (Tab.get [] (Tab.put [] s.loom.openRows n (Tab.put none (Tab.get [] s.loom.openRows n) w x)) n') w' := rfl
  rw [h, Tab.get_put]
  by_cases hn : n = n'
  · subst hn
    simp only [if_true, Tab.get_put, Prod.mk.injEq, true_and, fin_val_eq, eq_comm (a := w'), rowSlot]
  · rw [if_neg hn, if_neg (fun e => hn (congrArg Prod.fst e).symm), rowSlot]

theorem setSlot_frame {ps : List Part} {k : Nat} (n : Nat) (w : Fin 512) (x : Option Sample) (hp : .loom ∈ ps := by decide) :
    Frame ps k s (setSlot s n w x) := modLoom_frame _ hp

theorem raise_openRows (irq bit : Nat) : (raise s irq bit).loom.openRows = s.loom.openRows :=
  congrArg Loom.openRows ((raise_clockFrame irq bit).keeps .loom (by decide))

/-! ## The mode a sample sets (R86) -/

theorem setAlign_clockFrame (al : Bool) : ClockFrame [.regs, .loom] [Reg.loomWState w] s (setAlign s w al) :=
  (ClockFrame.of_frame (setWarp_frame w _)).trans ((wb_clockFrame _ 2 al).widen (hp := by decide) (ho := List.Subset.refl _))

/-- The mode changes the warp's own state and nothing else of the Loom. -/
theorem setAlign_loom (al : Bool) : ∃ x, (setAlign s w al).loom = { s.loom with warp := x } := ⟨_, rfl⟩

theorem loomWState_ne {off : Nat} (h : off < 0x610000) : off ∉ [Reg.loomWState w] := by
  rw [List.mem_singleton, Reg.loomWState]
  omega

theorem loomWDup_notMem : Reg.loomWDup w ∉ [Reg.loomWState w] := by
  rw [List.mem_singleton, Reg.loomWDup, Reg.loomWState]
  omega

theorem loomWLate_notMem : Reg.loomWLate w ∉ [Reg.loomWState w] := by
  rw [List.mem_singleton, Reg.loomWLate, Reg.loomWState]
  omega

theorem loomWarpReg_low {b : Nat} (h : b ≤ 0x61003F) : b + 0x40 * w.val < counterBase := by
  unfold counterBase Reg.panOptime
  omega

theorem closeDelay_setAlign (al : Bool) : closeDelay (setAlign s w al) = closeDelay s :=
  congrArg (fun v => fld v 6 0) ((setAlign_clockFrame al).rd_eq (loomWState_ne (by decide)))

theorem dueTick_setAlign (al : Bool) : dueTick (setAlign s w al) = dueTick s := by
  have h : ClockFrame [.regs, .loom] [Reg.loomWState w] s (setAlign s w al) := setAlign_clockFrame al
  have hrate : rateHz (setAlign s w al) = rateHz s := by
    have hr : rd (setAlign s w al) Reg.timeTickcfg = rd s Reg.timeTickcfg := h.rd_eq (loomWState_ne (by decide))
    rw [rateHz, rf, hr]
    rfl
  have hnow : (setAlign s w al).now = s.now := h.keeps .now (by decide)
  rw [dueTick, edgeDue, period, hrate, hnow, h.time_eq]
  rfl

end

/-! ## A time-aligned ASDU (R85 to R87) -/

/-- An ASDU of real equipment that a warp takes, time-aligned, in the row of tick `n`. -/
structure Timely (s : State) (w : Fin 512) (a : SvAsdu) (ts : Instant) (n : Nat) : Prop where
  confRev : a.confRev = (warpCfg s w).confRev
  counted : a.smpCnt < (warpCfg s w).ratio * rateHz s
  noSim : rb s (Reg.loomWState w) 3 = false
  started : s.loom.started = true
  enabled : s.loom.enable = true
  uncut : inCutCycle s = false
  unflushed : s.loom.flushUpTo = none
  valid : (warpCfg s w).valid = true
  ratio : (warpCfg s w).ratio ≠ 0
  kept : a.smpCnt % (warpCfg s w).ratio = 0
  aligned : timeAligned s w a = true
  tick : tickByTime (rateHz s) (warpCfg s w).ratio ts a.smpCnt = n

/-- The sample that such an ASDU leaves in its row. -/
def timelySample (s : State) (w : Fin 512) (a : SvAsdu) (ts : Instant) (n : Nat) : Sample :=
  { au := false, sim := false, realign := (getWarp (setAlign s w true) w).realign, playback := true, conflict := false,
    synch := a.smpSynch % 4, smpCnt := a.smpCnt % 2 ^ 16, margin := marginOf ts (n * period s), vals := a.vals,
    quals := packQuals a.quals, chk := none }

/-- A sample placed in an empty slot; its LOOM_W_STATE shows the sample's count. -/
def placedSample (s : State) (w : Fin 512) (n : Nat) (x : Sample) : State :=
  wf (modWarp (setSlot s n w (some x)) w (fun y => { y with realign := false })) (Reg.loomWState w) 31 16 x.smpCnt

/-- A sample of a row already closed. -/
def countedLate (s : State) (w : Fin 512) : State :=
  raise (modWarp (bump s (Reg.loomWLate w)) w (fun y => { y with lateSeen := true })) Reg.loomIrq 2

/-- A duplicate of the sample in a slot; one that differs marks it. -/
def countedDup (s : State) (w : Fin 512) (a : SvAsdu) (n : Nat) (o : Sample) : State :=
  if o.vals ≠ a.vals ∨ o.quals ≠ packQuals a.quals
  then raise (setSlot (bump s (Reg.loomWDup w)) n w (some { o with conflict := true })) Reg.loomIrq 3 else bump s (Reg.loomWDup w)

section
variable {s : State} {w : Fin 512} {a : SvAsdu} {ts : Instant} {n : Nat}

/-- A warp that no Heddle unit serves takes such an ASDU into the Loom alone. -/
theorem deliverAsdu_timely (h : Timely s w a ts n) (hb : boundAt s w = none) :
    deliverAsdu s w 0 false a ts true none = loomAsdu s w false a ts true none := by
  have hacc : asduAccept s w false a true = (true, s) := by
    have hgood : ¬ (a.confRev ≠ (warpCfg s w).confRev ∨ (warpCfg s w).ratio * rateHz s ≤ a.smpCnt) := by
      have hlt := h.counted
      exact not_or.mpr ⟨not_not.mpr h.confRev, by omega⟩
    rw [asduAccept, if_neg hgood]
    simp [h.noSim]
  have hh : heddleAsdu s w 0 false a ts none = s := by
    rw [heddleAsdu, hb]
  rw [deliverAsdu, hacc]
  simp only [Bool.not_true, Bool.false_eq_true, if_false, hh]

/-- Where a time-aligned sample goes is a matter of its tick, the tick as the ASDU finds it and the close delay (R90). -/
theorem loomAsdu_timely (h : Timely s w a ts n) : loomAsdu s w false a ts true none =
    if (n : Int) ≤ (dueTick s : Int) - closeDelay s then countedLate (setAlign s w true) w
    else if (dueTick s : Int) + 8 < n then bump (setAlign s w true) (Reg.loomWEarly w)
    else match rowSlot s n w with
      | some o => countedDup (setAlign s w true) w a n o
      | none => placedSample (setAlign s w true) w n (timelySample s w a ts n) := by
  obtain ⟨x, hx⟩ := setAlign_loom (s := s) (w := w) true
  have hen : (setAlign s w true).loom.enable = true := by rw [hx]; exact h.enabled
  have hfl : (setAlign s w true).loom.flushUpTo = none := by rw [hx]; exact h.unflushed
  rw [loomAsdu]
  simp only [h.started, h.uncut, h.valid, h.kept, h.aligned, h.tick, beq_eq_false_iff_ne.mpr h.ratio, Bool.not_true, Bool.or_false,
    bne_self_eq_false, Bool.false_eq_true, if_false, if_true, hen, hfl, closeDelay_setAlign, dueTick_setAlign, Int.toNat_natCast] <;> rfl

theorem loomAsdu_late (h : Timely s w a ts n) (hl : n + closeDelay s ≤ dueTick s) :
    loomAsdu s w false a ts true none = countedLate (setAlign s w true) w := by
  rw [loomAsdu_timely h, if_pos (by omega)]

section
variable (hopen : dueTick s < n + closeDelay s) (hnear : n ≤ dueTick s + 8)
include hopen hnear

theorem loomAsdu_dup (h : Timely s w a ts n) {o : Sample} (hr : rowSlot s n w = some o) :
    loomAsdu s w false a ts true none = countedDup (setAlign s w true) w a n o := by
  rw [loomAsdu_timely h, if_neg (by omega), if_neg (by omega), hr]

theorem loomAsdu_placed (h : Timely s w a ts n) (hr : rowSlot s n w = none) :
    loomAsdu s w false a ts true none = placedSample (setAlign s w true) w n (timelySample s w a ts n) := by
  rw [loomAsdu_timely h, if_neg (by omega), if_neg (by omega), hr]

end
end

/-! ## What each outcome leaves -/

section
variable {s : State} {w : Fin 512}

theorem countedLate_rd : rd (countedLate s w) (Reg.loomWLate w) = rd s (Reg.loomWLate w) + 1 := by
  rw [countedLate, rd_raise_ne _ _ (by unfold Reg.loomWLate Reg.loomIrq; omega)]
  exact rd_wr_self s _ _

theorem countedLate_raised : rb (countedLate s w) Reg.loomIrq 2 = true := rb_raise_self _ Reg.loomIrq (by decide)

theorem countedLate_rowSlot (n : Nat) (v : Fin 512) : rowSlot (countedLate s w) n v = rowSlot s n v :=
  rowSlot_congr (raise_openRows _ _) n v

theorem countedLate_frame : Frame [.regs, .loom, .out] 0 s (countedLate s w) :=
  ((bump_frame 1 (Nat.zero_le _)).trans (modWarp_frame w _)).trans (raise_frame 2 (Nat.zero_le _))

theorem placedSample_rowSlot (n : Nat) (x : Sample) (n' : Nat) (v : Fin 512) :
    rowSlot (placedSample s w n x) n' v = if (n', v) = (n, w) then some x else rowSlot s n' v := rowSlot_setSlot n w (some x) n' v

theorem placedSample_keeps (n : Nat) (x : Sample) : KeepsBut [.regs, .loom] s (placedSample s w n x) :=
  ((setSlot_frame n w _).trans (modWarp_frame w _) : Frame [.regs, .loom] 0 s _).keeps.trans ((wr_keeps _ _ _).mono (by decide))

variable (a : SvAsdu) (n : Nat) (o : Sample)

theorem countedDup_rd : rd (countedDup s w a n o) (Reg.loomWDup w) = rd s (Reg.loomWDup w) + 1 := by
  unfold countedDup
  split
  · rw [rd_raise_ne _ _ (by unfold Reg.loomWDup Reg.loomIrq; omega)]
    exact rd_wr_self s _ _
  · exact rd_wr_self s _ _

/-- A duplicate leaves the sample of its slot, marked where it differs. -/
theorem countedDup_rowSlot (hr : rowSlot s n w = some o) (n' : Nat) (v : Fin 512) : rowSlot (countedDup s w a n o) n' v =
    if (n', v) = (n, w) then some { o with conflict := o.conflict || decide (o.vals ≠ a.vals ∨ o.quals ≠ packQuals a.quals) }
    else rowSlot s n' v := by
  unfold countedDup
  split
  case isTrue hc =>
    rw [rowSlot_congr (raise_openRows _ _), rowSlot_setSlot, decide_eq_true hc, Bool.or_true]
    rfl
  case isFalse hc =>
    rw [decide_eq_false hc, Bool.or_false]
    split
    case isTrue he =>
      obtain ⟨rfl, rfl⟩ := Prod.mk.inj he
      exact hr
    case isFalse => rfl

theorem countedDup_frame : Frame [.regs, .loom, .out] 0 s (countedDup s w a n o) :=
  have hb : Frame [.regs, .loom, .out] 0 s (bump s (Reg.loomWDup w)) := bump_frame 1 (Nat.zero_le _)
  .ite (fun _ => (hb.trans (setSlot_frame n w _)).trans (raise_frame 3 (Nat.zero_le _))) (fun _ => hb)

end

/-! ## The loopback ASDU -/

/-- A playback ASDU taken from the queue, its warp in time-aligned mode. -/
def loopAligned (s : State) (rest : List (Nat × Nat × Bool × SvAsdu × Instant)) (w : Fin 512) : State :=
  setAlign (loopTaken s rest) w true

section
variable {s : State} {stream w : Fin 512} {a : SvAsdu} {ts : Instant} {rest : List (Nat × Nat × Bool × SvAsdu × Instant)} {n : Nat}

theorem loopAligned_clockFrame : ClockFrame [.regs, .loom] [Reg.loomWState w] s (loopAligned s rest w) :=
  (ClockFrame.of_frame (modLoom_frame (fun l => { l with pbLoop := rest }))).trans (setAlign_clockFrame true)

theorem loopAligned_rowSlot (k : Nat) (v : Fin 512) : rowSlot (loopAligned s rest w) k v = rowSlot s k v := rfl

/-- Taking the ASDU from the queue changes nothing that its placement looks at. -/
theorem Timely.taken (h : Timely s w a ts n) (rest : List (Nat × Nat × Bool × SvAsdu × Instant)) : Timely (loopTaken s rest) w a ts n :=
  ⟨h.confRev, h.counted, h.noSim, h.started, h.enabled, h.uncut, h.unflushed, h.valid, h.ratio, h.kept, h.aligned, h.tick⟩

theorem exec_loopbackAsdu_timely (hrun : hcSt s ≠ 3) (hq : s.loom.pbLoop = (stream.val, w.val, false, a, ts) :: rest)
    (hb : boundAt s w = none) (hlen : a.dsLen = 8 * (warpCfg s w).nvals) (h : Timely s w a ts n) :
    exec (.loopbackAsdu stream) s = .next (loomAsdu (loopTaken s rest) w false a ts true none) := by
  rw [exec_loopbackAsdu hrun hq, if_neg (not_not.mpr hlen), deliverAsdu_timely (h.taken rest) hb]

end

/-- Settles O24: `loomAsdu_timely` says which of the outcomes a time-aligned ASDU has; each outcome is the lemma of its case. -/
theorem samplesArePlacedAtTheirTick : Obligations.SamplesArePlacedAtTheirTick := by
  unfold Obligations.SamplesArePlacedAtTheirTick
  intro s stream w a ts rest n c m hrun hq hb hlen hcut hrev hcnt hsim hst hen hval hratio hkept hal htick hfl
  have ht : Timely s w a ts n := ⟨hrev, hcnt, hsim, hst, hen, hcut, hfl, hval, hratio, hkept, hal, htick⟩
  have ht' : Timely (loopTaken s rest) w a ts n := ht.taken rest
  have he := exec_loopbackAsdu_timely hrun hq hb hlen ht
  have hu : ClockFrame [.regs, .loom] [Reg.loomWState w] s (loopAligned s rest w) := loopAligned_clockFrame
  have hdue : dueTick (loopTaken s rest) = m := rfl
  refine ⟨fun hopen hnear hr => ?_, fun x hopen hnear hr => ?_, fun hlate => ?_⟩
  · rw [loomAsdu_placed (s := loopTaken s rest) hopen hnear ht' hr] at he
    have hslot := placedSample_rowSlot (s := loopAligned s rest w) (w := w) n (timelySample (loopTaken s rest) w a ts n)
    refine ⟨_, timelySample (loopTaken s rest) w a ts n, he, (hslot n w).trans (if_pos rfl), rfl, rfl, rfl, rfl, rfl, rfl, rfl,
      fun n' w' hne => (hslot n' w').trans (if_neg hne), ?_⟩
    exact hu.keeps.trans (placedSample_keeps n _)
  · rw [loomAsdu_dup (s := loopTaken s rest) hopen hnear ht' hr] at he
    have hslot := countedDup_rowSlot (s := loopAligned s rest w) (w := w) a n x hr
    refine ⟨_, _, he, (hslot n w).trans (if_pos rfl), rfl, rfl, rfl, ?_, fun n' w' hne => (hslot n' w').trans (if_neg hne), ?_⟩
    · exact (countedDup_rd (s := loopAligned s rest w) a n x).trans (by rw [hu.rd_eq loomWDup_notMem (loomWarpReg_low (by decide))])
    · exact (hu.keepsBut).trans (countedDup_frame (s := loopAligned s rest w) a n x).keeps
  · rw [loomAsdu_late ht' hlate] at he
    refine ⟨_, he, ?_, countedLate_raised, countedLate_rowSlot (s := loopAligned s rest w), ?_⟩
    · exact (countedLate_rd (s := loopAligned s rest w)).trans (by rw [hu.rd_eq loomWLate_notMem (loomWarpReg_low (by decide))])
    · exact (hu.keepsBut).trans (countedLate_frame (s := loopAligned s rest w)).keeps

end Sys2Proof.Machine
end

section
/-! PROOFS: history, playback and the Loom's own registers, and the settled statement (O25). -/

namespace Sys2Proof.Machine
set_option Elab.async false

/-! ## History (R101 to R103) -/

/-- The parts that writing the history changes beside the Loom's own. -/
abbrev feedParts : List Part := [.regs, .arb, .arc, .out, .freeCtr]

section
variable (s : State)

/-- Feeding the Archive Engine stages the row, shows it, and asks for its transfer. -/
theorem archiveFeed_feedFrame (row : Option Row) : Frame feedParts 0 s (archiveFeed s row) := by
  unfold archiveFeed
  refine .ite (fun _ => .refl) (fun _ => .ite (fun _ => ?_) (fun _ => ?_))
  · exact .ite (fun _ => .refl) (fun _ => (bump_frame 1 (Nat.zero_le _)).trans (raise_frame _ (Nat.zero_le _)))
  · exact ((modArc_frame _).andThen (askFree_frame (n := 0) _ _ _ _)).andThen (showArc_frame _)

theorem askSpread_feedFrame (port off n : Nat) : Frame feedParts 0 s (askSpread s port off n) := by
  refine .foldl (fun u ch => ?_) _ s
  split
  · exact .refl
  · exact (askDdr_frame (n := 0) u _ _ _).widen

/-- The write of a row to the history ring asked for, where the ring is on. -/
def historyAsked (s : State) (i : Nat) : State := if rb s Reg.loomCtrl 8 then askSpread s 0 (histAt s i) 40992 else s

theorem historyAsked_feedFrame (i : Nat) : Frame feedParts 0 s (historyAsked s i) :=
  .ite (fun _ => askSpread_feedFrame s _ _ _) (fun _ => .refl)

theorem historyAsked_loom (i : Nat) : (historyAsked s i).loom = s.loom := (historyAsked_feedFrame s i).keeps .loom (by decide)

/-- The row taken from those that are due. -/
def historyTaken (s : State) (i : Nat) (rest : List Nat) : State := modLoom (historyAsked s i) (fun l => { l with histDue := rest })

theorem historyTaken_loom (i : Nat) (rest : List Nat) : (historyTaken s i rest).loom = { s.loom with histDue := rest } := by
  rw [historyTaken, modLoom, historyAsked_loom]

theorem historyTaken_keeps (i : Nat) (rest : List Nat) : KeepsBut [.regs, .loom, .arb, .arc, .out, .freeCtr] s (historyTaken s i rest) :=
  (historyAsked_feedFrame s i).keepsBut.trans (modLoom_frame (n := 0) _).keeps

theorem doHistoryWrite_eq {i : Nat} {rest : List Nat} (h : s.loom.histDue = i :: rest) :
    ∃ row, doHistoryWrite s = archiveFeed (historyTaken s i rest) row := by
  rw [doHistoryWrite, h]
  exact ⟨_, rfl⟩

theorem doHistoryWrite_due {i : Nat} {rest : List Nat} (h : s.loom.histDue = i :: rest) :
    (doHistoryWrite s).loom = { s.loom with histDue := rest } ∧
      KeepsBut [.regs, .loom, .arb, .arc, .out, .freeCtr] s (doHistoryWrite s) := by
  obtain ⟨row, he⟩ := doHistoryWrite_eq s h
  have hf : Frame feedParts 0 (historyTaken s i rest) (doHistoryWrite s) := he ▸ archiveFeed_feedFrame _ row
  have hl : (doHistoryWrite s).loom = (historyTaken s i rest).loom := hf.keeps .loom (by decide)
  exact ⟨hl.trans (historyTaken_loom s i rest), (historyTaken_keeps s i rest).trans hf.keepsBut⟩

/-- The Loom after its history ring is rebuilt. -/
def ringEmptied (l : Loom) : Loom := { l with closed := l.closed.take 1, nClosed := 0, histDue := [] }

theorem doHistoryRebuildDone_spec : (doHistoryRebuildDone s).loom = ringEmptied s.loom ∧
    KeepsBut [.regs, .loom, .arb, .arc, .out, .freeCtr] s (doHistoryRebuildDone s) := by
  have hf : Frame feedParts 0 (modLoom s ringEmptied) (doHistoryRebuildDone s) := .foldl archiveFeed_feedFrame _ _
  exact ⟨hf.keeps .loom (by decide), (modLoom_frame (n := 0) ringEmptied).keeps.trans hf.keepsBut⟩

end

/-! ## Playback (R108) -/

section
variable {s : State}

theorem pbCheck_lt (s : State) : pbCheck s < 8 := by
  unfold pbCheck
  extract_lets ds idle c1 startT c3 n
  split_ifs <;> decide

/-- A field of a register reads what was stored in it, as far as it has room. -/
theorem rf_wf_self (off : Nat) {hi lo : Nat} (x : Nat) (hi32 : hi < 32) (hlo : lo ≤ hi) :
    rf (wf s off hi lo x) off hi lo = x % 2 ^ (hi - lo + 1) := by
  rw [rf, wf, rd_wr_self, fld_setFld _ _ hi32 hlo]

theorem rf_wf_ne (off : Nat) {hi lo a b : Nat} (x : Nat) (hlo : lo ≤ hi) (hb : b ≤ a) (h : hi < b ∨ a < lo) :
    rf (wf s off hi lo x) off a b = rf s off a b := by
  rw [rf, wf, rd_wr_self, fld_setFld_ne _ _ hlo hb h, rf]

theorem rf_wb_ne (off : Nat) {i hi lo : Nat} (b : Bool) (h : i < 32) (hlo : lo ≤ hi) (hi' : i < lo ∨ hi < i) :
    rf (wb s off i b) off hi lo = rf s off hi lo := by
  rw [rf, wb, rd_wr_self, fld_putBit_ne _ _ h hlo hi', rf]

theorem rf_congr {s t : State} {off : Nat} (h : rd t off = rd s off) (hi lo : Nat) : rf t off hi lo = rf s off hi lo := by
  rw [rf, h, rf]

/-- A start that the checks pass arms the playback. -/
def pbArmed (s : State) : State := wb (wf (wf s Reg.loomPbStatus 1 0 1) Reg.loomPbStatus 6 4 0) Reg.loomPbStatus 8 false

/-- A start that a check refuses shows its reason. -/
def pbRefused (s : State) (r : Nat) : State := raise (wf s Reg.loomPbStatus 6 4 r) Reg.loomIrq 4

theorem doPbStart_pass (h : pbState s = 0) (hc : pbCheck s = 0) : doPbStart s = pbArmed s := by
  rw [doPbStart, if_neg (not_not.mpr h), hc]
  rfl

theorem doPbStart_fail (h : pbState s = 0) (hc : pbCheck s ≠ 0) : doPbStart s = pbRefused s (pbCheck s) := by
  rw [doPbStart, if_neg (not_not.mpr h)]
  split
  · contradiction
  · rfl

theorem pbArmed_state : pbState (pbArmed s) = 1 := by
  rw [pbState, pbArmed, rf_wb_ne _ _ (by decide) (by decide) (by decide), rf_wf_ne _ _ (by decide) (by decide) (by decide),
    rf_wf_self _ _ (by decide) (by decide)]
  rfl

theorem pbArmed_reason : rf (pbArmed s) Reg.loomPbStatus 6 4 = 0 := by
  rw [pbArmed, rf_wb_ne _ _ (by decide) (by decide) (by decide), rf_wf_self _ _ (by decide) (by decide)]
  rfl

theorem pbArmed_keeps : KeepsBut [.regs] s (pbArmed s) := ((wr_keeps _ _ _).trans (wr_keeps _ _ _)).trans (wr_keeps _ _ _)

variable (r : Nat)

theorem pbRefused_rd : rd (pbRefused s r) Reg.loomPbStatus = rd (wf s Reg.loomPbStatus 6 4 r) Reg.loomPbStatus :=
  rd_raise_ne _ _ (by decide)

theorem pbRefused_state : pbState (pbRefused s r) = pbState s := by
  rw [pbState, rf_congr (pbRefused_rd r), rf_wf_ne _ _ (by decide) (by decide) (by decide), pbState]

theorem pbRefused_reason : rf (pbRefused s r) Reg.loomPbStatus 6 4 = r % 8 := by
  rw [rf_congr (pbRefused_rd r), rf_wf_self _ _ (by decide) (by decide)]
  rfl

theorem pbRefused_raised : rb (pbRefused s r) Reg.loomIrq 4 = true := rb_raise_self _ Reg.loomIrq (by decide)

theorem pbRefused_keeps : KeepsBut [.regs, .out] s (pbRefused s r) :=
  ((wf_frame 6 4 r (Nat.zero_le _)).trans (raise_frame 4 (Nat.zero_le _)) : Frame [.regs, .out] 0 s _).keeps

end

/-! ## LOOM_CTRL and LOOM_TRANSIT (R91, R92) -/

section
variable {s : State} {v : Word}

/-- A word stored in a Loom register, with the bit of LOOM_STAT that shows a refused write cleared. -/
def loomStored (s : State) (off : Nat) (v : Word) (bit : Nat) : State := wb (wrp s off v) Reg.loomStat bit false

theorem rd_loomStored {off : Nat} (bit : Nat) (h : Reg.loomStat ≠ off := by decide) (hb : off < counterBase := by decide) :
    rd (loomStored s off v bit) off = v := by
  rw [loomStored, rd_wb_ne _ _ _ h, (wrp_spec s v hb).1]

theorem rb_loomStored (off : Nat) {bit : Nat} (h : bit < 32) : rb (loomStored s off v bit) Reg.loomStat bit = false :=
  rb_wb_self _ _ false h

theorem loomStored_keeps (off bit : Nat) : KeepsBut logParts s (loomStored s off v bit) :=
  (wrp_same s off v).keeps.trans ((wr_keeps _ _ _).mono (by decide))

/-- The mask of LOOM_CTRL leaves its delay. -/
theorem loomCtrl_delay : fld (v &&& 0x3FF) 7 1 = fld v 7 1 := fld_and v _ (by decide)

/-- When a write of LOOM_CTRL with a delay is taken (R92). -/
def DelayTaken (s : State) (d : Nat) : Prop := 1 ≤ d ∧ d ≤ 64 ∧
  (d = rf s Reg.loomCtrl 7 1 ∨ allIdle s = true ∧ pbState s = 0 ∧ allCovered s (rf s Reg.loomTransit 15 0) d = true)

/-- The refusal that the model spells is that of R92. -/
theorem not_delayTaken_iff (d : Nat) : ¬ DelayTaken s d ↔ (d < 1 ∨ 64 < d ∨ (d ≠ rf s Reg.loomCtrl 7 1 ∧
    (!(allIdle s && pbState s == 0 && allCovered s (rf s Reg.loomTransit 15 0) d)) = true)) := by
  simp only [DelayTaken, not_and_or, not_or, not_le, Nat.lt_one_iff, Bool.not_eq_true', Bool.and_eq_false_iff, beq_eq_false_iff_ne,
    Bool.not_eq_true, ne_eq, or_assoc]

/-- A taken write stores the word; a changed delay waits for the edge. -/
def loomCtrlStored (s : State) (v : Word) : State :=
  let u := loomStored s Reg.loomCtrl (v &&& 0x3FF) 8
  if fld v 7 1 = rf s Reg.loomCtrl 7 1 then u else modLoom u (fun l => { l with delayPend := some (fld v 7 1) })

theorem doLoomCtrlWrite_taken (h : DelayTaken s (fld v 7 1)) : doLoomCtrlWrite v s = loomCtrlStored s v := by
  unfold doLoomCtrlWrite
  dsimp only
  rw [loomCtrl_delay, if_neg (fun hn => (not_delayTaken_iff _).mpr hn h)]
  exact ite_not ..

theorem doLoomCtrlWrite_refused (h : ¬ DelayTaken s (fld v 7 1)) : doLoomCtrlWrite v s = wb s Reg.loomStat 8 true := by
  unfold doLoomCtrlWrite
  dsimp only
  rw [loomCtrl_delay, if_pos ((not_delayTaken_iff _).mp h)]

theorem loomCtrlStored_regs : (loomCtrlStored s v).regs = (loomStored s Reg.loomCtrl (v &&& 0x3FF) 8).regs := by
  unfold loomCtrlStored
  dsimp only
  split <;> rfl

theorem loomCtrlStored_delayPend : (loomCtrlStored s v).loom.delayPend =
    if fld v 7 1 = rf s Reg.loomCtrl 7 1 then s.loom.delayPend else some (fld v 7 1) := by
  have hl : (loomStored s Reg.loomCtrl (v &&& 0x3FF) 8).loom = s.loom := loomStored_keeps _ _ .loom (by decide)
  unfold loomCtrlStored
  dsimp only
  split
  · rw [hl]
  · rfl

theorem loomCtrlStored_keeps : KeepsBut [.regs, .loom, .recorder, .arb, .out] s (loomCtrlStored s v) := by
  have h : KeepsBut [.regs, .loom, .recorder, .arb, .out] s (loomStored s Reg.loomCtrl (v &&& 0x3FF) 8) :=
    (loomStored_keeps _ _).mono (by decide)
  unfold loomCtrlStored
  dsimp only
  split
  · exact h
  · exact h.trans (modLoom_frame (n := 0) _).keeps

theorem doLoomTransitWrite_covered (h : allCovered s (fld v 15 0) (nextDelay s) = true) :
    doLoomTransitWrite v s = loomStored s Reg.loomTransit (v &&& 0xFFFF) 12 := if_pos h

/-- A transit time that does not cover every warp is refused. -/
def transitRefused (s : State) : State := raise (wb s Reg.loomStat 12 true) Reg.loomIrq 4

theorem doLoomTransitWrite_uncovered (h : allCovered s (fld v 15 0) (nextDelay s) = false) :
    doLoomTransitWrite v s = transitRefused s := if_neg (by rw [h]; exact Bool.false_ne_true)

theorem transitRefused_transit : rd (transitRefused s) Reg.loomTransit = rd s Reg.loomTransit := by
  rw [transitRefused, rd_raise_ne _ _ (by decide), rd_wb_ne _ _ _ (by decide)]

theorem transitRefused_shown : rb (transitRefused s) Reg.loomStat 12 = true := by
  rw [transitRefused, rb_congr (rd_raise_ne _ _ (by decide)), rb_wb_self _ _ _ (by decide)]

theorem transitRefused_raised : rb (transitRefused s) Reg.loomIrq 4 = true := rb_raise_self _ Reg.loomIrq (by decide)

theorem transitRefused_keeps : KeepsBut [.regs, .out] s (transitRefused s) :=
  ((wb_frame 12 true (Nat.zero_le _)).trans (raise_frame 4 (Nat.zero_le _)) : Frame [.regs, .out] 0 s _).keeps

end

/-! ## LOOM_W_CFG (R97, R109, R260) -/

section
variable {s : State} {w : Fin 512} {v : Word} {x : Session}

/-- A session with a register write held. -/
def withHeld (x : Session) (off : Nat) (v : Word) : Session := { x with held := Tab.ins x.held off v }

theorem doLoomWCfgWrite_held (hx : s.hif.session = some x) (hk : x.kind = 0) (ho : x.obj = w.val) :
    doLoomWCfgWrite w v s = { s with hif := { s.hif with session := some (withHeld x (Reg.loomWCfg w) (v &&& 0x3F7FFF)) } } := by
  have hin : inSession s 0 w = true := by
    rw [inSession, hx]
    simp [hk, ho]
  rw [doLoomWCfgWrite, if_pos hin, holdWrite, hx]
  rfl

/-- Outside a session any other change than sim_accept's is refused. -/
theorem doLoomWCfgWrite_refused (hs : inSession s 0 w = false) (hv : (v ^^^ rd s (Reg.loomWCfg w)) &&& 0x3F5FFF ≠ 0) :
    doLoomWCfgWrite w v s = wb s (Reg.loomWState w) 4 true := by
  rw [doLoomWCfgWrite, if_neg (by rw [hs]; exact Bool.false_ne_true)]
  exact if_pos hv

/-- sim_accept stored, cfg_rej cleared. -/
def simAcceptStored (s : State) (w : Fin 512) (b : Bool) : State := wb (wb s (Reg.loomWCfg w) 13 b) (Reg.loomWState w) 4 false

/-- A warp that no longer accepts simulated ASDUs leaves simulation at the edge. -/
def simAcceptWritten (s : State) (w : Fin 512) (b : Bool) : State :=
  if rb s (Reg.loomWCfg w) 13 && !b then modWarp (simAcceptStored s w b) w (fun x => { x with simLeave := true })
  else simAcceptStored s w b

theorem doLoomWCfgWrite_simAccept (hs : inSession s 0 w = false) (hv : (v ^^^ rd s (Reg.loomWCfg w)) &&& 0x3F5FFF = 0) :
    doLoomWCfgWrite w v s = simAcceptWritten s w (bitOf v 13) := by
  rw [doLoomWCfgWrite, if_neg (by rw [hs]; exact Bool.false_ne_true)]
  exact if_neg (not_not.mpr hv)

variable (b : Bool)

theorem simAcceptStored_cfg : rd (simAcceptStored s w b) (Reg.loomWCfg w) = putBit (rd s (Reg.loomWCfg w)) 13 b := by
  have hne : Reg.loomWState w ≠ Reg.loomWCfg w := by
    unfold Reg.loomWState Reg.loomWCfg
    omega
  rw [simAcceptStored, rd_wb_ne _ _ _ hne, wb, rd_wr_self]

theorem simAcceptWritten_cfg : rd (simAcceptWritten s w b) (Reg.loomWCfg w) = putBit (rd s (Reg.loomWCfg w)) 13 b := by
  unfold simAcceptWritten
  split <;> exact simAcceptStored_cfg b

theorem simAcceptWritten_simLeave : (getWarp (simAcceptWritten s w b) w).simLeave = true ↔
    ((getWarp s w).simLeave = true ∨ (rb s (Reg.loomWCfg w) 13 = true ∧ b = false)) := by
  unfold simAcceptWritten
  split
  case isTrue h =>
    rw [Bool.and_eq_true, Bool.not_eq_true'] at h
    rw [modWarp, getWarp_setWarp_self]
    exact iff_of_true rfl (.inr h)
  case isFalse h =>
    rw [Bool.and_eq_true, Bool.not_eq_true'] at h
    exact ⟨.inl, fun hor => hor.resolve_right h⟩

theorem simAcceptWritten_keeps : KeepsBut [.regs, .loom] s (simAcceptWritten s w b) := by
  have h : KeepsBut [.regs, .loom] s (simAcceptStored s w b) := ((wr_keeps _ _ _).trans (wr_keeps _ _ _)).mono (by decide)
  unfold simAcceptWritten
  split
  · exact h.trans (modWarp_frame (n := 0) w _).keeps
  · exact h

end

/-! ## The commands -/

/-- A command of the datapath acts in a module that is not in Fault-halt (R342). -/
theorem exec_of_live {s : State} {i : Instr} {f : State → State} (he : exec i s = .next (live s f)) (hrun : hcSt s ≠ 3) :
    exec i s = .next (f s) := by rw [he, live_of_running f hrun]

/-- Settles O25: each command is the lemma of its case. -/
theorem loomCommands : Obligations.LoomCommands := by
  unfold Obligations.LoomCommands
  intro s v w
  have hstart := exec_of_live (i := .pbStart) (f := doPbStart) (s := s) rfl
  have hstop := exec_of_live (i := .pbStop) (f := doPbStop) (s := s) rfl
  have hctrl := exec_of_live (i := .loomCtrlWrite v) (f := doLoomCtrlWrite v) (s := s) rfl
  have htransit := exec_of_live (i := .loomTransitWrite v) (f := doLoomTransitWrite v) (s := s) rfl
  have hcfg := exec_of_live (i := .loomWCfgWrite w v) (f := doLoomWCfgWrite w v) (s := s) rfl
  refine ⟨fun i rest h => ⟨_, rfl, doHistoryWrite_due s h⟩, ?_, fun hrun hp => ⟨fun hc => ?_, fun hc => ?_⟩, fun hrun hp => ?_,
    fun hrun => ⟨fun h1 h64 h => ?_, fun h => ?_⟩, fun hrun h => ?_, fun hrun h => ?_, fun x hrun hx hk ho => ?_,
    fun hrun hs => ⟨fun hv => ?_, fun hv => ?_⟩⟩
  · obtain ⟨hl, hk⟩ := doHistoryRebuildDone_spec s
    refine ⟨_, rfl, ?_, ?_, ?_, hk⟩ <;> rw [hl]
    · exact List.length_take_le 1 _
    · rfl
    · rfl
  · exact ⟨_, (hstart hrun).trans (congrArg _ (doPbStart_pass hp hc)), pbArmed_state, pbArmed_reason, pbArmed_keeps⟩
  · refine ⟨_, (hstart hrun).trans (congrArg _ (doPbStart_fail hp hc)), (pbRefused_state _).trans hp, ?_, pbRefused_raised _,
      pbRefused_keeps _⟩
    exact (pbRefused_reason _).trans (Nat.mod_eq_of_lt (pbCheck_lt s))
  · exact (hstop hrun).trans (congrArg _ (if_neg hp))
  · refine ⟨_, (hctrl hrun).trans (congrArg _ (doLoomCtrlWrite_taken ⟨h1, h64, h⟩)), ?_, ?_, loomCtrlStored_delayPend,
      loomCtrlStored_keeps⟩
    · rw [rd_congr loomCtrlStored_regs, rd_loomStored]
    · rw [rb_congr (rd_congr loomCtrlStored_regs _), rb_loomStored _ (by decide)]
  · exact (hctrl hrun).trans (congrArg _ (doLoomCtrlWrite_refused h))
  · exact ⟨_, (htransit hrun).trans (congrArg _ (doLoomTransitWrite_covered h)), rd_loomStored _, rb_loomStored _ (by decide),
      (loomStored_keeps _ _).mono (by decide)⟩
  · exact ⟨_, (htransit hrun).trans (congrArg _ (doLoomTransitWrite_uncovered h)), transitRefused_transit, transitRefused_shown,
      transitRefused_raised, transitRefused_keeps⟩
  · refine ⟨_, (hcfg hrun).trans (congrArg _ (doLoomWCfgWrite_held hx hk ho)), ⟨_, rfl, ?_, rfl, rfl, fun k hk => ?_⟩, ?_⟩
    · exact (Tab.get_ins _ _ _ _ _).trans (if_pos rfl)
    · exact (Tab.get_ins _ _ _ _ _).trans (if_neg (Ne.symm hk))
    · exact (modHif_frame (n := 0) (fun h => { h with session := some (withHeld x (Reg.loomWCfg w) (v &&& 0x3F7FFF)) })).keeps
  · exact (hcfg hrun).trans (congrArg _ (doLoomWCfgWrite_refused hs hv))
  · exact ⟨_, (hcfg hrun).trans (congrArg _ (doLoomWCfgWrite_simAccept hs hv)), simAcceptWritten_cfg _, simAcceptWritten_simLeave _,
      simAcceptWritten_keeps _⟩

end Sys2Proof.Machine
end

section
/-! PROOFS: the words of the Wormin instructions (O19). -/

namespace Sys2Proof

/-! ## The fields of a word of each format (R126) -/

/-- Bits above the low part of a word are bits of its high part. -/
theorem extract_above {a b : Nat} (hi : BitVec a) (lo : BitVec b) (k n : Nat) :
    (hi ++ lo).extractLsb' (k + b) n = hi.extractLsb' k n := by
  rw [BitVec.extractLsb'_append_eq_of_le (Nat.le_add_left b k), Nat.add_sub_cancel]

/-- The bits below the high part of a word are its low part. -/
theorem extract_low {a b : Nat} (hi : BitVec a) (lo : BitVec b) : (hi ++ lo).extractLsb' 0 b = lo :=
  BitVec.extractLsb'_append_eq_right

section
variable (op fn : BitVec 7)

@[simp] theorem opField_wordA (f : FmtA) : opField (wordA op fn f) = op := by
  show (op ++ f.d ++ f.s1 ++ f.s2 ++ fn ++ f.pr).extractLsb' (0 + 5 + 5 + 5 + 7 + 3) 7 = op
  simp only [extract_above, BitVec.extractLsb'_eq_self]
@[simp] theorem opField_wordI (f : FmtI) : opField (wordI op f) = op := by
  show (op ++ f.d ++ f.s1 ++ f.imm ++ f.pr).extractLsb' (0 + 5 + 5 + 12 + 3) 7 = op
  simp only [extract_above, BitVec.extractLsb'_eq_self]
@[simp] theorem opField_wordU (f : FmtU) : opField (wordU op f) = op := by
  show (op ++ f.d ++ f.imm ++ f.pr).extractLsb' (0 + 5 + 17 + 3) 7 = op
  simp only [extract_above, BitVec.extractLsb'_eq_self]
@[simp] theorem opField_wordM (f : FmtM) : opField (wordM op f) = op := by
  show (op ++ f.d ++ f.base ++ f.off ++ f.pr).extractLsb' (0 + 5 + 5 + 12 + 3) 7 = op
  simp only [extract_above, BitVec.extractLsb'_eq_self]
@[simp] theorem opField_wordX (f : FmtX) : opField (wordX op fn f) = op := by
  show (op ++ f.acc ++ f.mode ++ f.s1 ++ f.s2 ++ fn ++ f.pr).extractLsb' (0 + 2 + 3 + 5 + 5 + 7 + 3) 7 = op
  simp only [extract_above, BitVec.extractLsb'_eq_self]

@[simp] theorem fnField_wordA (f : FmtA) : fnField (wordA op fn f) = fn := by
  show (op ++ f.d ++ f.s1 ++ f.s2 ++ fn ++ f.pr).extractLsb' (0 + 3) 7 = fn
  simp only [extract_above, extract_low]
@[simp] theorem fnField_wordX (f : FmtX) : fnField (wordX op fn f) = fn := by
  show (op ++ f.acc ++ f.mode ++ f.s1 ++ f.s2 ++ fn ++ f.pr).extractLsb' (0 + 3) 7 = fn
  simp only [extract_above, extract_low]

@[simp] theorem fieldsA_wordA (f : FmtA) : fieldsA (wordA op fn f) = f := by
  let w := op ++ f.d ++ f.s1 ++ f.s2 ++ fn ++ f.pr
  show FmtA.mk (w.extractLsb' 0 3) (w.extractLsb' (0 + 5 + 5 + 7 + 3) 5) (w.extractLsb' (0 + 5 + 7 + 3) 5)
    (w.extractLsb' (0 + 7 + 3) 5) = f
  simp only [w, extract_above, extract_low]
@[simp] theorem fieldsI_wordI (f : FmtI) : fieldsI (wordI op f) = f := by
  let w := op ++ f.d ++ f.s1 ++ f.imm ++ f.pr
  show FmtI.mk (w.extractLsb' 0 3) (w.extractLsb' (0 + 5 + 12 + 3) 5) (w.extractLsb' (0 + 12 + 3) 5) (w.extractLsb' (0 + 3) 12) = f
  simp only [w, extract_above, extract_low]
@[simp] theorem fieldsU_wordU (f : FmtU) : fieldsU (wordU op f) = f := by
  let w := op ++ f.d ++ f.imm ++ f.pr
  show FmtU.mk (w.extractLsb' 0 3) (w.extractLsb' (0 + 17 + 3) 5) (w.extractLsb' (0 + 3) 17) = f
  simp only [w, extract_above, extract_low]
@[simp] theorem fieldsM_wordM (f : FmtM) : fieldsM (wordM op f) = f := by
  let w := op ++ f.d ++ f.base ++ f.off ++ f.pr
  show FmtM.mk (w.extractLsb' 0 3) (w.extractLsb' (0 + 5 + 12 + 3) 5) (w.extractLsb' (0 + 12 + 3) 5) (w.extractLsb' (0 + 3) 12) = f
  simp only [w, extract_above, extract_low]
@[simp] theorem fieldsX_wordX (f : FmtX) : fieldsX (wordX op fn f) = f := by
  let w := op ++ f.acc ++ f.mode ++ f.s1 ++ f.s2 ++ fn ++ f.pr
  show FmtX.mk (w.extractLsb' 0 3) (w.extractLsb' (0 + 3 + 5 + 5 + 7 + 3) 2) (w.extractLsb' (0 + 5 + 5 + 7 + 3) 3)
    (w.extractLsb' (0 + 5 + 7 + 3) 5) (w.extractLsb' (0 + 7 + 3) 5) = f
  simp only [w, extract_above, extract_low]
end

/-! ## A word is put together from its fields: no bit is dropped (R126) -/

/-- Two neighbouring fields are one field. -/
theorem append_fields (w : Word) {b n : Nat} (a k : Nat) (h : a = b + n) :
    w.extractLsb' a k ++ w.extractLsb' b n = w.extractLsb' b (k + n) :=
  BitVec.extractLsb'_append_extractLsb'_eq_extractLsb' h

section
variable {w : Word} {op fn : BitVec 7}

theorem wordA_fields (ho : opField w = op) (hf : fnField w = fn) : wordA op fn (fieldsA w) = w := by
  subst ho hf
  show w.extractLsb' 25 7 ++ w.extractLsb' 20 5 ++ w.extractLsb' 15 5 ++ w.extractLsb' 10 5 ++ w.extractLsb' 3 7 ++
    w.extractLsb' 0 3 = w
  rw [append_fields w 25 7 rfl, append_fields w 20 _ rfl, append_fields w 15 _ rfl, append_fields w 10 _ rfl, append_fields w 3 _ rfl]
  exact BitVec.extractLsb'_eq_self
theorem wordI_fields (ho : opField w = op) : wordI op (fieldsI w) = w := by
  subst ho
  show w.extractLsb' 25 7 ++ w.extractLsb' 20 5 ++ w.extractLsb' 15 5 ++ w.extractLsb' 3 12 ++ w.extractLsb' 0 3 = w
  rw [append_fields w 25 7 rfl, append_fields w 20 _ rfl, append_fields w 15 _ rfl, append_fields w 3 _ rfl]
  exact BitVec.extractLsb'_eq_self
theorem wordU_fields (ho : opField w = op) : wordU op (fieldsU w) = w := by
  subst ho
  show w.extractLsb' 25 7 ++ w.extractLsb' 20 5 ++ w.extractLsb' 3 17 ++ w.extractLsb' 0 3 = w
  rw [append_fields w 25 7 rfl, append_fields w 20 _ rfl, append_fields w 3 _ rfl]
  exact BitVec.extractLsb'_eq_self
theorem wordM_fields (ho : opField w = op) : wordM op (fieldsM w) = w := wordI_fields (w := w) ho
theorem wordX_fields (ho : opField w = op) (hf : fnField w = fn) : wordX op fn (fieldsX w) = w := by
  subst ho hf
  show w.extractLsb' 25 7 ++ w.extractLsb' 23 2 ++ w.extractLsb' 20 3 ++ w.extractLsb' 15 5 ++ w.extractLsb' 10 5 ++
    w.extractLsb' 3 7 ++ w.extractLsb' 0 3 = w
  rw [append_fields w 25 7 rfl, append_fields w 23 _ rfl, append_fields w 20 _ rfl, append_fields w 15 _ rfl, append_fields w 10 _ rfl,
    append_fields w 3 _ rfl]
  exact BitVec.extractLsb'_eq_self
end

/-! ## Decoding a word that was encoded -/

/-- An instruction of both executors decodes on each. -/
theorem decode_of_shared {x : Who} {w : Word} {i : Instr} (h : decodeShared x w = some i) : decodeWormin x w = some i := by
  cases x <;> simp [decodeWormin, h]

/-- An instruction of a tick core alone decodes there, its word being no shared instruction's. -/
theorem decode_of_tick {l : Fin 64} {w : Word} {i : Instr} (hs : decodeShared (.core l) w = none) (h : decodeTick l w = some i) :
    decodeWormin (.core l) w = some i := by
  simp [decodeWormin, hs, h]

/-- Every instruction's word decodes to the instruction with its operands (R126, R129). -/
theorem decode_encode {i : Instr} {x : Who} {w : Word} (h : encodeWormin i = some (x, w)) : decodeWormin x w = some i := by
  cases i <;> cases h
  case txpub l f q | txarm l f q =>
    cases q <;> exact decode_of_tick (by rw [decodeShared, opField_wordA]; rfl)
      (by rw [decodeTick, opField_wordA, fnField_wordA, fieldsA_wordA]; rfl)
  case div | divu | rem | remu | fadd | fsub | fmul | fdiv | fsqrt | fmin | fmax | fneg | fabs | fmac | fceq | fclt | fcle | fcun
      | fcvtw | fcvtwt | fcvtwu | fcvtwut | fcvtq15 | fcvtq15t | fcvtq31 | fcvtq31t | fcvtsw | fcvtswu | fcvtsq15 | fcvtsq31
      | waitsm | lrow | tend | txout | txabort | ceval | cset | csett | cget | cinj | swr | sfence | txswr =>
    exact decode_of_tick (by rw [decodeShared, opField_wordA]; rfl)
      (by rw [decodeTick, opField_wordA, fnField_wordA, fieldsA_wordA]; rfl)
  case rdsr | clrf | limg | jr | callr | srd =>
    exact decode_of_tick (by rw [decodeShared, opField_wordI]; rfl) (by rw [decodeTick, opField_wordI, fieldsI_wordI]; rfl)
  case br | call =>
    exact decode_of_tick (by rw [decodeShared, opField_wordU]; rfl) (by rw [decodeTick, opField_wordU, fieldsU_wordU]; rfl)
  case lb | lbu | lh | lhu | lw | ld | sb | sh | sw | sd | la | sa | pfsm | txw | txwd =>
    exact decode_of_tick (by rw [decodeShared, opField_wordM]; rfl) (by rw [decodeTick, opField_wordM, fieldsM_wordM]; rfl)
  case macq | macq31 | accq15 | accq31 | magsq | ashr | amov | sdft =>
    exact decode_of_shared (by rw [decodeShared, opField_wordX, fnField_wordX, fieldsX_wordX]; rfl)
  case addi | andi | ori | xori | slli | srli | srai | cmpi | hget | trip | tripbc | hmark | hpass =>
    exact decode_of_shared (by rw [decodeShared, opField_wordI, fieldsI_wordI]; rfl)
  case lui | llo => exact decode_of_shared (by rw [decodeShared, opField_wordU, fieldsU_wordU]; rfl)
  case hld | hst => exact decode_of_shared (by rw [decodeShared, opField_wordM, fieldsM_wordM]; rfl)
  all_goals exact decode_of_shared (by rw [decodeShared, opField_wordA, fnField_wordA, fieldsA_wordA]; rfl)

/-! ## Encoding what a word decoded to -/

section
variable {i : Instr} {x : Who} {w : Word} {op fn : BitVec 7}

theorem encoded_A (h : encodeWormin i = some (x, wordA op fn (fieldsA w))) (ho : (opField w).toNat = op.toNat)
    (hf : (fnField w).toNat = fn.toNat) : encodeWormin i = some (x, w) := by
  rw [h, wordA_fields (BitVec.eq_of_toNat_eq ho) (BitVec.eq_of_toNat_eq hf)]
theorem encoded_I (h : encodeWormin i = some (x, wordI op (fieldsI w))) (ho : (opField w).toNat = op.toNat) :
    encodeWormin i = some (x, w) := by
  rw [h, wordI_fields (BitVec.eq_of_toNat_eq ho)]
theorem encoded_U (h : encodeWormin i = some (x, wordU op (fieldsU w))) (ho : (opField w).toNat = op.toNat) :
    encodeWormin i = some (x, w) := by
  rw [h, wordU_fields (BitVec.eq_of_toNat_eq ho)]
theorem encoded_M (h : encodeWormin i = some (x, wordM op (fieldsM w))) (ho : (opField w).toNat = op.toNat) :
    encodeWormin i = some (x, w) := by
  rw [h, wordM_fields (BitVec.eq_of_toNat_eq ho)]
theorem encoded_X (h : encodeWormin i = some (x, wordX op fn (fieldsX w))) (ho : (opField w).toNat = op.toNat)
    (hf : (fnField w).toNat = fn.toNat) : encodeWormin i = some (x, w) := by
  rw [h, wordX_fields (BitVec.eq_of_toNat_eq ho) (BitVec.eq_of_toNat_eq hf)]
end

/-- A word that both executors decode is the word of what it decodes to (R126, R129). -/
theorem encode_decodeShared {x : Who} {w : Word} {i : Instr} (h : decodeShared x w = some i) : encodeWormin i = some (x, w) := by
  unfold decodeShared at h
  split at h <;> rename_i ho
  case h_1 | h_11 | h_13 | h_16 | h_17 => split at h <;> rename_i hf <;> cases h <;> exact encoded_A rfl ho hf
  case h_14 | h_15 => split at h <;> rename_i hf <;> cases h <;> exact encoded_X rfl ho hf
  case h_9 | h_10 => cases h; exact encoded_U rfl ho
  case h_19 | h_20 => cases h; exact encoded_M rfl ho
  case h_25 => cases h
  all_goals cases h; exact encoded_I rfl ho

/-- A word that a tick core alone decodes is the word of what it decodes to (R126, R129). -/
theorem encode_decodeTick {l : Fin 64} {w : Word} {i : Instr} (h : decodeTick l w = some i) :
    encodeWormin i = some (.core l, w) := by
  unfold decodeTick at h
  split at h <;> rename_i ho
  case h_21 => cases h; exact encoded_A rfl ho rfl
  case h_2 | h_3 | h_22 | h_25 | h_26 | h_38 => cases h; exact encoded_I rfl ho
  case h_23 | h_24 => cases h; exact encoded_U rfl ho
  case h_7 | h_8 | h_9 | h_10 | h_11 | h_12 | h_13 | h_14 | h_15 | h_16 | h_17 | h_18 | h_19 | h_28 | h_29 =>
    cases h; exact encoded_M rfl ho
  case h_42 => cases h
  all_goals split at h <;> rename_i hf <;> cases h <;> exact encoded_A rfl ho hf

theorem encode_decode {x : Who} {w : Word} {i : Instr} (h : decodeWormin x w = some i) : encodeWormin i = some (x, w) := by
  cases x with
  | record u id => exact encode_decodeShared h
  | core l =>
    rcases Option.or_eq_some_iff.1 h with hs | ⟨-, ht⟩
    · exact encode_decodeShared hs
    · exact encode_decodeTick ht

/-- Settles O19: each direction is a lemma on the words of the formats. -/
theorem worminEncodingRoundTrip : Obligations.WorminEncodingRoundTrip := by
  unfold Obligations.WorminEncodingRoundTrip
  exact ⟨fun _ _ _ h => decode_encode h, fun _ _ _ h => encode_decode h⟩

end Sys2Proof
end

section
/-! PROOFS: the integer instructions on a tick core (O1). -/

namespace Sys2Proof.Machine

/-! ## Values of the integer instructions (R121) -/

/-- A value clamped by the model is the value clamped by the rule, flagged where it lies outside. -/
theorem clampTo_eq {lo hi : Int} (h : lo ≤ hi) (fl : Word) (x : Int) :
    clampTo lo hi fl x = (clamped lo hi x, flagOutside lo hi fl x) := by
  unfold clampTo clamped flagOutside
  split
  · rw [if_neg (by omega), max_eq_left (by omega)]
  · split
    · rw [if_neg (by omega), min_eq_left (by omega), max_eq_right h]
    · rw [if_pos (by omega), min_eq_right (by omega), max_eq_right (by omega)]

theorem satI_eq (x : Int) : satI x = signedSat x := by
  rw [satI, clampTo_eq (by decide)]; rfl

theorem satU_eq (x : Int) : satU x = unsignedSat x := by
  rw [satU, clampTo_eq (by decide)]; rfl

theorem min_eq_slt (a b : Word) : (if b.toInt < a.toInt then b else a) = if a.slt b then a else b := by
  rcases lt_trichotomy a.toInt b.toInt with h | h | h
  · rw [if_neg (by omega), if_pos (BitVec.slt_iff_toInt_lt.2 h)]
  · rw [BitVec.eq_of_toInt_eq h]; simp
  · rw [if_pos h, if_neg (by rw [BitVec.slt_iff_toInt_lt]; omega)]

theorem max_eq_slt (a b : Word) : (if a.toInt < b.toInt then b else a) = if a.slt b then b else a := by
  simp only [BitVec.slt_iff_toInt_lt]

theorem minu_eq_ult (a b : Word) : (if b < a then b else a) = if a.ult b then a else b := by
  simp only [BitVec.ult_iff_lt, BitVec.lt_def]
  rcases lt_trichotomy a.toNat b.toNat with h | h | h
  · rw [if_neg (by omega), if_pos h]
  · rw [BitVec.eq_of_toNat_eq h, ite_self]
  · rw [if_pos h, if_neg (by omega)]

theorem maxu_eq_ult (a b : Word) : (if a < b then b else a) = if a.ult b then b else a := by
  simp only [BitVec.ult_iff_lt]

/-- Leading zeros of a word with no bit from `n` on: those above its highest set bit. -/
theorem clzFrom_eq (n : Nat) (w : Word) (h : w.toNat < 2 ^ n) : clzFrom n w = if w = 0 then n else n - 1 - w.toNat.log2 := by
  induction n with
  | zero => 
    have : w = 0 := BitVec.eq_of_toNat_eq (by simpa using h)
    simp [clzFrom, this]
  | succ n ih =>
    unfold clzFrom
    by_cases hb : w.getLsbD n = true
    · have h1 : 2 ^ n ≤ w.toNat := Nat.ge_two_pow_of_testBit hb
      have h2 : w ≠ 0 := by rintro rfl; simp at hb
      have h3 : w.toNat.log2 = n := (Nat.log2_eq_iff (by omega)).2 ⟨h1, h⟩
      rw [if_pos hb, if_neg h2, h3]; omega
    · have h1 : w.toNat < 2 ^ n := by
        by_contra hc
        have h2 : w.toNat.testBit n = true := Nat.testBit_of_two_pow_le_and_two_pow_add_one_gt (by omega) h
        exact hb h2
      rw [if_neg hb, ih h1]
      split
      · rfl
      · rename_i h0
        have h2 : w.toNat.log2 < n := (Nat.log2_lt (by intro hc; exact h0 (BitVec.eq_of_toNat_eq hc))).2 h1
        omega

theorem popTo_eq (n : Nat) (w : Word) : popTo n w = (List.range n).countP w.getLsbD := by
  induction n with
  | zero => rfl
  | succ n ih => 
    rw [popTo, ih, List.range_succ, List.countP_append, List.countP_singleton]
    cases w.getLsbD n <;> rfl

theorem and_low_half (a : Word) : a &&& 0xFFFF = BitVec.ofNat 32 (a.toNat % 2 ^ 16) := by
  refine BitVec.eq_of_toNat_eq ?_
  rw [BitVec.toNat_and, BitVec.toNat_ofNat, show (0xFFFF : Word).toNat = 2 ^ 16 - 1 from rfl, Nat.and_two_pow_sub_one_eq_mod]
  omega

/-- LUI: the immediate lies above fifteen zeros. -/
theorem lui_value (imm : BitVec 17) : (zx imm : Word) <<< 15 = imm ++ 0#15 := by
  ext i hi
  refine Eq.trans ?_ (BitVec.getElem_append (x := imm) (y := 0#15) hi).symm
  simp only [zx, BitVec.getElem_shiftLeft, BitVec.getElem_setWidth]
  by_cases h : i < 15
  · simp [h]
  · simp [h, BitVec.getLsbD_eq_getElem (show i - 15 < 17 by omega)]

/-- The bits from fifteen on: what LLO keeps of its destination. -/
theorem getLsbD_high_mask {i : Nat} (hi : i < 32) : (0xFFFF8000 : Word).getLsbD i = decide (15 ≤ i) := by
  revert i; decide

/-- LLO: the immediate takes the place of the low fifteen bits. -/
theorem llo_value (d : Word) (imm : BitVec 17) (h : imm.toNat < 2 ^ 15) :
    (d &&& 0xFFFF8000) ||| zx imm = d.extractLsb' 15 17 ++ imm.setWidth 15 := by
  ext i hi
  refine Eq.trans ?_ (BitVec.getElem_append (x := d.extractLsb' 15 17) (y := imm.setWidth 15) hi).symm
  rw [← BitVec.getLsbD_eq_getElem, BitVec.getLsbD_or, BitVec.getLsbD_and, getLsbD_high_mask hi, zx, BitVec.getLsbD_setWidth]
  by_cases h15 : i < 15
  · simp [h15, show ¬ 15 ≤ i by omega, BitVec.getLsbD_eq_getElem (show i < 17 by omega), show i < 32 by omega]
  · have : imm.getLsbD i = false := Nat.testBit_lt_two_pow (h.trans_le (Nat.pow_le_pow_right (by decide) (by omega)))
    simp [h15, this, show 15 ≤ i by omega, BitVec.getLsbD_eq_getElem (show i < 32 by omega)]

/-! ## A register operation on a tick core (R110, R136) -/

section
variable {s : State} {l : Fin 64} {i : Instr} {lat : Nat}

theorem opA_computes {f : FmtA} {fn : Word → Word → Word × Word} {v fl : Word} (h : Issues s l f.pr)
    (hi : exec i s = ok (runAlu (.core l) (opA f lat fn) s))
    (hv : fn ((getCore s l).ctx.rg f.s1.toNat) ((getCore s l).ctx.rg f.s2.toNat) = (v, fl)) :
    CoreComputes i l 1 s (RegResult f.d.toNat v fl) := by
  refine runAlu_core hi h rfl le_rfl ?_
  simp only [opA, hv]
  exact apply_reg ..

theorem opA1_computes {f : FmtA} {fn : Word → Word × Word} {v fl : Word} (h : Issues s l f.pr) (hs2 : f.s2 = 0)
    (hi : exec i s = ok (runAlu (.core l) (opA1 f lat fn) s)) (hv : fn ((getCore s l).ctx.rg f.s1.toNat) = (v, fl)) :
    CoreComputes i l 1 s (RegResult f.d.toNat v fl) := by
  refine runAlu_core hi h (beq_iff_eq.2 hs2) le_rfl ?_
  simp only [opA1, opA, hv]
  exact apply_reg ..

theorem opI_computes {f : FmtI} {legal : Bool} {fn : Word → Word} {v : Word} (h : Issues s l f.pr) (hl : legal = true)
    (hi : exec i s = ok (runAlu (.core l) (opI f legal fn) s)) (hv : fn ((getCore s l).ctx.rg f.s1.toNat) = v) :
    CoreComputes i l 1 s (RegResult f.d.toNat v 0) := by
  subst hv
  exact runAlu_core hi h hl le_rfl (apply_reg ..)

theorem opU_computes {f : FmtU} {legal rd : Bool} {fn : Word → Word} {v : Word} (h : Issues s l f.pr) (hl : legal = true)
    (hi : exec i s = ok (runAlu (.core l) (opU f legal rd fn) s)) (hv : fn ((getCore s l).ctx.rg f.d.toNat) = v) :
    CoreComputes i l 1 s (RegResult f.d.toNat v 0) := by
  subst hv
  exact runAlu_core hi h hl le_rfl (apply_reg ..)

end

/-! ## The groups of integer instructions -/

section
variable {s : State} {l : Fin 64}

theorem integerOps_compute {f : FmtA} (h : Issues s l f.pr) : ∀ e ∈ integerOps, CoreComputes (e.1 (.core l) f) l 1 s
    (RegResult f.d.toNat (e.2.2 ((getCore s l).ctx.rg f.s1.toNat) ((getCore s l).ctx.rg f.s2.toNat)) 0) := by
  have value {v w : Word} (e : v = w) : (v, (0 : Word)) = (w, 0) := by rw [e]
  simp only [integerOps, List.forall_mem_cons]
  refine ⟨opA_computes h rfl rfl, opA_computes h rfl rfl, opA_computes h rfl rfl, opA_computes h rfl rfl, opA_computes h rfl rfl,
    opA_computes h rfl rfl, opA_computes h rfl rfl, opA_computes h rfl rfl, opA_computes h rfl (value (min_eq_slt _ _)),
    opA_computes h rfl (value (max_eq_slt _ _)), opA_computes h rfl (value (minu_eq_ult _ _)),
    opA_computes h rfl (value (maxu_eq_ult _ _)), opA_computes h rfl rfl, opA_computes h rfl (value ?_), opA_computes h rfl rfl,
    fun _ he => nomatch he⟩
  exact congrArg (BitVec.ofInt 32) (Int.fdiv_eq_ediv_of_nonneg _ (by decide))

theorem saturatingOps_compute {f : FmtA} (h : Issues s l f.pr) : ∀ e ∈ saturatingOps, CoreComputes (e.1 (.core l) f) l 1 s
    (RegResult f.d.toNat (e.2 ((getCore s l).ctx.rg f.s1.toNat) ((getCore s l).ctx.rg f.s2.toNat)).1
      (e.2 ((getCore s l).ctx.rg f.s1.toNat) ((getCore s l).ctx.rg f.s2.toNat)).2) := by
  simp only [saturatingOps, List.forall_mem_cons]
  exact ⟨opA_computes h rfl (satI_eq _), opA_computes h rfl (satI_eq _), opA_computes h rfl (satU_eq _),
    opA_computes h rfl (satU_eq _), fun _ he => nomatch he⟩

theorem unaryOps_compute {f : FmtA} (h : Issues s l f.pr) (hs2 : f.s2 = 0) : ∀ e ∈ unaryOps, CoreComputes (e.1 (.core l) f) l 1 s
    (RegResult f.d.toNat (e.2 ((getCore s l).ctx.rg f.s1.toNat)).1 (e.2 ((getCore s l).ctx.rg f.s1.toNat)).2) := by
  simp only [unaryOps, List.forall_mem_cons]
  refine ⟨opA1_computes h hs2 rfl (satI_eq _), opA1_computes h hs2 rfl ?_, opA1_computes h hs2 rfl ?_, opA1_computes h hs2 rfl rfl,
    opA1_computes h hs2 rfl rfl, opA1_computes h hs2 rfl ?_, fun _ he => nomatch he⟩
  · rw [pure1, clzFrom_eq 32 _ (BitVec.isLt _)]
  · rw [pure1, popTo_eq]
  · rw [pure1, and_low_half]

theorem immediateOps_compute {f : FmtI} (h : Issues s l f.pr) : ∀ e ∈ immediateOps, CoreComputes (e.1 (.core l) f) l 1 s
    (RegResult f.d.toNat (e.2 ((getCore s l).ctx.rg f.s1.toNat) f.imm) 0) := by
  simp only [immediateOps, List.forall_mem_cons]
  exact ⟨opI_computes h rfl rfl rfl, opI_computes h rfl rfl rfl, opI_computes h rfl rfl rfl, opI_computes h rfl rfl rfl,
    fun _ he => nomatch he⟩

theorem shiftImmOps_compute {f : FmtI} (h : Issues s l f.pr) (himm : f.imm.toNat < 32) :
    ∀ e ∈ shiftImmOps, CoreComputes (e.1 (.core l) f) l 1 s
      (RegResult f.d.toNat (e.2 ((getCore s l).ctx.rg f.s1.toNat) f.imm.toNat) 0) := by
  have hl : shImmOk f = true := decide_eq_true himm
  simp only [shiftImmOps, List.forall_mem_cons]
  exact ⟨opI_computes h hl rfl rfl, opI_computes h hl rfl rfl, opI_computes h hl rfl rfl, fun _ he => nomatch he⟩

end

/-- Settles O1: each group is the lemma of its table. -/
theorem integerRegisterInstructions : Obligations.IntegerRegisterInstructions := by
  unfold Obligations.IntegerRegisterInstructions
  refine fun l s => ⟨fun f h => ⟨integerOps_compute h, saturatingOps_compute h, fun e he hs2 => unaryOps_compute h hs2 e he⟩,
    fun f h => ⟨immediateOps_compute h, fun e he himm => shiftImmOps_compute h himm e he⟩, fun f h => ⟨?_, fun himm => ?_⟩⟩
  · exact opU_computes h rfl rfl (lui_value f.imm)
  · exact opU_computes h (decide_eq_true himm) rfl (llo_value _ f.imm himm)

end Sys2Proof.Machine
end

section
/-! PROOFS: division and special registers on a tick core (O3). -/

namespace Sys2Proof.Machine

/-! ## Division (R121) -/

/-- The one quotient that does not fit. -/
theorem divS_corner (a b : Word) : (a = 0x80000000 ∧ b = 0xFFFFFFFF) ↔ (a.toInt = -2 ^ 31 ∧ b.toInt = -1) := by
  have ha : (0x80000000 : Word).toInt = -2 ^ 31 := by decide
  have hb : (0xFFFFFFFF : Word).toInt = -1 := by decide
  rw [← ha, ← hb, BitVec.toInt_inj, BitVec.toInt_inj]

section
variable {s : State} {l : Fin 64} {i : Instr}

theorem opDiv_computes {f : FmtA} {fn : Word → Word → Word × Word} {r : Word × Word} (h : Issues s l f.pr)
    (hi : exec i s = ok (runAlu (.core l) (opDiv f fn) s))
    (hr : fn ((getCore s l).ctx.rg f.s1.toNat) ((getCore s l).ctx.rg f.s2.toNat) = r) :
    CoreComputes i l 18 s (RegResult f.d.toNat r.1 r.2) := by
  subst hr
  exact runAlu_core hi h rfl le_rfl (apply_reg ..)

theorem divideOps_compute {f : FmtA} (h : Issues s l f.pr) : ∀ e ∈ divideOps, CoreComputes (e.1 l f) l 18 s
    (RegResult f.d.toNat (e.2 ((getCore s l).ctx.rg f.s1.toNat) ((getCore s l).ctx.rg f.s2.toNat)).1
      (e.2 ((getCore s l).ctx.rg f.s1.toNat) ((getCore s l).ctx.rg f.s2.toNat)).2) := by
  simp only [divideOps, List.forall_mem_cons]
  refine ⟨opDiv_computes h rfl ?_, opDiv_computes h rfl rfl, opDiv_computes h rfl rfl, opDiv_computes h rfl rfl,
    fun _ he => nomatch he⟩
  simp only [divS, divS_corner]
  rfl

/-! ## Special registers (R112, R136) -/

/-- An instruction whose work ends by retiring with a result: its core alone changes. -/
theorem runCore_retires {legal : Bool} {pr : BitVec 3} {srcs : List Nat} {go : Nat → Core → State → State} {cost lat : Nat}
    {chainW : Bool} {w : Wr} {res : Ctx → Ctx → Prop} (h : Issues s l pr) (hl : legal = true)
    (hi : exec i s = ok (runCore l legal pr srcs none s go))
    (hgo : let t0 := issueAt (getCore s l) srcs none
      let c := { getCore s l with cyc := t0 }
      go t0 c (setCore s l c) = retire (setCore s l c) l t0 cost lat chainW w)
    (hres : res (getCore s l).ctx ((getCore s l).ctx.apply w)) : CoreComputes i l cost s res := by
  refine ⟨_, by rw [hi, runCore_issues h hl, hgo, retire, modCore, getCore_setCore_self,
    setCore_setCore (by exact h.1.1)], rfl, ?_, hres⟩
  exact Nat.add_le_add_right (cyc_le_issueAt ..) _

theorem rdsr_computes {f : FmtI} {v : Word} (h : Issues s l f.pr) (hs1 : f.s1 = 0) (hn : f.imm.toNat < 4)
    (hv : (match f.imm.toNat with
      | 0 => (getCore s l).pc | 1 => (getCore s l).ctx.fs | 2 => W s.time.tick | _ => W (getCore s l).cyc) = v) :
    CoreComputes (.rdsr l f) l 1 s (RegResult f.d.toNat v 0) := by
  subst hv
  exact runCore_retires h (by simp [hs1, hn]) rfl rfl (apply_reg ..)

/-- CLRF clears the flags its mask names and no others. -/
theorem clrf_computes {f : FmtI} (h : Issues s l f.pr) (hs1 : f.s1 = 0) (hd : f.d = 0) (hn : f.imm.toNat < 2 ^ 10) :
    CoreComputes (.clrf l f) l 1 s (fun c c' =>
      (∀ i, c'.rg i = c.rg i) ∧ (∀ k, c'.ra k = c.ra k) ∧ c'.p = c.p ∧ c'.fs = c.fs &&& ~~~ (f.imm.setWidth 32)) := by
  let c := (getCore s l).ctx
  let t0 := issueAt (getCore s l) [] none
  refine ⟨{ getCore s l with ctx := { c with fs := c.fs &&& ~~~ (f.imm.setWidth 32) }, cyc := t0 + 1, pc := (getCore s l).pc + 4 },
    ?_, rfl, Nat.add_le_add_right (cyc_le_issueAt ..) _, fun _ => rfl, fun _ => rfl, rfl, rfl⟩
  have he : exec (.clrf l f) s = ok (runCore l (f.d == 0 && f.s1 == 0 && f.imm.toNat < 2 ^ 10) f.pr [] none s (fun t0 _ s =>
      modCore (retire s l t0 1 1 false Wr.none) l (fun c => { c with ctx := { c.ctx with fs := c.ctx.fs &&& ~~~ (zx f.imm) } }))) :=
    rfl
  rw [he, runCore_issues h (by simpa [hs1, hd] using hn)]
  simp only [retire, modCore, getCore_setCore_self]
  rw [setCore_setCore (by exact h.1.1), setCore_setCore (by exact h.1.1), apply_none]
  rfl

end

/-- Settles O3: division by the lemma of its table, each special register by its number. -/
theorem divisionAndSpecialRegisters : Obligations.DivisionAndSpecialRegisters := by
  unfold Obligations.DivisionAndSpecialRegisters
  refine fun l s => ⟨fun f h => divideOps_compute h, fun f h hs1 => ⟨fun hi => ?_, fun hi => ?_, fun hi => ?_, fun hi => ?_,
    fun hd hn => clrf_computes h hs1 hd hn⟩⟩ <;> exact rdsr_computes h hs1 (by simp [hi]) (by simp [hi])

end Sys2Proof.Machine
end

section
/-! PROOFS: the fixed-point instructions on a tick core (O5). -/

namespace Sys2Proof.Machine

/-! ## Saturation (R123, R124) -/

theorem fx_satq15 (x : Int) : fx (satq15 x) = q15Sat x := by
  rw [satq15, clampTo_eq (by decide)]; rfl

theorem fx_satq31 (x : Int) : fx (satq31 x) = q31Sat x := by
  rw [satq31, clampTo_eq (by decide)]; rfl

theorem sata_eq (x : Int) : sata x = accSat x := clampTo_eq (by decide) _ _

theorem clamped_bounds {lo hi : Int} (h : lo ≤ hi) (x : Int) : lo ≤ clamped lo hi x ∧ clamped lo hi x ≤ hi := by
  unfold clamped; omega

/-- An accumulator holds every value that saturation leaves. -/
theorem ai_accSat (x : Int) : (ai (accSat x).1).toInt = (accSat x).1 := by
  obtain ⟨h1, h2⟩ := clamped_bounds (lo := -2 ^ 39) (hi := 2 ^ 39 - 1) (by decide) x
  exact BitVec.toInt_ofInt_eq_self (by decide) h1 (by simp only [accSat]; omega)

/-! ## Rounding (R122) -/

theorem rne_nearest (x : Int) (k : Nat) : NearestEven x k (rne x k) := by
  have hm : (0 : Int) < 2 ^ k := by positivity
  have hd : (2 ^ k : Int) * x.fdiv (2 ^ k) + x.fmod (2 ^ k) = x := Int.mul_fdiv_add_fmod x (2 ^ k)
  have h0 : 0 ≤ x.fmod (2 ^ k) := Int.fmod_nonneg_of_pos x hm
  have h1 : x.fmod (2 ^ k) < 2 ^ k := Int.fmod_lt_of_pos x hm
  have hp : (x.fdiv (2 ^ k)).fmod 2 = x.fdiv (2 ^ k) % 2 := Int.fmod_eq_emod_of_nonneg _ (by decide)
  have hc : ((2 ^ k : Nat) : Int) = 2 ^ k := by norm_cast
  unfold NearestEven rne
  simp only [hp]
  generalize x.fdiv (2 ^ k) = q at *
  generalize x.fmod (2 ^ k) = r at *
  generalize hM : (2 : Int) ^ k = M at *
  generalize hN : (2 : Nat) ^ k = N at *
  have e1 : (q + 1) * M = M * q + M := by ring
  have e0 : q * M = M * q := Int.mul_comm ..
  split
  · left; rw [e1]; omega
  · split
    · right
      rcases Int.emod_two_eq_zero_or_one q with h | h
      · rw [h, Int.add_zero, e0]; omega
      · rw [h, e1]; omega
    · left; rw [e0]; omega

/-! ## The groups of fixed-point instructions -/

section
variable {s : State} {l : Fin 64}

theorem fixedOps_compute {f : FmtA} (h : Issues s l f.pr) : ∀ e ∈ fixedOps, CoreComputes (e.1 (.core l) f) l 1 s
    (RegResult f.d.toNat (e.2.2 ((getCore s l).ctx.rg f.s1.toNat) ((getCore s l).ctx.rg f.s2.toNat)).1
      (e.2.2 ((getCore s l).ctx.rg f.s1.toNat) ((getCore s l).ctx.rg f.s2.toNat)).2) := by
  simp only [fixedOps, List.forall_mem_cons]
  exact ⟨opA_computes h rfl (fx_satq15 _), opA_computes h rfl (fx_satq15 _), opA_computes h rfl (fx_satq15 _),
    opA_computes h rfl (fx_satq31 _), opA_computes h rfl (fx_satq31 _), opA_computes h rfl (fx_satq31 _), fun _ he => nomatch he⟩

theorem fixedUnaryOps_compute {f : FmtA} (h : Issues s l f.pr) (hs2 : f.s2 = 0) : ∀ e ∈ fixedUnaryOps,
    CoreComputes (e.1 (.core l) f) l 1 s
      (RegResult f.d.toNat (e.2 ((getCore s l).ctx.rg f.s1.toNat)).1 (e.2 ((getCore s l).ctx.rg f.s1.toNat)).2) := by
  simp only [fixedUnaryOps, List.forall_mem_cons]
  exact ⟨opA1_computes h hs2 rfl (fx_satq15 _), opA1_computes h hs2 rfl (fx_satq15 _), opA1_computes h hs2 rfl (fx_satq31 _),
    opA1_computes h hs2 rfl (fx_satq31 _), opA1_computes h hs2 rfl (fx_satq15 _), fun _ he => nomatch he⟩

/-- ATAN2 takes y from s1 and x from s2. -/
theorem atan2_computes {f : FmtA} {v : Word} (h : Issues s l f.pr)
    (hv : atan2 (q15 ((getCore s l).ctx.rg f.s1.toNat)) (q15 ((getCore s l).ctx.rg f.s2.toNat)) = v) :
    CoreComputes (.atan2 (.core l) f) l 1 s (RegResult f.d.toNat v 0) :=
  opA_computes h rfl (congrArg (·, 0) hv)

theorem atan2_zero : atan2 0 0 = 0 := rfl
theorem atan2_negative {x : Int} (h : x < 0) : atan2 0 x = BitVec.ofInt 32 (-32768) := by
  rw [atan2, if_neg (by omega), if_pos ⟨rfl, h⟩]
  rfl

end

/-- Settles O5: each group is the lemma of its table, ATAN2 by its boundary rows, rounding by `rne_nearest`. -/
theorem fixedPointInstructions : Obligations.FixedPointInstructions := by
  unfold Obligations.FixedPointInstructions
  refine ⟨fun l f s h => ⟨fixedOps_compute h, fun e he hs2 => fixedUnaryOps_compute h hs2 e he, fun hy hx => ?_, fun hy hx => ?_,
    _, atan2_computes h rfl⟩, rne_nearest⟩
  · exact atan2_computes h (by rw [hy, hx, atan2_zero])
  · exact atan2_computes h (by rw [hy, atan2_negative hx])

end Sys2Proof.Machine
end

section
/-! PROOFS: the accumulator instructions on a tick core (O4). -/

namespace Sys2Proof.Machine

/-! ## An accumulator operation under its mode (R124, R127) -/

/-- What an accumulator instruction with the operand `r` does: the accumulator takes `r` as its mode combines it, saturated once. -/
def SetsAcc (i : Instr) (l : Fin 64) (s : State) (f : FmtX) (r : Int) : Prop :=
  let acc := (getCore s l).ctx.ra f.acc.toNat
  (f.mode = 0 → CoreComputes i l 1 s (AccResult f.acc.toNat (accSat r).1 (accSat r).2)) ∧
  (f.mode = 1 → CoreComputes i l 1 s (AccResult f.acc.toNat (accSat (acc + r)).1 (accSat (acc + r)).2)) ∧
  (f.mode = 2 → CoreComputes i l 1 s (AccResult f.acc.toNat (accSat (acc - r)).1 (accSat (acc - r)).2)) ∧
  (f.mode = 3 → CoreComputes i l 1 s (AccResult f.acc.toNat (accSat (-r)).1 (accSat (-r)).2))

section
variable {s : State} {l : Fin 64} {i : Instr}

/-- The accumulator written is the saturated value itself: it fits 40 bits. -/
theorem apply_accSat (c : Ctx) (k : Nat) (x : Int) :
    AccResult k (accSat x).1 (accSat x).2 c (c.apply ⟨[], [(k, ai (sata x).1)], [], (sata x).2⟩) := by
  have h := apply_acc c k (ai (accSat x).1) (accSat x).2
  rw [ai_accSat] at h
  rwa [sata_eq]

theorem opX_computes {f : FmtX} {two extra hed : Bool} {lat : Nat} {accIn : Option Nat} {r : Ctx → Int} {v : Int}
    (h : Issues s l f.pr) (hs2 : two = false → f.s2 = 0) (hx : extra = true)
    (hi : exec i s = ok (runAlu (.core l) (opX f two lat accIn extra hed r) s)) (hr : r (getCore s l).ctx = v) :
    SetsAcc i l s f v := by
  subst hr
  have hl (hm : f.mode.toNat < 4) : (opX f two lat accIn extra hed r).legal = true := by
    cases two <;> simp_all [opX]
  have key (hm : f.mode.toNat < 4) {x : Int} (hv : combine f.mode ((getCore s l).ctx.ra f.acc.toNat) (r (getCore s l).ctx) = x) :
      CoreComputes i l 1 s (AccResult f.acc.toNat (accSat x).1 (accSat x).2) := by
    subst hv
    exact runAlu_core hi h (hl hm) le_rfl (apply_accSat ..)
  refine ⟨fun hm => ?_, fun hm => ?_, fun hm => ?_, fun hm => ?_⟩ <;> exact key (by simp [hm]) (by simp [combine, hm])

theorem accumulateOps_compute {f : FmtX} (h : Issues s l f.pr) : ∀ e ∈ accumulateOps, (e.2.2.1 = false → f.s2 = 0) →
    SetsAcc (e.1 (.core l) f) l s f (e.2.2.2 ((getCore s l).ctx.rg f.s1.toNat) ((getCore s l).ctx.rg f.s2.toNat)) := by
  simp only [accumulateOps, List.forall_mem_cons]
  exact ⟨fun hs2 => opX_computes h hs2 rfl rfl rfl, fun hs2 => opX_computes h hs2 rfl rfl rfl,
    fun hs2 => opX_computes h (fun _ => hs2 trivial) rfl rfl rfl, fun hs2 => opX_computes h (fun _ => hs2 trivial) rfl rfl rfl,
    fun hs2 => opX_computes h hs2 rfl rfl (congrArg₂ (· + ·) (pow_two _).symm (pow_two _).symm), fun _ he => nomatch he⟩

theorem ashr_sets {f : FmtX} {v : Int} (h : Issues s l f.pr) (hs2 : f.s2 = 0)
    (hv : ashr ((getCore s l).ctx.ra f.acc.toNat) (((getCore s l).ctx.rg f.s1.toNat).toNat % 64) = v) :
    SetsAcc (.ashr (.core l) f) l s f v :=
  opX_computes h (fun _ => hs2) rfl rfl hv

theorem amov_sets {f : FmtX} (h : Issues s l f.pr) (hs2 : f.s2 = 0) (hs1 : f.s1.toNat < 4) :
    SetsAcc (.amov (.core l) f) l s f ((getCore s l).ctx.ra f.s1.toNat) :=
  opX_computes h (fun _ => hs2) (decide_eq_true hs1) rfl rfl

/-! ## The accumulator pair of SDFT (R139) -/

/-- Two neighbouring accumulators written at once. -/
theorem apply_accPair (c : Ctx) (k : Nat) (x y : Int) (fl : Word) :
    let c' := c.apply ⟨[], [(k, ai (accSat x).1), (k + 1, ai (accSat y).1)], [], fl⟩
    (∀ i, c'.rg i = c.rg i) ∧ c'.p = c.p ∧ c'.fs = c.fs ||| fl ∧
      ∀ j, c'.ra j = if j = k then (accSat x).1 else if j = k + 1 then (accSat y).1 else c.ra j := by
  refine ⟨fun _ => rfl, rfl, rfl, fun j => ?_⟩
  simp only [Ctx.ra, Ctx.apply, List.foldl_cons, List.foldl_nil, Tab.get_put, eq_comm (b := j)]
  by_cases h : j = k
  · simp [h, ai_accSat]
  · by_cases h1 : j = k + 1
    · simp [h1, ai_accSat]
    · simp [h, h1]

theorem sdft_computes {f : FmtX} (h : Issues s l f.pr) (hm : f.mode = 0) (hk : f.acc = 0 ∨ f.acc = 2) :
    let c := (getCore s l).ctx
    let a := c.rg f.s1.toNat
    let b := c.rg f.s2.toNat
    let re := c.ra f.acc.toNat + a.toInt * 2 ^ 15
    let im := c.ra (f.acc.toNat + 1)
    let x := accSat (rne (re * q15 b - im * q15 (b >>> 16)) 15)
    let y := accSat (rne (re * q15 (b >>> 16) + im * q15 b) 15)
    CoreComputes (.sdft (.core l) f) l 1 s (fun c c' =>
      (∀ i, c'.rg i = c.rg i) ∧ c'.p = c.p ∧ c'.fs = c.fs ||| (x.2 ||| y.2) ∧
      ∀ k, c'.ra k = if k = f.acc.toNat then x.1 else if k = f.acc.toNat + 1 then y.1 else c.ra k) := by
  refine runAlu_core rfl h ?_ le_rfl ?_
  · rcases hk with hk | hk <;> simp [hm, hk]
  · simp only [sata_eq]
    exact apply_accPair ..

/-! ## Narrowing -/

theorem opN_computes {f : FmtA} {fn : Int → Int × Word} {r : Word × Word} (h : Issues s l f.pr) (hs1 : f.s1.toNat < 4) (hs2 : f.s2 = 0)
    (hi : exec i s = ok (runAlu (.core l) (opN f fn) s)) (hr : fx (fn ((getCore s l).ctx.ra f.s1.toNat)) = r) :
    CoreComputes i l 1 s (RegResult f.d.toNat r.1 r.2) := by
  subst hr
  exact runAlu_core hi h (by simp [opN, hs1, hs2]) le_rfl (apply_reg ..)

theorem narrowOps_compute {f : FmtA} (h : Issues s l f.pr) (hs1 : f.s1.toNat < 4) (hs2 : f.s2 = 0) : ∀ e ∈ narrowOps,
    CoreComputes (e.1 (.core l) f) l 1 s
      (RegResult f.d.toNat (e.2 ((getCore s l).ctx.ra f.s1.toNat)).1 (e.2 ((getCore s l).ctx.ra f.s1.toNat)).2) := by
  simp only [narrowOps, List.forall_mem_cons]
  exact ⟨opN_computes h hs1 hs2 rfl (fx_satq15 _), opN_computes h hs1 hs2 rfl (fx_satq31 _), fun _ he => nomatch he⟩

end

/-- Settles O4: each instruction sets its accumulator under its mode, and SDFT its pair. -/
theorem accumulatorInstructions : Obligations.AccumulatorInstructions := by
  unfold Obligations.AccumulatorInstructions
  refine fun l s => ⟨fun f h => ⟨accumulateOps_compute h, fun hs2 hn => ashr_sets h hs2 (if_neg (by omega)),
    fun hs2 hn => ashr_sets h hs2 (if_pos (by omega)), fun hs2 hs1 => amov_sets h hs2 hs1, fun hm hk => sdft_computes h hm hk⟩,
    fun f h hs1 hs2 => narrowOps_compute h hs1 hs2⟩

end Sys2Proof.Machine
end

section
/-! PROOFS: stores into local memory (O9). -/

namespace Sys2Proof.Machine

/-! ## Stores into local memory (R114, R119) -/

/-- The byte at an index of the low bytes of a number, least significant first. -/
theorem toLe_getD (n v i : Nat) (h : i < n) : (toLe n v).getD i 0 = BitVec.ofNat 8 (v / 256 ^ i) := by
  induction n generalizing v i with
  | zero => omega
  | succ n ih =>
    cases i with
    | zero => simp [toLe]
    | succ i => rw [toLe, List.getD_cons_succ, ih _ _ (by omega), Nat.div_div_eq_div_mul, Nat.pow_succ']

section
variable {s : State} {l : Fin 64} {c : Core}

/-- The code of a core is its tenant's image: no write of the core changes where it ends. -/
theorem codeEnd_setCore : codeEnd (setCore s l c) l = codeEnd s l := rfl

/-- A byte of local memory depends on the core's scratch, its memory and its window. -/
theorem localByte_setCore (x : Nat) : localByte (setCore s l c) l x =
    if x < 0x10000 then peek c.mem x
    else if x < codeEnd s l then (match coreImage s l with | some ci => ci.code.getD (x - 0x10000) 0 | none => 0)
    else if x < 0x7C000 then (match Tab.get none c.scr x with | some b => b | none => Config.freeScratch c.epoch l x)
    else peek c.mem x := by
  unfold localByte
  rw [getCore_setCore_self]
  rfl

/-- Only scratch, local memory and the window of a core say what its local memory holds. -/
theorem localByte_congr {c' : Core} (hm : c'.mem = c.mem) (hs : c'.scr = c.scr) (he : c'.epoch = c.epoch) (x : Nat) :
    localByte (setCore s l c') l x = localByte (setCore s l c) l x := by
  simp only [localByte_setCore, hm, hs, he]

/-- A byte stored above the code is the byte there; every other byte is what it was. -/
theorem localByte_storeByte (a x : Nat) (b : Byte) (ha : codeEnd s l ≤ a) :
    localByte (setCore s l (storeByte c a b)) l x = if a = x then b else localByte (setCore s l c) l x := by
  have hend : 0x10000 ≤ codeEnd s l := Nat.le_add_right _ _
  simp only [localByte_setCore]
  by_cases hx : a = x
  · subst hx
    rw [if_neg (by omega), if_neg (by omega), if_pos rfl]
    by_cases hlt : a < 0x7C000
    · simp [storeByte, hlt, Tab.get_ins]
    · simp [storeByte, hlt, peek_poke]
  · rw [if_neg hx]
    by_cases hlt : a < 0x7C000
    · simp [storeByte, hlt, Tab.get_ins, hx]
    · simp [storeByte, hlt, peek_poke, hx]

/-- Exactly the bytes stored change. -/
theorem localByte_storeBytes (a x : Nat) (bs : List Byte) (ha : codeEnd s l ≤ a) :
    localByte (setCore s l (storeBytes c a bs)) l x =
      if a ≤ x ∧ x < a + bs.length then bs.getD (x - a) 0 else localByte (setCore s l c) l x := by
  induction bs generalizing c a with
  | nil => rw [if_neg (by rw [List.length_nil]; omega)]; rfl
  | cons b bs ih =>
    rw [storeBytes, ih _ (by omega), localByte_storeByte _ _ _ ha, List.length_cons]
    by_cases h1 : a = x
    · subst h1
      rw [if_neg (by omega), if_pos rfl, if_pos (by omega), Nat.sub_self, List.getD_cons_zero]
    · rw [if_neg h1]
      by_cases h2 : a + 1 ≤ x ∧ x < a + 1 + bs.length
      · rw [if_pos h2, if_pos (by omega), show x - a = x - (a + 1) + 1 by omega, List.getD_cons_succ]
      · rw [if_neg h2, if_neg (by omega)]

/-- A store changes scratch and local memory of its core and nothing else. -/
theorem storeBytes_eq (a : Nat) (bs : List Byte) :
    storeBytes c a bs = { c with scr := (storeBytes c a bs).scr, mem := (storeBytes c a bs).mem } := by
  induction bs generalizing c a with
  | nil => rfl
  | cons b bs ih =>
    have hb : storeByte c a b = { c with scr := (storeByte c a b).scr, mem := (storeByte c a b).mem } := by
      unfold storeByte; split <;> rfl
    rw [storeBytes, ih, hb]

end

/-! ## Retiring -/

/-- A core after it retires an instruction. -/
def retiredCore (t0 cost lat : Nat) (chainW : Bool) (w : Wr) (c : Core) : Core :=
  { c with
    ctx := c.ctx.apply w
    ready := w.a.foldl (fun t e => Tab.put 0 t (32 + e.1) (t0 + lat))
      (w.g.foldl (fun t e => if e.1 = 0 then t else Tab.put 0 t e.1 (t0 + lat)) c.ready)
    chain := w.a.foldl (fun t e => Tab.put 0 t e.1 (if chainW then t0 + 1 else t0 + lat)) c.chain
    cyc := t0 + cost
    pc := c.pc + 4 }

theorem retire_eq (s : State) (l : Fin 64) (t0 cost lat : Nat) (chainW : Bool) (w : Wr) :
    retire s l t0 cost lat chainW w = modCore s l (retiredCore t0 cost lat chainW w) := rfl

/-- An instruction without a result only moves the core on. -/
theorem retiredCore_none (t0 cost lat : Nat) (chainW : Bool) (c : Core) :
    retiredCore t0 cost lat chainW Wr.none c = { c with cyc := t0 + cost, pc := c.pc + 4 } := by
  rw [retiredCore, apply_none]
  rfl

theorem modCore_setCore {s : State} {l : Fin 64} {c : Core} {g : Core → Core} (h : c.run = .running) :
    modCore (setCore s l c) l g = setCore s l (g c) := by
  rw [modCore, getCore_setCore_self, setCore_setCore h]

/-- Retiring leaves local memory. -/
theorem localByte_retired {s : State} {l : Fin 64} {c : Core} {t0 cost lat : Nat} {chainW : Bool} {w : Wr} (x : Nat) :
    localByte (setCore s l (retiredCore t0 cost lat chainW w c)) l x = localByte (setCore s l c) l x :=
  localByte_congr (c := c) (c' := retiredCore t0 cost lat chainW w c) rfl rfl rfl x

/-! ## The store instruction -/

section
variable {s : State} {l : Fin 64} {f : FmtM} {n : Nat} {legal : Bool} {srcs : List Nat} {val : Ctx → Nat} {i : Instr}

/-- A store that its checks let through, run. -/
theorem exec_store (h : Issues s l f.pr) (hl : legal = true) (hi : exec i s = ok (runStore l f n legal srcs val s))
    (hal : (effAddr (getCore s l).ctx f n).toNat % n = 0) (hmay : mayStore s l (effAddr (getCore s l).ctx f n).toNat n = true) :
    let t0 := issueAt (getCore s l) (f.base.toNat :: srcs) none
    exec i s = .next (setCore s l (retiredCore t0 1 1 false Wr.none
      (storeBytes { getCore s l with cyc := t0 } (effAddr (getCore s l).ctx f n).toNat (toLe n (val (getCore s l).ctx))))) := by
  intro t0
  have hrun (a : Nat) (bs : List Byte) : (storeBytes { getCore s l with cyc := t0 } a bs).run = .running := by
    rw [storeBytes_eq]; exact h.1.1
  rw [hi, ok, runStore, runCore_issues h hl]
  refine congrArg _ (((if_neg (by simpa using hal)).trans (if_neg ?_)).trans ?_)
  · rw [Bool.not_eq_true', Bool.not_eq_false]; exact hmay
  · rw [retire_eq, modCore_setCore (by exact h.1.1), modCore_setCore (hrun _ _)]

theorem runStore_stores (h : Issues s l f.pr) (hl : legal = true) (hi : exec i s = ok (runStore l f n legal srcs val s))
    (hal : (effAddr (getCore s l).ctx f n).toNat % n = 0) (hlo : codeEnd s l ≤ (effAddr (getCore s l).ctx f n).toNat)
    (hhi : (effAddr (getCore s l).ctx f n).toNat + n ≤ 0x80000) :
    CoreStores i l s (effAddr (getCore s l).ctx f n).toNat n (val (getCore s l).ctx) := by
  refine ⟨_, exec_store h hl hi hal (by simp [mayStore, hlo, hhi]), ?_, ?_, fun x => ?_⟩
  · rw [retiredCore_none, storeBytes_eq]
  · rw [retiredCore_none]
    exact Nat.lt_succ_of_le (cyc_le_issueAt ..)
  · refine (localByte_retired x).trans ?_
    rw [localByte_storeBytes _ _ _ hlo, toLe_length]
    split
    · rw [toLe_getD _ _ _ (by omega)]
    · rw [localByte_setCore]
      rfl

theorem runStore_misaligned (h : Issues s l f.pr) (hl : legal = true) (hi : exec i s = ok (runStore l f n legal srcs val s))
    (hal : (effAddr (getCore s l).ctx f n).toNat % n ≠ 0) : Traps i s l 2 (effAddr (getCore s l).ctx f n) := by
  refine ⟨_, ⟨_, cyc_le_issueAt _ (f.base.toNat :: srcs) none, rfl⟩, ?_⟩
  rw [hi, runStore, runCore_issues h hl]
  exact congrArg ok (if_pos hal)

theorem runStore_forbidden (h : Issues s l f.pr) (hl : legal = true) (hi : exec i s = ok (runStore l f n legal srcs val s))
    (hal : (effAddr (getCore s l).ctx f n).toNat % n = 0)
    (hmay : mayStore s l (effAddr (getCore s l).ctx f n).toNat n = false) :
    Traps i s l 3 (effAddr (getCore s l).ctx f n) := by
  refine ⟨_, ⟨_, cyc_le_issueAt _ (f.base.toNat :: srcs) none, rfl⟩, ?_⟩
  rw [hi, runStore, runCore_issues h hl]
  exact congrArg ok ((if_neg (by simpa using hal)).trans (if_pos (by rw [Bool.not_eq_true']; exact hmay)))
end

/-- Every store instruction is a store of its size whose source fields its encoding allows. -/
theorem storeOps_run {l : Fin 64} {f : FmtM} {s : State} : ∀ e ∈ storeOps, e.2.2.1 f.d →
    ∃ srcs, exec (e.1 l f) s = ok (runStore l f e.2.1 true srcs (e.2.2.2 f.d) s) := by
  simp only [storeOps, List.forall_mem_cons]
  refine ⟨fun _ => ⟨_, rfl⟩, fun _ => ⟨_, rfl⟩, fun _ => ⟨_, rfl⟩, fun hd => ⟨[f.d.toNat, f.d.toNat + 1], ?_⟩,
    fun hd => ⟨[32 + f.d.toNat], ?_⟩, fun _ he => nomatch he⟩
  · have : even f.d = true := beq_iff_eq.2 hd
    rw [← this]; rfl
  · have : isAcc f.d = true := decide_eq_true hd
    rw [← this]; rfl

/-- Settles O9: a store is `runStore` of its size, and writes, or traps, as its checks say. -/
theorem storesWriteExactlyTheirBytes : Obligations.StoresWriteExactlyTheirBytes := by
  unfold Obligations.StoresWriteExactlyTheirBytes
  intro l f s h e he hd n a
  obtain ⟨srcs, hi⟩ := storeOps_run e he hd
  refine ⟨fun hal hlo hhi => runStore_stores h rfl hi hal hlo hhi, fun hal => runStore_misaligned h rfl hi hal,
    fun hal hout => runStore_forbidden h rfl hi hal ?_⟩
  have : ¬ (codeEnd s l ≤ a.toNat ∧ a.toNat + n ≤ 0x80000) := by omega
  simpa [mayStore] using this

end Sys2Proof.Machine
end

section
/-! PROOFS: loads from both memories (O8). -/

namespace Sys2Proof.Machine
set_option Elab.async false

/-! ## What a load writes (R141) -/

/-- The halves of an 8-byte value written to an even register and the next. -/
theorem apply_pair (c : Ctx) (d n : Nat) (hd : d % 2 = 0) :
    PairResult d n c (c.apply ⟨[(d, W n), (d + 1, W (n / 2 ^ 32))], [], [], 0⟩) := by
  refine ⟨fun i => ?_, fun _ => rfl, rfl, BitVec.or_zero⟩
  have h2 := rg_put (if d = 0 then c.g else Tab.put 0 c.g d (W n)) c.a c.p (c.fs ||| 0) (d + 1) i (W (n / 2 ^ 32))
  have h1 := rg_put c.g c.a c.p (c.fs ||| 0) d i (W n)
  simp only [Ctx.apply, List.foldl_cons, List.foldl_nil]
  rw [h2, h1]
  by_cases h : i = d ∧ d ≠ 0
  · rw [if_neg (by omega), if_pos h, if_pos h]
  · rw [if_neg h, if_neg h]
    by_cases h1 : i = d + 1
    · rw [if_pos ⟨h1, by omega⟩, if_pos h1]
    · rw [if_neg (fun hc => h1 hc.1), if_neg h1]
      rfl

/-! ## A State Memory access (R142, R238) -/

/-- What an access to State Memory changes: registers, the arbiters and the free values; of the cores only which accesses its own
core has outstanding. -/
structure Accessed (l : Fin 64) (s t : State) : Prop where
  keeps : KeepsBut (.core :: grantParts) s t
  others : ∀ k, k ≠ l → getCore t k = getCore s k
  own : ∃ o, getCore t l = { getCore s l with outst := o }

theorem Accessed.refl (l : Fin 64) (s : State) : Accessed l s s :=
  ⟨Frame.refl (n := 0) |>.keeps, fun _ _ => rfl, _, rfl⟩

section
variable (s : State) (l : Fin 64)

theorem noteWait_keeps (bank wait : Nat) : KeepsBut [.regs, .out] s (noteWait s l bank wait) :=
  (wf_same s _ _ _ _).trans (bump_same _ _ _) |>.keeps

theorem noteHint_keeps (bank hint : Nat) : KeepsBut [.regs, .out] s (noteHint s bank hint) := (wf_same s _ _ _ _).keeps

/-- The state in which an access waits at its bank: the bank brought up to it, a free value drawn, its wait noted unless the
power-fail sequence runs. -/
def awaiting (bank wait : Nat) (r : ArbReq) : State :=
  let u := (drawLe (upTo s bank r.stamp) 0).2
  request (if failing u then u else noteWait u l bank wait) bank r

theorem awaiting_keeps (bank wait : Nat) (r : ArbReq) : KeepsBut grantParts s (awaiting s l bank wait r) := by
  have hbank : KeepsBut grantParts s (upTo s bank r.stamp) := (settleArb_granted s bank _ _).frame.keeps
  have hdraw {u : State} : KeepsBut grantParts u (drawLe u 0).2 := (drawLe_frame (n := 0) 0).keeps
  have hnote {u : State} : KeepsBut grantParts u (if failing u then u else noteWait u l bank wait) := by
    split
    · exact (Frame.refl (n := 0)).keeps
    · exact (noteWait_keeps u l bank wait).mono (by decide)
  exact ((hbank.trans hdraw).trans hnote).trans (request_frame (n := 0) bank r).keeps

theorem smAccess_eq (t1 : Nat) (live : List (Nat × Nat)) (off : Nat) : ∃ bank wait r o,
    (smAccess s l t1 live off).2.2 = modCore (awaiting s l bank wait r) l (fun c => { c with outst := o }) :=
  ⟨_, _, _, _, rfl⟩

theorem getCore_congr {s t : State} (h : t.core = s.core) (k : Fin 64) : getCore t k = getCore s k := by rw [getCore, h, getCore]

/-- An access outstanding on its core, in a state that keeps the cores. -/
theorem accessed_of_keeps {s u : State} (h : KeepsBut grantParts s u) (o : List (Nat × Nat)) :
    Accessed l s (modCore u l (fun c => { c with outst := o })) := by
  have hcore : u.core = s.core := h .core (by decide)
  refine ⟨(h.mono (by decide)).trans ((modCore_frame (n := 0) (s := u) l _ (by decide)).keeps), fun k hk => ?_, o, ?_⟩
  · rw [modCore, getCore_setCore, if_neg hk.symm, getCore_congr hcore]
  · rw [modCore, getCore_setCore_self, getCore_congr hcore]

theorem smAccess_accessed (t1 : Nat) (live : List (Nat × Nat)) (off : Nat) : Accessed l s (smAccess s l t1 live off).2.2 := by
  obtain ⟨bank, wait, r, o, h⟩ := smAccess_eq s l t1 live off
  rw [h]
  exact accessed_of_keeps l (awaiting_keeps s l bank wait r) o

theorem smLoad_accessed (t0 off : Nat) : Accessed l s (smLoad s l t0 off).2.2 := by
  unfold smLoad
  extract_lets c
  refine iteInduction (motive := fun x : Nat × Nat × State => Accessed l s x.2.2) (fun _ => .refl l s) (fun _ => ?_)
  obtain ⟨t1, live⟩ := slotAt c t0
  have h := smAccess_accessed s l t1 live off
  dsimp only
  generalize smAccess s l t1 live off = x at h ⊢
  exact h

end

/-! ## The load instruction -/

section
variable {s : State} {l : Fin 64} {f : FmtM} {n : Nat} {dst : Nat → Wr} {i : Instr} {res : Nat → Ctx → Ctx → Prop}

theorem mayLoad_setCore (c : Core) (a k : Nat) : mayLoad (setCore s l c) l a k = mayLoad s l a k := rfl

theorem localBytes_setCore_cyc (a k t0 : Nat) :
    localBytes (setCore s l { getCore s l with cyc := t0 }) l a k = localBytes s l a k := by
  induction k generalizing a with
  | zero => rfl
  | succ k ih =>
    have : localByte (setCore s l { getCore s l with cyc := t0 }) l a = localByte s l a := by rw [localByte_setCore]; rfl
    rw [localBytes, this, ih, localBytes]

theorem runLoad_local (h : Issues s l f.pr) (hi : exec i s = ok (runLoad l f n true dst s))
    (hal : (effAddr (getCore s l).ctx f n).toNat % n = 0) (hhi : (effAddr (getCore s l).ctx f n).toNat + n ≤ 0x80000)
    (hres : ∀ x c, res x c (c.apply (dst x))) :
    CoreComputes i l 1 s (res (leNat (localBytes s l (effAddr (getCore s l).ctx f n).toNat n))) := by
  refine runCore_retires (lat := 2) (chainW := false) h rfl hi ?_ (hres _ _)
  have hmay (u : State) : mayLoad u l (effAddr (getCore s l).ctx f n).toNat n = true := by simp [mayLoad, hhi]
  have hlow : (effAddr (getCore s l).ctx f n).toNat < smBase := by unfold smBase; omega
  simp only [hal, ne_eq, not_true, if_false, hmay, Bool.not_true, Bool.false_eq_true, if_pos hlow, localBytes_setCore_cyc]

theorem runLoad_misaligned (h : Issues s l f.pr) (hi : exec i s = ok (runLoad l f n true dst s))
    (hal : (effAddr (getCore s l).ctx f n).toNat % n ≠ 0) : Traps i s l 2 (effAddr (getCore s l).ctx f n) := by
  refine ⟨_, ⟨_, cyc_le_issueAt _ [f.base.toNat] none, rfl⟩, ?_⟩
  rw [hi, runLoad, runCore_issues h rfl]
  exact congrArg ok (if_pos hal)

theorem runLoad_forbidden (h : Issues s l f.pr) (hi : exec i s = ok (runLoad l f n true dst s))
    (hal : (effAddr (getCore s l).ctx f n).toNat % n = 0)
    (hmay : mayLoad s l (effAddr (getCore s l).ctx f n).toNat n = false) : Traps i s l 3 (effAddr (getCore s l).ctx f n) := by
  refine ⟨_, ⟨_, cyc_le_issueAt _ [f.base.toNat] none, rfl⟩, ?_⟩
  rw [hi, runLoad, runCore_issues h rfl]
  exact congrArg ok ((if_neg (by simpa using hal)).trans (if_pos (by rw [Bool.not_eq_true']; exact hmay)))

/-- A load that State Memory answers, run: the access, then the core retires with the bytes of the window's image. -/
theorem exec_smLoad (h : Issues s l f.pr) (hi : exec i s = ok (runLoad l f n true dst s))
    (hal : (effAddr (getCore s l).ctx f n).toNat % n = 0) (hlo : smBase ≤ (effAddr (getCore s l).ctx f n).toNat)
    (hmay : mayLoad s l (effAddr (getCore s l).ctx f n).toNat n = true) :
    ∃ u t1 lat, Accessed l (setCore s l { getCore s l with cyc := issueAt (getCore s l) [f.base.toNat] none }) u ∧
      exec i s = .next (retire u l t1 1 lat false (dst (leNat (smRead s ((effAddr (getCore s l).ctx f n).toNat - smBase) n)))) := by
  let a := (effAddr (getCore s l).ctx f n).toNat
  let t0 := issueAt (getCore s l) [f.base.toNat] none
  have hx : exec i s = .next (match smLoad (setCore s l { getCore s l with cyc := t0 }) l t0 (a - smBase) with
      | (t1, lat, u) => retire u l t1 1 lat false (dst (leNat (smRead s (a - smBase) n)))) := by
    rw [hi, ok, runLoad, runCore_issues h rfl]
    simp only [hal, ne_eq, not_true, if_false, mayLoad_setCore, hmay, Bool.not_true, Bool.false_eq_true, Nat.not_lt.2 hlo]
    rfl
  have ha := smLoad_accessed (setCore s l { getCore s l with cyc := t0 }) l t0 (a - smBase)
  generalize smLoad (setCore s l { getCore s l with cyc := t0 }) l t0 (a - smBase) = x at ha hx
  obtain ⟨t1, lat, u⟩ := x
  exact ⟨u, t1, lat, ha, hx⟩

theorem runLoad_stateMemory (h : Issues s l f.pr) (hi : exec i s = ok (runLoad l f n true dst s))
    (hal : (effAddr (getCore s l).ctx f n).toNat % n = 0) (hlo : smBase ≤ (effAddr (getCore s l).ctx f n).toNat)
    (hmay : mayLoad s l (effAddr (getCore s l).ctx f n).toNat n = true) (hres : ∀ x c, res x c (c.apply (dst x))) :
    CoreReads i l s (res (leNat (smRead s ((effAddr (getCore s l).ctx f n).toNat - smBase) n))) := by
  obtain ⟨u, t1, lat, ⟨hk, ho, o, hc⟩, hx⟩ := exec_smLoad h hi hal hlo hmay
  have hown (w : Wr) : getCore (retire u l t1 1 lat false w) l = retiredCore t1 1 lat false w (getCore u l) := getCore_setCore_self ..
  refine ⟨_, hx, ?_, ?_, ?_, ?_, ?_, fun k hkl => ?_, hk .mem (by decide), hk .ten (by decide),
    hk .loom (by decide), hk .pending (by decide)⟩
  case refine_6 =>
    have hne (w : Wr) : getCore (retire u l t1 1 lat false w) k = getCore u k := by
      rw [retire_eq, modCore, getCore_setCore, if_neg hkl.symm]
    rw [hne, ho k hkl, getCore_setCore, if_neg hkl.symm]
  all_goals rw [hown, hc, getCore_setCore_self]
  · exact hres _ _
  all_goals rfl

end

/-- Every load instruction is a load of its size whose destination field its encoding allows. -/
theorem loadOps_run {l : Fin 64} {f : FmtM} {s : State} : ∀ e ∈ loadOps, e.2.2.1 f.d →
    ∃ dst, exec (e.1 l f) s = ok (runLoad l f e.2.1 true dst s) ∧ ∀ x c, e.2.2.2 f.d x c (c.apply (dst x)) := by
  simp only [loadOps, List.forall_mem_cons]
  refine ⟨fun _ => ⟨_, rfl, fun _ _ => apply_reg ..⟩, fun _ => ⟨_, rfl, fun _ _ => apply_reg ..⟩,
    fun _ => ⟨_, rfl, fun _ _ => apply_reg ..⟩, fun _ => ⟨_, rfl, fun _ _ => apply_reg ..⟩,
    fun _ => ⟨_, rfl, fun _ _ => apply_reg ..⟩, fun hd => ⟨_, ?_, fun _ _ => apply_pair _ _ _ hd⟩,
    fun hd => ⟨_, ?_, fun _ _ => apply_acc ..⟩, fun _ he => nomatch he⟩
  · have : even f.d = true := beq_iff_eq.2 hd
    rw [← this]; rfl
  · have : isAcc f.d = true := decide_eq_true hd
    rw [← this]; rfl

/-- Settles O8: a load is `runLoad` of its size, answered by local memory or State Memory, or trapping, as its checks say. -/
theorem loadsReadWhatMemoryHolds : Obligations.LoadsReadWhatMemoryHolds := by
  unfold Obligations.LoadsReadWhatMemoryHolds
  intro l f s h e he hd n a
  obtain ⟨dst, hi, hres⟩ := loadOps_run e he hd
  refine ⟨fun hal hhi => runLoad_local h hi hal hhi hres, fun hal hlo hhi hpart => ?_, fun hal => runLoad_misaligned h hi hal,
    fun hal hmay => runLoad_forbidden h hi hal hmay⟩
  refine runLoad_stateMemory h hi hal hlo ?_ hres
  rw [mayLoad, Bool.or_eq_true, Bool.and_eq_true, Bool.and_eq_true]
  exact .inr ⟨⟨decide_eq_true hlo, decide_eq_true hhi⟩, hpart⟩

end Sys2Proof.Machine
end

section
/-! PROOFS: staging transaction entries (O12). -/

namespace Sys2Proof.Machine
set_option Elab.async false

/-! ## Staging one entry (R148 to R150) -/

section
variable {s : State} {l : Fin 64} {i : Instr} {legal : Bool} {pr : BitVec 3} {srcs : List Nat} {go : Nat → Core → State → State}

theorem aborted_setCore (c : Core) (t : Nat) : aborted (setCore s l c) t = aborted s t := rfl

theorem unlessAborted_of_not {t0 : Nat} {work : State → State} (h : aborted s (coreOwner s l) = false) (c : Core) :
    unlessAborted l t0 (setCore s l c) work = work (setCore s l c) :=
  if_neg (by rw [show aborted (setCore s l c) (coreOwner (setCore s l c) l) = false from h]; exact Bool.false_ne_true)

theorem unlessAborted_of {u : State} {t0 : Nat} {work : State → State} (h : aborted u (coreOwner u l) = true) :
    unlessAborted l t0 u work = retire u l t0 1 1 false Wr.none := by
  rw [unlessAborted, h]; rfl

/-- An entry within the reservation joins the core's staged entries and its tenant's count. -/
theorem stage_within (e : Entry) (h : (getTen s (ten (coreOwner s l))).staged < reservation s (coreOwner s l)) (c : Core) :
    stage (setCore s l c) l e = modCore (setCore (setTen s (ten (coreOwner s l))
      { getTen s (ten (coreOwner s l)) with staged := (getTen s (ten (coreOwner s l))).staged + 1 }) l c) l
      (fun k => { k with entries := k.entries ++ [e] }) :=
  if_neg (Nat.not_le.2 h)

/-- The entry beyond the reservation is not staged: the transaction is aborted for its capacity, unless it was already aborted. -/
theorem stage_beyond (e : Entry) (h : reservation s (coreOwner s l) ≤ (getTen s (ten (coreOwner s l))).staged) (c : Core) :
    stage (setCore s l c) l e = abortTx (setCore s l c) (coreOwner s l) 3 := if_pos h

theorem abortTx_setCore (hab : aborted s (coreOwner s l) = false) (c : Core) (cause : Nat) :
    abortTx (setCore s l c) (coreOwner s l) cause =
      setCore (setTen s (ten (coreOwner s l)) { getTen s (ten (coreOwner s l)) with abort := some cause }) l c := by
  have : (getTen s (ten (coreOwner s l))).abort = none := by simpa [aborted] using hab
  have hget : getTen (setCore s l c) (ten (coreOwner s l)) = getTen s (ten (coreOwner s l)) := rfl
  rw [abortTx, modTen, hget, this]
  rfl

/-- The core at its issue cycle, as the instruction finds it. -/
abbrev coreAt (s : State) (l : Fin 64) (t0 : Nat) : Core := { getCore s l with cyc := t0 }

/-- An instruction whose work is to stage an entry. -/
theorem core_stages {e : Entry} (h : Issues s l pr) (hl : legal = true) (hm : MayStage s l)
    (hi : exec i s = ok (runCore l legal pr srcs none s go))
    (hgo : ∀ t0, go t0 (coreAt s l t0) (setCore s l (coreAt s l t0)) =
      retire (stage (setCore s l (coreAt s l t0)) l e) l t0 1 1 false Wr.none) : CoreStages i l s e := by
  refine ⟨{ getCore s l with
    entries := (getCore s l).entries ++ [e]
    cyc := issueAt (getCore s l) srcs none + 1
    pc := (getCore s l).pc + 4 }, ?_, rfl, Nat.lt_succ_of_le (cyc_le_issueAt ..)⟩
  rw [hi, runCore_issues h hl, hgo, stage_within e hm.2, retire_eq, modCore_setCore (by exact h.1.1), modCore_setCore (by exact h.1.1),
    retiredCore_none]

/-- An instruction whose work aborts the transaction of a tenant that has not aborted yet. -/
theorem core_aborts {cause : Nat} (h : Issues s l pr) (hl : legal = true) (hab : aborted s (coreOwner s l) = false)
    (hi : exec i s = ok (runCore l legal pr srcs none s go))
    (hgo : ∀ t0, go t0 (coreAt s l t0) (setCore s l (coreAt s l t0)) =
      retire (abortTx (setCore s l (coreAt s l t0)) (coreOwner s l) cause) l t0 1 1 false Wr.none) :
    ∃ c : Core, exec i s =
      .next (setCore (setTen s (ten (coreOwner s l)) { getTen s (ten (coreOwner s l)) with abort := some cause }) l c) ∧
      c = { getCore s l with cyc := c.cyc, pc := (getCore s l).pc + 4 } := by
  refine ⟨{ getCore s l with cyc := issueAt (getCore s l) srcs none + 1, pc := (getCore s l).pc + 4 }, ?_, rfl⟩
  rw [hi, runCore_issues h hl, hgo, abortTx_setCore hab, retire_eq, modCore_setCore (by exact h.1.1), retiredCore_none]

end

/-! ## TXW and TXWD -/

section
variable {s : State} {l : Fin 64} {i : Instr} {f : FmtM} {n : Nat} {legal : Bool} {srcs : List Nat} {val : Ctx → Nat}

/-- The checks of a State Memory write at the instruction's effective address (R117, R148). -/
def TxChecked (s : State) (l : Fin 64) (f : FmtM) (n : Nat) : Prop :=
  let a := (effAddr (getCore s l).ctx f n).toNat
  a % n = 0 ∧ smBase ≤ a ∧ a + n ≤ smBase + smSize ∧ inPartition s (ten (coreOwner s l)) (a - smBase) n true = true

/-- A write of State Memory that its checks let through stages its entry. -/
theorem runTx_checked (hc : TxChecked s l f n) (hab : aborted s (coreOwner s l) = false) :
    ∃ go, runTx l f n legal srcs val s = runCore l legal f.pr (f.base.toNat :: srcs) none s go ∧
      ∀ t0, go t0 (coreAt s l t0) (setCore s l (coreAt s l t0)) =
        retire (stage (setCore s l (coreAt s l t0)) l
          (.mem ((effAddr (getCore s l).ctx f n).toNat - smBase) (toLe n (val (getCore s l).ctx)))) l t0 1 1 false Wr.none := by
  obtain ⟨hal, hlo, hhi, hp⟩ := hc
  refine ⟨_, rfl, fun t0 => ?_⟩
  have hp' : inPartition (setCore s l (coreAt s l t0)) (ten (coreOwner (setCore s l (coreAt s l t0)) l))
      ((effAddr (coreAt s l t0).ctx f n).toNat - smBase) n true = true := hp
  exact (unlessAborted_of_not hab _).trans <| (if_neg (not_not_intro hal)).trans (if_neg (by simp [hp', hlo, hhi]))

/-- A write of State Memory of an aborted transaction is dropped. -/
theorem runTx_aborted (hab : aborted s (coreOwner s l) = true) (h : Issues s l f.pr) (hl : legal = true)
    (hi : exec i s = ok (runTx l f n legal srcs val s)) : CoreComputes i l 1 s NoResult :=
  runCore_retires h hl hi (unlessAborted_of hab)
    (by rw [apply_none]; exact ⟨fun _ => rfl, fun _ => rfl, rfl, rfl⟩)

end

section
variable {l : Fin 64} {s : State}

theorem txw_stages (f : FmtM) (h : Issues s l f.pr) (hm : MayStage s l) (hc : TxChecked s l f 4) :
    CoreStages (.txw l f) l s (.mem ((effAddr (getCore s l).ctx f 4).toNat - smBase)
      (toLe 4 ((getCore s l).ctx.rg f.d.toNat).toNat)) := by
  obtain ⟨go, hi, hgo⟩ := runTx_checked (legal := true) (srcs := [f.d.toNat]) (val := fun c => (c.rg f.d.toNat).toNat) hc hm.1
  exact core_stages h rfl hm (congrArg ok hi) hgo

theorem txwd_stages (f : FmtM) (h : Issues s l f.pr) (hm : MayStage s l) (hc : TxChecked s l f 8) (hd : f.d.toNat % 2 = 0) :
    CoreStages (.txwd l f) l s (.mem ((effAddr (getCore s l).ctx f 8).toNat - smBase)
      (toLe 8 (((getCore s l).ctx.rg f.d.toNat).toNat + 2 ^ 32 * ((getCore s l).ctx.rg (f.d.toNat + 1)).toNat))) := by
  obtain ⟨go, hi, hgo⟩ := runTx_checked (legal := even f.d) (srcs := [f.d.toNat, f.d.toNat + 1])
    (val := fun c => (c.rg f.d.toNat).toNat + 2 ^ 32 * (c.rg (f.d.toNat + 1)).toNat) hc hm.1
  exact core_stages h (by simp [even, hd]) hm (congrArg ok hi) hgo

theorem txw_beyond (f : FmtM) (h : Issues s l f.pr) (hab : aborted s (coreOwner s l) = false)
    (hr : reservation s (coreOwner s l) ≤ (getTen s (ten (coreOwner s l))).staged) (hc : TxChecked s l f 4) :
    ∃ c : Core, exec (.txw l f) s = .next (setCore (setTen s (ten (coreOwner s l))
        { getTen s (ten (coreOwner s l)) with abort := some 3 }) l c) ∧
      c = { getCore s l with cyc := c.cyc, pc := (getCore s l).pc + 4 } := by
  obtain ⟨go, hi, hgo⟩ := runTx_checked (legal := true) (srcs := [f.d.toNat]) (val := fun c => (c.rg f.d.toNat).toNat) hc hab
  exact core_aborts h rfl hab (congrArg ok hi) fun t0 => by rw [hgo, stage_beyond _ hr]

/-! ## The other transaction instructions -/

theorem txpub_stages (f : FmtA) (q : Bool) (h : Issues s l f.pr) (hm : MayStage s l) (hd : f.d = 0)
    (h11 : fld ((getCore s l).ctx.rg f.s1.toNat) 15 11 = 0) (h22 : fld ((getCore s l).ctx.rg f.s1.toNat) 31 22 = 0)
    (hp : fld ((getCore s l).ctx.rg f.s1.toNat) 10 0 < 1152)
    (ho : pubOwner s (fld ((getCore s l).ctx.rg f.s1.toNat) 10 0) = coreOwner s l)
    (hn : fld ((getCore s l).ctx.rg f.s1.toNat) 21 16 < pubMembers (fld ((getCore s l).ctx.rg f.s1.toNat) 10 0)) :
    CoreStages (.txpub l f q) l s (.pub (fld ((getCore s l).ctx.rg f.s1.toNat) 10 0)
      (fld ((getCore s l).ctx.rg f.s1.toNat) 21 16) q ((getCore s l).ctx.rg f.s2.toNat)) :=
  core_stages h (by simp [hd]) hm rfl fun t0 => (unlessAborted_of_not hm.1 _).trans <|
    if_neg (show ¬ (_ ≠ 0 ∨ _ ≠ 0 ∨ 1152 ≤ _ ∨ pubOwner s _ ≠ coreOwner s l ∨ _) from by
      simp only [not_or, not_not, not_le]
      exact ⟨h11, h22, hp, ho, hn⟩)

theorem txout_stages (f : FmtA) (k : Fin 16) (h : Issues s l f.pr) (hm : MayStage s l) (hd : f.d = 0)
    (hk : fld ((getCore s l).ctx.rg f.s1.toNat) 3 0 = k) (h5 : fld ((getCore s l).ctx.rg f.s1.toNat) 31 5 = 0)
    (ho : bcOwner s k = coreOwner s l) :
    CoreStages (.txout l f) l s (.out k (if bitOf ((getCore s l).ctx.rg f.s1.toNat) 4 then .close else .trip)
      (bitOf ((getCore s l).ctx.rg f.s2.toNat) 0)) := by
  have hfin : Fin.ofNat 16 (fld ((getCore s l).ctx.rg f.s1.toNat) 3 0) = k := by rw [hk, Fin.ofNat_val_eq_self]
  subst hfin
  exact core_stages h (by simp [hd]) hm rfl fun t0 => (unlessAborted_of_not hm.1 _).trans <|
    if_neg (show ¬ (_ ≠ 0 ∨ bcOwner s _ ≠ coreOwner s l) from not_or.2 ⟨not_not_intro h5, not_not_intro ho⟩)

theorem txarm_stages (f : FmtA) (dis : Bool) (h : Issues s l f.pr) (hm : MayStage s l) (hd : f.d = 0) (hs : f.s2 = 0)
    (h12 : fld ((getCore s l).ctx.rg f.s1.toNat) 31 12 = 0)
    (ho : (getSlot s (fld ((getCore s l).ctx.rg f.s1.toNat) 11 0)).owner = coreOwner s l) :
    CoreStages (.txarm l f dis) l s (.arm (fld ((getCore s l).ctx.rg f.s1.toNat) 11 0) dis) :=
  core_stages h (by simp [hd, hs]) hm rfl fun t0 => (unlessAborted_of_not hm.1 _).trans <|
    if_neg (show ¬ (_ ≠ 0 ∨ (getSlot s _).owner ≠ coreOwner s l) from not_or.2 ⟨not_not_intro h12, not_not_intro ho⟩)

theorem csett_stages (f : FmtA) {c : Fin 8} {i : Fin 32} {j : Nat} (h : Issues s l f.pr) (hm : MayStage s l) (hd : f.d = 0)
    (ho : cluOperand s l ((getCore s l).ctx.rg f.s1.toNat) = some (c, i, j)) (hw : loopWritable j = true) :
    CoreStages (.csett l f) l s (.loopWord c i (Fin.ofNat 32 j) ((getCore s l).ctx.rg f.s2.toNat)) := by
  refine core_stages h (by simp [hd]) hm rfl fun t0 => ?_
  have hab : aborted (setCore s l (coreAt s l t0)) (coreOwner (setCore s l (coreAt s l t0)) l) = false := hm.1
  have ho' : cluOperand (setCore s l (coreAt s l t0)) l ((coreAt s l t0).ctx.rg f.s1.toNat) = some (c, i, j) := ho
  simp only [hab, ho', hw, Bool.not_true, Bool.false_eq_true, if_false]

theorem txswr_stages (f : FmtA) (h : Issues s l f.pr) (hm : MayStage s l) (hd : f.d = 0) (hman : isManager s l = true)
    (hlt : ((getCore s l).ctx.rg f.s1.toNat).toNat < 0x1400000) (hal : ((getCore s l).ctx.rg f.s1.toNat).toNat % 4 = 0) :
    CoreStages (.txswr l f) l s (.reg ((getCore s l).ctx.rg f.s1.toNat).toNat ((getCore s l).ctx.rg f.s2.toNat)) :=
  core_stages h (by simp [hd, hman]) hm rfl fun t0 => (unlessAborted_of_not hm.1 _).trans <|
    if_neg (not_or.2 ⟨Nat.not_le.2 hlt, not_not_intro hal⟩)

end

/-- Settles O12: an instruction whose checks hold comes to `stage`, which adds the entry within the reservation and aborts the
transaction beyond it; an aborted transaction's writes only retire. -/
theorem transactionInstructionsStageOneEntry : Obligations.TransactionInstructionsStageOneEntry := by
  unfold Obligations.TransactionInstructionsStageOneEntry
  intro l s own
  refine ⟨fun hm => ⟨fun f h => ⟨?_, ?_⟩, fun f h hd => ⟨?_, ?_, ?_, ?_, ?_⟩⟩, ?_, ?_, ?_⟩
  · exact fun hal hlo hhi hp => txw_stages f h hm ⟨hal, hlo, hhi, hp⟩
  · exact fun hal hd hlo hhi hp => txwd_stages f h hm ⟨hal, hlo, hhi, hp⟩ hd
  · exact fun q h11 h22 hp ho hn => txpub_stages f q h hm hd h11 h22 hp ho hn
  · exact fun k hk h5 ho => txout_stages f k h hm hd hk h5 ho
  · exact fun dis hs h12 ho => txarm_stages f dis h hm hd hs h12 ho
  · exact fun c i j ho hw => csett_stages f h hm hd ho hw
  · exact fun hman hlt hal => txswr_stages f h hm hd hman hlt hal
  · exact fun f h hab hr hal hlo hhi hp => txw_beyond f h hab hr ⟨hal, hlo, hhi, hp⟩
  · exact fun f h hd h1 h2 hab => core_aborts h (by simp [hd, h1, h2]) hab rfl fun _ => rfl
  · exact fun f h hab => ⟨runTx_aborted hab h rfl rfl, fun hd => runTx_aborted hab h (by simp [even, hd]) rfl⟩

end Sys2Proof.Machine
end

section
/-! PROOFS: what an operation leaves of the memories and the queue. -/

namespace Sys2Proof.Machine
set_option Elab.async false

/-! ## What an operation leaves of the memories and the queue

`store` is what a step may have to leave as it is: both byte memories and the queue. One lemma for each operation of the model that
changes neither, in the order of the model's files. A lemma closed by computation is proved by `(rfl)`: in parentheses it stays a
rewriting rule of `simp`, which the side goals of the lemmas about `foldl`, `runCore` and `ksRun` need. -/

/-- The byte memories and the queue of commands. -/
def store (s : State) : List Host.Cell × List Host.Cell × List Instr := (s.mem, s.ddr, s.pending)

section
variable {s : State} {α : Type}

@[simp] theorem store_ite (c : Prop) [Decidable c] (a b : State) :
    store (if c then a else b) = if c then store a else store b := apply_ite ..

@[simp] theorem store_foldl (f : State → α → State) (l : List α) (s : State) (h : ∀ u a, store (f u a) = store u) :
    store (l.foldl f s) = store s := by
  induction l generalizing s with
  | nil => rfl
  | cons a l ih => rw [List.foldl_cons, ih, h]

@[simp] theorem store_each (n : Nat) [NeZero n] (f : Fin n → State → State) (s : State) (h : ∀ a u, store (f a u) = store u) :
    store (each n f s) = store s := by
  simp [each, h]

@[simp] theorem store_mk (regs : Tab Word) (now op : Instant) (time : TimeUnit) (port : Tab Port) (sw : Switch) (loom : Loom)
    (core : Tab Core) (ten : Tab Tenant) (cmt : Commit) (spare : Tab Spare) (arb : Tab Arb) (plu : Plu) (rec' : Recorder)
    (arc : Archive) (hif : Hif) (hdl : Heddle) (tru : Tru) (clu : Clu) (fio : Fio) (ks : KeyStore) (hc : Health) (out : List Out)
    (n : Nat) :
    store ⟨regs, now, op, time, port, sw, loom, core, ten, cmt, spare, arb, plu, rec', arc, hif, hdl, tru, clu, fio, ks, hc,
      s.mem, s.ddr, out, n, s.pending⟩ = store s := rfl

@[simp] theorem store_snd_ite (c : Prop) [Decidable c] (a b : α × State) :
    store (if c then a else b).2 = if c then store a.2 else store b.2 := by
  split <;> rfl

@[simp] theorem store_st_ite (c : Prop) [Decidable c] (a b : KsAns) :
    store (if c then a else b).st = if c then store a.st else store b.st := by
  split <;> rfl

@[simp] theorem store_foldl_snd {β : Type} (f : β × State → α → β × State) (l : List α) (x : β × State)
    (h : ∀ x a, store (f x a).2 = store x.2) :
    store (l.foldl f x).2 = store x.2 := by
  induction l generalizing x with
  | nil => rfl
  | cons a l ih => rw [List.foldl_cons, ih, h]

/-- An alternative leaves what both its branches leave. -/
theorem store_cond {c : Prop} [Decidable c] {a b : State} {x : List Host.Cell × List Host.Cell × List Instr}
    (ha : store a = x) (hb : store b = x) :
    store (if c then a else b) = x := by
  split <;> assumption

/-- What is known of an operation by the parts it keeps. -/
theorem store_of_keeps {ps : List Part} {s t : State} (h : KeepsBut ps s t) (hm : .mem ∉ ps := by decide) (hd : .ddr ∉ ps := by decide)
    (hp : .pending ∉ ps := by decide) : store t = store s := by
  rw [store, show t.mem = s.mem from h .mem hm, show t.ddr = s.ddr from h .ddr hd, show t.pending = s.pending from h .pending hp, store]

@[simp] theorem store_onBit (v : Word) (i : Nat) (f : State → State) (h : ∀ u, store (f u) = store u) :
    store (onBit v i f s) = store s := by
  simp [onBit, h]

@[simp] theorem store_live (f : State → State) (h : ∀ u, store (f u) = store u) : store (live s f) = store s := by
  simp [live, h]

@[simp] theorem store_runQ (f : Fin 64) (q : Fin 16) (o : Nat) (work : QCmd → State) (h : ∀ c, store (work c) = store s) :
    store (runQ s f q o work) = store s := by
  unfold runQ
  split <;> simp [h]
end

/-! ### Machine/Ops -/

@[simp] theorem store_wr (s : State) (off : Nat) (v : Word) : store (wr s off v) = store s := (rfl)
@[simp] theorem store_wf (s : State) (off : Nat) (hi : Nat) (lo : Nat) (x : Nat) : store (wf s off hi lo x) = store s := (rfl)
@[simp] theorem store_wb (s : State) (off : Nat) (i : Nat) (b : Bool) : store (wb s off i b) = store s := (rfl)
@[simp] theorem store_bump (s : State) (off : Nat) (n : Nat) : store (bump s off n) = store s := (rfl)
@[simp] theorem store_wr64 (s : State) (lo : Nat) (hi : Nat) (n : Nat) : store (wr64 s lo hi n) = store s := (rfl)
@[simp] theorem store_toInstant (s : State) (tm : Instant) : store (toInstant s tm) = store s := (rfl)
@[simp] theorem store_emit (s : State) (o : Out) : store (emit s o) = store s := (rfl)
@[simp] theorem store_drawWord (s : State) : store (drawWord s).2 = store s := (rfl)
@[simp] theorem store_drawLe (s : State) (m : Nat) : store (drawLe s m).2 = store s := (rfl)
@[simp] theorem store_drawBool (s : State) : store (drawBool s).2 = store s := (rfl)
@[simp] theorem store_msix (s : State) (fn : Fin 64) (vec : Nat) : store (msix s fn vec) = store s := (rfl)
@[simp] theorem store_raise (s : State) (irq : Nat) (bit : Nat) : store (raise s irq bit) = store s := store_of_keeps (edge_raise ..).keeps
@[simp] theorem store_raiseVf (s : State) (v : Fin 64) (bit : Nat) : store (raiseVf s v bit) = store s := by simp [raiseVf]
@[simp] theorem store_modPort (s : State) (p : Fin 144) (f : Port → Port) : store (modPort s p f) = store s := (rfl)
@[simp] theorem store_setCore (s : State) (l : Fin 64) (x : Core) : store (setCore s l x) = store s := (rfl)
@[simp] theorem store_modCore (s : State) (l : Fin 64) (f : Core → Core) : store (modCore s l f) = store s := (rfl)
@[simp] theorem store_modTen (s : State) (t : Fin 64) (f : Tenant → Tenant) : store (modTen s t f) = store s := (rfl)
@[simp] theorem store_modWarp (s : State) (w : Fin 512) (f : WarpSt → WarpSt) : store (modWarp s w f) = store s := (rfl)
@[simp] theorem store_setSub (s : State) (g : Fin 2048) (x : GooseSub) : store (setSub s g x) = store s := (rfl)
@[simp] theorem store_modArb (s : State) (k : Nat) (f : Arb → Arb) : store (modArb s k f) = store s := (rfl)
@[simp] theorem store_request (s : State) (k : Nat) (r : ArbReq) : store (request s k r) = store s := (rfl)
@[simp] theorem store_ask (s : State) (k : Nat) (port : Nat) (beats : Nat) (line : Nat) : store (ask s k port beats line) = store s := (rfl)

@[simp] theorem store_askBanks (s : State) (port : Nat) (lines : List Nat) : store (askBanks s port lines) = store s := by
  refine store_foldl _ _ _ fun u b => ?_
  split <;> simp

@[simp] theorem store_askDdr (s : State) (port : Nat) (accesses : Nat) (off : Nat) : store (askDdr s port accesses off) = store s := by
  simp [askDdr]

@[simp] theorem store_askFree (s : State) (port : Nat) (core : Nat) (accesses : Nat) : store (askFree s port core accesses) = store s := by
  simp [askFree]

@[simp] theorem store_askTick (s : State) (accesses : Nat) : store (askTick s accesses) = store s := by simp [askTick]

@[simp] theorem store_askSpread (s : State) (port off n : Nat) : store (askSpread s port off n) = store s := by
  refine store_foldl _ _ _ fun u ch => ?_
  split <;> simp

@[simp] theorem store_setPan (s : State) (k : Nat) (x : PanWord) : store (setPan s k x) = store s := (rfl)

@[simp] theorem store_startFlush (s : State) (force : Bool) : store (startFlush s force) = store s :=
  store_of_keeps (startFlush_frame ..).keeps

@[simp] theorem store_flushDue (s : State) : store (flushDue s) = store s := store_of_keeps (flushDue_frame ..).keeps

@[simp] theorem store_logRec (s : State) (irq : Nat) (severity : Nat) (cls : Nat) (detail : Nat) (ids : List Nat) :
    store (logRec s irq severity cls detail ids) = store s :=
  store_of_keeps (logRec_frame ..).keeps

@[simp] theorem store_persist (s : State) (off : Nat) : store (persist s off) = store s := store_of_keeps (persist_frame ..).keeps
@[simp] theorem store_persistWord (s : State) (w : Nat) : store (persistWord s w) = store s := store_of_keeps (persistWord_frame ..).keeps
@[simp] theorem store_wrp (s : State) (off : Nat) (v : Word) : store (wrp s off v) = store s := by simp [wrp]

/-! ### Machine/Time -/

@[simp] theorem store_modTime (s : State) (f : TimeUnit → TimeUnit) : store (modTime s f) = store s := (rfl)
@[simp] theorem store_refreshClock (s : State) : store (refreshClock s) = store s := (rfl)
@[simp] theorem store_setGm (s : State) (gm : BitVec 64) : store (setGm s gm) = store s := by simp [setGm]
@[simp] theorem store_stopCorrecting (s : State) : store (stopCorrecting s) = store s := (rfl)

@[simp] theorem store_enterClock (s : State) (new : Nat) : store (enterClock s new) = store s := by
  unfold enterClock
  split <;> simp

@[simp] theorem store_slew (s : State) (delta : Int) : store (slew s delta) = store s := by simp [slew]
@[simp] theorem store_correct (s : State) (delta : Int) (top : Bool) : store (correct s delta top) = store s := by simp [correct]

@[simp] theorem store_measureOffset (s : State) (delta : Int) : store (measureOffset s delta) = store s := by
  refine store_cond rfl (store_cond (store_cond (by simp) (by simp)) ?_)
  extract_lets run s2 s3
  have h3 : store s3 = store s := store_cond (by simp [s2]) (by simp [s2])
  exact store_cond (by simp [h3]) (by simp [h3])

@[simp] theorem store_sourceGap (s : State) : store (sourceGap s) = store s := (rfl)
@[simp] theorem store_announceGap (s : State) : store (announceGap s) = store s := (rfl)

@[simp] theorem store_sourceQualified (s : State) : store (sourceQualified s) = store s := by
  unfold sourceQualified
  split <;> simp

@[simp] theorem store_sourceLost (s : State) : store (sourceLost s) = store s := by
  simp only [sourceLost]
  split <;> simp

@[simp] theorem store_countForeign (s : State) : store (countForeign s) = store s := (rfl)

@[simp] theorem store_selectMaster (s : State) : store (selectMaster s) = store s := by
  simp only [selectMaster]
  repeat' split
  all_goals simp

@[simp] theorem store_doAnnounceReceive (p : Fin 144) (m : Announce) (tm : Instant) (s : State) :
    store (doAnnounceReceive p m tm s) = store s := by
  simp only [doAnnounceReceive]
  repeat' split
  all_goals simp

@[simp] theorem store_sourceReading (s : State) (need : Nat) (offset : Int) : store (sourceReading s need offset) = store s := by
  simp only [sourceReading]
  split <;> simp

@[simp] theorem store_doSyncReceive (p : Fin 144) (gm : BitVec 64) (offset : Int) (tm : Instant) (s : State) :
    store (doSyncReceive p gm offset tm s) = store s := by
  simp only [doSyncReceive]
  repeat' split
  all_goals simp

@[simp] theorem store_doPdelayReceive (p : Fin 144) (delay : Nat) (tm : Instant) (s : State) :
    store (doPdelayReceive p delay tm s) = store s := (rfl)

@[simp] theorem store_doAnnounceTimeout (p : Fin 144) (tm : Instant) (s : State) : store (doAnnounceTimeout p tm s) = store s := by
  simp only [doAnnounceTimeout]
  split <;> simp

@[simp] theorem store_doReferenceLost (irig : Bool) (tm : Instant) (s : State) : store (doReferenceLost irig tm s) = store s := by
  simp [doReferenceLost]

@[simp] theorem store_pushEdge (s : State) (e : TimeEdge) : store (pushEdge s e) = store s := by simp [pushEdge]

@[simp] theorem store_doPpsInEdge (rising : Bool) (tm : Instant) (s : State) : store (doPpsInEdge rising tm s) = store s := by
  simp only [doPpsInEdge]
  repeat' split
  all_goals simp

@[simp] theorem store_doIrigBFrame (m : IrigFrame) (tm : Instant) (s : State) : store (doIrigBFrame m tm s) = store s := by
  simp only [doIrigBFrame]
  repeat' split
  all_goals simp

@[simp] theorem store_doSlewDone (tm : Instant) (s : State) : store (doSlewDone tm s) = store s := (rfl)

@[simp] theorem store_doHoldoverSpecExpiry (tm : Instant) (s : State) : store (doHoldoverSpecExpiry tm s) = store s := by
  simp [doHoldoverSpecExpiry]

@[simp] theorem store_doPpsOut (s : State) : store (doPpsOut s) = store s := by simp [doPpsOut]
@[simp] theorem store_doPpsOutEnd (s : State) : store (doPpsOutEnd s) = store s := by simp [doPpsOutEnd]
@[simp] theorem store_doTimeCtrlWrite (v : Word) (s : State) : store (doTimeCtrlWrite v s) = store s := by simp [doTimeCtrlWrite]
@[simp] theorem store_doTimePrioWrite (v : Word) (s : State) : store (doTimePrioWrite v s) = store s := by simp [doTimePrioWrite]
@[simp] theorem store_doTimePtpcfgWrite (v : Word) (s : State) : store (doTimePtpcfgWrite v s) = store s := by simp [doTimePtpcfgWrite]
@[simp] theorem store_doTimeTickcfgWrite (v : Word) (s : State) : store (doTimeTickcfgWrite v s) = store s := by simp [doTimeTickcfgWrite]
@[simp] theorem store_doTimeLatch (v : Word) (tm : Instant) (s : State) : store (doTimeLatch v tm s) = store s := by simp [doTimeLatch]
@[simp] theorem store_doTimeSetGo (v : Word) (tm : Instant) (s : State) : store (doTimeSetGo v tm s) = store s := by simp [doTimeSetGo]

@[simp] theorem store_doTimeEdgePop (v : Word) (s : State) : store (doTimeEdgePop v s) = store s := by
  simp only [doTimeEdgePop]
  repeat' split
  all_goals simp

@[simp] theorem store_doOcxoAgeingUpdate (model : Word) (s : State) : store (doOcxoAgeingUpdate model s) = store s := by
  simp [doOcxoAgeingUpdate]

/-! ### Machine/KeyStore -/

@[simp] theorem store_modKs (s : State) (f : KeyStore → KeyStore) : store (modKs s f) = store s := (rfl)
@[simp] theorem store_setKsSlot (s : State) (i : Nat) (x : KeySlot) : store (setKsSlot s i x) = store s := (rfl)
@[simp] theorem store_showSlots (s : State) : store (showSlots s) = store s := (rfl)
@[simp] theorem store_noKey (s : State) : store (noKey s) = store s := by simp [noKey]
@[simp] theorem store_ksPut (s : State) (bs : List Byte) : store (ksPut s bs) = store s := (rfl)
@[simp] theorem store_cfgDirty (s : State) : store (cfgDirty s) = store s := (rfl)
@[simp] theorem store_doBindingRead (s : State) : store (doBindingRead s) = store s := (rfl)

@[simp] theorem store_doBindingWrite (s : State) : store (doBindingWrite s) = store s := by
  simp only [doBindingWrite]
  split <;> simp

@[simp] theorem store_doBindingClear (s : State) : store (doBindingClear s) = store s := (rfl)
@[simp] theorem store_doKsOwnWrite (i : Fin 256) (v : Word) (s : State) : store (doKsOwnWrite i v s) = store s := by simp [doKsOwnWrite]
@[simp] theorem store_rederiveOnce (s : State) : store (rederiveOnce s) = store s := (rfl)

@[simp] theorem store_rederive (s : State) : store (rederive s) = store s := by
  have h (n : Nat) : store (Nat.rec (motive := fun _ => State) s (fun _ s => rederiveOnce s) n) = store s := by
    induction n with
    | zero => rfl
    | succ n ih => exact (store_rederiveOnce _).trans ih
  exact h 8

@[simp] theorem store_trng (s : State) (n : Nat) : store (trng s n).2 = store s := (rfl)
@[simp] theorem store_ksNo (s : State) (n : Nat) : store (ksNo s n).st = store s := (rfl)
@[simp] theorem store_ksYes (s : State) : store (ksYes s).st = store s := (rfl)

@[simp] theorem store_ksRun (s : State) (needsKey : Bool) (work : State → KsAns) (h : ∀ u, store (work u).st = store u) :
    store (ksRun s needsKey work) = store s := by
  unfold ksRun
  dsimp only
  split
  · rfl
  · split
    · simp
    · simp [h]

@[simp] theorem store_placeShadow (s : State) (slot : Nat) (k : KeyVal) : store (placeShadow s slot k).st = store s := by simp [placeShadow]
@[simp] theorem store_doKsGen (slot : Fin 1024) (s : State) : store (doKsGen slot s) = store s := by simp [doKsGen]

@[simp] theorem store_doKsUnwrap (slot : Fin 1024) (s : State) : store (doKsUnwrap slot s) = store s := by
  refine store_ksRun _ _ _ fun u => ?_
  dsimp only
  split
  · simp
  · split
    · simp
    · split
      · simp
      · split
        · simp
        · split <;> simp

@[simp] theorem store_doKsPubimp (slot : Fin 1024) (s : State) : store (doKsPubimp slot s) = store s := by simp [doKsPubimp]

@[simp] theorem store_doKsDerive (slot : Fin 1024) (s : State) : store (doKsDerive slot s) = store s := by
  refine store_ksRun _ _ _ fun u => ?_
  dsimp only
  split
  · simp
  · split
    · simp
    · split <;> simp

@[simp] theorem store_doKsSwap (slot : Fin 1024) (s : State) : store (doKsSwap slot s) = store s := by
  refine store_ksRun _ _ _ fun u => ?_
  dsimp only
  split
  · simp
  · split <;> simp

@[simp] theorem store_doKsDiscard (slot : Fin 1024) (s : State) : store (doKsDiscard slot s) = store s := by simp [doKsDiscard]
@[simp] theorem store_doKsErase (slot : Fin 1024) (s : State) : store (doKsErase slot s) = store s := by simp [doKsErase]

@[simp] theorem store_doKsReadpub (slot : Fin 1024) (s : State) : store (doKsReadpub slot s) = store s := by
  refine store_ksRun _ _ _ fun u => ?_
  split <;> simp

@[simp] theorem store_doKsSign (slot : Fin 1024) (s : State) : store (doKsSign slot s) = store s := by
  refine store_ksRun _ _ _ fun u => ?_
  split <;> simp

@[simp] theorem store_doKsVerify (slot : Fin 1024) (s : State) : store (doKsVerify slot s) = store s := by
  refine store_ksRun _ _ _ fun u => ?_
  split <;> simp

@[simp] theorem store_doKsHmac (slot : Fin 1024) (s : State) : store (doKsHmac slot s) = store s := by
  refine store_ksRun _ _ _ fun u => ?_
  split <;> simp

@[simp] theorem store_doKsHmacv (slot : Fin 1024) (s : State) : store (doKsHmacv slot s) = store s := by
  refine store_ksRun _ _ _ fun u => ?_
  split <;> simp

@[simp] theorem store_doKsOwner (slot : Fin 1024) (s : State) : store (doKsOwner slot s) = store s := by
  refine store_ksRun _ _ _ fun u => ?_
  dsimp only
  split
  · simp
  · split <;> simp

@[simp] theorem store_doProvArm (tm : Instant) (s : State) : store (doProvArm tm s) = store s := by simp [doProvArm]
@[simp] theorem store_disarm (s : State) : store (disarm s) = store s := (rfl)
@[simp] theorem store_provision (s : State) : store (provision s) = store s := by simp [provision]
@[simp] theorem store_doProvConfirm (tm : Instant) (s : State) : store (doProvConfirm tm s) = store s := by simp [doProvConfirm]

@[simp] theorem store_doProvArmExpiry (tm : Instant) (s : State) : store (doProvArmExpiry tm s) = store s := by
  simp only [doProvArmExpiry]
  repeat' split
  all_goals simp

@[simp] theorem store_doKsCommandDone (s : State) : store (doKsCommandDone s) = store s := by
  simp only [doKsCommandDone]
  repeat' split
  all_goals simp

@[simp] theorem store_doKeyRecordSaved (s : State) : store (doKeyRecordSaved s) = store s := by
  unfold doKeyRecordSaved
  split <;> simp

@[simp] theorem store_unlockKeys (s : State) (root : List Byte) : store (unlockKeys s root) = store s := (rfl)
@[simp] theorem store_tamperLog (s : State) : store (tamperLog s) = store s := store_of_keeps (tamperLog_frame ..).keeps

@[simp] theorem store_tamper (s : State) (src : Fin 5) (place : Nat) : store (tamper s src place) = store s :=
  store_of_keeps (tamper_frame ..).keeps

@[simp] theorem store_doTamperTrip (src : Fin 5) (s : State) : store (doTamperTrip src s) = store s := by simp [doTamperTrip]

@[simp] theorem store_doTamperSourceCleared (src : Fin 5) (s : State) : store (doTamperSourceCleared src s) = store s := by
  simp [doTamperSourceCleared]

/-! ### Machine/Fio -/

@[simp] theorem store_modIn (s : State) (i : Fin 32) (f : FioIn → FioIn) : store (modIn s i f) = store s := (rfl)
@[simp] theorem store_pushBi (s : State) (e : FioEdge) : store (pushBi s e) = store s := by simp [pushBi]
@[simp] theorem store_showChatter (s : State) (i : Fin 32) (b : Bool) : store (showChatter s i b) = store s := by simp [showChatter]

@[simp] theorem store_acceptChange (s : State) (i : Fin 32) (level : Bool) : store (acceptChange s i level) = store s := by
  simp [acceptChange]

@[simp] theorem store_enterRaw (s : State) (i : Fin 32) : store (enterRaw s i) = store s := by simp [enterRaw]

@[simp] theorem store_rawEdge (i : Fin 32) (level : Bool) (s : State) (x : FioIn) :
    store (doBiTransition.rawEdge i level s x) = store s := (rfl)

@[simp] theorem store_doBiTransition (i : Fin 32) (level : Bool) (tm : Instant) (s : State) :
    store (doBiTransition i level tm s) = store s := by
  simp only [doBiTransition]
  split <;> simp

@[simp] theorem store_doDebounceExpiry (i : Fin 32) (tm : Instant) (s : State) : store (doDebounceExpiry i tm s) = store s := by
  simp [doDebounceExpiry]

@[simp] theorem store_doChatterRelease (i : Fin 32) (tm : Instant) (s : State) : store (doChatterRelease i tm s) = store s := by
  simp [doChatterRelease]

@[simp] theorem store_biSettle (was : Bool) (s : State) (i : Fin 32) : store (biSettle was s i) = store s := by simp [biSettle]

@[simp] theorem store_withInputs (f : State → State) (s : State) (h : ∀ u, store (f u) = store u) :
    store (withInputs f s) = store s := by
  simp [withInputs, h]

@[simp] theorem store_doFioEdgePop (s : State) : store (doFioEdgePop s) = store s := by
  unfold doFioEdgePop
  split <;> simp

@[simp] theorem store_doFioBiGrantWrite (t : Fin 64) (v : Word) (s : State) : store (doFioBiGrantWrite t v s) = store s := by
  simp [doFioBiGrantWrite]

@[simp] theorem store_doBcOwnWrite (i : Fin 4) (v : Word) (s : State) : store (doBcOwnWrite i v s) = store s := by simp [doBcOwnWrite]
@[simp] theorem store_modCh (s : State) (k : Fin 16) (f : FioCh → FioCh) : store (modCh s k f) = store s := (rfl)
@[simp] theorem store_modOut (s : State) (k : Fin 16) (o : BcOut) (f : FioDrive → FioDrive) : store (modOut s k o f) = store s := (rfl)

@[simp] theorem store_setOut (s : State) (k : Fin 16) (o : BcOut) (st : OutState) : store (setOut s k o st) = store s :=
  store_of_keeps (setOut_frame ..).keeps

@[simp] theorem store_clearAttempts (s : State) (k : Fin 16) (o : BcOut) : store (clearAttempts s k o) = store s := (rfl)

@[simp] theorem store_outStep (s : State) (k : Fin 16) (o : BcOut) : store (outStep s k o) = store s :=
  store_of_keeps (outStep_frame ..).keeps

@[simp] theorem store_evalCh (s : State) (k : Fin 16) : store (evalCh s k) = store s := store_of_keeps (evalCh_frame ..).keeps
@[simp] theorem store_evalAll (s : State) : store (evalAll s) = store s := store_of_keeps (evalAll_frame ..).keeps
@[simp] theorem store_tripBc (s : State) (k : Fin 16) : store (tripBc s k) = store s := by simp [tripBc]

@[simp] theorem store_bcOwnerChanged (s : State) (k : Fin 16) : store (bcOwnerChanged s k) = store s :=
  store_of_keeps (bcOwnerChanged_frame ..).keeps

@[simp] theorem store_doInhibitTimer (k : Fin 16) (tm : Instant) (s : State) : store (doInhibitTimer k tm s) = store s := by
  simp only [doInhibitTimer]
  repeat' split
  all_goals simp

@[simp] theorem store_doMinTripExpiry (k : Fin 16) (tm : Instant) (s : State) : store (doMinTripExpiry k tm s) = store s := by
  simp [doMinTripExpiry]

@[simp] theorem store_judge (s : State) (k : Fin 16) (o : BcOut) (isOpen : Bool) : store (judge s k o isOpen) = store s := by simp [judge]

@[simp] theorem store_doCurrentLimit (k : Fin 16) (o : BcOut) (ma : Nat) (tm : Instant) (s : State) :
    store (doCurrentLimit k o ma tm s) = store s := by
  simp [doCurrentLimit]

@[simp] theorem store_doLimitTimeout (k : Fin 16) (o : BcOut) (tm : Instant) (s : State) : store (doLimitTimeout k o tm s) = store s := by
  simp [doLimitTimeout]

@[simp] theorem store_doRetryTimeout (k : Fin 16) (o : BcOut) (tm : Instant) (s : State) : store (doRetryTimeout k o tm s) = store s := by
  simp only [doRetryTimeout]
  split <;> simp

@[simp] theorem store_doClrLatch (k : Fin 16) (s : State) : store (doClrLatch k s) = store s := by simp [doClrLatch]

@[simp] theorem store_doSupplyChange (g : Fin 4) (cls : SupplyClass) (quarterVolts : Nat) (s : State) :
    store (doSupplyChange g cls quarterVolts s) = store s := by
  simp [doSupplyChange]

@[simp] theorem store_doSupervisionPulse (k : Fin 16) (o : BcOut) (tm : Instant) (s : State) :
    store (doSupervisionPulse k o tm s) = store s := by
  simp [doSupervisionPulse]

@[simp] theorem store_doSupervisionPulseEnd (k : Fin 16) (o : BcOut) (above : Bool) (tm : Instant) (s : State) :
    store (doSupervisionPulseEnd k o above tm s) = store s := by
  simp [doSupervisionPulseEnd]

@[simp] theorem store_doLowCurrentTimeout (k : Fin 16) (tm : Instant) (o : BcOut) (s : State) :
    store (doLowCurrentTimeout k tm o s) = store s := by
  simp [doLowCurrentTimeout]

/-! ### Machine/Tenants -/

@[simp] theorem store_setTState (s : State) (t : Fin 64) (st : Nat) : store (setTState s t st) = store s :=
  store_of_keeps (edge_setTState ..).keeps

@[simp] theorem store_trap (s : State) (l : Fin 64) (cause : Nat) (addr : Word) : store (trap s l cause addr) = store s :=
  store_of_keeps (trap_frame ..).keeps

@[simp] theorem store_trapData (s : State) (l : Fin 64) : store (trapData s l) = store s := by simp [trapData]
@[simp] theorem store_abortTx (s : State) (t : Nat) (cause : Nat) : store (abortTx s t cause) = store s := (rfl)
@[simp] theorem store_stage (s : State) (l : Fin 64) (e : Entry) : store (stage s l e) = store s := by simp [stage]

/-! ### Machine/Operands -/

@[simp] theorem store_watchdogTrap (s : State) (l : Fin 64) (w : Nat) : store (watchdogTrap s l w) = store s := by simp [watchdogTrap]

@[simp] theorem store_runCore (l : Fin 64) (legal : Bool) (pr : BitVec 3) (srcs : List Nat) (ch : Option Nat) (s : State)
    (go : Nat → Core → State → State) (h : ∀ t c u, store (go t c u) = store u) :
    store (runCore l legal pr srcs ch s go) = store s := by
  unfold runCore
  dsimp only
  split
  · rfl
  · split <;> simp [h]

@[simp] theorem store_retire (s : State) (l : Fin 64) (t0 : Nat) (cost : Nat) (lat : Nat) (chainW : Bool) (w : Wr) :
    store (retire s l t0 cost lat chainW w) = store s := (rfl)

@[simp] theorem store_modUnit (s : State) (u : Fin 17) (f : HUnit → HUnit) : store (modUnit s u f) = store s := (rfl)
@[simp] theorem store_setRec (s : State) (u : Fin 17) (r : HRec) : store (setRec s u r) = store s := (rfl)

@[simp] theorem store_runRec (u : Fin 17) (id : Nat) (legal : Bool) (pr : BitVec 3) (lat : Nat) (s : State)
    (go : HRec → State → Wr × State) (h : ∀ r u, store (go r u).2 = store u) : store (runRec u id legal pr lat s go) = store s := by
  unfold runRec
  split
  · rfl
  · split
    · rfl
    · simp [h]

@[simp] theorem store_runAlu (x : Who) (o : AluOp) (s : State) : store (runAlu x o s) = store s := by
  unfold runAlu
  split <;> simp

@[simp] theorem store_runFp (l : Fin 64) (o : AluOp) (s : State) : store (runFp l o s) = store s := by simp [runFp]

/-! ### Machine/Arbiter -/

@[simp] theorem store_corrected (s : State) (n : Nat) (off : Nat) : store (corrected s n off) = store s :=
  store_of_keeps (corrected_frame ..).keeps

@[simp] theorem store_grant (s : State) (k : Nat) (w : ArbReq) (c : Nat) : store (grant s k w c) = store s :=
  store_of_keeps (grant_granted ..).frame.keeps

@[simp] theorem store_settleArb (n k c : Nat) (s : State) : store (settleArb n k c s) = store s := by
  induction n generalizing s with
  | zero => rfl
  | succ n ih =>
    unfold settleArb
    split
    · simp [ih]
    · rfl

@[simp] theorem store_upTo (s : State) (k : Nat) (c : Nat) : store (upTo s k c) = store s := by simp [upTo]
@[simp] theorem store_settleAll (s : State) : store (settleAll s) = store s := store_of_keeps (settleAll_granted ..).frame.keeps

@[simp] theorem store_complete (s : State) (port : Nat) (core : Nat) : store (complete s port core) = store s :=
  store_of_keeps (complete_granted ..).frame.keeps

@[simp] theorem store_doArbiterGrant (b : Fin 16) (s : State) : store (doArbiterGrant b s) = store s := by
  unfold doArbiterGrant
  split <;> simp

@[simp] theorem store_doQuotaWindow (s : State) : store (doQuotaWindow s) = store s := by simp [doQuotaWindow]

@[simp] theorem store_doDdr5Grant (ch : Fin 4) (s : State) : store (doDdr5Grant ch s) = store s := by
  simp only [doDdr5Grant]
  repeat' split
  all_goals simp

@[simp] theorem store_withdraw (s : State) (l : Nat) : store (withdraw s l) = store s := (rfl)
@[simp] theorem store_askPair (s : State) (dir : Nat) (beats : Nat) : store (askPair s dir beats) = store s := (rfl)
@[simp] theorem store_doPairLinkWrite (bytes : Nat) (s : State) : store (doPairLinkWrite bytes s) = store s := by simp [doPairLinkWrite]
@[simp] theorem store_linkLost (s : State) : store (linkLost s) = store s := (rfl)
@[simp] theorem store_askOut (s : State) : store (askOut s) = store s := store_of_keeps (askOut_frame ..).keeps
@[simp] theorem store_doCreditReturn (bytes : Nat) (s : State) : store (doCreditReturn bytes s) = store s := by simp [doCreditReturn]

@[simp] theorem store_doPartitionEntryWrite (t : Fin 64) (j : Fin 8) (v : Word) (s : State) :
    store (doPartitionEntryWrite t j v s) = store s := by
  simp only [doPartitionEntryWrite]
  split <;> simp

@[simp] theorem store_doSmaBClr (b : Fin 16) (v : Word) (s : State) : store (doSmaBClr b v s) = store s := by simp [doSmaBClr]
@[simp] theorem store_doSmaDClr (ch : Fin 4) (v : Word) (s : State) : store (doSmaDClr ch v s) = store s := by simp [doSmaDClr]

/-! ### Machine/Archive -/

@[simp] theorem store_modArc (s : State) (f : Archive → Archive) : store (modArc s f) = store s := (rfl)
@[simp] theorem store_setDrive (s : State) (d : Nat) (x : Drive) : store (setDrive s d x) = store s := (rfl)
@[simp] theorem store_showArc (s : State) : store (showArc s) = store s := (rfl)
@[simp] theorem store_arcLose (s : State) (n : Nat) : store (arcLose s n) = store s := by simp [arcLose]

@[simp] theorem store_archiveFeed (s : State) (row : Option Row) : store (archiveFeed s row) = store s :=
  store_of_keeps (archiveFeed_feedFrame ..).keeps

@[simp] theorem store_moveHead (s : State) (n : Nat) : store (moveHead s n) = store s := by
  simp only [moveHead]
  repeat' split
  all_goals simp

@[simp] theorem store_arcErr (s : State) : store (arcErr s) = store s := by
  unfold arcErr
  split <;> simp

@[simp] theorem store_doArchiveValueWritten (ok : Bool) (s : State) : store (doArchiveValueWritten ok s) = store s := by
  unfold doArchiveValueWritten
  split <;> simp

@[simp] theorem store_doArchiveIndexWritten (ok : Bool) (s : State) : store (doArchiveIndexWritten ok s) = store s := by
  unfold doArchiveIndexWritten
  split <;> simp

@[simp] theorem store_doDriveRemove (d : Fin 4) (s : State) : store (doDriveRemove d s) = store s := by simp [doDriveRemove]

@[simp] theorem store_doDriveInsert (d : Fin 4) (drv : DriveInfo) (s : State) : store (doDriveInsert d drv s) = store s := by
  simp [doDriveInsert]

@[simp] theorem store_blankRange (s : State) (b : Nat) (n : Nat) : store (blankRange s b n) = store s := (rfl)
@[simp] theorem store_fmtRes (s : State) (r : Nat) : store (fmtRes s r) = store s := (rfl)
@[simp] theorem store_doFormatDrive (d : Fin 4) (s : State) : store (doFormatDrive d s) = store s := by simp [doFormatDrive]

@[simp] theorem store_doFormatAll (s : State) : store (doFormatAll s) = store s := by
  unfold doFormatAll
  refine store_cond (by simp) (store_cond (by simp) (store_cond (by simp) ?_))
  simp

@[simp] theorem store_doArchiveTransfer (v : Word) (s : State) : store (doArchiveTransfer v s) = store s := by simp [doArchiveTransfer]

/-! ### Machine/Clu -/

@[simp] theorem store_modLoop (s : State) (c : Fin 8) (i : Fin 32) (f : LoopBox → LoopBox) : store (modLoop s c i f) = store s := (rfl)

@[simp] theorem store_loopWrite (s : State) (c : Fin 8) (i : Fin 32) (j : Nat) (v : Word) : store (loopWrite s c i j v) = store s :=
  store_of_keeps (loopWrite_frame ..).keeps

@[simp] theorem store_setSticky (s : State) (c : Fin 8) (i : Fin 32) (b : Nat) : store (setSticky s c i b) = store s :=
  store_of_keeps (setSticky_frame ..).keeps

@[simp] theorem store_inject (s : State) (c : Fin 8) (i : Fin 32) (v : Word) (fromPf : Bool) : store (inject s c i v fromPf) = store s := by
  simp [inject]

@[simp] theorem store_select (s : State) (c : Fin 8) (k : Fin 8) : store (select s c k).2 = store s := by simp [select]

@[simp] theorem store_ceval (s : State) (c : Fin 8) (i : Fin 32) (pv : Int) : store (ceval s c i pv).2.2 = store s := by
  unfold ceval
  extract_lets b p r g src st s1 s2 s3 s4 s5 s6
  split
  · rfl
  · refine (apply_ite (fun x : Int × Bool × State => store x.2.2) ..).trans (ite_eq_left_iff.2 fun _ => ?_)
    have h2 : store s2 = store s := store_cond (store_setSticky ..) rfl
    have h3 : store s3 = store s := store_cond ((store_setSticky ..).trans h2) h2
    have h4 : store s4 = store s := store_cond ((store_setSticky ..).trans h3) h3
    have h5 : store s5 = store s := store_cond ((store_raise ..).trans ((store_setSticky ..).trans h4)) h4
    have h6 : store s6 = store s := store_cond h5 h5
    cases g with
    | none => exact h6
    | some k => exact (store_snd_ite ..).trans (by simp [h6])

@[simp] theorem store_noteClu (s : State) (l : Fin 64) (wait : Nat) : store (noteClu s l wait) = store s := (rfl)

@[simp] theorem store_doCeval (l : Fin 64) (f : FmtA) (s : State) : store (doCeval l f s) = store s := by
  refine store_runCore _ _ _ _ _ _ _ fun t0 c u => ?_
  split <;> simp

@[simp] theorem store_doCset (l : Fin 64) (f : FmtA) (s : State) : store (doCset l f s) = store s := by
  refine store_runCore _ _ _ _ _ _ _ fun t0 c u => ?_
  split <;> simp

@[simp] theorem store_doCsett (l : Fin 64) (f : FmtA) (s : State) : store (doCsett l f s) = store s := by
  refine store_runCore _ _ _ _ _ _ _ fun t0 c u => ?_
  split
  · simp
  · split <;> simp

@[simp] theorem store_doCget (l : Fin 64) (f : FmtA) (s : State) : store (doCget l f s) = store s := by
  refine store_runCore _ _ _ _ _ _ _ fun t0 c u => ?_
  split <;> simp

@[simp] theorem store_doCinj (l : Fin 64) (f : FmtA) (s : State) : store (doCinj l f s) = store s := by
  refine store_runCore _ _ _ _ _ _ _ fun t0 c u => ?_
  split <;> simp

@[simp] theorem store_doLoopWordWrite (c : Fin 8) (i : Fin 32) (j : Fin 32) (v : Word) (s : State) :
    store (doLoopWordWrite c i j v s) = store s := by
  simp [doLoopWordWrite]

@[simp] theorem store_clearLoop (s : State) (c : Fin 8) (i : Fin 32) : store (clearLoop s c i) = store s :=
  store_of_keeps (clearLoop_frame ..).keeps

@[simp] theorem store_doCluLOwnWrite (c : Fin 8) (i : Fin 32) (v : Word) (s : State) : store (doCluLOwnWrite c i v s) = store s := by
  simp [doCluLOwnWrite]

@[simp] theorem store_doCluSgMembWrite (c : Fin 8) (k : Fin 8) (v : Word) (s : State) : store (doCluSgMembWrite c k v s) = store s := by
  simp [doCluSgMembWrite]

@[simp] theorem store_doInjCmd (c : Fin 8) (v : Word) (s : State) : store (doInjCmd c v s) = store s := by simp [doInjCmd]
@[simp] theorem store_modCap (s : State) (c : Fin 8) (n : Fin 2) (f : Cap → Cap) : store (modCap s c n f) = store s := (rfl)
@[simp] theorem store_showCap (s : State) (c : Fin 8) (n : Fin 2) : store (showCap s c n) = store s := (rfl)

@[simp] theorem store_capDone (s : State) (c : Fin 8) (n : Fin 2) : store (capDone s c n) = store s :=
  store_of_keeps (capDone_frame ..).keeps

@[simp] theorem store_doCapArm (c : Fin 8) (n : Fin 2) (s : State) : store (doCapArm c n s) = store s := by simp [doCapArm]

@[simp] theorem store_doCapStop (c : Fin 8) (n : Fin 2) (s : State) : store (doCapStop c n s) = store s := by
  simp only [doCapStop]
  repeat' split
  all_goals simp

@[simp] theorem store_doCapRead (c : Fin 8) (n : Fin 2) (s : State) : store (doCapRead c n s) = store s := (rfl)

@[simp] theorem store_doCluCapCtrlWrite (c : Fin 8) (n : Fin 2) (v : Word) (s : State) : store (doCluCapCtrlWrite c n v s) = store s := by
  simp [doCluCapCtrlWrite]

@[simp] theorem store_cluDeadline (s : State) : store (cluDeadline s) = store s :=
  store_of_keeps (Machine.cluDeadline_frame (s := s)).keeps

@[simp] theorem store_cluSwap (s : State) (commits : Nat → Bool) : store (cluSwap s commits) = store s :=
  store_of_keeps (cluSwap_frame ..).keeps

/-! ### Machine/Switch -/

@[simp] theorem store_count (s : State) (p : Fin 144) (i : Nat) (n : Nat) : store (count s p i n) = store s :=
  store_of_keeps (count_frame ..).keeps

@[simp] theorem store_countFrame (s : State) (p : Fin 144) (base : Nat) (f : Sys2Proof.Frame) :
    store (countFrame s p base f) = store s := by
  simp [countFrame]

@[simp] theorem store_showOvf (s : State) : store (showOvf s) = store s := (rfl)
@[simp] theorem store_sendPfc (s : State) (quanta : Nat) : store (sendPfc s quanta) = store s := store_of_keeps (sendPfc_frame ..).keeps
@[simp] theorem store_pauseCheck (s : State) : store (pauseCheck s) = store s := store_of_keeps (pauseCheck_frame ..).keeps

@[simp] theorem store_freeRef (s : State) (id : Nat) : store (freeRef s id) = store s := by
  unfold freeRef
  split <;> simp

@[simp] theorem store_discardQueues (s : State) (p : Fin 144) : store (discardQueues s p) = store s := by
  have h (u : State) (ids : List Nat) : store (ids.foldl (fun s id => count (freeRef s id) p 47) u) = store u := by simp
  unfold discardQueues
  extract_lets x ids s1 s2
  have h2 : store s2 = store s := h s1 ids
  split
  · exact (store_freeRef _ _).trans h2
  · exact h2

@[simp] theorem store_discardAll (s : State) (p : Fin 144) : store (discardAll s p) = store s := by
  simp only [discardAll]
  split <;> simp

@[simp] theorem store_setPState (s : State) (p : Fin 144) (st : Nat) (link : Bool) : store (setPState s p st link) = store s := by
  simp [setPState]

@[simp] theorem store_sendVerify (s : State) (p : Fin 144) (body : Payload) : store (sendVerify s p body) = store s := (rfl)
@[simp] theorem store_enterUp (s : State) (p : Fin 144) : store (enterUp s p) = store s := by simp [enterUp]
@[simp] theorem store_retrain (s : State) (p : Fin 144) (logIt : Bool) : store (retrain s p logIt) = store s := by simp [retrain]
@[simp] theorem store_noteError (s : State) (p : Fin 144) : store (noteError s p) = store s := by simp [noteError]
@[simp] theorem store_unfencePort (s : State) (p : Fin 144) : store (unfencePort s p) = store s := by simp [unfencePort]
@[simp] theorem store_macsecOut (s : State) (p : Fin 144) (f : Sys2Proof.Frame) : store (macsecOut s p f).2 = store s := by simp [macsecOut]
@[simp] theorem store_onWire (s : State) (p : Fin 144) (f : Sys2Proof.Frame) : store (onWire s p f) = store s := by simp [onWire]

@[simp] theorem store_startStored (s : State) (p : Fin 144) (id : Nat) (x : Stored) : store (startStored s p id x) = store s := by
  have h := store_macsecOut s p (egressFrame s p x)
  refine store_cond (store_freeRef _ _) ?_
  split <;> simp_all

@[simp] theorem store_startOrAge (s : State) (p : Fin 144) (tc : Nat) (id : Nat) : store (startOrAge s p tc id) = store s := by
  simp only [startOrAge]
  split <;> simp

@[simp] theorem store_serve (s : State) (p : Fin 144) : store (serve s p) = store s := by
  simp only [serve]
  repeat' split
  all_goals simp

@[simp] theorem store_doEgressDequeue (p : Fin 144) (tm : Instant) (s : State) : store (doEgressDequeue p tm s) = store s := by
  simp only [doEgressDequeue]
  repeat' split
  all_goals simp

@[simp] theorem store_wireDone (s : State) (p : Fin 144) : store (wireDone s p) = store s := by
  unfold wireDone
  split <;> simp

@[simp] theorem store_doPfcRepeat (s : State) : store (doPfcRepeat s) = store s := by simp [doPfcRepeat]
@[simp] theorem store_doPauseQuantaExpiry (p : Fin 144) (tc : Fin 5) (s : State) : store (doPauseQuantaExpiry p tc s) = store s := (rfl)
@[simp] theorem store_cfgRej (s : State) (p : Fin 144) : store (cfgRej s p) = store s := (rfl)

@[simp] theorem store_doSwcPCfgWrite (p : Fin 144) (v : Word) (s : State) : store (doSwcPCfgWrite p v s) = store s := by
  simp only [doSwcPCfgWrite]
  repeat' split
  all_goals simp

@[simp] theorem store_doBlockLock (p : Fin 144) (tm : Instant) (s : State) : store (doBlockLock p tm s) = store s := by simp [doBlockLock]
@[simp] theorem store_doTrainingTimeout (p : Fin 144) (s : State) : store (doTrainingTimeout p s) = store s := by simp [doTrainingTimeout]
@[simp] theorem store_doLossOfLock (p : Fin 144) (s : State) : store (doLossOfLock p s) = store s := by simp [doLossOfLock]

@[simp] theorem store_doVerifyAttemptTimeout (p : Fin 144) (s : State) : store (doVerifyAttemptTimeout p s) = store s := by
  simp [doVerifyAttemptTimeout]

@[simp] theorem store_doVerifyResponse (p : Fin 144) (s : State) : store (doVerifyResponse p s) = store s := by simp [doVerifyResponse]

@[simp] theorem store_doFenceAutoRelease (p : Fin 144) (tm : Instant) (s : State) : store (doFenceAutoRelease p tm s) = store s := by
  simp [doFenceAutoRelease]

@[simp] theorem store_doFenceRelease (p : Fin 144) (s : State) : store (doFenceRelease p s) = store s := by simp [doFenceRelease]

@[simp] theorem store_doSwcPLatch (p : Fin 144) (v : Word) (tm : Instant) (s : State) : store (doSwcPLatch p v tm s) = store s := by
  simp [doSwcPLatch]

@[simp] theorem store_doQsfpInserted (cage : Fin 12) (high : Bool) (s : State) : store (doQsfpInserted cage high s) = store s := by
  simp [doQsfpInserted]

@[simp] theorem store_fdbDel (s : State) (vid : BitVec 12) (mac : BitVec 48) : store (fdbDel s vid mac) = store s := (rfl)
@[simp] theorem store_fdbStat (s : State) (nf : Bool) (bf : Bool) : store (fdbStat s nf bf) = store s := (rfl)

@[simp] theorem store_doFdbRead (s : State) : store (doFdbRead s) = store s := by
  simp only [doFdbRead]
  split <;> simp

@[simp] theorem store_doFdbWriteStatic (s : State) : store (doFdbWriteStatic s) = store s := by simp [doFdbWriteStatic]

@[simp] theorem store_doFdbDelete (s : State) : store (doFdbDelete s) = store s := by
  simp only [doFdbDelete]
  split <;> simp

@[simp] theorem store_doFdbFlushLearned (s : State) : store (doFdbFlushLearned s) = store s := (rfl)

@[simp] theorem store_doFdbAgeOut (mac : BitVec 48) (vid : BitVec 12) (tm : Instant) (s : State) :
    store (doFdbAgeOut mac vid tm s) = store s := by
  simp only [doFdbAgeOut]
  split <;> simp

@[simp] theorem store_learn (s : State) (p : Fin 144) (vid : BitVec 12) (src : BitVec 48) : store (learn s p vid src) = store s := by
  simp only [learn]
  repeat' split
  all_goals simp

@[simp] theorem store_doVlanWrite (s : State) : store (doVlanWrite s) = store s := by simp [doVlanWrite]
@[simp] theorem store_doVlanRead (s : State) : store (doVlanRead s) = store s := (rfl)
@[simp] theorem store_doSwcOvfCfgWrite (v : Word) (s : State) : store (doSwcOvfCfgWrite v s) = store s := by simp [doSwcOvfCfgWrite]

@[simp] theorem store_doColPairmodeWrite (i : Fin 5) (v : Word) (s : State) : store (doColPairmodeWrite i v s) = store s := by
  simp [doColPairmodeWrite]

@[simp] theorem store_showDup (s : State) : store (showDup s) = store s := (rfl)

@[simp] theorem store_doDupEntryForget (pair : Fin 72) (mac : BitVec 48) (tm : Instant) (s : State) :
    store (doDupEntryForget pair mac tm s) = store s := (rfl)

@[simp] theorem store_dupCheck (s : State) (pair : Fin 72) (mac : BitVec 48) (q : BitVec 16) :
    store (dupCheck s pair mac q).2 = store s := by
  unfold dupCheck
  split <;> simp

@[simp] theorem store_originate (s : State) (f : Sys2Proof.Frame) (tc : Nat) (ports : List (Fin 144)) :
    store (originate s f tc ports) = store s :=
  store_of_keeps (originate_frame ..).keeps

@[simp] theorem store_originatePub (s : State) (f : Sys2Proof.Frame) (tc : Nat) (ports : List (Fin 144)) (pub : Nat) :
    store (originatePub s f tc ports pub) = store s :=
  store_of_keeps (originatePub_frame ..).keeps

@[simp] theorem store_doPtpTransmit (p : Fin 144) (kind : PtpKind) (tm : Instant) (s : State) :
    store (doPtpTransmit p kind tm s) = store s := by
  simp [doPtpTransmit]

@[simp] theorem store_answerPtp (s : State) (p : Fin 144) (m : PtpMsg) : store (answerPtp s p m) = store s := by
  simp only [answerPtp]
  repeat' split
  all_goals simp

/-! ### Machine/Loom -/

@[simp] theorem store_modLoom (s : State) (f : Loom → Loom) : store (modLoom s f) = store s := (rfl)

@[simp] theorem store_asduAccept (s : State) (w : Fin 512) (sim : Bool) (a : SvAsdu) (loopback : Bool) :
    store (asduAccept s w sim a loopback).2 = store s := by
  simp [asduAccept]

@[simp] theorem store_setAlign (s : State) (w : Fin 512) (aligned : Bool) : store (setAlign s w aligned) = store s := (rfl)

@[simp] theorem store_loomAsdu (s : State) (w : Fin 512) (sim : Bool) (a : SvAsdu) (ts : Instant) (playback : Bool) (chk : Option Nat) :
    store (loomAsdu s w sim a ts playback chk) = store s := by
  unfold loomAsdu
  extract_lets c F T al s1 x q
  refine store_cond rfl ?_
  generalize (if al = true then (tickByTime F c.ratio ts a.smpCnt, false)
    else tickByArrival F c.ratio T c.delay ts x.anchor a.smpCnt) = y
  split
  rename_i n re
  extract_lets s2 s3 m d x' s4 smp s5 s6
  have h2 : store s2 = store s := store_cond (by simp [s1]) (by simp [s1])
  have h3 : store s3 = store s := store_cond h2 h2
  refine store_cond h3 (store_cond h3 (store_cond (by simp [h3]) (store_cond (by simp [h3]) ?_)))
  split
  · exact store_cond ((store_raise ..).trans h3) h3
  · exact (store_cond h3 h3 : store s6 = store s)

@[simp] theorem store_markGap (s : State) (idx : Nat) : store (markGap s idx) = store s := (rfl)

@[simp] theorem store_doHistoryWrite (s : State) : store (doHistoryWrite s) = store s := by
  unfold doHistoryWrite
  split <;> simp

@[simp] theorem store_doHistoryRebuildDone (s : State) : store (doHistoryRebuildDone s) = store s := by simp [doHistoryRebuildDone]

@[simp] theorem store_doPbStart (s : State) : store (doPbStart s) = store s := by
  simp only [doPbStart]
  repeat' split
  all_goals simp

@[simp] theorem store_doPbStop (s : State) : store (doPbStop s) = store s := by simp [doPbStop]
@[simp] theorem store_pbIdle (s : State) (done : Bool) : store (pbIdle s done) = store s := store_of_keeps (pbIdle_frame ..).keeps

@[simp] theorem store_holdWrite (s : State) (off : Nat) (v : Word) : store (holdWrite s off v) = store s := by
  unfold holdWrite
  split <;> simp

@[simp] theorem store_doLoomCtrlWrite (v : Word) (s : State) : store (doLoomCtrlWrite v s) = store s := by simp [doLoomCtrlWrite]
@[simp] theorem store_doLoomTransitWrite (v : Word) (s : State) : store (doLoomTransitWrite v s) = store s := by simp [doLoomTransitWrite]

@[simp] theorem store_doLoomWCfgWrite (w : Fin 512) (v : Word) (s : State) : store (doLoomWCfgWrite w v s) = store s := by
  simp [doLoomWCfgWrite]

@[simp] theorem store_warpRegWrite (s : State) (w : Fin 512) (off : Nat) (v : Word) : store (warpRegWrite s w off v) = store s := by
  simp [warpRegWrite]

/-! ### Machine/Trip -/

@[simp] theorem store_modTru (s : State) (f : Tru → Tru) : store (modTru s f) = store s := (rfl)
@[simp] theorem store_modSlot (s : State) (i : Nat) (f : TSlot → TSlot) : store (modSlot s i f) = store s := (rfl)
@[simp] theorem store_modPub (s : State) (p : Nat) (f : Pub → Pub) : store (modPub s p f) = store s := (rfl)

@[simp] theorem store_signFrame (s : State) (p : Nat) (f : Sys2Proof.Frame) : store (signFrame s p f).2 = store s :=
  store_of_keeps (signFrame_frame ..).keeps

@[simp] theorem store_sendSlot (s : State) (i : Nat) (st : Nat) (sq : Nat) (t : List Byte) : store (sendSlot s i st sq t).2 = store s :=
  store_of_keeps (sendSlot_frame ..).keeps

@[simp] theorem store_release (s : State) (i : Nat) : store (release s i) = store s := store_of_keeps (release_frame ..).keeps
@[simp] theorem store_rejectReq (s : State) (unit : Nat) : store (rejectReq s unit) = store s := store_of_keeps (rejectReq_frame ..).keeps
@[simp] theorem store_atvFail (s : State) (r : TripReq) : store (atvFail s r) = store s := by simp [atvFail]

@[simp] theorem store_acceptReq (s : State) (r : TripReq) : store (acceptReq s r) = store s := by
  simp only [acceptReq]
  repeat' split
  all_goals simp

@[simp] theorem store_doReleaseRequest (tm : Instant) (s : State) : store (doReleaseRequest tm s) = store s := by
  simp only [doReleaseRequest]
  repeat' split
  all_goals simp

@[simp] theorem store_doVbaHoldEnd (tm : Instant) (s : State) : store (doVbaHoldEnd tm s) = store s := by
  simp only [doVbaHoldEnd]
  split <;> simp

@[simp] theorem store_doRetransmission (pub : Fin 1024) (tm : Instant) (s : State) : store (doRetransmission pub tm s) = store s := by
  simp only [doRetransmission]
  split <;> simp

@[simp] theorem store_sendGoose (s : State) (p : Nat) : store (sendGoose s p) = store s := store_of_keeps (sendGoose_frame ..).keeps
@[simp] theorem store_newState (s : State) (p : Nat) : store (newState s p) = store s := store_of_keeps (newState_frame ..).keeps

@[simp] theorem store_doGoosePublish (pub : Fin 1024) (tm : Instant) (s : State) : store (doGoosePublish pub tm s) = store s := by
  simp only [doGoosePublish]
  split <;> simp

@[simp] theorem store_doSvPublish (pub : Fin 128) (s : State) : store (doSvPublish pub s) = store s := by simp [doSvPublish]
@[simp] theorem store_slotOwners (s : State) : store (slotOwners s) = store s := (rfl)
@[simp] theorem store_freeSlots (s : State) (t : Nat) : store (freeSlots s t) = store s := (rfl)
@[simp] theorem store_doSlotRead (s : State) : store (doSlotRead s) = store s := by simp [doSlotRead]
@[simp] theorem store_truRej (s : State) : store (truRej s) = store s := by simp [truRej]
@[simp] theorem store_doSlotClear (s : State) : store (doSlotClear s) = store s := by simp [doSlotClear]
@[simp] theorem store_doSlotWrite (s : State) : store (doSlotWrite s) = store s := by simp [doSlotWrite]
@[simp] theorem store_doTruCtrlWrite (v : Word) (s : State) : store (doTruCtrlWrite v s) = store s := by simp [doTruCtrlWrite]
@[simp] theorem store_doTruRetxWrite (v : Word) (s : State) : store (doTruRetxWrite v s) = store s := by simp [doTruRetxWrite]

/-! ### Machine/Heddle -/

@[simp] theorem store_modHdl (s : State) (f : Heddle → Heddle) : store (modHdl s f) = store s := (rfl)

@[simp] theorem store_unitAnswer (s : State) (u : Nat) (reason : Nat) (stage : Nat) : store (unitAnswer s u reason stage) = store s :=
  store_of_keeps (unitAnswer_frame ..).keeps

@[simp] theorem store_doHdlBindingWrite (u : Fin 17) (j : Fin 32) (v : Word) (s : State) : store (doHdlBindingWrite u j v s) = store s := by
  simp [doHdlBindingWrite]

@[simp] theorem store_modStage (s : State) (u : Fin 17) (f : HUnit → HUnit) : store (modStage s u f) = store s :=
  store_of_keeps (modStage_frame ..).keeps

@[simp] theorem store_clearState (s : State) (u : Fin 17) (slot : Nat) : store (clearState s u slot) = store s := by simp [clearState]

@[simp] theorem store_doStateWordWrite (u : Fin 17) (v : Word) (s : State) : store (doStateWordWrite u v s) = store s := by
  simp [doStateWordWrite]

@[simp] theorem store_copyOwners (s : State) (u : Nat) : store (copyOwners s u) = store s := (rfl)

@[simp] theorem store_doKernelLoad (u : Fin 17) (v : Word) (s : State) : store (doKernelLoad u v s) = store s := by
  simp only [doKernelLoad]
  repeat' split
  all_goals simp

@[simp] theorem store_dropColls (s : State) (u : Fin 17) (g : Nat) (keep : GColl → Bool) : store (dropColls s u g keep) = store s :=
  store_of_keeps (dropColls_frame ..).keeps

@[simp] theorem store_doGateWrite (u : Fin 17) (g : Fin 8) (reg : GateReg) (v : Word) (s : State) :
    store (doGateWrite u g reg v s) = store s := by
  simp only [doGateWrite]
  repeat' split
  all_goals simp

@[simp] theorem store_doGateVselWrite (u : Fin 17) (g : Fin 8) (v : Word) (s : State) : store (doGateVselWrite u g v s) = store s := (rfl)
@[simp] theorem store_endShadow (s : State) : store (endShadow s) = store s := (rfl)

@[simp] theorem store_doHdlUCtrlWrite (u : Fin 17) (v : Word) (s : State) : store (doHdlUCtrlWrite u v s) = store s := by
  simp [doHdlUCtrlWrite]

@[simp] theorem store_enqueue (s : State) (u : Fin 17) (r : HRec) : store (enqueue s u r) = store s := (rfl)

@[simp] theorem store_joinColl (s : State) (u : Fin 17) (g : Nat) (c : GColl) (r : HRec) : store (joinColl s u g c r) = store s := by
  simp [joinColl]

@[simp] theorem store_openColl (s : State) (u : Fin 17) (g : Nat) (c : GColl) : store (openColl s u g c) = store s := by
  simp only [openColl]
  split <;> simp

@[simp] theorem store_gateMember (s : State) (u : Fin 17) (g : Nat) (r : HRec) (n : Int) : store (gateMember s u g r n) = store s := by
  simp only [gateMember]
  split <;> simp

@[simp] theorem store_heddleAsdu (s : State) (w : Fin 512) (p : Fin 144) (sim : Bool) (a : SvAsdu) (ts : Instant) (chk : Option Nat) :
    store (heddleAsdu s w p sim a ts chk) = store s := by
  unfold heddleAsdu
  split <;> simp

@[simp] theorem store_doRecordDispatch (u : Fin 16) (s : State) : store (doRecordDispatch u s) = store s := by
  simp only [doRecordDispatch]
  split <;> simp

@[simp] theorem store_doRecordExit (u : Fin 16) (id : Nat) (s : State) : store (doRecordExit u id s) = store s := by
  simp only [doRecordExit]
  split <;> simp

@[simp] theorem store_doTagVerdict (c : Nat) (s : State) : store (doTagVerdict c s) = store s := by
  simp only [doTagVerdict]
  repeat' split
  all_goals simp

@[simp] theorem store_runHed (x : Who) (legal : Bool) (pr : BitVec 3) (s : State)
    (go : HRec → Fin 17 → State → Wr × State) (h : ∀ r w u, store (go r w u).2 = store u) :
    store (runHed x legal pr s go) = store s := by
  cases x <;> simp [runHed, h]

@[simp] theorem store_doHget (x : Who) (f : FmtI) (s : State) : store (doHget x f s) = store s := by simp [doHget]
@[simp] theorem store_doHld (x : Who) (f : FmtM) (s : State) : store (doHld x f s) = store s := by simp [doHld]
@[simp] theorem store_doHst (x : Who) (f : FmtM) (s : State) : store (doHst x f s) = store s := by simp [doHst]
@[simp] theorem store_tripRej (s : State) (u : Nat) : store (tripRej s u) = store s := by simp [tripRej]
@[simp] theorem store_doTrip (x : Who) (f : FmtI) (s : State) : store (doTrip x f s) = store s := by simp [doTrip]
@[simp] theorem store_doTripbc (x : Who) (f : FmtI) (s : State) : store (doTripbc x f s) = store s := by simp [doTripbc]
@[simp] theorem store_doHmark (x : Who) (f : FmtI) (s : State) : store (doHmark x f s) = store s := by simp [doHmark]
@[simp] theorem store_doHpass (x : Who) (f : FmtI) (s : State) : store (doHpass x f s) = store s := by simp [doHpass]

@[simp] theorem store_doEvtPop (u : Fin 17) (s : State) : store (doEvtPop u s) = store s := by
  unfold doEvtPop
  split <;> simp

@[simp] theorem store_doShadowPeriodStart (s : State) : store (doShadowPeriodStart s) = store s :=
  store_of_keeps (doShadowPeriodStart_frame ..).keeps

@[simp] theorem store_heddleEdge (s : State) : store (heddleEdge s) = store s := store_of_keeps (heddleEdge_frame ..).keeps
@[simp] theorem store_doShadowCopyDone (s : State) : store (doShadowCopyDone s) = store s := by simp [doShadowCopyDone]
@[simp] theorem store_unitDead (s : State) (u : Fin 17) : store (unitDead s u) = store s := by simp [unitDead]

@[simp] theorem store_doHeddleRestoreDone (s : State) : store (doHeddleRestoreDone s) = store s := by
  unfold doHeddleRestoreDone
  split <;> simp

/-! ### Machine/Memory -/

@[simp] theorem store_noteWait (s : State) (l : Fin 64) (bank : Nat) (wait : Nat) : store (noteWait s l bank wait) = store s := (rfl)
@[simp] theorem store_noteHint (s : State) (bank : Nat) (hint : Nat) : store (noteHint s bank hint) = store s := (rfl)

@[simp] theorem store_smAccess (s : State) (l : Fin 64) (t1 : Nat) (live : List (Nat × Nat)) (off : Nat) :
    store (smAccess s l t1 live off).2.2 = store s := by
  simp [smAccess]

@[simp] theorem store_smLoad (s : State) (l : Fin 64) (t0 : Nat) (off : Nat) : store (smLoad s l t0 off).2.2 = store s := by
  simp only [smLoad]
  split <;> simp

@[simp] theorem store_runLoad (l : Fin 64) (f : FmtM) (size : Nat) (legal : Bool) (dst : Nat → Wr) (s : State) :
    store (runLoad l f size legal dst s) = store s := by
  simp [runLoad]

@[simp] theorem store_runStore (l : Fin 64) (f : FmtM) (size : Nat) (legal : Bool) (srcs : List Nat) (val : Ctx → Nat) (s : State) :
    store (runStore l f size legal srcs val s) = store s := by
  simp [runStore]

@[simp] theorem store_doPfsm (l : Fin 64) (f : FmtM) (s : State) : store (doPfsm l f s) = store s := by simp [doPfsm]
@[simp] theorem store_doWaitsm (l : Fin 64) (f : FmtA) (s : State) : store (doWaitsm l f s) = store s := by simp [doWaitsm]
@[simp] theorem store_rowChannel (s : State) (off : Nat) : store (rowChannel s off).2 = store s := by simp [rowChannel]

@[simp] theorem store_ddrWait (s : State) (l : Fin 64) (t0 : Nat) (ch : Nat) (off : Nat) : store (ddrWait s l t0 ch off).2 = store s := by
  simp [ddrWait]

@[simp] theorem store_doLrow (l : Fin 64) (f : FmtA) (sel : BitVec 7) (s : State) : store (doLrow l f sel s) = store s := by
  refine store_runCore _ _ _ _ _ _ _ fun t0 c u => store_cond (by simp) (store_cond rfl (store_cond rfl ?_))
  extract_lets off
  have h := store_rowChannel u off
  generalize rowChannel u off = x at h ⊢
  obtain ⟨_ | ch, v⟩ := x
  · exact h
  · exact (store_ddrWait v l t0 ch off).trans h

@[simp] theorem store_doLimg (l : Fin 64) (f : FmtI) (s : State) : store (doLimg l f s) = store s := by simp [doLimg]

/-! ### Machine/Transactions -/

@[simp] theorem store_shadowCompare (s : State) (l : Fin 64) : store (shadowCompare s l) = store s := by simp [shadowCompare]
@[simp] theorem store_doTend (l : Fin 64) (f : FmtA) (s : State) : store (doTend l f s) = store s := by simp [doTend]

@[simp] theorem store_unlessAborted (l : Fin 64) (t0 : Nat) (s : State) (work : State → State) (h : ∀ u, store (work u) = store u) :
    store (unlessAborted l t0 s work) = store s := by
  simp [unlessAborted, h]

@[simp] theorem store_runTx (l : Fin 64) (f : FmtM) (size : Nat) (legal : Bool) (srcs : List Nat) (val : Ctx → Nat) (s : State) :
    store (runTx l f size legal srcs val s) = store s := by
  simp [runTx]

@[simp] theorem store_doTxw (l : Fin 64) (f : FmtM) (s : State) : store (doTxw l f s) = store s := by simp [doTxw]
@[simp] theorem store_doTxwd (l : Fin 64) (f : FmtM) (s : State) : store (doTxwd l f s) = store s := by simp [doTxwd]

@[simp] theorem store_doTxpub (l : Fin 64) (f : FmtA) (quality : Bool) (s : State) : store (doTxpub l f quality s) = store s := by
  simp [doTxpub]

@[simp] theorem store_doTxout (l : Fin 64) (f : FmtA) (s : State) : store (doTxout l f s) = store s := by simp [doTxout]

@[simp] theorem store_doTxarm (l : Fin 64) (f : FmtA) (disarm : Bool) (s : State) : store (doTxarm l f disarm s) = store s := by
  simp [doTxarm]

@[simp] theorem store_doTxabort (l : Fin 64) (f : FmtA) (s : State) : store (doTxabort l f s) = store s := by simp [doTxabort]

/-! ### Machine/Commit -/

@[simp] theorem store_modCmt (s : State) (f : Commit → Commit) : store (modCmt s f) = store s := (rfl)
@[simp] theorem store_modSpare (s : State) (c : Nat) (f : Spare → Spare) : store (modSpare s c f) = store s := (rfl)
@[simp] theorem store_setMap (s : State) (l : Fin 64) (p : Nat) : store (setMap s l p) = store s := (rfl)
@[simp] theorem store_stopCores (s : State) (t : Nat) : store (stopCores s t) = store s := by simp [stopCores]

@[simp] theorem store_enterStopped (s : State) (t : Fin 64) : store (enterStopped s t) = store s :=
  store_of_keeps (enterStopped_tenantFrame ..).keeps

@[simp] theorem store_enterFenced (s : State) (t : Fin 64) (cause : Nat) : store (enterFenced s t cause) = store s := by simp [enterFenced]
@[simp] theorem store_fenceLost (s : State) (l : Fin 64) : store (fenceLost s l) = store s := by simp [fenceLost]
@[simp] theorem store_loadSpare (s : State) (l : Fin 64) : store (loadSpare s l) = store s := by simp [loadSpare]

@[simp] theorem store_spareGone (s : State) (c : Nat) : store (spareGone s c) = store s := by
  unfold spareGone
  split <;> simp

@[simp] theorem store_loseCore (s : State) (l : Fin 64) : store (loseCore s l) = store s := by
  simp only [loseCore]
  repeat' split
  all_goals simp

@[simp] theorem store_doSpareReady (c : Fin 8) (s : State) : store (doSpareReady c s) = store s := by simp [doSpareReady]
@[simp] theorem store_spareTakes (s : State) (c : Fin 8) : store (spareTakes s c) = store s := store_of_keeps (spareTakes_frame ..).keeps

@[simp] theorem store_shadowCore (s : State) (c : Fin 8) (k : Option Nat) : store (shadowCore s c k) = store s :=
  store_of_keeps (shadowCore_frame ..).keeps

@[simp] theorem store_doCoreShadowRotation (c : Fin 8) (s : State) : store (doCoreShadowRotation c s) = store s := by
  simp [doCoreShadowRotation]

@[simp] theorem store_shadowEdge (s : State) (c : Fin 8) : store (shadowEdge s c) = store s := store_of_keeps (shadowEdge_frame ..).keeps
@[simp] theorem store_answer (s : State) (t : Fin 64) (r : Nat) : store (answer s t r) = store s := (rfl)

@[simp] theorem store_beginStart (s : State) (t : Fin 64) (n : Nat) (test : Bool) : store (beginStart s t n test) = store s :=
  store_of_keeps (beginStart_frame ..).keeps

@[simp] theorem store_doStart (t : Fin 64) (s : State) : store (doStart t s) = store s := by simp [doStart]
@[simp] theorem store_pendCmd (s : State) (t : Fin 64) (c : TenantCmd) (bit : Nat) : store (pendCmd s t c bit) = store s := (rfl)

@[simp] theorem store_doStop (t : Fin 64) (s : State) : store (doStop t s) = store s := by
  simp only [doStop]
  repeat' split
  all_goals simp

@[simp] theorem store_doEnterTest (t : Fin 64) (s : State) : store (doEnterTest t s) = store s := by simp [doEnterTest]
@[simp] theorem store_doLeaveTest (t : Fin 64) (s : State) : store (doLeaveTest t s) = store s := by simp [doLeaveTest]
@[simp] theorem store_doFence (t : Fin 64) (s : State) : store (doFence t s) = store s := by simp [doFence]
@[simp] theorem store_doUnfence (t : Fin 64) (s : State) : store (doUnfence t s) = store s := by simp [doUnfence]

@[simp] theorem store_doCmtTTolWrite (t : Fin 64) (v : Word) (s : State) : store (doCmtTTolWrite t v s) = store s := by
  simp [doCmtTTolWrite]

@[simp] theorem store_modDop (s : State) (i : Nat) (f : Dop → Dop) : store (modDop s i f) = store s := (rfl)
@[simp] theorem store_doCmtCfgWrite (v : Word) (s : State) : store (doCmtCfgWrite v s) = store s := by simp [doCmtCfgWrite]
@[simp] theorem store_doDopSubmit (s : State) : store (doDopSubmit s) = store s := by simp [doDopSubmit]
@[simp] theorem store_doDopCancel (s : State) : store (doDopCancel s) = store s := by simp [doDopCancel]

@[simp] theorem store_doApertureWrite (off : Nat) (data : List Byte) (s : State) : store (doApertureWrite off data s) = store s := by
  simp [doApertureWrite]

@[simp] theorem store_shadowWrite (s : State) (a : Nat) (n : Nat) (cells : List Host.Cell) :
    store (shadowWrite s a n cells) = store s := (rfl)

/-! ### Machine/Plu -/

@[simp] theorem store_modPlu (s : State) (f : Plu → Plu) : store (modPlu s f) = store s := (rfl)
@[simp] theorem store_takeLease (s : State) : store (takeLease s) = store s := (rfl)
@[simp] theorem store_closeGate (s : State) : store (closeGate s) = store s := store_of_keeps (closeGate_frame ..).keeps
@[simp] theorem store_openGate (s : State) : store (openGate s) = store s := store_of_keeps (openGate_frame ..).keeps
@[simp] theorem store_setPair (s : State) (st : Nat) : store (setPair s st) = store s := store_of_keeps (setPair_swapFrame ..).keeps
@[simp] theorem store_showQuietLines (s : State) : store (showQuietLines s) = store s := by simp [showQuietLines]
@[simp] theorem store_stopControl (s : State) : store (stopControl s) = store s := store_of_keeps (stopControl_frame ..).keeps
@[simp] theorem store_dropSwap (s : State) : store (dropSwap s) = store s := store_of_keeps (dropSwap_frame ..).keeps
@[simp] theorem store_toStandby (s : State) (lapsed : Bool) : store (toStandby s lapsed) = store s := by simp [toStandby]
@[simp] theorem store_lapse (s : State) (held : Bool) : store (lapse s held) = store s := by simp [lapse]
@[simp] theorem store_demote (s : State) (peer : Nat) : store (demote s peer) = store s := by simp [demote]
@[simp] theorem store_pluFence (s : State) : store (pluFence s) = store s := store_of_keeps (pluFence_frame ..).keeps

@[simp] theorem store_sendOn (s : State) (path : Path) (m : LeaseMsg) : store (sendOn s path m) = store s :=
  store_of_keeps (sendOn_frame ..).keeps

@[simp] theorem store_sendNew (s : State) (kind : LeaseKind) (tick : Nat) : store (sendNew s kind tick) = store s :=
  store_of_keeps (sendNew_frame ..).keeps

@[simp] theorem store_doLeaseRenewal (tm : Instant) (s : State) : store (doLeaseRenewal tm s) = store s := by simp [doLeaseRenewal]
@[simp] theorem store_hear (s : State) (path : Path) (m : LeaseMsg) : store (hear s path m).2 = store s := by simp [hear]
@[simp] theorem store_swapFailed (s : State) : store (swapFailed s) = store s := store_of_keeps (swapFailed_frame ..).keeps

@[simp] theorem store_doRenewal (path : Path) (m : LeaseMsg) (tm : Instant) (s : State) : store (doRenewal path m tm s) = store s := by
  simp [doRenewal]

@[simp] theorem store_doAcknowledgement (path : Path) (m : LeaseMsg) (tm : Instant) (s : State) :
    store (doAcknowledgement path m tm s) = store s := by
  have h := store_hear (toInstant s tm) path m
  unfold doAcknowledgement
  generalize hear (toInstant s tm) path m = x at h ⊢
  obtain ⟨good, u⟩ := x
  refine Eq.trans ?_ h
  refine store_cond rfl (store_cond rfl ?_)
  extract_lets silent u1 u2 u3
  have h2 : store u2 = store u := store_cond rfl rfl
  have h3 : store u3 = store u := by
    refine Eq.trans ?_ h2
    simp only [u3]
    split <;> rfl
  exact store_cond h3 h3

@[simp] theorem store_doLeaseExpiry (tm : Instant) (s : State) : store (doLeaseExpiry tm s) = store s := by simp [doLeaseExpiry]

@[simp] theorem store_doQuietChange (qp : Bool) (qn : Bool) (tm : Instant) (s : State) : store (doQuietChange qp qn tm s) = store s := by
  simp [doQuietChange]

@[simp] theorem store_doCheckpointPageReceive (item : CkptPage) (s : State) : store (doCheckpointPageReceive item s) = store s := by
  simp [doCheckpointPageReceive]

@[simp] theorem store_askRestore (s : State) (c : Ckpt) : store (askRestore s c) = store s := by simp [askRestore]

@[simp] theorem store_startControl (s : State) (ts : List (Fin 64)) (n : Nat) : store (startControl s ts n) = store s :=
  store_of_keeps (startControl_frame ..).keeps

@[simp] theorem store_nextEpoch (s : State) : store (nextEpoch s) = store s := store_of_keeps (nextEpoch_frame ..).keeps
@[simp] theorem store_beginTake (s : State) (target : Nat) : store (beginTake s target) = store s := by simp [beginTake]

@[simp] theorem store_doTakeover (tm : Instant) (s : State) : store (doTakeover tm s) = store s := by
  simp only [doTakeover]
  split <;> simp

@[simp] theorem store_restoreDone (s : State) : store (restoreDone s) = store s := by simp [restoreDone]

@[simp] theorem store_doTakeoverQuietCheck (tm : Instant) (s : State) : store (doTakeoverQuietCheck tm s) = store s := by
  simp only [doTakeoverQuietCheck]
  repeat' split
  all_goals simp

@[simp] theorem store_sendYield (s : State) : store (sendYield s) = store s := by simp [sendYield]
@[simp] theorem store_beginSwap (s : State) : store (beginSwap s) = store s := by simp [beginSwap]
@[simp] theorem store_doPlannedSwapDue (s : State) : store (doPlannedSwapDue s) = store s := by simp [doPlannedSwapDue]

@[simp] theorem store_doCheckpointSent (s : State) : store (doCheckpointSent s) = store s := by
  unfold doCheckpointSent
  extract_lets u
  have h : store u = store s := store_settleAll s
  split
  · exact h
  · refine store_cond h ?_
    simp [h]

@[simp] theorem store_doYield (path : Path) (m : LeaseMsg) (tm : Instant) (s : State) : store (doYield path m tm s) = store s := by
  simp [doYield]

@[simp] theorem store_doReady (path : Path) (m : LeaseMsg) (tm : Instant) (s : State) : store (doReady path m tm s) = store s := by
  simp [doReady]

@[simp] theorem store_doRefuse (path : Path) (m : LeaseMsg) (tm : Instant) (s : State) : store (doRefuse path m tm s) = store s := by
  simp [doRefuse]

@[simp] theorem store_doSwapFailed (path : Path) (m : LeaseMsg) (tm : Instant) (s : State) :
    store (doSwapFailed path m tm s) = store s := by
  simp [doSwapFailed]

@[simp] theorem store_applyItem (s : State) (i : CkptItem) : store (applyItem s i) = store s := by
  unfold applyItem
  split <;> simp

@[simp] theorem store_pluDeadline (s : State) : store (pluDeadline s) = store s := store_of_keeps (pluDeadline_frame ..).keeps
@[simp] theorem store_pluApply (s : State) : store (pluApply s) = store s := by simp [pluApply]
@[simp] theorem store_pluSwap (s : State) : store (pluSwap s) = store s := store_of_keeps (pluSwap_frame ..).keeps
@[simp] theorem store_pluAnswer (s : State) (r : Nat) : store (pluAnswer s r) = store s := (rfl)
@[simp] theorem store_doPairSwap (s : State) : store (doPairSwap s) = store s := by simp [doPairSwap]
@[simp] theorem store_doPairFence (s : State) : store (doPairFence s) = store s := by simp [doPairFence]
@[simp] theorem store_doPairUnfence (tm : Instant) (s : State) : store (doPairUnfence tm s) = store s := by simp [doPairUnfence]

@[simp] theorem store_doSolo (tm : Instant) (s : State) : store (doSolo tm s) = store s := by
  simp only [doSolo]
  repeat' split
  all_goals simp

@[simp] theorem store_doLeaveSolo (s : State) : store (doLeaveSolo s) = store s := by simp [doLeaveSolo]
@[simp] theorem store_doPluEpochWrite (v : Word) (s : State) : store (doPluEpochWrite v s) = store s := by simp [doPluEpochWrite]

@[simp] theorem store_doPluTClassWrite (i : Fin 2) (v : Word) (s : State) : store (doPluTClassWrite i v s) = store s := by
  simp [doPluTClassWrite]

@[simp] theorem store_doPluLeaseWrite (v : Word) (s : State) : store (doPluLeaseWrite v s) = store s := by simp [doPluLeaseWrite]

/-! ### Machine/Ingress -/

@[simp] theorem store_malformed (s : State) (p : Fin 144) : store (malformed s p) = store s := by simp [malformed]
@[simp] theorem store_unmatched (s : State) (portOnly : Bool) : store (unmatched s portOnly) = store s := by simp [unmatched]

@[simp] theorem store_startCheck (s : State) (w : Fin 512) (f : Sys2Proof.Frame) (frame : Nat) :
    store (startCheck s w f frame).2 = store s := by
  simp [startCheck]

@[simp] theorem store_deliverAsdu (s : State) (w : Fin 512) (p : Fin 144) (sim : Bool) (a : SvAsdu) (ts : Instant)
    (loopback : Bool) (chk : Option Nat) : store (deliverAsdu s w p sim a ts loopback chk) = store s := by
  simp [deliverAsdu]

@[simp] theorem store_svFrame (s : State) (p : Fin 144) (f : Sys2Proof.Frame) (appid : Nat) (sim parses : Bool) (asdus : List SvAsdu) :
    store (svFrame s p f appid sim parses asdus) = store s := by
  unfold svFrame
  extract_lets s1 vid ids found sized ws0 frame start
  have h1 : store s1 = store s := store_count ..
  have hs (l : List Nat) : store (l.foldl start ([], s1)).2 = store s1 :=
    store_foldl_snd _ _ _ fun x w => store_startCheck x.2 (Fin.ofNat 512 w) f frame
  refine store_cond (by simp [h1]) (store_cond (by simp [h1]) ?_)
  exact (store_foldl _ _ _ fun u a => store_foldl _ _ _ fun u e => store_cond (by simp) rfl).trans ((hs _).trans h1)

@[simp] theorem store_gooseSub (s : State) (g : Fin 2048) (f : Sys2Proof.Frame) (m : GooseMsg) : store (gooseSub s g f m) = store s := by
  simp [gooseSub]

@[simp] theorem store_gooseFrame (s : State) (p : Fin 144) (f : Sys2Proof.Frame) (appid : Nat) (parses : Bool) (m : GooseMsg) :
    store (gooseFrame s p f appid parses m).2 = store s := by
  unfold gooseFrame
  refine Eq.trans ?_ (store_count s p 13 1)
  generalize count s p 13 = u
  extract_lets vid
  generalize entriesFor u p f (frameVid u p f) appid (some m.goCbRef) 512 2560 = x
  obtain ⟨hits, other⟩ := x
  refine (store_snd_ite ..).trans ?_
  split
  · exact store_unmatched ..
  · refine (store_snd_ite ..).trans ?_
    split
    · exact store_malformed ..
    · exact store_foldl _ _ _ fun u i => store_gooseSub ..

@[simp] theorem store_doGooseTalExpiry (g : Fin 2048) (tm : Instant) (s : State) : store (doGooseTalExpiry g tm s) = store s := by
  simp [doGooseTalExpiry]

@[simp] theorem store_pauseQ (s : State) (p : Fin 144) (tc : Nat) (quanta : Nat) : store (pauseQ s p tc quanta) = store s := (rfl)

@[simp] theorem store_pfc (s : State) (p : Fin 144) (en : BitVec 8) (quanta : List Nat) : store (pfc s p en quanta) = store s := by
  simp [pfc]

@[simp] theorem store_pauseAll (s : State) (p : Fin 144) (quanta : Nat) : store (pauseAll s p quanta) = store s := by simp [pauseAll]

@[simp] theorem store_forward (s : State) (p : Fin 144) (f : Sys2Proof.Frame) (g : Sys2Proof.Frame) (tc : Nat) (ts : List
    (Fin 144)) (ring : Bool) : store (forward s p f g tc ts ring) = store s :=
  store_of_keeps (forward_frame ..).keeps

@[simp] theorem store_deliver (s : State) (p : Fin 144) (f : Sys2Proof.Frame) (ring : Bool) : store (deliver s p f ring) = store s := by
  simp only [deliver]
  split <;> simp

@[simp] theorem store_leaseIn (s : State) (path : Path) (m : LeaseMsg) : store (leaseIn s path m) = store s := by
  unfold leaseIn
  split <;> simp

@[simp] theorem store_colander (s : State) (p : Fin 144) (f : Sys2Proof.Frame) : store (colander s p f) = store s := by
  simp only [colander]
  repeat' split
  all_goals simp

@[simp] theorem store_unprotect (s : State) (p : Fin 144) (a : Nat) (m : Macsec) (f : Sys2Proof.Frame) :
    store (unprotect s p a m f).2 = store s := (rfl)

@[simp] theorem store_macsecIn (s : State) (p : Fin 144) (f : Sys2Proof.Frame) : store (macsecIn s p f).2 = store s := by
  simp only [macsecIn]
  repeat' split
  all_goals simp

@[simp] theorem store_receive (s : State) (p : Fin 144) (f : Sys2Proof.Frame) : store (receive s p f) = store s := by
  have h (u : State) : store (match macsecIn u p f with | (some f, s) => colander s p f | (none, s) => s) = store u := by
    have hm := store_macsecIn u p f
    split <;> simp_all
  refine store_cond rfl (store_cond (by simp) (store_cond (by simp) (store_cond (by simp) (store_cond (by simp) (store_cond (by simp)
    (store_cond (by simp) ?_))))))
  split
  · simp
  · simp
  · split
    · simp
    · simp
    · exact (h _).trans (by simp)

@[simp] theorem store_doFrameReceive (p : Fin 144) (f : Sys2Proof.Frame) (tm : Instant) (s : State) :
    store (doFrameReceive p f tm s) = store s := by
  simp [doFrameReceive]

@[simp] theorem store_doFrameSent (p : Fin 144) (tm : Instant) (s : State) : store (doFrameSent p tm s) = store s := by
  simp only [doFrameSent]
  split <;> simp

@[simp] theorem store_matchRej (s : State) : store (matchRej s) = store s := by simp [matchRej]
@[simp] theorem store_doColMatchRead (s : State) : store (doColMatchRead s) = store s := by simp [doColMatchRead]

@[simp] theorem store_changeMatch (s : State) (i : Nat) (e : MatchEntry) : store (changeMatch s i e) = store s := by
  simp only [changeMatch]
  split <;> simp

@[simp] theorem store_doColMatchWrite (s : State) : store (doColMatchWrite s) = store s := by simp [doColMatchWrite]
@[simp] theorem store_doColMatchInvalidate (s : State) : store (doColMatchInvalidate s) = store s := by simp [doColMatchInvalidate]

@[simp] theorem store_doSwcPMacsecWrite (p : Fin 144) (v : Word) (s : State) : store (doSwcPMacsecWrite p v s) = store s := by
  simp [doSwcPMacsecWrite]

@[simp] theorem store_doLoopbackAsdu (stream : Fin 512) (s : State) : store (doLoopbackAsdu stream s) = store s := by
  unfold doLoopbackAsdu
  split <;> simp

/-! ### Machine/Hif -/

@[simp] theorem store_modHif (s : State) (f : Hif → Hif) : store (modHif s f) = store s := (rfl)
@[simp] theorem store_raiseHif (s : State) (bit : Nat) : store (raiseHif s bit) = store s := by simp [raiseHif]
@[simp] theorem store_vfBit (s : State) (reg : Nat → Nat) (f : Fin 64) (b : Bool) : store (vfBit s reg f b) = store s := (rfl)
@[simp] theorem store_violation (s : State) (f : Fin 64) : store (violation s f) = store s := by simp [violation]
@[simp] theorem store_stale (s : State) (f : Fin 64) (n : Nat) : store (stale s f n) = store s := by simp [stale]
@[simp] theorem store_genBump (s : State) (f : Fin 64) : store (genBump s f) = store s := (rfl)
@[simp] theorem store_genBumpAll (s : State) : store (genBumpAll s) = store s := (rfl)
@[simp] theorem store_modQ (s : State) (f : Fin 64) (q : Fin 16) (g : Queue → Queue) : store (modQ s f q g) = store s := (rfl)
@[simp] theorem store_dropVfRegs (s : State) (f : Fin 64) : store (dropVfRegs s f) = store s := (rfl)
@[simp] theorem store_emptyMailbox (s : State) (f : Fin 64) : store (emptyMailbox s f) = store s := (rfl)
@[simp] theorem store_dropFreeze (s : State) (f : Fin 64) : store (dropFreeze s f) = store s := by simp [dropFreeze]
@[simp] theorem store_doVfFlr (f : Fin 64) (s : State) : store (doVfFlr f s) = store s := by simp [doVfFlr]

@[simp] theorem store_discardSession (s : State) (reason : Nat) : store (discardSession s reason) = store s := by
  unfold discardSession
  split <;> simp

@[simp] theorem store_doPfFlr (s : State) : store (doPfFlr s) = store s := by simp [doPfFlr]
@[simp] theorem store_doNumvfsChange (n : Fin 64) (s : State) : store (doNumvfsChange n s) = store s := by simp [doNumvfsChange]

@[simp] theorem store_doPcieLinkChange (e : LinkEvent) (s : State) : store (doPcieLinkChange e s) = store s := by
  unfold doPcieLinkChange
  split <;> simp

@[simp] theorem store_doDbMbSend (f : Fin 64) (s : State) : store (doDbMbSend f s) = store s := by
  simp only [doDbMbSend]
  repeat' split
  all_goals simp

@[simp] theorem store_doMbxAck (f : Fin 64) (s : State) : store (doMbxAck f s) = store s := by simp [doMbxAck]

@[simp] theorem store_doMbxSend (f : Fin 64) (s : State) : store (doMbxSend f s) = store s := by
  simp only [doMbxSend]
  repeat' split
  all_goals simp

@[simp] theorem store_doDbMbAck (f : Fin 64) (s : State) : store (doDbMbAck f s) = store s := by simp [doDbMbAck]
@[simp] theorem store_stopQ (s : State) (f : Fin 64) (q : Fin 16) (status : Nat) : store (stopQ s f q status) = store s := (rfl)
@[simp] theorem store_fetchQ (s : State) (f : Fin 64) (q : Fin 16) : store (fetchQ s f q) = store s := by simp [fetchQ]

@[simp] theorem store_doDbSqTail (f : Fin 64) (q : Fin 16) (tail : Nat) (entries : List SqEntry) (s : State) :
    store (doDbSqTail f q tail entries s) = store s := by
  simp [doDbSqTail]

@[simp] theorem store_doDbCqHead (f : Fin 64) (q : Fin 16) (head : Nat) (s : State) : store (doDbCqHead f q head s) = store s := by
  simp [doDbCqHead]

@[simp] theorem store_doQueueEnable (f : Fin 64) (q : Fin 16) (v : Word) (s : State) : store (doQueueEnable f q v s) = store s := by
  simp [doQueueEnable]

@[simp] theorem store_modCmd (s : State) (f : Fin 64) (q : Fin 16) (g : QCmd → QCmd) : store (modCmd s f q g) = store s := (rfl)
@[simp] theorem store_doneQ (s : State) (f : Fin 64) (q : Fin 16) (status : Nat) : store (doneQ s f q status) = store s := (rfl)
@[simp] theorem store_doQNop (f : Fin 64) (q : Fin 16) (s : State) : store (doQNop f q s) = store s := by simp [doQNop]

@[simp] theorem store_doImgPut (f : Fin 64) (q : Fin 16) (data : List Byte) (hostErr : Bool) (s : State) :
    store (doImgPut f q data hostErr s) = store s := by
  simp [doImgPut]

@[simp] theorem store_loadCores (s : State) (t : Nat) : store (loadCores s t) = store s := by
  refine store_foldl _ _ _ fun u l => ?_
  split <;> rfl

@[simp] theorem store_install (s : State) (t : Fin 64) (x : ImageLoad) : store (install s t x) = store s := by
  simp only [install]
  repeat' split
  all_goals simp

@[simp] theorem store_doImgLoad (f : Fin 64) (q : Fin 16) (img : ImageLoad) (s : State) : store (doImgLoad f q img s) = store s := by
  refine store_runQ _ _ _ _ fun c => store_cond (by simp) (store_cond (by simp) (store_cond rfl ?_))
  split <;> simp

@[simp] theorem store_dropOwner (s : State) (reg : Nat → Nat) (n : Nat) (t : Nat) : store (dropOwner s reg n t) = store s := by
  simp [dropOwner]

@[simp] theorem store_releaseAll (s : State) (t : Fin 64) : store (releaseAll s t) = store s := by simp [releaseAll]
@[simp] theorem store_doUnload (t : Fin 64) (s : State) : store (doUnload t s) = store s := by simp [doUnload]
@[simp] theorem store_doCiRead (f : Fin 64) (q : Fin 16) (s : State) : store (doCiRead f q s) = store s := by simp [doCiRead]

@[simp] theorem store_doCiReadAttempt (f : Fin 64) (q : Fin 16) (intervened : Bool) (s : State) :
    store (doCiReadAttempt f q intervened s) = store s := by
  unfold doCiReadAttempt
  split <;> simp

@[simp] theorem store_doQueueCompletion (f : Fin 64) (q : Fin 16) (s : State) : store (doQueueCompletion f q s) = store s := by
  simp only [doQueueCompletion]
  split <;> simp

@[simp] theorem store_discarded (s : State) (c : QCmd) : store (discarded s c).2 = store s := by simp [discarded]

@[simp] theorem store_doCommandAbandon (f : Fin 64) (q : Fin 16) (s : State) : store (doCommandAbandon f q s) = store s := by
  simp [doCommandAbandon]

@[simp] theorem store_grReason (s : State) (r : Nat) : store (grReason s r) = store s := (rfl)
@[simp] theorem store_doGrantOpen (v : Word) (s : State) : store (doGrantOpen v s) = store s := by simp [doGrantOpen]
@[simp] theorem store_rejectBindings (s : State) (x : Session) : store (rejectBindings s x) = store s := by simp [rejectBindings]

@[simp] theorem store_doGrantCommit (s : State) : store (doGrantCommit s) = store s := by
  simp only [doGrantCommit]
  repeat' split
  all_goals simp

@[simp] theorem store_doGrantDiscard (s : State) : store (doGrantDiscard s) = store s := by simp [doGrantDiscard]
@[simp] theorem store_grantChg (s : State) (t : Nat) : store (grantChg s t) = store s := store_of_keeps (grantChg_frame ..).keeps

@[simp] theorem store_doOwnershipWrite (tab : OwnTable) (i : Fin 256) (v : Word) (s : State) :
    store (doOwnershipWrite tab i v s) = store s := by
  simp [doOwnershipWrite]

@[simp] theorem store_doConfigRecordWritten (s : State) : store (doConfigRecordWritten s) = store s := by simp [doConfigRecordWritten]

/-! ### Machine/Recorder -/

@[simp] theorem store_modRec (s : State) (f : Recorder → Recorder) : store (modRec s f) = store s := (rfl)
@[simp] theorem store_doWearRemap (word : Nat) (s : State) : store (doWearRemap word s) = store s := by simp [doWearRemap]

@[simp] theorem store_persistCounter (c : Counter) (s : State) : store (persistCounter c s) = store s :=
  store_of_keeps (persistCounter_frame ..).keeps

@[simp] theorem store_doCounterPersist (c : Counter) (s : State) : store (doCounterPersist c s) = store s := by simp [doCounterPersist]
@[simp] theorem store_persistAll (s : State) : store (persistAll s) = store s := store_of_keeps (persistAll_frame ..).keeps
@[simp] theorem store_setSec (s : State) (k : Nat) (x : LogSector) : store (setSec s k x) = store s := (rfl)
@[simp] theorem store_writeRecord (s : State) (k : Nat) (r : LogRec) : store (writeRecord s k r) = store s := by simp [writeRecord]

@[simp] theorem store_flushN (n : Nat) (s : State) : store (flushN n s) = store s := by
  induction n generalizing s with
  | zero => rfl
  | succ n ih =>
    unfold flushN
    split <;> simp [ih]

@[simp] theorem store_showPending (s : State) : store (showPending s) = store s := (rfl)
@[simp] theorem store_logRes (s : State) (f : Fin 64) (r : Nat) : store (logRes s f r) = store s := (rfl)
@[simp] theorem store_doLogFlush (f : Fin 64) (s : State) : store (doLogFlush f s) = store s := by simp [doLogFlush]

@[simp] theorem store_clearRecord (s : State) (f : Nat) (gen : Nat) (g : Nat) (first : Nat) (last : Nat) (lost : Nat) :
    store (clearRecord s f gen g first last lost) = store s := by
  simp [clearRecord]

@[simp] theorem store_beginErase (s : State) (k : Nat) : store (beginErase s k) = store s := (rfl)

@[simp] theorem store_clearFlushed (s : State) : store (clearFlushed s) = store s := by
  simp only [clearFlushed]
  repeat' split
  all_goals simp

@[simp] theorem store_doLogFlushDone (s : State) : store (doLogFlushDone s) = store s := by
  unfold doLogFlushDone
  split <;> simp

@[simp] theorem store_doClearArm (f : Fin 64) (tm : Instant) (s : State) : store (doClearArm f tm s) = store s := by
  simp only [doClearArm]
  split <;> simp

@[simp] theorem store_dropArm (s : State) : store (dropArm s) = store s := (rfl)

@[simp] theorem store_doClearArmExpiry (tm : Instant) (s : State) : store (doClearArmExpiry tm s) = store s := by
  simp only [doClearArmExpiry]
  split <;> simp

@[simp] theorem store_doClearConfirm (f : Fin 64) (tm : Instant) (s : State) : store (doClearConfirm f tm s) = store s := by
  simp only [doClearConfirm]
  split <;> simp

@[simp] theorem store_nextErase (s : State) : store (nextErase s) = store s := by
  unfold nextErase
  split <;> simp

@[simp] theorem store_doSectorEraseDone (s : State) : store (doSectorEraseDone s) = store s := by
  simp only [doSectorEraseDone]
  repeat' split
  all_goals simp

@[simp] theorem store_doLogFreezeWrite (f : Fin 64) (v : Word) (tm : Instant) (s : State) :
    store (doLogFreezeWrite f v tm s) = store s := by
  simp [doLogFreezeWrite]

@[simp] theorem store_doFreezeTimeout (f : Fin 64) (tm : Instant) (s : State) : store (doFreezeTimeout f tm s) = store s := by
  simp only [doFreezeTimeout]
  repeat' split
  all_goals simp

@[simp] theorem store_doLogCurAdv (f : Fin 64) (s : State) : store (doLogCurAdv f s) = store s := (rfl)

@[simp] theorem store_doLogReadVerify (sector : Fin 4096) (idx : Fin 1023) (crcOk : Bool) (s : State) :
    store (doLogReadVerify sector idx crcOk s) = store s := by
  simp [doLogReadVerify]

@[simp] theorem store_logStartup (s : State) : store (logStartup s) = store s := by
  simp only [logStartup]
  split <;> simp

/-! ### Machine/Health -/

@[simp] theorem store_modHc (s : State) (f : Health → Health) : store (modHc s f) = store s := (rfl)
@[simp] theorem store_hcSet (s : State) (st : Nat) : store (hcSet s st) = store s := (rfl)
@[simp] theorem store_stopCommits (s : State) : store (stopCommits s) = store s := store_of_keeps (stopCommits_frame ..).keeps

@[simp] theorem store_moduleFault (s : State) (src : Nat) (loc : Nat) (ids : List Nat) : store (moduleFault s src loc ids) = store s := by
  simp [moduleFault]

@[simp] theorem store_doRailFault (rail : Fin 16) (s : State) : store (doRailFault rail s) = store s := by simp [doRailFault]
@[simp] theorem store_showDead (s : State) (code : Nat) : store (showDead s code) = store s := by simp [showDead]

@[simp] theorem store_declareDead (s : State) (code : Nat) (verdicts : Nat) : store (declareDead s code verdicts) = store s := by
  simp [declareDead]

@[simp] theorem store_spareDead (s : State) (c : Fin 8) : store (spareDead s c) = store s := by simp [spareDead]

@[simp] theorem store_coreDies (s : State) (p : Fin 72) : store (coreDies s p) = store s := by
  simp only [coreDies]
  repeat' split
  all_goals simp

@[simp] theorem store_doRetireCore (p : Fin 72) (force : Bool) (s : State) : store (doRetireCore p force s) = store s := by
  simp [doRetireCore]

@[simp] theorem store_doRetireHeddleUnit (u : Fin 17) (force : Bool) (s : State) : store (doRetireHeddleUnit u force s) = store s := by
  simp [doRetireHeddleUnit]

@[simp] theorem store_doShadowNow (place : ShadowTarget) (s : State) : store (doShadowNow place s) = store s := by
  simp only [doShadowNow]
  repeat' split
  all_goals simp

@[simp] theorem store_doClearDead (s : State) : store (doClearDead s) = store s := by simp [doClearDead]
@[simp] theorem store_doClearCause (s : State) : store (doClearCause s) = store s := (rfl)
@[simp] theorem store_transient (s : State) (code : Nat) : store (transient s code).2 = store s := by simp [transient]
@[simp] theorem store_noteMismatch (s : State) (code : Nat) : store (noteMismatch s code) = store s := (rfl)

@[simp] theorem store_rejoin (s : State) (p : Fin 72) : store (rejoin s p) = store s := by
  simp only [rejoin]
  split <;> simp

@[simp] theorem store_moveOn (s : State) (c : Fin 8) : store (moveOn s c) = store s := (rfl)

@[simp] theorem store_doBistComplete (place : ShadowPlace) (sparePass : Bool) (activePass : Bool) (s : State) :
    store (doBistComplete place sparePass activePass s) = store s := by
  simp only [doBistComplete]
  repeat' split
  all_goals simp

@[simp] theorem store_doCoreSelfTestTimeout (r : SelfTestLate) (s : State) : store (doCoreSelfTestTimeout r s) = store s := by
  simp only [doCoreSelfTestTimeout]
  repeat' split
  all_goals simp

@[simp] theorem store_dropStored (s : State) (id : Nat) : store (dropStored s id) = store s := by
  unfold dropStored
  split <;> simp

@[simp] theorem store_freePick (s : State) (l : List Nat) : store (freePick s l).2 = store s := (rfl)
@[simp] theorem store_doDdr5ChannelLost (ch : Fin 4) (s : State) : store (doDdr5ChannelLost ch s) = store s := by simp [doDdr5ChannelLost]

@[simp] theorem store_retirePage (s : State) (page : Nat) : store (retirePage s page) = store s := by
  simp only [retirePage]
  repeat' split
  all_goals simp

@[simp] theorem store_doUncorrectableError (loc : ErrLoc) (s : State) : store (doUncorrectableError loc s) = store s := by
  simp only [doUncorrectableError]
  repeat' split
  all_goals simp

@[simp] theorem store_atStage (s : State) (n : Nat) : store (atStage s n) = store s := (rfl)
@[simp] theorem store_startClock (s : State) : store (startClock s) = store s := by simp [startClock]

@[simp] theorem store_doBootImageVerified (aOk : Bool) (bOk : Bool) (s : State) : store (doBootImageVerified aOk bOk s) = store s := by
  simp [doBootImageVerified]

@[simp] theorem store_outOfService (s : State) (code : Nat) : store (outOfService s code) = store s := by
  simp only [outOfService]
  repeat' split
  all_goals simp

@[simp] theorem store_doSelfTestComplete (r : SelfTest) (s : State) : store (doSelfTestComplete r s) = store s := by
  simp [doSelfTestComplete]

@[simp] theorem store_doDdr5Trained (ok : BitVec 4) (s : State) : store (doDdr5Trained ok s) = store s := by simp [doDdr5Trained]

@[simp] theorem store_doKeyStoreUnlock (checkOk : Bool) (s : State) : store (doKeyStoreUnlock checkOk s) = store s := by
  simp only [doKeyStoreUnlock]
  repeat' split
  all_goals simp

@[simp] theorem store_restoreConfig (s : State) (r : ConfigRec) : store (restoreConfig s r) = store s := by simp [restoreConfig]

@[simp] theorem store_archiveStart (s : State) : store (archiveStart s) = store s := by
  simp only [archiveStart]
  split <;> simp

@[simp] theorem store_pairStart (s : State) : store (pairStart s) = store s := by simp [pairStart]

@[simp] theorem store_doConfigRestored (recordOk : Bool) (s : State) : store (doConfigRestored recordOk s) = store s := by
  simp only [doConfigRestored]
  repeat' split
  all_goals simp

@[simp] theorem store_doTenantImagesLoaded (bad : List (Fin 64)) (s : State) : store (doTenantImagesLoaded bad s) = store s := by
  refine store_cond rfl ?_
  extract_lets s1 s2
  have h2 : store s2 = store s := by
    refine (store_each _ _ _ fun t v => ?_).trans (by simp [s1])
    split
    · rfl
    · exact store_cond (by simp) (by simp)
  split <;> simp [h2]

@[simp] theorem store_doLoomStart (s : State) : store (doLoomStart s) = store s := by
  simp only [doLoomStart]
  repeat' split
  all_goals simp

@[simp] theorem store_powerFail (s : State) (ending : Nat) : store (powerFail s ending) = store s := by simp [powerFail]

@[simp] theorem store_doPowerFailWarning (tm : Instant) (s : State) : store (doPowerFailWarning tm s) = store s := by
  simp [doPowerFailWarning]

@[simp] theorem store_doThermalHold (tm : Instant) (s : State) : store (doThermalHold tm s) = store s := by simp [doThermalHold]
@[simp] theorem store_doThermalRelease (s : State) : store (doThermalRelease s) = store s := by simp [doThermalRelease]

@[simp] theorem store_doTempWarn (sensor : Fin 24) (t16 : BitVec 16) (s : State) : store (doTempWarn sensor t16 s) = store s := by
  simp [doTempWarn]

@[simp] theorem store_doStandbyPowerUp (lidOpened : Bool) (lidOpen : Bool) (s : State) :
    store (doStandbyPowerUp lidOpened lidOpen s) = store s := by
  simp [doStandbyPowerUp]

@[simp] theorem store_doSramScrub (corrected : Nat) (addr : Nat) (s : State) : store (doSramScrub corrected addr s) = store s := by
  simp [doSramScrub]

@[simp] theorem store_doDdr5Patrol (retired : List Nat) (s : State) : store (doDdr5Patrol retired s) = store s := by simp [doDdr5Patrol]

@[simp] theorem store_doPantryScrub (corrected : List Nat) (s : State) : store (doPantryScrub corrected s) = store s := by
  simp [doPantryScrub]

@[simp] theorem store_doTelemetryRecord (r : TelemetryIn) (tm : Instant) (s : State) : store (doTelemetryRecord r tm s) = store s := by
  simp [doTelemetryRecord]

/-! ### Machine/Registers -/

@[simp] theorem store_writeIrqen (s : State) (off : Nat) (v : Word) : store (writeIrqen s off v) = store s := by simp [writeIrqen]

@[simp] theorem store_readWord (s : State) (off : Nat) : store (readWord s off).2 = store s := by
  unfold readWord
  split <;> simp

@[simp] theorem store_clearedWith (s : State) (off : Nat) (v : Word) : store (clearedWith s off v) = store s := by
  simp only [clearedWith]
  repeat' split
  all_goals simp

@[simp] theorem store_storeReg (s : State) (off : Nat) (v : Word) : store (storeReg s off v) = store s := by
  simp only [storeReg]
  repeat' split
  all_goals simp

@[simp] theorem store_writeTime (off : Nat) (v : Word) (s : State) : store (writeTime off v s) = store s := by simp [writeTime]

@[simp] theorem store_writeSwc (off : Nat) (v : Word) (s : State) : store (writeSwc off v s) = store s := by
  simp only [writeSwc]
  repeat' split
  all_goals simp

@[simp] theorem store_writePort (off : Nat) (v : Word) (s : State) : store (writePort off v s) = store s := by simp [writePort]

@[simp] theorem store_writeCol (off : Nat) (v : Word) (s : State) : store (writeCol off v s) = store s := by
  simp only [writeCol]
  repeat' split
  all_goals simp

@[simp] theorem store_writeLoom (off : Nat) (v : Word) (s : State) : store (writeLoom off v s) = store s := by
  simp only [writeLoom]
  repeat' split
  all_goals simp

@[simp] theorem store_writeHdl (off : Nat) (v : Word) (s : State) : store (writeHdl off v s) = store s := by
  unfold writeHdl
  refine store_cond (by simp) (store_cond (by simp) (store_cond (by simp) (store_cond (by simp) ?_)))
  split
  · simp
  · split <;> simp

@[simp] theorem store_writeTru (off : Nat) (v : Word) (s : State) : store (writeTru off v s) = store s := by
  simp only [writeTru]
  repeat' split
  all_goals simp

@[simp] theorem store_tenantCmd (t : Fin 64) (v : Word) (s : State) : store (tenantCmd t v s) = store s := by
  unfold tenantCmd
  split <;> simp

@[simp] theorem store_writeCmt (off : Nat) (v : Word) (s : State) : store (writeCmt off v s) = store s := by
  simp only [writeCmt]
  repeat' split
  all_goals simp

@[simp] theorem store_writeClu (off : Nat) (v : Word) (s : State) : store (writeClu off v s) = store s := by
  unfold writeClu
  extract_lets c
  clear_value c
  generalize seek (Reg.cluLMode c 0) 4 1024 off = x, seek (Reg.cluLOwn c 0) 4 32 off = y, seek (Reg.cluSgMemb c 0) 8 8 off = z
  generalize seek (Reg.cluCapCtrl c 0) 64 2 off = z'
  generalize seek (Reg.cluCapCmd c 0) 64 2 off = z''
  refine store_cond (by simp) ?_
  cases x with
  | some k => simp
  | none =>
    cases y with
    | some i => simp
    | none =>
      cases z with
      | some k => simp
      | none =>
        cases z' with
        | some n => simp
        | none => 
          cases z'' with
          | some n => simp
          | none => simp

@[simp] theorem store_writeSma (off : Nat) (v : Word) (s : State) : store (writeSma off v s) = store s := by
  unfold writeSma
  split <;> simp

@[simp] theorem store_writeQueue (f : Fin 64) (q : Fin 16) (off : Nat) (v : Word) (s : State) :
    store (writeQueue f q off v s) = store s := by
  simp [writeQueue]

@[simp] theorem store_writeHif (off : Nat) (v : Word) (s : State) : store (writeHif off v s) = store s := by
  simp only [writeHif]
  repeat' split
  all_goals simp

@[simp] theorem store_pairCmd (v : Word) (s : State) : store (pairCmd v s) = store s := by
  unfold pairCmd
  split <;> simp

@[simp] theorem store_writePlu (off : Nat) (v : Word) (s : State) : store (writePlu off v s) = store s := by simp [writePlu]

@[simp] theorem store_keyCmd (v : Word) (s : State) : store (keyCmd v s) = store s := by
  unfold keyCmd
  split <;> simp

@[simp] theorem store_writeKs (off : Nat) (v : Word) (s : State) : store (writeKs off v s) = store s := by
  simp only [writeKs]
  repeat' split
  all_goals simp

@[simp] theorem store_logCmd (f : Fin 64) (v : Word) (s : State) : store (logCmd f v s) = store s := by simp [logCmd]
@[simp] theorem store_writeLog (off : Nat) (v : Word) (s : State) : store (writeLog off v s) = store s := by simp [writeLog]
@[simp] theorem store_writeArc (off : Nat) (v : Word) (s : State) : store (writeArc off v s) = store s := by simp [writeArc]

@[simp] theorem store_writeFio (off : Nat) (v : Word) (s : State) : store (writeFio off v s) = store s := by
  simp only [writeFio]
  repeat' split
  all_goals simp

@[simp] theorem store_vfWrite (s : State) (v : Fin 64) (a : Nat) (x : Word) : store (vfWrite s v a x) = store s := by
  simp only [vfWrite]
  repeat' split
  all_goals simp

/-! ### Machine/Bus -/

@[simp] theorem store_busAnswer (s : State) (b : BusCmd) (status : Nat) (data : List Byte) :
    store (busAnswer s b status data) = store s := (rfl)

@[simp] theorem store_busRead (s : State) (b : BusCmd) (available : Bool) (data : List Byte) :
    store (busRead s b available data) = store s := by
  simp [busRead]

@[simp] theorem store_busStatus (s : State) (r : Nat) : store (busStatus s r) = store s := (rfl)

@[simp] theorem store_busWrite (s : State) (b : BusCmd) (n : Nat) (av : Bool) (work : List Byte → State → Nat × State)
    (h : ∀ l u, store (work l u).2 = store u) : store (busWrite s b n av work) = store s := by
  simp [busWrite, h]

@[simp] theorem store_doInventory (b : BusCmd) (s : State) : store (doInventory b s) = store s := by simp [doInventory]
@[simp] theorem store_doAsset (b : BusCmd) (s : State) : store (doAsset b s) = store s := by simp [doAsset]
@[simp] theorem store_doHealth (b : BusCmd) (s : State) : store (doHealth b s) = store s := by simp [doHealth]
@[simp] theorem store_doLogInfo (b : BusCmd) (s : State) : store (doLogInfo b s) = store s := by simp [doLogInfo]
@[simp] theorem store_doLogSel (b : BusCmd) (s : State) : store (doLogSel b s) = store s := by simp [doLogSel]
@[simp] theorem store_doLogRead (b : BusCmd) (s : State) : store (doLogRead b s) = store s := by simp [doLogRead]
@[simp] theorem store_doPwrState (b : BusCmd) (s : State) : store (doPwrState b s) = store s := by simp [doPwrState]
@[simp] theorem store_doStatusRead (s : State) : store (doStatusRead s) = store s := by simp [doStatusRead]
@[simp] theorem store_doBusTimeout (s : State) : store (doBusTimeout s) = store s := (rfl)
@[simp] theorem store_doPwrArm (b : BusCmd) (tm : Instant) (s : State) : store (doPwrArm b tm s) = store s := by simp [doPwrArm]

@[simp] theorem store_confirm (s : State) (b : BusCmd) (tm : Instant) (code : Nat) (work : State → Nat × State) (h : ∀ u, store
    (work u).2 = store u) : store (confirm s b tm code work) = store s := by
  unfold confirm
  refine (store_busWrite _ b 1 true _ fun l u => ?_).trans (by simp)
  split
  · split <;> simp [h]
  · rfl

@[simp] theorem store_shutdown (s : State) : store (shutdown s).2 = store s := by simp [shutdown]

@[simp] theorem store_doPwrShutdown (b : BusCmd) (tm : Instant) (s : State) : store (doPwrShutdown b tm s) = store s := by
  simp [doPwrShutdown]

@[simp] theorem store_doPairLinkLaneDown (i : Fin 4) (s : State) : store (doPairLinkLaneDown i s) = store s := by simp [doPairLinkLaneDown]
@[simp] theorem store_doPairLinkLaneUp (i : Fin 4) (s : State) : store (doPairLinkLaneUp i s) = store s := by simp [doPairLinkLaneUp]

/-! ### Machine/Control -/

@[simp] theorem store_jump (l : Fin 64) (t0 : Nat) (target : Word) (link : Bool) (c : Core) (s : State) :
    store (jump l t0 target link c s) = store s := (rfl)

@[simp] theorem store_branch (l : Fin 64) (f : FmtU) (link : Bool) (s : State) : store (branch l f link s) = store s := by simp [branch]
@[simp] theorem store_jumpReg (l : Fin 64) (f : FmtI) (link : Bool) (s : State) : store (jumpReg l f link s) = store s := by simp [jumpReg]

/-! ### Machine/System -/

@[simp] theorem store_runSys (l : Fin 64) (legal : Bool) (pr : BitVec 3) (srcs : List Nat) (addr : Ctx → Word) (s : State)
    (go : Nat → Core → Nat → State → State) (h : ∀ t c n u, store (go t c n u) = store u) :
    store (runSys l legal pr srcs addr s go) = store s := by
  simp [runSys, h]

@[simp] theorem store_doSrd (l : Fin 64) (f : FmtI) (s : State) : store (doSrd l f s) = store s := by simp [doSrd]
@[simp] theorem store_doSfence (l : Fin 64) (f : FmtA) (s : State) : store (doSfence l f s) = store s := by simp [doSfence]
@[simp] theorem store_doTxswr (l : Fin 64) (f : FmtA) (s : State) : store (doTxswr l f s) = store s := by simp [doTxswr]

/-! ### Machine/Tick -/

@[simp] theorem store_setPhase (s : State) (p : Phase) : store (setPhase s p) = store s := (rfl)

@[simp] theorem store_showStep (s : State) (old : Nat) (new : Nat) (k : Int) : store (showStep s old new k) = store s :=
  store_of_keeps (showStep_frame ..).keeps

@[simp] theorem store_nextEdge (s : State) : store (nextEdge s).2 = store s := by
  simp only [nextEdge]
  split <;> simp

@[simp] theorem store_skipDops (s : State) : store (skipDops s) = store s := store_of_keeps (skipDops_frame ..).keeps

@[simp] theorem store_loomEdge (s : State) (disc : Bool) : store (loomEdge s disc) = store s :=
  store_of_keeps (loomEdge_frame ..).keeps

@[simp] theorem store_freshTick (s : State) (t : Fin 64) : store (freshTick s t) = store s := store_of_keeps (freshTick_frame ..).keeps
@[simp] theorem store_freshCore (s : State) (l : Fin 64) : store (freshCore s l) = store s := (rfl)

@[simp] theorem store_freshPhys (s : State) (c : Fin 8) (p : Fin 9) : store (freshPhys s c p) = store s :=
  store_of_keeps (freshPhys_frame ..).keeps

@[simp] theorem store_deliverCore (s : State) (t : Fin 64) (im : Image) (restore : Bool) (l : Fin 64) :
    store (deliverCore s t im restore l) = store s := by
  simp [deliverCore]

@[simp] theorem store_clearMarks (s : State) (t : Fin 64) : store (clearMarks s t) = store s := store_of_keeps (clearMarks_frame ..).keeps

@[simp] theorem store_deliverTenant (s : State) (t : Fin 64) : store (deliverTenant s t) = store s := by
  unfold deliverTenant
  split <;> simp

@[simp] theorem store_shuttleTime (s : State) (c : Fin 8) : store (shuttleTime s c) = store s := store_of_keeps (shuttleTime_frame ..).keeps
@[simp] theorem store_clearChanges (s : State) : store (clearChanges s) = store s := (rfl)
@[simp] theorem store_dropTick (s : State) : store (dropTick s) = store s := (rfl)
@[simp] theorem store_openCore (s : State) (t : Fin 64) (l : Fin 64) (ci : CoreImage) : store (openCore s t l ci) = store s := (rfl)

@[simp] theorem store_bootEnds (s : State) : store (bootEnds s) = store s := by
  unfold bootEnds
  split <;> simp

@[simp] theorem store_lockstepOpens (s : State) (c : Fin 8) : store (lockstepOpens s c) = store s := (rfl)

@[simp] theorem store_doProgramWindowOpen (s : State) : store (doProgramWindowOpen s) = store s := by
  refine store_cond rfl ?_
  extract_lets s1 s2 s3
  have h2 : store s2 = store s := by simp [s2, s1]
  have h3 : store s3 = store s2 := by
    refine store_each _ _ _ fun t v => store_cond rfl ((store_foldl _ _ _ fun v l => ?_).trans (store_modTen _ _ _))
    split <;> simp
  simp [h3, h2]

@[simp] theorem store_doWatchdog (l : Fin 64) (s : State) : store (doWatchdog l s) = store s := store_of_keeps (doWatchdog_frame ..).keeps

@[simp] theorem store_deadlineTenant (s : State) (t : Fin 64) : store (deadlineTenant s t) = store s :=
  store_of_keeps (deadlineTenant_frame ..).keeps

@[simp] theorem store_countEntries (s : State) (t : Fin 64) : store (countEntries s t) = store s := (rfl)
@[simp] theorem store_stopLate (s : State) (l : Fin 64) : store (stopLate s l) = store s := by simp [stopLate]
@[simp] theorem store_doDeadline (s : State) : store (doDeadline s) = store s := by simp [doDeadline]

@[simp] theorem store_initCopies (s : State) (t : Fin 64) : store (initCopies s t) = store s := by
  refine store_cond rfl ((store_modTen _ _ _).trans (store_foldl _ _ _ fun u l => ?_))
  split <;> simp

@[simp] theorem store_swapAperture (s : State) : store (swapAperture s) = store s := by simp [swapAperture]

@[simp] theorem store_swapPubs (s : State) (ups : List (Nat × Entry)) (falls tests : List Nat) :
    store (swapPubs s ups falls tests) = store s :=
  store_of_keeps (swapPubs_frame ..).keeps

@[simp] theorem store_swapArms (s : State) (ups : List (Nat × Entry)) (falls : List Nat) : store (swapArms s ups falls) = store s :=
  store_of_keeps (swapArms_frame ..).keeps

@[simp] theorem store_swapOuts (s : State) (ups : List (Nat × Entry)) (falls : List Nat) : store (swapOuts s ups falls) = store s :=
  store_of_keeps (swapOuts_frame ..).keeps

@[simp] theorem store_ownChange (s : State) (off : Nat) (v : Word) : store (ownChange s off v) = store s :=
  store_of_keeps (ownChange_frame ..).keeps

@[simp] theorem store_swapOwners (s : State) : store (swapOwners s) = store s := by simp [swapOwners]
@[simp] theorem store_shadowBytes (s : State) (a : Nat) (b : List Byte) : store (shadowBytes s a b) = store s := by simp [shadowBytes]
@[simp] theorem store_commitArea (s : State) : store (commitArea s) = store s := by simp [commitArea]
@[simp] theorem store_showCommit (s : State) : store (showCommit s) = store s := store_of_keeps (showCommit_frame ..).keeps

@[simp] theorem store_askCopy (s : State) (d : Dop) : store (askCopy s d) = store s := by
  refine store_foldl _ _ _ fun u b => ?_
  split <;> simp

@[simp] theorem store_doCommitComplete (s : State) : store (doCommitComplete s) = store s := by
  simp only [doCommitComplete]
  repeat' split
  all_goals simp

end Sys2Proof.Machine
end

section
/-! PROOFS: the memories' canonical form and what no instruction changes (O60, O18). -/

namespace Sys2Proof.Machine
set_option Elab.async false

/-! ## The canonical form of a memory -/

section
variable {α : Type} [DecidableEq α] {d : Nat → α}

theorem wfFrom_filter (q : Nat × α → Bool) {lo : Option Nat} {t : Tab α} (h : Tab.wfFrom d lo t = true) :
    Tab.wfFrom d lo (t.filter q) = true := by
  induction t generalizing lo with
  | nil => rfl
  | cons e t ih =>
    have h' := h
    simp only [Tab.wfFrom, Bool.and_eq_true] at h'
    obtain ⟨⟨hlo, hv⟩, ht⟩ := h'
    rw [List.filter_cons]
    split
    · simp only [Tab.wfFrom, Bool.and_eq_true]
      exact ⟨⟨hlo, hv⟩, ih ht⟩
    · refine ih (Tab.wfFrom_mono ht fun b hb => ?_)
      subst hb
      exact (of_decide_eq_true hlo).le
end

/-- Replacing a stretch of a memory keeps the canonical form. -/
theorem spliceMem_wf {m : List Host.Cell} (h : Memory.wf m = true) (a n : Nat) (cells : List Host.Cell) :
    Memory.wf (spliceMem m a n cells) = true :=
  List.foldlRecOn (motive := fun x => Memory.wf x = true) _ _ (wfFrom_filter _ h) fun _ hm e _ => poke_wf hm e.1 e.2

/-- Replacing one stretch after the other does. -/
theorem splices_wf {α : Type} {m : List Host.Cell} (h : Memory.wf m = true) (l : List α) (stretch : α → Nat × Nat × List Host.Cell) :
    Memory.wf (l.foldl (fun m e => spliceStretch m (stretch e)) m) = true :=
  List.foldlRecOn (motive := fun x => Memory.wf x = true) l _ h fun _ hm _ _ => spliceMem_wf hm ..

/-! ## The commands that write the byte memories -/

/-- Both byte memories keep their canonical form and the queue is the same. -/
structure KeepsCanonical (s t : State) : Prop where
  mem : Memory.wf s.mem = true → Memory.wf t.mem = true
  ddr : Memory.wf s.ddr = true → Memory.wf t.ddr = true
  pending : t.pending = s.pending

namespace KeepsCanonical
variable {s t u : State} {α : Type}

theorem of_store (h : store t = store s) : KeepsCanonical s t := by
  obtain ⟨hm, hr⟩ := Prod.mk.inj h
  obtain ⟨hd, hp⟩ := Prod.mk.inj hr
  exact ⟨fun w => hm ▸ w, fun w => hd ▸ w, hp⟩

theorem refl : KeepsCanonical s s := .of_store rfl

theorem trans (h : KeepsCanonical s t) (k : KeepsCanonical t u) : KeepsCanonical s u :=
  ⟨k.mem ∘ h.mem, k.ddr ∘ h.ddr, k.pending.trans h.pending⟩

/-- What comes before a step that keeps them may leave the memories and the queue as they are. -/
theorem after_store (h : KeepsCanonical t u) (k : store t = store s) : KeepsCanonical s u := (of_store k).trans h

/-- What comes after a step that keeps them may leave the memories and the queue as they are. -/
theorem then_store (h : KeepsCanonical s t) (k : store u = store t) : KeepsCanonical s u := h.trans (.of_store k)

theorem ite {c : Prop} [Decidable c] (ht : c → KeepsCanonical s t) (hu : ¬c → KeepsCanonical s u) :
    KeepsCanonical s (if c then t else u) := by
  split
  · exact ht ‹_›
  · exact hu ‹_›

theorem foldl {f : State → α → State} (h : ∀ u a, KeepsCanonical u (f u a)) (l : List α) (s : State) :
    KeepsCanonical s (l.foldl f s) :=
  List.foldlRecOn l f refl fun _ hu a _ => hu.trans (h _ a)

theorem of_mem (hm : Memory.wf s.mem = true → Memory.wf t.mem = true) (hd : t.ddr = s.ddr) (hp : t.pending = s.pending) :
    KeepsCanonical s t :=
  ⟨hm, fun w => hd ▸ w, hp⟩

end KeepsCanonical

section
variable {s : State}
open KeepsCanonical

/-- A reset clears both memories (R345). -/
theorem moduleReset_canonical (s : State) : KeepsCanonical s (moduleReset s) := ⟨fun _ => rfl, fun _ => rfl, rfl⟩

theorem resetWith_canonical (s : State) (cause : Nat) : KeepsCanonical s (resetWith s cause) := (moduleReset_canonical s).then_store rfl

theorem doHcReset_canonical (tm : Instant) (s : State) : KeepsCanonical s (doHcReset tm s) := by
  have h : KeepsCanonical s (toInstant s tm) := .of_store (by simp)
  exact .ite (fun _ => h) fun _ => (h.trans (resetWith_canonical _ 2)).then_store rfl

/-- The swap writes the stretches of the line shadow. -/
theorem swapMemory_canonical (s : State) : KeepsCanonical s (swapMemory s) := by
  unfold swapMemory
  extract_lets sh lines pages s1 s2
  have h : KeepsCanonical s { s with mem := sh.foldl spliceStretch s.mem } := .of_mem (fun w => splices_wf w sh id) rfl rfl
  refine h.then_store ?_
  simp [s2, s1]

theorem smWrite_canonical (s : State) (a : Nat) (bs : List Byte) : KeepsCanonical s (smWrite s a bs) :=
  .of_mem (fun w => pokes_wf w a bs) rfl rfl

/-! ### Register writes -/

theorem healthCmd_canonical (v : Word) (s : State) : KeepsCanonical s (healthCmd v s) := by
  unfold healthCmd
  dsimp only
  split
  · exact .of_store (by simp)
  · exact .of_store (by simp)
  · exact .of_store (by simp)
  · exact .of_store (by simp)
  · exact doHcReset_canonical _ s
  · exact .of_store (by simp)
  · exact .of_store rfl

theorem writeHc_canonical (off : Nat) (v : Word) (s : State) : KeepsCanonical s (writeHc off v s) :=
  .ite (fun _ => .ite (fun _ => healthCmd_canonical v s) fun _ => .refl) fun _ => .of_store (by simp)

theorem pfWrite_canonical (s : State) (off : Nat) (v : Word) : KeepsCanonical s (pfWrite s off v) := by
  refine .ite (fun _ => .refl) fun _ => ?_
  split
  · exact writeHc_canonical off v s
  all_goals exact .of_store (by simp)

theorem writeWord_canonical (who : Writer) (s : State) (off : Nat) (w : BusWord) : KeepsCanonical s (writeWord who s off w) := by
  refine .ite (fun _ => .refl) fun _ => ?_
  cases who with
  | fn f => exact .ite (fun _ => pfWrite_canonical ..) fun _ => .of_store (by simp)
  | image => exact pfWrite_canonical ..
  | bus => exact .refl

theorem doRegisterWrite_canonical (who : Writer) (off : Nat) (ws : List BusWord) (s : State) :
    KeepsCanonical s (doRegisterWrite who off ws s) :=
  .ite (fun _ => .refl) fun _ => .foldl (fun u _ => writeWord_canonical who u _ _) _ s

/-- What an instruction does with the memories is what its work does. -/
theorem runCore_canonical {l : Fin 64} {legal : Bool} {pr : BitVec 3} {srcs : List Nat} {ch : Option Nat}
    {go : Nat → Core → State → State}
    (h : ∀ t c u, KeepsCanonical u (go t c u)) (s : State) : KeepsCanonical s (runCore l legal pr srcs ch s go) := by
  refine .ite (fun _ => .refl) fun _ => ?_
  split
  · exact .of_store (by simp)
  · refine .ite (fun _ => .of_store rfl) fun _ => .ite (fun _ => .refl) fun _ => ?_
    refine .ite (fun _ => .of_store (by simp)) fun _ => .ite (fun _ => .of_store (by simp)) fun _ =>
      .ite (fun _ => ?_) fun _ => .of_store rfl
    exact (h ..).after_store rfl

/-- SWR is a register write of the PF (R156). -/
theorem doSwr_canonical (l : Fin 64) (f : FmtA) (s : State) : KeepsCanonical s (doSwr l f s) := by
  unfold doSwr runSys
  refine runCore_canonical (fun t0 c u => .ite (fun _ => .of_store (store_trap ..)) fun _ => ?_) s
  exact (pfWrite_canonical _ _ _).after_store rfl

/-! ### The tick's edge and its swap -/

theorem restoreYield_canonical (s : State) : KeepsCanonical s (restoreYield s) := by
  unfold restoreYield
  extract_lets l m s1
  have h : KeepsCanonical s s1 :=
    .of_mem (fun w => splices_wf w l fun e => (e.1, e.2, m)) rfl rfl
  exact h.then_store (by simp)

theorem pluEdge_canonical (s : State) : KeepsCanonical s (pluEdge s) := by
  unfold pluEdge
  split
  · refine .ite (fun _ => ?_) fun _ => .refl
    extract_lets again s1 s2
    have h1 : KeepsCanonical s s1 := .ite (fun _ => restoreYield_canonical s) fun _ => .refl
    have h2 : KeepsCanonical s s2 := h1.then_store (by simp [s2])
    exact .ite (fun _ => h2.then_store (by simp)) fun _ => h2
  · exact .refl

theorem doTickEdge_canonical (s : State) : KeepsCanonical s (doTickEdge s) := by
  refine .ite (fun _ => .refl) fun _ => ?_
  have h1 : store (nextEdge s).2 = store s := store_nextEdge s
  generalize nextEdge s = x at h1 ⊢
  split
  rename_i disc s1
  extract_lets s2 s3 s4 s5 s6 s7 s8 s9 s10
  have h9 : KeepsCanonical s s9 := (KeepsCanonical.of_store (h1 : store s1 = _)).then_store (by simp [s9, s8, s7, s6, s5, s4, s3, s2])
  have h10 : KeepsCanonical s s10 := h9.trans (pluEdge_canonical s9)
  exact .ite (fun _ => h10.then_store (by simp)) fun _ => h10.then_store (by simp)

theorem swapWords_canonical (s : State) (ups : List (Nat × Entry)) : KeepsCanonical s (swapWords s ups) := by
  have hloop (u : State) (e : Nat × Entry) : KeepsCanonical u (match e.2 with | .loopWord c i j v => loopWrite u c i j v | _ => u) := by
    split
    · exact .of_store (by simp)
    · exact .refl
  refine (KeepsCanonical.foldl hloop ups s).trans (.foldl (fun u e => ?_) ups _)
  split
  · exact pfWrite_canonical ..
  · exact .refl

theorem doSwap_canonical (s : State) : KeepsCanonical s (doSwap s) := by
  refine .ite (fun _ => .refl) fun _ => ?_
  extract_lets s1 ups falls commits tests s2 s3 s4 s5
  have h2 : KeepsCanonical s s2 := (swapMemory_canonical _).after_store (by simp [s1])
  have h3 : KeepsCanonical s s3 := h2.then_store (by simp [s3])
  have h4 : KeepsCanonical s s4 := h3.trans (swapWords_canonical _ _)
  exact .ite (fun _ => h4) fun _ => h4.then_store (by simp [s5])

theorem doDopCopyDone_canonical (s : State) : KeepsCanonical s (doDopCopyDone s) := by
  unfold doDopCopyDone
  split
  · exact .refl
  · extract_lets s1 d img s2 s3 s4 s5 s6
    have h1 : KeepsCanonical s s1 := .of_store (by simp [s1])
    have h3 : KeepsCanonical s s3 := (h1.then_store (by simp [s2])).trans (swapMemory_canonical _)
    exact .ite (fun _ => h1) fun _ => h3.then_store (by simp [s6, s5, s4])

/-! ### Checkpoints, archive transfers, power -/

theorem restore_canonical (s : State) (c : Ckpt) : KeepsCanonical s (restore s c) := by
  unfold restore
  extract_lets ts mine s1
  have h : KeepsCanonical s s1 := .foldl (fun u i => by
    split
    · exact .ite (fun _ => smWrite_canonical ..) fun _ => .refl
    · exact .refl) _ s
  exact h.then_store rfl

theorem doRestoreComplete_canonical (s : State) : KeepsCanonical s (doRestoreComplete s) := by
  unfold doRestoreComplete
  split
  next c _ _ => exact ((restore_canonical (complete s 10 2) c).after_store (by simp)).then_store (by simp)
  · exact .refl

theorem finalRestore_canonical (s : State) (c : Ckpt) (h : Nat) : KeepsCanonical s (finalRestore s c h) :=
  ((restore_canonical (complete (askRestore (wb s Reg.pluStatus 16 true) c) 10 2) c).after_store (by simp)).then_store rfl

theorem doCheckpointClose_canonical (c : CkptClose) (s : State) : KeepsCanonical s (doCheckpointClose c s) := by
  refine .ite (fun _ => .refl) fun _ => .ite (fun _ => .of_store rfl) fun _ => ?_
  extract_lets keep k bad s1 s2 s3
  have h3 : KeepsCanonical s s3 := .of_store (store_cond (by simp [s2, s1]) (by simp [s2, s1]))
  split
  · exact .ite (fun _ => h3.trans (finalRestore_canonical ..)) fun _ => h3
  · exact h3

theorem doTransferDone_canonical (hostErr : Bool) (s : State) : KeepsCanonical s (doTransferDone hostErr s) := by
  unfold doTransferDone
  split
  · exact .refl
  · extract_lets s1 xs done base
    have hdone (u : State) : store (done u) = store u := by simp [done]
    have h1 : KeepsCanonical s s1 := .of_store rfl
    refine .ite (fun _ => h1.then_store rfl) fun _ => .ite (fun _ => ?_) fun _ =>
      .ite (fun _ => h1.then_store rfl) fun _ => h1.then_store (hdone _)
    have h2 : KeepsCanonical s { s1 with ddr := pokes s1.ddr base (xs.flatMap rowPart) } :=
      h1.trans ⟨id, fun w => pokes_wf w _ _, rfl⟩
    exact h2.then_store ((hdone _).trans (by simp))

theorem doPowerGood_canonical (tm : Instant) (s : State) : KeepsCanonical s (doPowerGood tm s) := by
  unfold doPowerGood
  extract_lets s1 s2 s3 s4 s5
  have h1 : KeepsCanonical s s1 := .of_store (by simp [s1])
  have h2 : KeepsCanonical s s2 := h1.then_store rfl
  have h3 : KeepsCanonical s s3 := .ite (fun _ => (h2.trans (resetWith_canonical _ 0)).then_store rfl) fun _ => h2
  exact .ite (fun _ => h1.then_store rfl) fun _ => .ite (fun _ => h1) fun _ => h3.then_store (by simp [s5, s4])

theorem doPowerFailReset_canonical (tm : Instant) (s : State) : KeepsCanonical s (doPowerFailReset tm s) := by
  unfold doPowerFailReset
  extract_lets s1 shut
  have h1 : KeepsCanonical s s1 := .of_store (by simp [s1])
  refine .ite (fun _ => h1) fun _ => .ite (fun _ => .ite (fun _ => ?_) fun _ => h1) fun _ => ?_
  · exact (h1.trans (moduleReset_canonical _)).then_store (by simp)
  · exact (h1.trans (resetWith_canonical s1 (if s1.hc.ending = 3 then 3 else 1))).then_store rfl

theorem doFaultRestart_canonical (tm : Instant) (s : State) : KeepsCanonical s (doFaultRestart tm s) := by
  have h1 : KeepsCanonical s (toInstant s tm) := .of_store (by simp)
  exact .ite (fun _ => h1) fun _ => h1.trans (resetWith_canonical _ 3)

theorem doStandbyPowerLoss_canonical (s : State) : KeepsCanonical s (doStandbyPowerLoss s) := by
  unfold doStandbyPowerLoss
  extract_lets s1 s2
  have h1 : KeepsCanonical s s1 := .ite (fun _ => .of_store rfl) fun _ => .of_store rfl
  exact (h1.trans (moduleReset_canonical _)).then_store rfl

/-- A confirmed power command does what its work does. -/
theorem confirm_canonical {work : State → Nat × State} (b : BusCmd) (tm : Instant) (code : Nat)
    (h : ∀ u, KeepsCanonical u (work u).2) (s : State) : KeepsCanonical s (confirm s b tm code work) := by
  have h1 : KeepsCanonical s (toInstant s tm) := .of_store (by simp)
  refine h1.trans (.ite (fun _ => .refl) fun _ => .ite (fun _ => .of_store rfl) fun _ => .ite (fun _ => .of_store rfl) fun _ =>
    .ite (fun _ => .of_store rfl) fun _ => .ite (fun _ => .of_store rfl) fun _ => ?_)
  dsimp only
  split
  · split
    · have h2 : KeepsCanonical (toInstant s tm) (work (modHc (toInstant s tm) fun h => { h with busArm := none })).2 :=
        (h _).after_store rfl
      exact h2.then_store rfl
    · exact .of_store rfl
  · exact .of_store rfl

theorem doPwrPowerOn_canonical (b : BusCmd) (tm : Instant) (s : State) : KeepsCanonical s (doPwrPowerOn b tm s) := by
  refine confirm_canonical b tm 2 (fun u => ?_) s
  split
  · exact .refl
  · exact (doPowerGood_canonical u.now (modHc u fun h => { h with holdOff := false })).after_store rfl

theorem doPwrReset_canonical (b : BusCmd) (tm : Instant) (s : State) : KeepsCanonical s (doPwrReset b tm s) := by
  refine confirm_canonical b tm 3 (fun u => ?_) s
  split
  · exact doHcReset_canonical ..
  · exact .refl

end
/-- The commands that can write State Memory or DDR5. -/
def writesMemory : Instr → Bool
  | .swr .. | .registerWrite .. | .tickEdge | .swap | .dopCopyDone | .restoreComplete | .checkpointClose .. | .transferDone ..
  | .powerGood .. | .powerFailReset .. | .faultRestart .. | .hcReset .. | .pwrPowerOn .. | .pwrReset .. | .standbyPowerLoss => true
  | _ => false

theorem store_exec {i : Instr} {s t : State} (hw : writesMemory i = false) (h : exec i s = .next t) : store t = store s := by
  cases i
  case swr => cases hw
  case registerWrite => cases hw
  case tickEdge => cases hw
  case swap => cases hw
  case dopCopyDone => cases hw
  case restoreComplete => cases hw
  case checkpointClose => cases hw
  case transferDone => cases hw
  case powerGood => cases hw
  case powerFailReset => cases hw
  case faultRestart => cases hw
  case hcReset => cases hw
  case pwrPowerOn => cases hw
  case pwrReset => cases hw
  case standbyPowerLoss => cases hw
  case checkpointSent =>
    have h' : Host.Outcome.next (doCheckpointSent s) = .next t := h
    rw [← Host.Outcome.next.inj h', store_doCheckpointSent]
  all_goals (cases h; simp)
section
variable {s t : State} {i : Instr}

theorem exec_canonical (h : exec i s = .next t) : KeepsCanonical s t := by
  cases hw : writesMemory i with
  | false => exact .of_store (store_exec hw h)
  | true =>
    unfold writesMemory at hw
    split at hw
    · cases h; exact doSwr_canonical ..
    · cases h; exact doRegisterWrite_canonical ..
    · cases h; exact doTickEdge_canonical ..
    · cases h; exact doSwap_canonical ..
    · cases h; exact doDopCopyDone_canonical ..
    · cases h; exact doRestoreComplete_canonical ..
    · cases h; exact doCheckpointClose_canonical ..
    · cases h; exact doTransferDone_canonical ..
    · cases h; exact doPowerGood_canonical ..
    · cases h; exact doPowerFailReset_canonical ..
    · cases h; exact doFaultRestart_canonical ..
    · cases h; exact doHcReset_canonical ..
    · cases h; exact doPwrPowerOn_canonical ..
    · cases h; exact doPwrReset_canonical ..
    · cases h; exact doStandbyPowerLoss_canonical ..
    · cases hw

/-- Of the Wormin instructions only SWR can write a memory. -/
theorem swr_of_writesMemory {e : Who × Word} (h : encodeWormin i = some e) (hw : writesMemory i = true) : ∃ l f, i = .swr l f := by
  unfold writesMemory at hw
  split at hw
  case h_1 => exact ⟨_, _, rfl⟩
  case h_16 => cases hw
  all_goals cases h

end

/-- Settles O60: of the commands only those of `writesMemory` touch the memories, and each of them writes bytes, replaces a
stretch or clears; a step takes its command from the queue first. -/
theorem everyStepKeepsTheMemoriesCanonical : Obligations.EveryStepKeepsTheMemoriesCanonical := by
  unfold Obligations.EveryStepKeepsTheMemoriesCanonical
  intro s t hm hd h
  unfold step at h
  split at h
  · next c rest hp =>
    obtain ⟨km, kd, kp⟩ := exec_canonical h
    exact ⟨km hm, kd hd, by rw [kp, hp]; rfl⟩
  · next hp =>
    cases h
    exact ⟨hm, hd, by rw [hp]; rfl⟩

/-- Settles O18: every Wormin instruction but SWR, whose word has op 0x71, leaves the memories as they are. -/
theorem noInstructionChangesStateMemory : Obligations.NoInstructionChangesStateMemory := by
  unfold Obligations.NoInstructionChangesStateMemory
  intro i x w s t he hop h
  cases hw : writesMemory i with
  | false => exact congrArg Prod.fst (store_exec hw h)
  | true =>
    obtain ⟨l, f, rfl⟩ := swr_of_writesMemory he hw
    cases he
    exact absurd (opField_wordA ..) hop
end Sys2Proof.Machine
end

section
/-! PROOFS: binary32 words, taken apart and packed (O6). -/

namespace Sys2Proof.Machine

/-! ## Words as binary32 numbers -/

/-- The significand of a finite word, a whole number below 2^24. -/
def mantissa (w : Word) : Nat := if fld w 30 23 = 0 then fld w 22 0 else fld w 22 0 + 2 ^ 23

/-- The weight of its last place is 2^exponent units of 2^-149. -/
def exponent (w : Word) : Nat := fld w 30 23 - 1

section
variable {w : Word}

theorem fld_lt (w : Word) (hi lo : Nat) : fld w hi lo < 2 ^ (hi - lo + 1) := Nat.mod_lt _ (Nat.two_pow_pos _)

theorem mantissa_lt (w : Word) : mantissa w < 2 ^ 24 := by
  have := fld_lt w 22 0
  unfold mantissa
  split <;> omega

theorem exponent_le (h : FFin w) : exponent w ≤ 253 := by
  have := fld_lt w 30 23
  unfold FFin at h
  unfold exponent
  omega

theorem mantissa_normal (h : exponent w ≠ 0) : 2 ^ 23 ≤ mantissa w := by
  unfold exponent at h
  rw [mantissa, if_neg (by omega)]
  omega

theorem sInt_eq (neg : Bool) (m : Nat) : sInt neg m = (if neg then -1 else 1) * (m : Int) := by
  cases neg <;> simp [sInt]

theorem sInt_natAbs (neg : Bool) (m : Nat) : (sInt neg m).natAbs = m := by
  cases neg <;> simp [sInt]

theorem fUnits_eq (w : Word) : fUnits w = sInt (bitOf w 31) (mantissa w * 2 ^ exponent w) := by
  rw [sInt_eq, fUnits, mantissa, exponent]
  by_cases h : fld w 30 23 = 0 <;> simp [h]

/-- The magnitude of a word's value. -/
theorem fUnits_natAbs (w : Word) : (fUnits w).natAbs = mantissa w * 2 ^ exponent w := by
  rw [fUnits_eq, sInt_natAbs]

theorem fUnits_sign (w : Word) : fUnits w = sInt (bitOf w 31) (fUnits w).natAbs := by
  rw [fUnits_natAbs, fUnits_eq]

theorem fUnits_eq_zero : fUnits w = 0 ↔ mantissa w = 0 := by
  rw [← Int.natAbs_eq_zero, fUnits_natAbs]
  simp

theorem not_nan_of_inf (h : FInf w) : ¬ FNan w := fun k => k.2 h.2
theorem not_nan_of_fin (h : FFin w) : ¬ FNan w := fun k => h k.1
theorem not_inf_of_fin (h : FFin w) : ¬ FInf w := fun k => h k.1

/-- Every word is a NaN, an infinity or finite. -/
theorem word_cases (w : Word) : FNan w ∨ FInf w ∨ FFin w := by
  unfold FNan FInf FFin
  tauto

theorem unpack_nan (h : FNan w) : unpack w = .nan (!bitOf w 22) := by
  obtain ⟨he, hf⟩ := h
  simp [unpack, he, hf, bitOf]

theorem unpack_inf (h : FInf w) : unpack w = .inf (bitOf w 31) := by
  obtain ⟨he, hf⟩ := h
  simp [unpack, he, hf, bitOf]

theorem unpack_fin (h : FFin w) : unpack w = .fin (bitOf w 31) (mantissa w) ((exponent w : Int) - 149) := by
  unfold FFin at h
  simp only [unpack, h, if_false, mantissa, exponent, bitOf]
  split
  · simp_all
  · congr 1
    omega

theorem isNan_unpack : isNan (unpack w) = true ↔ FNan w := by
  rcases word_cases w with h | h | h
  · simp [unpack_nan h, isNan, h]
  · simp [unpack_inf h, isNan, not_nan_of_inf h]
  · simp [unpack_fin h, isNan, not_nan_of_fin h]

theorem isNan_unpack_false (h : ¬ FNan w) : isNan (unpack w) = false := by
  rw [← Bool.not_eq_true, isNan_unpack]
  exact h

theorem isSnan_unpack : isSnan (unpack w) = true ↔ FSig w := by
  unfold FSig
  rcases word_cases w with h | h | h
  · simp [unpack_nan h, isSnan, h]
  · simp [unpack_inf h, isSnan, not_nan_of_inf h]
  · simp [unpack_fin h, isSnan, not_nan_of_fin h]

theorem fpNeg_unpack (h : ¬ FNan w) : fpNeg (unpack w) = bitOf w 31 := by
  rcases word_cases w with k | k | k
  · exact absurd k h
  · rw [unpack_inf k]; rfl
  · rw [unpack_fin k]; rfl

end

/-! ## Packing a word -/

/-- A word by its sign, exponent field and fraction. -/
theorem word_ext {a b : Word} (hs : bitOf a 31 = bitOf b 31) (he : fld a 30 23 = fld b 30 23) (hf : fld a 22 0 = fld b 22 0) : a = b := by
  have key (w : Word) : w.toNat = (bitOf w 31).toNat * 2 ^ 31 + fld w 30 23 * 2 ^ 23 + fld w 22 0 := by
    have hb : (bitOf w 31).toNat = w.toNat / 2 ^ 31 := by
      have := w.isLt
      rw [bitOf, BitVec.getLsbD, Nat.testBit_eq_decide_div_mod_eq]
      by_cases h : w.toNat / 2 ^ 31 % 2 = 1 <;> simp only [h, decide_true, decide_false, Bool.toNat_true, Bool.toNat_false] <;> omega
    rw [hb, fld, fld]
    have := w.isLt
    simp only [Nat.shiftRight_eq_div_pow]
    omega
  exact BitVec.eq_of_toNat_eq (by rw [key a, key b, hs, he, hf])

/-- The word packed of a sign and a body. -/
def packed (neg : Bool) (body : Nat) : Word := zeroWord neg ||| W body

section
variable {neg : Bool} {body : Nat} (h : body < 2 ^ 31)
include h

theorem packed_toNat : (packed neg body).toNat = neg.toNat * 2 ^ 31 + body := by
  have hW : (W body).toNat = body := by
    rw [W, BitVec.toNat_ofNat]
    omega
  rw [packed, BitVec.toNat_or, hW]
  cases neg with
  | false => simp [zeroWord]
  | true => exact (Nat.two_pow_add_eq_or_of_lt h 1).symm

theorem packed_sign : bitOf (packed neg body) 31 = neg := by
  rw [bitOf, BitVec.getLsbD, packed_toNat h, Nat.testBit_eq_decide_div_mod_eq]
  cases neg <;> simp <;> omega

theorem packed_exponent : fld (packed neg body) 30 23 = body / 2 ^ 23 := by
  rw [fld, packed_toNat h, Nat.shiftRight_eq_div_pow]
  cases neg <;> simp <;> omega

theorem packed_fraction : fld (packed neg body) 22 0 = body % 2 ^ 23 := by
  rw [fld, packed_toNat h]
  cases neg <;> simp <;> omega

theorem packed_even : bitOf (packed neg body) 0 = decide (body % 2 = 1) := by
  rw [bitOf, BitVec.getLsbD, packed_toNat h, Nat.testBit_eq_decide_div_mod_eq]
  cases neg <;> simp <;> omega

end

theorem infWord_inf (neg : Bool) : FInf (infWord neg) ∧ bitOf (infWord neg) 31 = neg := by
  cases neg <;> (unfold FInf; decide)

theorem inf_eq_infWord {w : Word} (h : FInf w) : w = infWord (bitOf w 31) := by
  obtain ⟨⟨he, hf⟩, hs⟩ := infWord_inf (bitOf w 31)
  exact word_ext hs.symm (h.1.trans he.symm) (h.2.trans hf.symm)

end Sys2Proof.Machine
end

section
/-! PROOFS: rounding a magnitude to binary32 (O6). -/

namespace Sys2Proof.Machine

/-! ## The nearest number -/

/-- A magnitude in units of 2^-149, cut at a quantum of 2^k: the multiple below it, and whether the next one is to be taken. -/
structure Quantised (v : ℝ) (k q : Nat) (up : Prop) : Prop where
  lo : (q : ℝ) * 2 ^ k ≤ v
  hi : v < (q + 1) * 2 ^ k
  normal : k = 0 ∨ 2 ^ 23 ≤ q
  small : q < 2 ^ 24
  up : up ↔ (q + 1 / 2 : ℝ) * 2 ^ k < v ∨ (v = (q + 1 / 2) * 2 ^ k ∧ q % 2 = 1)

/-- The multiple taken. -/
def roundedTo (q : Nat) (up : Prop) [Decidable up] : Nat := if up then q + 1 else q

theorem le_roundedTo (q : Nat) (up : Prop) [Decidable up] : q ≤ roundedTo q up := by unfold roundedTo; split <;> omega

theorem roundedTo_le (q : Nat) (up : Prop) [Decidable up] : roundedTo q up ≤ q + 1 := by unfold roundedTo; split <;> omega

/-- No finite word lies between two neighbouring multiples of the quantum. -/
theorem fUnits_gap (w : Word) {k q : Nat} (h : k = 0 ∨ 2 ^ 23 ≤ q) :
    (fUnits w).natAbs ≤ q * 2 ^ k ∨ (q + 1) * 2 ^ k ≤ (fUnits w).natAbs := by
  rw [fUnits_natAbs]
  rcases le_or_gt k (exponent w) with hk | hk
  · rw [← Nat.sub_add_cancel hk, pow_add, ← Nat.mul_assoc]
    rcases Nat.lt_or_ge q (mantissa w * 2 ^ (exponent w - k)) with hq | hq
    · exact .inr (Nat.mul_le_mul_right _ hq)
    · exact .inl (Nat.mul_le_mul_right _ hq)
  · refine .inl ?_
    calc mantissa w * 2 ^ exponent w ≤ 2 ^ 24 * 2 ^ exponent w := Nat.mul_le_mul_right _ (mantissa_lt w).le
      _ = 2 ^ 23 * 2 ^ (exponent w + 1) := by ring
      _ ≤ q * 2 ^ k := Nat.mul_le_mul (h.resolve_left (by omega)) (Nat.pow_le_pow_right (by decide) hk)

section
variable {v : ℝ} {k q : Nat} {up : Prop} [Decidable up] (h : Quantised v k q up)
include h

/-- The multiple taken is the nearest of all numbers outside the gap, and even where another is as near. -/
theorem Quantised.nearest {g : Nat} (hg : g ≤ q * 2 ^ k ∨ (q + 1) * 2 ^ k ≤ g) :
    |v - (roundedTo q up * 2 ^ k : Nat)| ≤ |v - g| ∧
      (|v - (roundedTo q up * 2 ^ k : Nat)| = |v - g| → g = roundedTo q up * 2 ^ k ∨ roundedTo q up % 2 = 0) := by
  obtain ⟨hlo, hhi, -, -, hup⟩ := h
  have hg' : (g : ℝ) ≤ q * 2 ^ k ∨ (q + 1) * 2 ^ k ≤ (g : ℝ) := by exact_mod_cast hg
  have ht : (0 : ℝ) < 2 ^ k := by positivity
  unfold roundedTo
  split
  next hu =>
    have hmid : (q + 1 / 2 : ℝ) * 2 ^ k ≤ v := (hup.1 hu).elim le_of_lt fun x => x.1.ge
    have e1 : |v - ((q + 1) * 2 ^ k : Nat)| = (q + 1) * 2 ^ k - v := by
      push_cast
      rw [abs_of_nonpos (by linarith)]
      ring
    rw [e1]
    rcases hg' with hl | hr
    · rw [abs_of_nonneg (by linarith : 0 ≤ v - g)]
      refine ⟨by linarith, fun he => .inr ?_⟩
      rcases hup.1 hu with hv | ⟨-, ho⟩
      · linarith
      · omega
    · rw [abs_of_nonpos (by linarith : v - g ≤ 0)]
      refine ⟨by linarith, fun he => .inl ?_⟩
      have : (g : ℝ) = (q + 1) * 2 ^ k := by linarith
      exact_mod_cast this
  next hu =>
    have hmid : v ≤ (q + 1 / 2 : ℝ) * 2 ^ k := not_lt.1 fun x => hu (hup.2 (.inl x))
    have e1 : |v - (q * 2 ^ k : Nat)| = v - q * 2 ^ k := by
      push_cast
      exact abs_of_nonneg (by linarith)
    rw [e1]
    rcases hg' with hl | hr
    · rw [abs_of_nonneg (by linarith : 0 ≤ v - g)]
      refine ⟨by linarith, fun he => .inl ?_⟩
      have : (g : ℝ) = q * 2 ^ k := by linarith
      exact_mod_cast this
    · rw [abs_of_nonpos (by linarith : v - g ≤ 0)]
      refine ⟨by linarith, fun he => .inr ?_⟩
      by_contra ho
      exact hu (hup.2 (.inr ⟨by linarith, by omega⟩))

/-- With a quantum below 2^104 the value and the multiple taken stay below 2^128. -/
theorem Quantised.below_of_lt (hk : k < 253) : v < (2 ^ 25 - 1) * 2 ^ 252 ∧ roundedTo q up * 2 ^ k < 2 ^ 24 * 2 ^ 253 := by
  have hk' : (2 : ℝ) ^ k ≤ 2 ^ 252 := pow_le_pow_right₀ (by norm_num) (by omega)
  have hkn : 2 ^ k ≤ 2 ^ 252 := Nat.pow_le_pow_right (by decide) (by omega)
  have hq : (q : ℝ) + 1 ≤ 2 ^ 24 := by exact_mod_cast h.small
  constructor
  · calc v < (q + 1) * 2 ^ k := h.hi
      _ ≤ 2 ^ 24 * 2 ^ 252 := by gcongr
      _ < (2 ^ 25 - 1) * 2 ^ 252 := by norm_num
  · calc _ ≤ 2 ^ 24 * 2 ^ 252 := Nat.mul_le_mul ((roundedTo_le q up).trans h.small) hkn
      _ < 2 ^ 24 * 2 ^ 253 := by norm_num

/-- With a quantum above 2^104 both lie at 2^128 or beyond. -/
theorem Quantised.above_of_gt (hk : 253 < k) : (2 ^ 25 - 1) * 2 ^ 252 ≤ v ∧ 2 ^ 24 * 2 ^ 253 ≤ roundedTo q up * 2 ^ k := by
  have hb : 2 ^ 24 * 2 ^ 253 ≤ q * 2 ^ k := calc
    2 ^ 24 * 2 ^ 253 = 2 ^ 23 * 2 ^ 254 := by norm_num
    _ ≤ q * 2 ^ k := Nat.mul_le_mul (h.normal.resolve_left (by omega)) (Nat.pow_le_pow_right (by decide) hk)
  have hb' : (2 : ℝ) ^ 24 * 2 ^ 253 ≤ q * 2 ^ k := by exact_mod_cast hb
  refine ⟨?_, hb.trans (Nat.mul_le_mul_right _ (le_roundedTo q up))⟩
  calc ((2 : ℝ) ^ 25 - 1) * 2 ^ 252 ≤ 2 ^ 24 * 2 ^ 253 := by norm_num
    _ ≤ v := hb'.trans h.lo

omit [Decidable up] in
/-- With a quantum of 2^104 both do just where the largest number is rounded up. -/
theorem Quantised.at_top (hk : k = 253) : (2 ^ 25 - 1) * 2 ^ 252 ≤ v ↔ q = 2 ^ 24 - 1 ∧ up := by
  obtain ⟨-, hhi, -, hs, hup⟩ := h
  subst hk
  have e : ((2 : ℝ) ^ 25 - 1) * 2 ^ 252 = (2 ^ 24 - 1 / 2) * 2 ^ 253 := by norm_num
  rw [e]
  constructor
  · intro hv
    have hq : q = 2 ^ 24 - 1 := by
      have h1 : (2 : ℝ) ^ 24 - 1 / 2 < q + 1 := lt_of_mul_lt_mul_right (hv.trans_lt hhi) (by positivity)
      have h2 : (2 ^ 24 : ℝ) < (q + 2 : Nat) := by push_cast; linarith
      have h3 : 2 ^ 24 < q + 2 := by exact_mod_cast h2
      omega
    have hr : (q : ℝ) = 2 ^ 24 - 1 := by rw [hq]; norm_num
    refine ⟨hq, hup.2 ?_⟩
    rw [hr]
    rcases hv.lt_or_eq with hl | he
    · exact .inl (by linarith)
    · exact .inr ⟨by rw [← he]; ring, by omega⟩
  · rintro ⟨hq, hu⟩
    have hr : (q : ℝ) = 2 ^ 24 - 1 := by rw [hq]; norm_num
    have := hup.1 hu
    rw [hr] at this
    rcases this with hl | ⟨he, -⟩ <;> linarith

/-- The multiple taken is 2^128 or more just where the value lies half a last place of the largest number beyond it. -/
theorem Quantised.overflow : (2 ^ 25 - 1) * 2 ^ 252 ≤ v ↔ 2 ^ 24 * 2 ^ 253 ≤ roundedTo q up * 2 ^ k := by
  rcases lt_trichotomy k 253 with hk | hk | hk
  · obtain ⟨hv, hq⟩ := h.below_of_lt hk
    exact iff_of_false (not_le.2 hv) (not_le.2 hq)
  · rw [h.at_top hk, hk, Nat.mul_le_mul_right_iff (by positivity), roundedTo]
    have := h.small
    split
    next hu => rw [and_iff_left hu]; omega
    next hu => exact iff_of_false (fun x => hu x.2) (by omega)
  · obtain ⟨hv, hq⟩ := h.above_of_gt hk
    exact iff_of_true hv hq

end

/-! ## What `roundF` computes -/

section
variable (m : Nat) (e : Int) (sticky : Bool)

/-- The exponent of the quantum a number is rounded to. -/
def roundE : Int := max (e + bitLen m - 24) (-149)

/-- The number in units of its own or, if that is smaller, the quantum's place. -/
def scaledM : Nat := if roundE m e < e then m * 2 ^ (e - roundE m e).toNat else m

/-- The places below the quantum. -/
def cut : Nat := (roundE m e - e).toNat

def quot : Nat := scaledM m e / 2 ^ cut m e
def rest : Nat := scaledM m e % 2 ^ cut m e

/-- Rounded up to the next multiple: beyond half the quantum, or there with the even neighbour above. -/
abbrev RoundsUp : Prop :=
  cut m e ≠ 0 ∧ (2 ^ cut m e / 2 < rest m e ∨ (rest m e = 2 ^ cut m e / 2 ∧ (sticky ∨ quot m e % 2 = 1)))

/-- Some of the number lies below the quantum. -/
abbrev Inexact : Prop := rest m e ≠ 0 ∨ sticky

/-- The multiple of the quantum taken. -/
def taken : Nat := roundedTo (quot m e) (RoundsUp m e sticky)

/-- Whether the number counts as tiny. -/
def tiny : Bool := if Config.tinyAfterRounding then tinyRounded m e sticky else decide (quot m e < 2 ^ 23)

/-- The flags of a number below 2^128. -/
def roundFlags : Word :=
  (if Inexact m e sticky then fsNx else 0) ||| (if Inexact m e sticky ∧ tiny m e sticky then fsUf else 0)

end

/-- A word of `q` quanta of 2^E, infinity from 2^128 on. -/
def roundedWord (neg : Bool) (q : Nat) (E : Int) (fl : Word) : Word × Word :=
  let (q2, E2) := if q = 2 ^ 24 then (2 ^ 23, E + 1) else (q, E)
  if 2 ^ 23 ≤ q2 ∧ 127 < E2 + 23 then (infWord neg, fsOf ||| fsNx)
  else (packed neg (if q2 < 2 ^ 23 then q2 else (E2 + 150).toNat * 2 ^ 23 + (q2 - 2 ^ 23)), fl)

theorem roundF_eq {neg : Bool} {m : Nat} {e : Int} {sticky : Bool} (hm : m ≠ 0) :
    roundF neg m e sticky = roundedWord neg (taken m e sticky) (roundE m e) (roundFlags m e sticky) :=
  if_neg fun h => hm h.1

/-! ### Delivering -/

section
variable {neg : Bool} {q k : Nat} {fl : Word}

theorem packed_finite {x : Nat} (hq : q < 2 ^ 24) (hn : x = 0 ∨ 2 ^ 23 ≤ q) (hx : x ≤ 253) :
    let r := packed neg (if q < 2 ^ 23 then q else (x + 1) * 2 ^ 23 + (q - 2 ^ 23))
    FFin r ∧ bitOf r 31 = neg ∧ (fUnits r).natAbs = q * 2 ^ x ∧ bitOf r 0 = decide (q % 2 = 1) := by
  intro r
  have hb : (if q < 2 ^ 23 then q else (x + 1) * 2 ^ 23 + (q - 2 ^ 23)) < 2 ^ 31 := by split <;> omega
  have he : fld r 30 23 = if q < 2 ^ 23 then 0 else x + 1 := by
    rw [packed_exponent hb]
    split <;> omega
  have hf : fld r 22 0 = if q < 2 ^ 23 then q else q - 2 ^ 23 := by
    rw [packed_fraction hb]
    split <;> omega
  refine ⟨?_, packed_sign hb, ?_, ?_⟩
  · unfold FFin
    rw [he]
    split <;> omega
  · rw [fUnits_natAbs, mantissa, exponent, he, hf]
    split
    · rw [show x = 0 by omega]; rfl
    · rw [if_neg (by omega)]
      congr 1
      omega
  · rw [packed_even hb]
    congr 1
    split
    · rfl
    · rw [eq_iff_iff]
      omega

theorem roundedWord_over (hn : k = 0 ∨ 2 ^ 23 ≤ q) (hq : q ≤ 2 ^ 24) (h : 2 ^ 24 * 2 ^ 253 ≤ q * 2 ^ k) :
    roundedWord neg q (k - 149) fl = (infWord neg, fsOf ||| fsNx) := by
  have hk : 253 ≤ k := by
    by_contra hk
    have : 2 ^ k ≤ 2 ^ 252 := Nat.pow_le_pow_right (by decide) (by omega)
    exact absurd h (not_le.2 ((Nat.mul_le_mul hq this).trans_lt (by norm_num)))
  unfold roundedWord
  split
  next q2 E2 heq =>
    refine if_pos ?_
    by_cases hq' : q = 2 ^ 24
    · rw [if_pos hq', Prod.mk.injEq] at heq
      omega
    · rw [if_neg hq', Prod.mk.injEq] at heq
      have : k ≠ 253 := by
        rintro rfl
        exact hq' (le_antisymm hq (Nat.le_of_mul_le_mul_right h (by positivity)))
      omega

theorem roundedWord_finite (hn : k = 0 ∨ 2 ^ 23 ≤ q) (hq : q ≤ 2 ^ 24) (h : q * 2 ^ k < 2 ^ 24 * 2 ^ 253) :
    ∃ r, roundedWord neg q (k - 149) fl = (r, fl) ∧ FFin r ∧ bitOf r 31 = neg ∧ (fUnits r).natAbs = q * 2 ^ k ∧
      (q % 2 = 0 → bitOf r 0 = false) := by
  have hk : k ≤ 253 := by
    by_contra hk
    have h1 : 2 ^ 254 ≤ 2 ^ k := Nat.pow_le_pow_right (by decide) (by omega)
    have h2 : 2 ^ 23 * 2 ^ 254 ≤ q * 2 ^ k := Nat.mul_le_mul (hn.resolve_left (by omega)) h1
    exact absurd (h2.trans_lt h) (by norm_num)
  by_cases hq' : q = 2 ^ 24
  · have hk' : k ≠ 253 := by
      rintro rfl
      rw [hq'] at h
      exact lt_irrefl _ h
    obtain ⟨hfin, hsign, habs, heven⟩ := packed_finite (neg := neg) (q := 2 ^ 23) (x := k + 1) (by decide) (.inr le_rfl) (by omega)
    refine ⟨_, ?_, hfin, hsign, ?_, fun _ => heven⟩
    · rw [roundedWord, if_pos hq']
      dsimp only
      rw [if_neg (by omega), show ((k : Int) - 149 + 1 + 150).toNat = k + 1 + 1 by omega]
    · rw [habs, hq']
      ring
  · obtain ⟨hfin, hsign, habs, heven⟩ := packed_finite (neg := neg) (q := q) (x := k) (by omega) hn hk
    refine ⟨_, ?_, hfin, hsign, habs, fun he => ?_⟩
    · rw [roundedWord, if_neg hq']
      dsimp only
      rw [if_neg (by omega), show ((k : Int) - 149 + 150).toNat = k + 1 by omega]
    · rw [heven, he]
      rfl

end

/-! ### Cutting -/

/-- A magnitude in units of 2^-149 as an operation hands it to be rounded: m × 2^e, and a little more just when `sticky`. -/
structure Holds (v : ℝ) (m : Nat) (e : Int) (sticky : Bool) : Prop where
  lo : (m : ℝ) * 2 ^ (e + 149) ≤ v
  hi : v < (m + 1) * 2 ^ (e + 149)
  sticky : sticky = true ↔ v ≠ m * 2 ^ (e + 149)

theorem bitLen_lo {m : Nat} (hm : m ≠ 0) : 2 ^ (bitLen m - 1) ≤ m ∧ 1 ≤ bitLen m := by
  rw [bitLen, if_neg hm]
  exact ⟨Nat.log2_self_le hm, by omega⟩

theorem bitLen_hi {m : Nat} : m < 2 ^ bitLen m := by
  unfold bitLen
  split
  · simp_all
  · exact Nat.lt_log2_self

section
variable {v : ℝ} {m : Nat} {e : Int} {sticky : Bool} (h : Holds v m e sticky) (hm : m ≠ 0) (hs : sticky = true → e < roundE m e)

theorem quot_small (m : Nat) (e : Int) : quot m e < 2 ^ 24 := by
  have hE : e + bitLen m - 24 ≤ roundE m e := le_max_left ..
  have hl := bitLen_hi (m := m)
  rw [quot, Nat.div_lt_iff_lt_mul (by positivity), scaledM, cut]
  split
  next hlt =>
    rw [show (roundE m e - e).toNat = 0 by omega]
    calc m * 2 ^ (e - roundE m e).toNat < 2 ^ bitLen m * 2 ^ (e - roundE m e).toNat := by gcongr
      _ = 2 ^ (bitLen m + (e - roundE m e).toNat) := (pow_add ..).symm
      _ ≤ 2 ^ (24 + 0) := Nat.pow_le_pow_right (by decide) (by omega)
  next hge =>
    calc m < 2 ^ bitLen m := hl
      _ ≤ 2 ^ (24 + (roundE m e - e).toNat) := Nat.pow_le_pow_right (by decide) (by omega)
      _ = _ := pow_add ..

theorem quot_normal (hm : m ≠ 0) (hE : roundE m e ≠ -149) : 2 ^ 23 ≤ quot m e := by
  have hE' : roundE m e = e + bitLen m - 24 := by
    unfold roundE at hE ⊢
    omega
  obtain ⟨hl, hl1⟩ := bitLen_lo hm
  rw [quot, Nat.le_div_iff_mul_le (by positivity), scaledM, cut]
  split
  next hlt =>
    rw [show (roundE m e - e).toNat = 0 by omega]
    calc 2 ^ 23 * 2 ^ 0 = 2 ^ ((bitLen m - 1) + (e - roundE m e).toNat) := by rw [← pow_add]; congr 1; omega
      _ = 2 ^ (bitLen m - 1) * 2 ^ (e - roundE m e).toNat := pow_add ..
      _ ≤ m * 2 ^ (e - roundE m e).toNat := Nat.mul_le_mul_right _ hl
  next hge =>
    calc 2 ^ 23 * 2 ^ (roundE m e - e).toNat = 2 ^ (bitLen m - 1) := by rw [← pow_add]; congr 1; omega
      _ ≤ m := hl

/-- A number of no place below the quantum is a multiple of it. -/
theorem quot_whole (hc : roundE m e ≤ e) :
    cut m e = 0 ∧ rest m e = 0 ∧ (quot m e : ℝ) * 2 ^ (roundE m e + 149).toNat = m * 2 ^ (e + 149) := by
  have hE : -149 ≤ roundE m e := le_max_right ..
  have hcut : cut m e = 0 := by unfold cut; omega
  have hq : quot m e = m * 2 ^ (e - roundE m e).toNat := by
    rw [quot, hcut, pow_zero, Nat.div_one, scaledM]
    split
    · rfl
    · rw [show e - roundE m e = 0 by omega]; simp
  refine ⟨hcut, by rw [rest, hcut]; exact Nat.mod_one _, ?_⟩
  rw [hq, Nat.cast_mul, Nat.cast_pow, Nat.cast_ofNat, mul_assoc, ← pow_add, ← zpow_natCast]
  congr 2
  omega

/-- A number with places below the quantum, cut there: what is left is less than twice half the quantum. -/
theorem quot_cut (hc : e < roundE m e) : cut m e ≠ 0 ∧ ∃ x, 2 ^ cut m e = 2 * x ∧ m = quot m e * (2 * x) + rest m e ∧
    rest m e < 2 * x ∧ (2 : ℝ) ^ (roundE m e + 149).toNat = 2 * x * 2 ^ (e + 149) := by
  have hE : -149 ≤ roundE m e := le_max_right ..
  have hcut : cut m e ≠ 0 := by unfold cut; omega
  have hx : 2 ^ cut m e = 2 * 2 ^ (cut m e - 1) := by rw [← pow_succ']; congr 1; omega
  refine ⟨hcut, 2 ^ (cut m e - 1), hx, ?_, ?_, ?_⟩
  · rw [quot, rest, show scaledM m e = m from if_neg (by omega), ← hx]
    exact (Nat.div_add_mod' ..).symm
  · rw [rest, ← hx]
    exact Nat.mod_lt _ (by positivity)
  · have hxr : (2 : ℝ) * (2 ^ (cut m e - 1) : Nat) = 2 ^ cut m e := by exact_mod_cast hx.symm
    rw [hxr, ← zpow_natCast, ← zpow_natCast, ← zpow_add₀ (by norm_num), cut]
    congr 1
    omega

/-- A number of the places kept and a little more: it lies beyond half the quantum just where what is left says so. -/
theorem half_compare {q r x m : Nat} {y : ℝ} {sticky : Bool} (hdiv : m = q * (2 * x) + r) (hlo : (m : ℝ) ≤ y) (hhi : y < m + 1)
    (hst : sticky = true ↔ y ≠ m) :
    (x < r ∨ (r = x ∧ (sticky = true ∨ q % 2 = 1))) ↔
      (q + 1 / 2 : ℝ) * (2 * x) < y ∨ (y = (q + 1 / 2) * (2 * x) ∧ q % 2 = 1) := by
  have hm : (m : ℝ) = q * (2 * x) + r := by exact_mod_cast hdiv
  rcases lt_trichotomy r x with hlt | heq | hgt
  · have : (r : ℝ) + 1 ≤ x := by exact_mod_cast hlt
    refine iff_of_false (by omega) ?_
    rintro (k | ⟨k, -⟩) <;> linarith
  · have hmid : ((q : ℝ) + 1 / 2) * (2 * x) = m := by rw [hm, heq]; ring
    rw [hmid, hst, heq]
    rcases hlo.lt_or_eq with k | k
    · simp [k, k.ne']
    · simp [k]
  · have : (x : ℝ) + 1 ≤ r := by exact_mod_cast hgt
    exact iff_of_true (.inl hgt) (.inl (by linarith))

include h hm hs

/-- The quantum and the multiple below of a number handed to `roundF`, and what the comparison with half the quantum tells. -/
theorem quantised : Quantised v (roundE m e + 149).toNat (quot m e) (RoundsUp m e sticky) ∧
    (Inexact m e sticky ↔ v ≠ quot m e * 2 ^ (roundE m e + 149).toNat) := by
  have hn : (roundE m e + 149).toNat = 0 ∨ 2 ^ 23 ≤ quot m e := by
    by_cases h0 : roundE m e = -149
    · exact .inl (by rw [h0]; rfl)
    · exact .inr (quot_normal hm h0)
  obtain ⟨hlo, hhi, hst⟩ := h
  have ht : (0 : ℝ) < 2 ^ (e + 149) := by positivity
  rcases le_or_gt (roundE m e) e with hc | hc
  · obtain ⟨hcut, hrest, hq⟩ := quot_whole hc
    have hf : ¬ sticky = true := fun x => absurd (hs x) (by omega)
    have hv : v = quot m e * 2 ^ (roundE m e + 149).toNat := hq ▸ not_not.1 fun x => hf (hst.2 x)
    have hpos : (0 : ℝ) < 2 ^ (roundE m e + 149).toNat := by positivity
    refine ⟨⟨hv.ge, by linarith, hn, quot_small m e, iff_of_false (fun x => x.1 hcut) ?_⟩, ?_⟩
    · rintro (x | ⟨x, -⟩) <;> linarith
    · exact iff_of_false (fun x => x.elim (· hrest) hf) (not_not_intro hv)
  · obtain ⟨hcut, x, hx, hdiv, hr, hkt⟩ := quot_cut hc
    obtain ⟨y, rfl⟩ : ∃ y, v = y * 2 ^ (e + 149) := ⟨v / 2 ^ (e + 149), (div_mul_cancel₀ _ ht.ne').symm⟩
    have hlo' : (m : ℝ) ≤ y := le_of_mul_le_mul_right hlo ht
    have hhi' : y < m + 1 := lt_of_mul_lt_mul_right hhi ht.le
    have hst' : sticky = true ↔ y ≠ m := by rw [hst, Ne, mul_left_inj' ht.ne']
    have hm' : (m : ℝ) = quot m e * (2 * x) + rest m e := by exact_mod_cast hdiv
    have hr1 : (rest m e : ℝ) + 1 ≤ 2 * x := by exact_mod_cast hr
    rw [hkt, ← mul_assoc]
    refine ⟨⟨?_, ?_, hn, quot_small m e, ?_⟩, ?_⟩
    · rw [hkt, ← mul_assoc]
      exact mul_le_mul_of_nonneg_right (by linarith [Nat.cast_nonneg (α := ℝ) (rest m e)]) ht.le
    · rw [hkt, ← mul_assoc]
      exact mul_lt_mul_of_pos_right (by linarith) ht
    · rw [hkt, ← mul_assoc, mul_lt_mul_iff_left₀ ht, mul_left_inj' ht.ne', RoundsUp, hx, Nat.mul_div_cancel_left x (by decide),
        and_iff_right hcut]
      exact half_compare hdiv hlo' hhi' hst'
    · rw [Ne, mul_left_inj' ht.ne', Inexact, hst']
      rcases Nat.eq_zero_or_pos (rest m e) with h0 | h0
      · have : (m : ℝ) = quot m e * (2 * x) := by rw [hm', h0]; simp
        simp [h0, this]
      · have : (1 : ℝ) ≤ rest m e := by exact_mod_cast h0
        exact iff_of_true (.inl h0.ne') fun k => by linarith

end

/-! ### Flags -/

section
variable {v : ℝ} {m : Nat} {e : Int} {sticky : Bool} (h : Holds v m e sticky) (hm : m ≠ 0)
include h hm

/-- The powers of two a number lies between. -/
theorem Holds.pow_bounds : (2 : ℝ) ^ (e + bitLen m + 148) ≤ v ∧ v < 2 ^ (e + bitLen m + 149) := by
  obtain ⟨hl, hl1⟩ := bitLen_lo hm
  have hl' : (2 : ℝ) ^ (bitLen m - 1) ≤ m := by exact_mod_cast hl
  have hh' : (m : ℝ) + 1 ≤ 2 ^ bitLen m := by exact_mod_cast bitLen_hi (m := m)
  have e1 : (2 : ℝ) ^ (e + bitLen m + 148) = 2 ^ (bitLen m - 1) * 2 ^ (e + 149) := by
    rw [← zpow_natCast, ← zpow_add₀ (by norm_num)]
    congr 1
    omega
  have e2 : (2 : ℝ) ^ (e + bitLen m + 149) = 2 ^ bitLen m * 2 ^ (e + 149) := by
    rw [← zpow_natCast, ← zpow_add₀ (by norm_num)]
    congr 1
    omega
  rw [e1, e2]
  exact ⟨(mul_le_mul_of_nonneg_right hl' (by positivity)).trans h.lo, h.hi.trans_le (mul_le_mul_of_nonneg_right hh' (by positivity))⟩

/-- From 2^-126 on no number is tiny after rounding. -/
theorem tinyRounded_false (hv : 2 ^ 23 ≤ v) : tinyRounded m e sticky = false := by
  have hE : -125 ≤ e + bitLen m := by
    by_contra hE
    have : (2 : ℝ) ^ (e + bitLen m + 149) ≤ 2 ^ (23 : Int) := zpow_le_zpow_right₀ (by norm_num) (by omega)
    exact absurd (hv.trans_lt (h.pow_bounds hm).2) (not_lt.2 (this.trans_eq (by norm_num)))
  simp [tinyRounded, hE]

/-- What rounds to 24 bits below 2^-126 is tiny after rounding. -/
theorem tinyRounded_true (hv : 4 * v < 2 ^ 25 - 1) : tinyRounded m e sticky = true := by
  have hE : ¬ -125 ≤ e + bitLen m := by
    intro hE
    have h1 : (2 : ℝ) ^ (23 : Int) ≤ 2 ^ (e + bitLen m + 148) := zpow_le_zpow_right₀ (by norm_num) (by omega)
    have h2 : (2 : ℝ) ^ 23 ≤ v := by exact_mod_cast h1.trans (h.pow_bounds hm).1
    linarith
  unfold tinyRounded
  simp only [if_neg hE]
  split
  · rfl
  · next hs =>
    simp only [Bool.not_eq_true', decide_eq_false_iff_not, not_and]
    intro hq hr
    exfalso
    obtain ⟨hE', hL⟩ : e + bitLen m = -126 ∧ 24 < bitLen m := by omega
    have hhalf : 2 ^ (bitLen m - 24) = 2 * 2 ^ (bitLen m - 25) := by rw [← pow_succ']; congr 1; omega
    have hm' : (2 ^ 25 - 1) * 2 ^ (bitLen m - 25) ≤ m := by
      have hd := Nat.div_add_mod' m (2 ^ (bitLen m - 24))
      rw [hq] at hd
      rw [hhalf] at hr hd
      omega
    have e1 : (2 : ℝ) ^ (bitLen m - 25) * 2 ^ (e + 149) = 1 / 4 := by
      rw [← zpow_natCast, ← zpow_add₀ (by norm_num), show ((bitLen m - 25 : Nat) : Int) + (e + 149) = -2 by omega]
      norm_num
    have hmr : ((2 : ℝ) ^ 25 - 1) * 2 ^ (bitLen m - 25) ≤ m := by
      have : ((2 ^ 25 - 1 : Nat) : ℝ) * 2 ^ (bitLen m - 25) ≤ m := by exact_mod_cast hm'
      exact le_trans (by norm_num) this
    have : ((2 : ℝ) ^ 25 - 1) * (1 / 4) ≤ v := by
      rw [← e1, ← mul_assoc]
      exact (mul_le_mul_of_nonneg_right hmr (by positivity)).trans h.lo
    linarith

variable (hs : sticky = true → e < roundE m e)
include hs

theorem quot_ge_iff : 2 ^ 23 ≤ quot m e ↔ 2 ^ 23 ≤ v := by
  obtain ⟨⟨hlo, hhi, hn, -, -⟩, -⟩ := quantised h hm hs
  have h1 : (1 : ℝ) ≤ 2 ^ (roundE m e + 149).toNat := one_le_pow₀ (by norm_num)
  constructor <;> intro hv
  · have : (2 : ℝ) ^ 23 ≤ quot m e := by exact_mod_cast hv
    exact this.trans ((le_mul_of_one_le_right (Nat.cast_nonneg _) h1).trans hlo)
  · rcases hn with h0 | hn
    · rw [h0, pow_zero, mul_one] at hhi
      have : (2 : ℝ) ^ 23 < (quot m e + 1 : Nat) := by push_cast; exact hv.trans_lt hhi
      exact Nat.lt_succ_iff.1 (by exact_mod_cast this)
    · exact hn

/-- Both ways of judging tininess agree outside the last half place below 2^-126. -/
theorem tiny_of_lt (hv : 4 * v < 2 ^ 25 - 1) : tiny m e sticky = true := by
  have hq : quot m e < 2 ^ 23 := not_le.1 fun k => by linarith [(quot_ge_iff h hm hs).1 k]
  rw [tiny, tinyRounded_true h hm hv, decide_eq_true hq, ite_self]

theorem tiny_of_ge (hv : 2 ^ 23 ≤ v) : tiny m e sticky = false := by
  have hq : ¬ quot m e < 2 ^ 23 := not_lt.2 ((quot_ge_iff h hm hs).2 hv)
  rw [tiny, tinyRounded_false h hm hv, decide_eq_false hq, ite_self]

end

/-! ### Rounding a magnitude -/

/-- What R125 says of a magnitude in units of 2^-149 rounded to a word. -/
structure RoundsTo (v : ℝ) (neg : Bool) (r fl : Word) : Prop where
  sign : bitOf r 31 = neg
  huge : (2 ^ 25 - 1) * 2 ^ 252 ≤ v → FInf r ∧ fl = 0x140
  fin : v < (2 ^ 25 - 1) * 2 ^ 252 → FFin r
  nearest : v < (2 ^ 25 - 1) * 2 ^ 252 → ∀ w, FFin w → |v - (fUnits r).natAbs| ≤ |v - (fUnits w).natAbs| ∧
    (|v - (fUnits r).natAbs| = |v - (fUnits w).natAbs| → (fUnits w).natAbs = (fUnits r).natAbs ∨ bitOf r 0 = false)
  exact : v < (2 ^ 25 - 1) * 2 ^ 252 → v = (fUnits r).natAbs → fl = 0
  inexact : v < (2 ^ 25 - 1) * 2 ^ 252 → v ≠ (fUnits r).natAbs →
    (fl = 0x100 ∨ fl = 0x180) ∧ (4 * v < 2 ^ 25 - 1 → fl = 0x180) ∧ (2 ^ 23 ≤ v → fl = 0x100)

theorem roundFlags_exact {m : Nat} {e : Int} {sticky : Bool} (hi : ¬ Inexact m e sticky) : roundFlags m e sticky = 0 := by
  rw [roundFlags, if_neg hi, if_neg fun k => hi k.1]
  rfl

theorem roundFlags_inexact {m : Nat} {e : Int} {sticky : Bool} (hi : Inexact m e sticky) :
    roundFlags m e sticky = if tiny m e sticky then 0x180 else 0x100 := by
  rw [roundFlags, if_pos hi]
  cases tiny m e sticky
  · rw [if_neg fun k => absurd k.2 Bool.false_ne_true]; rfl
  · rw [if_pos ⟨hi, rfl⟩]; rfl

/-- A multiple of the quantum as a word is a rounding of the value, once its flags are. -/
theorem Quantised.roundsTo {v : ℝ} {k q : Nat} {up : Prop} [Decidable up] {neg : Bool} {fl : Word} (h : Quantised v k q up)
    (hex : v = q * 2 ^ k → fl = 0)
    (hin : v ≠ q * 2 ^ k → (fl = 0x100 ∨ fl = 0x180) ∧ (4 * v < 2 ^ 25 - 1 → fl = 0x180) ∧ (2 ^ 23 ≤ v → fl = 0x100)) :
    RoundsTo v neg (roundedWord neg (roundedTo q up) (k - 149) fl).1
      (roundedWord neg (roundedTo q up) (k - 149) fl).2 := by
  have hsmall : roundedTo q up ≤ 2 ^ 24 := (roundedTo_le q up).trans h.small
  have hnorm : k = 0 ∨ 2 ^ 23 ≤ roundedTo q up := h.normal.imp_right fun hq => hq.trans (le_roundedTo q up)
  have hexact : v = (roundedTo q up * 2 ^ k : Nat) ↔ v = q * 2 ^ k := by
    have ht : (0 : ℝ) < 2 ^ k := by positivity
    unfold roundedTo
    split
    next hu =>
      refine iff_of_false (fun x => ?_) fun x => ?_
      · push_cast at x
        exact absurd x h.hi.ne
      · rcases h.up.1 hu with y | ⟨y, -⟩ <;> linarith
    next => push_cast; rfl
  rcases lt_or_ge v ((2 ^ 25 - 1) * 2 ^ 252) with hv | hv
  · obtain ⟨w, hw, hfin, hsign, habs, heven⟩ := roundedWord_finite (neg := neg) (fl := fl) hnorm hsmall
      (not_le.1 fun x => absurd (h.overflow.2 x) (not_le.2 hv))
    rw [hw]
    rw [← habs] at hexact
    refine ⟨hsign, fun x => absurd hv (not_lt.2 x), fun _ => hfin, fun _ w hw => ?_, fun _ x => ?_, fun _ x => ?_⟩
    · rw [habs]
      obtain ⟨hle, htie⟩ := h.nearest (fUnits_gap w h.normal)
      exact ⟨hle, fun x => (htie x).imp_right heven⟩
    · exact hex (hexact.1 x)
    · exact hin fun y => x (hexact.2 y)
  · have hw : roundedWord neg (roundedTo q up) (k - 149) fl = (infWord neg, fsOf ||| fsNx) :=
      roundedWord_over hnorm hsmall (h.overflow.1 hv)
    obtain ⟨hinf, hsign⟩ := infWord_inf neg
    rw [hw]
    exact ⟨hsign, fun _ => ⟨hinf, rfl⟩, fun x => absurd hv (not_le.2 x), fun x => absurd hv (not_le.2 x),
      fun x => absurd hv (not_le.2 x), fun x => absurd hv (not_le.2 x)⟩

/-- `roundF` rounds the value it is handed. -/
theorem roundF_rounds {v : ℝ} {neg : Bool} {m : Nat} {e : Int} {sticky : Bool} (h : Holds v m e sticky) (hm : m ≠ 0)
    (hs : sticky = true → e < roundE m e) : RoundsTo v neg (roundF neg m e sticky).1 (roundF neg m e sticky).2 := by
  obtain ⟨hq, hi⟩ := quantised h hm hs
  have hE : roundE m e = ((roundE m e + 149).toNat : Int) - 149 := by
    have : -149 ≤ roundE m e := le_max_right ..
    omega
  rw [roundF_eq hm, hE]
  refine hq.roundsTo (fun x => roundFlags_exact fun y => hi.1 y x) fun x => ?_
  rw [roundFlags_inexact (hi.2 x)]
  refine ⟨by split <;> simp, fun hv => ?_, fun hv => ?_⟩
  · rw [tiny_of_lt h hm hs hv, if_pos rfl]
  · rw [tiny_of_ge h hm hs hv]
    rfl

theorem zeroWord_zero (neg : Bool) : FFin (zeroWord neg) ∧ bitOf (zeroWord neg) 31 = neg ∧ fUnits (zeroWord neg) = 0 := by
  unfold FFin
  cases neg <;> decide

/-- Zero is exact. -/
theorem zeroWord_rounds (neg : Bool) : RoundsTo 0 neg (zeroWord neg) 0 := by
  obtain ⟨hfin, hsign, h0⟩ := zeroWord_zero neg
  refine ⟨hsign, fun x => absurd x (by norm_num), fun _ => hfin, fun _ w _ => ?_, fun _ _ => rfl, fun _ x => absurd (by simp [h0]) x⟩
  rw [h0]
  refine ⟨by simp, fun x => .inl ?_⟩
  simpa using x.symm

/-! ### The exact value as a signed fraction -/

theorem sInt_mul (neg : Bool) (x y : Nat) : sInt neg x * y = sInt neg (x * y) := by
  cases neg <;> simp [sInt]

/-- Numbers of one sign are as far apart as their magnitudes. -/
theorem sInt_dist (neg : Bool) (x y : Nat) : ((sInt neg x - sInt neg y).natAbs : ℝ) = |(x : ℝ) - y| := by
  have : (sInt neg x - sInt neg y).natAbs = ((x : Int) - y).natAbs := by
    rw [sInt_eq, sInt_eq]
    cases neg <;> simp only [Bool.false_eq_true, if_false, if_true] <;> omega
  rw [this, Nat.cast_natAbs]
  push_cast
  rfl

/-- Numbers are at least as far apart as their magnitudes. -/
theorem natAbs_dist (x y : Int) : |(x.natAbs : ℝ) - y.natAbs| ≤ ((x - y).natAbs : ℝ) := by
  simp only [Nat.cast_natAbs]
  push_cast
  exact abs_abs_sub_abs_le ..

section
variable {n : Int} {d : Nat} {neg : Bool} {r fl : Word} (hd : 0 < d)
include hd

theorem fraction_scale (n m : Nat) : |(n : ℝ) - (m * d : Nat)| = |n / d - (m : ℝ)| * d := by
  have hdr : (0 : ℝ) < d := by exact_mod_cast hd
  rw [← abs_of_pos hdr, ← abs_mul, abs_of_pos hdr, sub_mul, div_mul_cancel₀ _ hdr.ne']
  push_cast
  rfl

/-- A fraction's distance from a word of its own sign. -/
theorem fraction_dist (hn : n = sInt neg n.natAbs) (hr : bitOf r 31 = neg) :
    ((n - fUnits r * d).natAbs : ℝ) = |n.natAbs / d - ((fUnits r).natAbs : ℝ)| * d := by
  rw [← fraction_scale hd, fUnits_sign, hr, sInt_mul, hn, sInt_dist, sInt_natAbs, sInt_natAbs]

/-- Its distance from any other is at least that of the magnitudes. -/
theorem fraction_dist_le (n : Int) (w : Word) :
    |n.natAbs / d - ((fUnits w).natAbs : ℝ)| * d ≤ ((n - fUnits w * d).natAbs : ℝ) := by
  have := natAbs_dist n (fUnits w * d)
  rwa [Int.natAbs_mul, Int.natAbs_natCast, fraction_scale hd] at this

/-- Words of one magnitude as near as each other are equal, where none lies nearer than the first. -/
theorem same_of_tie {w : Word} (hr : |n.natAbs / d - ((fUnits r).natAbs : ℝ)| ≤ |n.natAbs / d - (0 : ℝ)|)
    (hm : (fUnits w).natAbs = (fUnits r).natAbs) (he : (n - fUnits r * d).natAbs = (n - fUnits w * d).natAbs) :
    fUnits w = fUnits r := by
  rcases Int.natAbs_eq_natAbs_iff.1 hm with hw | hw
  · exact hw
  · have h0 : fUnits r = 0 := by
      by_contra h0
      have hrd : fUnits r * d ≠ 0 := mul_ne_zero h0 (by omega)
      rw [hw, neg_mul] at he
      have hn0 : n = 0 := by omega
      rw [hn0] at hr
      simp only [Int.natAbs_zero, Nat.cast_zero, zero_div, zero_sub, abs_neg, Nat.abs_cast, neg_zero, abs_zero] at hr
      have h0' : (fUnits r).natAbs ≤ 0 := by exact_mod_cast hr
      omega
    rw [hw, h0, neg_zero]

/-- A magnitude rounded is the signed number rounded, when the sign is the number's own. -/
theorem RoundsTo.rounded (hn : n = sInt neg n.natAbs) (h : RoundsTo (n.natAbs / d) neg r fl) : Rounded n d neg r fl := by
  obtain ⟨hsign, hhuge, hfin, hnear, hexact, hinexact⟩ := h
  have hdr : (0 : ℝ) < d := by exact_mod_cast hd
  have hdist := fraction_dist hd hn hsign
  have hval : n = fUnits r * d ↔ (n.natAbs / d : ℝ) = (fUnits r).natAbs := by
    rw [← sub_eq_zero, ← Int.natAbs_eq_zero, ← Nat.cast_eq_zero (R := ℝ), hdist, mul_eq_zero, abs_eq_zero, sub_eq_zero]
    exact or_iff_left hdr.ne'
  have hlt (c : Nat) : n.natAbs < c * d ↔ (n.natAbs / d : ℝ) < c := by rw [div_lt_iff₀ hdr]; exact_mod_cast Iff.rfl
  have hle (c : Nat) : c * d ≤ n.natAbs ↔ (c : ℝ) ≤ n.natAbs / d := by rw [le_div_iff₀ hdr]; exact_mod_cast Iff.rfl
  have hfour : 4 * n.natAbs < (2 ^ 25 - 1) * d ↔ 4 * (n.natAbs / d : ℝ) < 2 ^ 25 - 1 := by
    rw [← mul_div_assoc, div_lt_iff₀ hdr, show ((2 : ℝ) ^ 25 - 1) = (2 ^ 25 - 1 : Nat) by norm_num]
    exact_mod_cast Iff.rfl
  have hc : (((2 ^ 25 - 1) * 2 ^ 252 : Nat) : ℝ) = (2 ^ 25 - 1) * 2 ^ 252 := by norm_num
  refine ⟨hsign, fun x => hhuge (hc ▸ (hle _).1 x), fun x => ?_⟩
  have hv : (n.natAbs / d : ℝ) < (2 ^ 25 - 1) * 2 ^ 252 := hc ▸ (hlt _).1 x
  refine ⟨hfin hv, fun w hw => ?_, fun y => hexact hv (hval.1 y), fun y => ?_⟩
  · obtain ⟨hle, htie⟩ := hnear hv w hw
    have hd1 := mul_le_mul_of_nonneg_right hle hdr.le
    have hd2 := fraction_dist_le hd n w
    rw [← hdist] at hd1
    refine ⟨by exact_mod_cast hd1.trans hd2, fun he => ?_⟩
    have he' : ((n - fUnits r * d).natAbs : ℝ) = (n - fUnits w * d).natAbs := by exact_mod_cast he
    have heq := le_antisymm hd1 (hd2.trans he'.ge)
    rw [hdist] at heq
    have hz := (hnear hv _ (zeroWord_zero false).1).1
    rw [(zeroWord_zero false).2.2] at hz
    exact (htie (mul_right_cancel₀ hdr.ne' heq)).imp_left fun hm => same_of_tie hd (by simpa using hz) hm he
  · obtain ⟨hfl, hsub, hnormal⟩ := hinexact hv fun z => y (hval.2 z)
    exact ⟨hfl, fun z => hsub (hfour.1 z), fun z => hnormal (by exact_mod_cast (hle _).1 z)⟩

end

end Sys2Proof.Machine
end

section
/-! PROOFS: what each FP32 function answers (O6). -/

namespace Sys2Proof.Machine

/-! ## The operations on finite words -/

theorem sInt_xor (s t : Bool) (x y : Nat) : sInt (s ^^ t) (x * y) = sInt s x * sInt t y := by
  cases s <;> cases t <;> simp [sInt]

theorem Holds.exact (m : Nat) (e : Int) : Holds (m * 2 ^ (e + 149)) m e false :=
  ⟨le_rfl, mul_lt_mul_of_pos_right (lt_add_one _) (by positivity), by simp⟩

/-- An exact magnitude rounded is its fraction rounded. -/
theorem roundF_exact {n : Int} {d m : Nat} {neg : Bool} {e : Int} (hd : 0 < d) (hn : n = sInt neg n.natAbs)
    (hv : (n.natAbs : ℝ) = m * 2 ^ (e + 149) * d) :
    Rounded n d neg (if m = 0 then (zeroWord neg, 0) else roundF neg m e false).1
      (if m = 0 then (zeroWord neg, 0) else roundF neg m e false).2 := by
  have hd' : (d : ℝ) ≠ 0 := by exact_mod_cast hd.ne'
  have hx : (n.natAbs / d : ℝ) = m * 2 ^ (e + 149) := by rw [hv, mul_div_cancel_right₀ _ hd']
  refine RoundsTo.rounded hd hn ?_
  rw [hx]
  split
  · next h0 =>
    rw [h0, Nat.cast_zero, zero_mul]
    exact zeroWord_rounds neg
  · next h0 => exact roundF_rounds (Holds.exact m e) h0 (by simp)

/-- The sign of a sum: its own, and of a zero the one given. -/
def sumSign (n : Int) (zeroNeg : Bool) : Bool := decide (n < 0) || (zeroNeg && n == 0)

theorem sumSign_zero (z : Bool) : sumSign 0 z = z := Bool.and_true z

theorem sumSign_of_ne {n : Int} (h : n ≠ 0) (z : Bool) : sumSign n z = decide (n < 0) := by
  rw [sumSign, beq_false_of_ne h, Bool.and_false, Bool.or_false]

theorem sInt_sumSign (n : Int) (z : Bool) : n = sInt (sumSign n z) n.natAbs := by
  by_cases h : n = 0
  · rw [h, sumSign_zero]; cases z <;> rfl
  · rw [sumSign_of_ne h, sInt]
    simp only [decide_eq_true_eq]
    split <;> omega

theorem roundS_eq (x e : Int) (z : Bool) :
    roundS x e z = if x.natAbs = 0 then (zeroWord (sumSign x z), 0) else roundF (sumSign x z) x.natAbs e false := by
  unfold roundS
  by_cases h : x = 0
  · rw [if_pos h, if_pos (by omega), h, sumSign_zero]
  · rw [if_neg h, if_neg (by omega), sumSign_of_ne h]

/-- A signed exact number rounded is its fraction rounded. -/
theorem roundS_exact {n x e : Int} {d : Nat} {z : Bool} (hd : 0 < d) (hv : (n : ℝ) = x * 2 ^ (e + 149) * d) :
    Rounded n d (sumSign n z) (roundS x e z).1 (roundS x e z).2 := by
  have hpos : (0 : ℝ) < 2 ^ (e + 149) * d := by positivity
  rw [mul_assoc] at hv
  have hlt : n < 0 ↔ x < 0 := by
    rw [← Int.cast_lt_zero (R := ℝ), hv, ← Int.cast_lt_zero (R := ℝ) (n := x),
      ← mul_lt_mul_iff_left₀ hpos (b := (x : ℝ)), zero_mul]
  have hz : n = 0 ↔ x = 0 := by
    rw [← Int.cast_eq_zero (α := ℝ), hv, mul_eq_zero, or_iff_left hpos.ne', Int.cast_eq_zero]
  have hs : sumSign n z = sumSign x z := by
    rw [sumSign, sumSign, decide_eq_decide.2 hlt, Bool.eq_iff_iff.2 (by simpa using hz : (n == 0) = true ↔ (x == 0) = true)]
  rw [roundS_eq, ← hs]
  refine roundF_exact hd (sInt_sumSign n z) ?_
  simp only [Nat.cast_natAbs]
  push_cast
  rw [hv, abs_mul, abs_of_pos hpos, mul_assoc]

/-! ### NaN operands -/

theorem nanAns_answer (l : List Word) : NanAnswer l (nanAns (l.map unpack)).1 (nanAns (l.map unpack)).2 := by
  have h : (l.map unpack).any isSnan = true ↔ ∃ x ∈ l, FSig x := by simp [isSnan_unpack]
  refine ⟨rfl, fun k => if_pos (h.2 k), fun k => if_neg fun j => ?_⟩
  obtain ⟨x, hx, hs⟩ := h.1 j
  exact k x hx hs

theorem nanAns_answer₂ (a b : Word) : NanAnswer [a, b] (nanAns [unpack a, unpack b]).1 (nanAns [unpack a, unpack b]).2 :=
  nanAns_answer [a, b]

/-! ### FADD and FSUB -/

/-- A whole number of a place is one of every place below it. -/
theorem zpow_scaled {e lo : Int} (h : lo ≤ e) : (2 : ℝ) ^ (e - lo).toNat * 2 ^ (lo + 149) = 2 ^ (e + 149) := by
  rw [← zpow_natCast, ← zpow_add₀ (by norm_num)]
  congr 1
  omega

theorem fUnits_real (w : Word) : (fUnits w : ℝ) = sInt (bitOf w 31) (mantissa w) * 2 ^ ((exponent w : Int) - 149 + 149) := by
  rw [fUnits_eq, sInt_eq, sInt_eq, sub_add_cancel, zpow_natCast]
  push_cast
  ring

theorem inf_inj {a b : Word} (ha : FInf a) (hb : FInf b) : a = b ↔ bitOf a 31 = bitOf b 31 :=
  ⟨congrArg (bitOf · 31), fun h => by rw [inf_eq_infWord ha, inf_eq_infWord hb, h]⟩

theorem fadd_nan {a b : Word} (h : FNan a ∨ FNan b) : fadd a b = nanAns [unpack a, unpack b] :=
  if_pos (by simpa only [Bool.or_eq_true, isNan_unpack] using h)

theorem fadd_sum (a b : Word) : FpSum a b (fadd a b).1 (fadd a b).2 := by
  refine ⟨fun h => ?_, fun ha hb => ?_, fun ha hb => ?_, fun ha hb => ?_, fun ha hb => ?_⟩
  · rw [fadd_nan h]
    exact nanAns_answer₂ a b
  · simp only [fadd, fpAdd, unpack_inf ha, unpack_inf hb, isNan, Bool.or_self, Bool.false_eq_true, if_false]
    exact ⟨fun h => by rw [if_pos ((inf_inj ha hb).1 h), ← inf_eq_infWord ha]; exact ⟨rfl, rfl⟩,
      fun h => by rw [if_neg fun k => h ((inf_inj ha hb).2 k)]; exact ⟨rfl, rfl⟩⟩
  · rw [fadd, unpack_inf ha, unpack_fin hb]
    exact ⟨(inf_eq_infWord ha).symm, rfl⟩
  · rw [fadd, unpack_fin ha, unpack_inf hb]
    exact ⟨(inf_eq_infWord hb).symm, rfl⟩
  · rw [fadd, unpack_fin ha, unpack_fin hb]
    refine roundS_exact Nat.one_pos ?_
    push_cast
    rw [fUnits_real a, fUnits_real b, ← zpow_scaled (min_le_left ((exponent a : Int) - 149) (exponent b - 149)),
      ← zpow_scaled (min_le_right ((exponent a : Int) - 149) (exponent b - 149))]
    ring

/-- Turning the sign leaves every field below it. -/
theorem fld_flipSign (w : Word) {hi lo : Nat} (h : hi < 31) (hl : lo ≤ hi) : fld (flipSign w) hi lo = fld w hi lo := by
  refine Nat.eq_of_testBit_eq fun i => ?_
  simp only [fld, flipSign, Nat.testBit_mod_two_pow, Nat.testBit_shiftRight, BitVec.toNat_xor, Nat.testBit_xor]
  by_cases hi' : i < hi - lo + 1
  · rw [show (0x80000000 : Word).toNat = 2 ^ 31 from rfl, Nat.testBit_two_pow_of_ne (by omega), Bool.xor_false]
  · simp [hi']

theorem bitOf_flipSign (w : Word) : bitOf (flipSign w) 22 = bitOf w 22 ∧ bitOf (flipSign w) 31 = !bitOf w 31 := by
  simp [bitOf, flipSign]

/-- The sign says nothing of a NaN. -/
theorem unpack_flipSign {w : Word} (h : FNan w) : unpack (flipSign w) = unpack w := by
  rw [unpack_nan h, ← (bitOf_flipSign w).1]
  refine unpack_nan ⟨?_, ?_⟩
  · rw [fld_flipSign w (by decide) (by decide)]; exact h.1
  · rw [fld_flipSign w (by decide) (by decide)]; exact h.2

theorem fsub_difference (a b : Word) : FpDifference a b (fsub a b).1 (fsub a b).2 := by
  have h : fsub a b = fadd a (flipSign b) := by
    unfold fsub
    split
    next hb =>
      rw [isNan_unpack] at hb
      rw [← unpack_flipSign hb, fadd_nan (.inr (isNan_unpack.1 (by rw [unpack_flipSign hb]; exact isNan_unpack.2 hb)))]
    · rfl
  rw [h]
  exact fadd_sum a (flipSign b)

/-! ### FMUL and FDIV -/

theorem exponent_real (w : Word) : (2 : ℝ) ^ ((exponent w : Int) - 149) * 2 ^ 149 = 2 ^ exponent w := by
  rw [← zpow_natCast, ← zpow_natCast, ← zpow_add₀ (by norm_num)]
  congr 1
  omega

theorem mantissa_succ {w : Word} (h : fUnits w ≠ 0) : ∃ m, mantissa w = m + 1 :=
  Nat.exists_eq_succ_of_ne_zero fun k => h (fUnits_eq_zero.2 k)

theorem infWord_product (s t : Bool) : FInf (infWord (s != t)) ∧ bitOf (infWord (s != t)) 31 = (s ^^ t) ∧ (0 : Word) = 0 := by
  obtain ⟨hi, hs⟩ := infWord_inf (s != t)
  exact ⟨hi, by rw [hs, Bool.bne_eq_xor], rfl⟩

theorem fmul_nan {a b : Word} (h : FNan a ∨ FNan b) : fmul a b = nanAns [unpack a, unpack b] :=
  if_pos (by simpa only [Bool.or_eq_true, isNan_unpack] using h)

theorem fmul_product (a b : Word) : FpProduct a b (fmul a b).1 (fmul a b).2 := by
  refine ⟨fun h => ?_, ?_, ?_, fun ha hb => ?_⟩
  · rw [fmul_nan h]
    exact nanAns_answer₂ a b
  · rintro (⟨ha, hb, h0⟩ | ⟨ha, h0, hb⟩)
    · rw [fmul, unpack_inf ha, unpack_fin hb, fUnits_eq_zero.1 h0]
      exact ⟨rfl, rfl⟩
    · rw [fmul, unpack_fin ha, unpack_inf hb, fUnits_eq_zero.1 h0]
      exact ⟨rfl, rfl⟩
  · rintro (⟨ha, hb | ⟨hb, h0⟩⟩ | ⟨ha, h0, hb⟩)
    · rw [fmul, unpack_inf ha, unpack_inf hb]
      exact infWord_product _ _
    · obtain ⟨m, hm⟩ := mantissa_succ h0
      rw [fmul, unpack_inf ha, unpack_fin hb, hm]
      exact infWord_product _ _
    · obtain ⟨m, hm⟩ := mantissa_succ h0
      rw [fmul, unpack_fin ha, unpack_inf hb, hm]
      exact infWord_product _ _
  · rw [fmul, unpack_fin ha, unpack_fin hb, ← Bool.bne_eq_xor]
    refine roundF_exact (by positivity) ?_ ?_
    · rw [Int.natAbs_mul, Bool.bne_eq_xor, sInt_xor, ← fUnits_sign, ← fUnits_sign]
    · rw [Int.natAbs_mul, fUnits_natAbs, fUnits_natAbs]
      push_cast
      rw [← exponent_real a, ← exponent_real b, show (exponent a : Int) - 149 + (exponent b - 149) + 149 =
        (exponent a : Int) - 149 + (exponent b - 149) + (149 : Nat) from rfl, zpow_add₀ (by norm_num), zpow_add₀ (by norm_num),
        zpow_natCast]
      ring

/-- A quotient's whole and its remainder hold it. -/
theorem Holds.div (n : Nat) {j : Nat} (hj : 0 < j) (e : Int) : Holds (n / j * 2 ^ (e + 149)) (n / j) e (decide (n % j ≠ 0)) := by
  have hjr : (0 : ℝ) < j := by exact_mod_cast hj
  have hmod : (n : ℝ) = j * (n / j : Nat) + (n % j : Nat) := by exact_mod_cast (Nat.div_add_mod n j).symm
  have hd : (n : ℝ) / j = (n / j : Nat) + (n % j : Nat) / j := by
    rw [div_eq_iff hjr.ne', add_mul, div_mul_cancel₀ _ hjr.ne', mul_comm _ (j : ℝ)]
    exact hmod
  have hr : ((n % j : Nat) : ℝ) / j < 1 := (div_lt_one hjr).2 (by exact_mod_cast Nat.mod_lt n hj)
  have ht : (0 : ℝ) < 2 ^ (e + 149) := by positivity
  rw [hd]
  refine ⟨?_, ?_, ?_⟩
  · exact mul_le_mul_of_nonneg_right (le_add_of_nonneg_right (by positivity)) ht.le
  · exact mul_lt_mul_of_pos_right (by linarith) ht
  · refine decide_eq_true_iff.trans (not_congr ?_)
    rw [mul_left_inj' ht.ne', add_eq_left, div_eq_zero_iff, or_iff_left hjr.ne', Nat.cast_eq_zero]

theorem lt_roundE {m : Nat} {e : Int} (h : 2 ^ 24 ≤ m) : e < roundE m e := by
  have hl : 24 < bitLen m := (Nat.pow_lt_pow_iff_right (by decide)).1 (h.trans_lt (bitLen_hi (m := m)))
  have : e + bitLen m - 24 ≤ roundE m e := le_max_left ..
  omega

theorem sInt_sign (neg : Bool) {y : Nat} (h : 0 < y) : (sInt neg y).sign = sInt neg 1 := by
  cases neg
  · exact Int.sign_eq_one_of_pos (Int.natCast_pos.2 h)
  · exact Int.sign_eq_neg_one_of_neg (Int.neg_neg_of_pos (Int.natCast_pos.2 h))

/-- The exact quotient as a signed number over the divisor's magnitude. -/
theorem quotient_eq {x y : Int} {s t : Bool} (hx : x = sInt s x.natAbs) (hy : y = sInt t y.natAbs) (h0 : y ≠ 0) :
    x * 2 ^ 149 * y.sign = sInt (s ^^ t) (x.natAbs * 2 ^ 149) := by
  have hs : y.sign = sInt t 1 := by
    rw [hy]
    exact sInt_sign t (Int.natAbs_pos.2 h0)
  calc x * 2 ^ 149 * y.sign = sInt s x.natAbs * (2 ^ 149 : Nat) * sInt t 1 := by rw [hs, ← hx]; rfl
    _ = sInt s (x.natAbs * 2 ^ 149) * sInt t 1 := by rw [sInt_mul]
    _ = sInt (s ^^ t) (x.natAbs * 2 ^ 149) := by rw [← sInt_xor, mul_one]

theorem fdiv_nan {a b : Word} (h : FNan a ∨ FNan b) : fdiv a b = nanAns [unpack a, unpack b] :=
  if_pos (by simpa only [Bool.or_eq_true, isNan_unpack] using h)

theorem fdiv_quotient (a b : Word) : FpQuotient a b (fdiv a b).1 (fdiv a b).2 := by
  refine ⟨fun h => ?_, ?_, fun ha hb => ?_, fun ha hb => ?_, fun ha hz hb h0 => ?_, fun ha hb h0 => ?_⟩
  · rw [fdiv_nan h]
    exact nanAns_answer₂ a b
  · rintro (⟨ha, hb⟩ | ⟨ha, hz, hb, h0⟩)
    · rw [fdiv, unpack_inf ha, unpack_inf hb]
      exact ⟨rfl, rfl⟩
    · rw [fdiv, unpack_fin ha, unpack_fin hb, fUnits_eq_zero.1 h0, fUnits_eq_zero.1 hz]
      exact ⟨rfl, rfl⟩
  · rw [fdiv, unpack_inf ha, unpack_fin hb]
    exact infWord_product _ _
  · rw [fdiv, unpack_fin ha, unpack_inf hb]
    obtain ⟨hf, hs, hz⟩ := zeroWord_zero (bitOf a 31 != bitOf b 31)
    exact ⟨hz, hf, hs.trans (congrFun (congrFun Bool.bne_eq_xor _) _), rfl⟩
  · obtain ⟨m, hm⟩ := mantissa_succ hz
    rw [fdiv, unpack_fin ha, unpack_fin hb, fUnits_eq_zero.1 h0, hm]
    obtain ⟨hi, hs, -⟩ := infWord_product (bitOf a 31) (bitOf b 31)
    exact ⟨hi, hs, rfl⟩
  · have hj : 0 < mantissa b := Nat.pos_of_ne_zero fun k => h0 (fUnits_eq_zero.2 k)
    have hn := quotient_eq (fUnits_sign a) (fUnits_sign b) h0
    rw [fdiv, unpack_fin ha, unpack_fin hb, hn, ← Bool.bne_eq_xor]
    refine RoundsTo.rounded (Int.natAbs_pos.2 h0) (by rw [sInt_natAbs]) ?_
    have hjr : (0 : ℝ) < mantissa b := by exact_mod_cast hj
    have hv : ((sInt (bitOf a 31 != bitOf b 31) ((fUnits a).natAbs * 2 ^ 149)).natAbs / (fUnits b).natAbs : ℝ) =
        (mantissa a * 2 ^ 60 : Nat) / mantissa b * 2 ^ ((exponent a : Int) - 149 - 60 - (exponent b - 149) + 149) := by
      rw [sInt_natAbs, fUnits_natAbs, fUnits_natAbs, show (exponent a : Int) - 149 - 60 - (exponent b - 149) + 149 =
        (exponent a : Int) + (149 : Nat) - (exponent b + (60 : Nat)) by push_cast; ring, zpow_sub₀ (by norm_num),
        zpow_add₀ (by norm_num), zpow_add₀ (by norm_num)]
      simp only [zpow_natCast]
      push_cast
      field_simp
      ring
    rw [hv]
    simp only [isNan, Bool.or_self, Bool.false_eq_true, if_false, if_neg hj.ne', fpNeg]
    by_cases hz : mantissa a = 0
    · simp only [hz, if_true, Nat.cast_zero, zero_div, zero_mul]
      exact zeroWord_rounds _
    · have hbig : 2 ^ 36 ≤ mantissa a * 2 ^ 60 / mantissa b := by
        rw [Nat.le_div_iff_mul_le hj]
        have := mantissa_lt b
        omega
      rw [if_neg hz]
      exact roundF_rounds (Holds.div _ hj _) (by omega) fun _ => lt_roundE (le_trans (by norm_num) hbig)

/-! ### FMAC -/

section
variable {a b c : Word}

/-- A product of infinity and zero is invalid whatever is added. -/
theorem fmac_bad (h : FInf a ∧ FFin b ∧ fUnits b = 0 ∨ FFin a ∧ fUnits a = 0 ∧ FInf b) : fmac a b c = invalid := by
  rcases h with ⟨ha, hb, h0⟩ | ⟨ha, h0, hb⟩
  · rw [fmac, unpack_inf ha, unpack_fin hb, fUnits_eq_zero.1 h0]
    rfl
  · rw [fmac, unpack_fin ha, unpack_inf hb, fUnits_eq_zero.1 h0]
    rfl

theorem fmac_nan_factor (h : FNan a ∨ FNan b) : fmac a b c = nanAns [unpack a, unpack b, unpack c] := by
  rcases h with h | h
  · rw [fmac, unpack_nan h]
    rfl
  · rw [fmac, unpack_nan h]
    match unpack a with
    | .nan _ | .inf _ | .fin _ 0 _ | .fin _ (_ + 1) _ => rfl

/-- The product of an infinity and a number that is not zero. -/
abbrev InfProduct (a b : Word) : Prop := FInf a ∧ (FInf b ∨ FFin b ∧ fUnits b ≠ 0) ∨ FFin a ∧ fUnits a ≠ 0 ∧ FInf b

theorem fmac_inf (h : InfProduct a b) : fmac a b c =
    match unpack c with
    | .nan s => nanAns [unpack a, unpack b, .nan s]
    | .inf k => if k = (bitOf a 31 != bitOf b 31) then (infWord k, 0) else invalid
    | .fin _ _ _ => (infWord (bitOf a 31 != bitOf b 31), 0) := by
  rcases h with ⟨ha, hb | ⟨hb, h0⟩⟩ | ⟨ha, h0, hb⟩
  · rw [fmac, unpack_inf ha, unpack_inf hb]
    cases unpack c <;> rfl
  · obtain ⟨m, hm⟩ := mantissa_succ h0
    rw [fmac, unpack_inf ha, unpack_fin hb, hm]
    cases unpack c <;> rfl
  · obtain ⟨m, hm⟩ := mantissa_succ h0
    rw [fmac, unpack_fin ha, unpack_inf hb, hm]
    cases unpack c <;> rfl

theorem fmac_fin (ha : FFin a) (hb : FFin b) : fmac a b c =
    match unpack c with
    | .nan s => nanAns [unpack a, unpack b, .nan s]
    | .inf k => (infWord k, 0)
    | .fin k i g =>
      let pe := (exponent a : Int) - 149 + (exponent b - 149)
      roundS (sInt (bitOf a 31 != bitOf b 31) (mantissa a * mantissa b) * 2 ^ (pe - min pe g).toNat + sInt k i * 2 ^ (g - min pe g).toNat)
        (min pe g) ((bitOf a 31 != bitOf b 31) && k) := by
  rw [fmac, unpack_fin ha, unpack_fin hb]
  generalize mantissa a = m
  cases unpack c <;> cases m <;> rfl

theorem nanAns_last (ha : ¬ FNan a) (hb : ¬ FNan b) (c : Word) : nanAns [unpack a, unpack b, unpack c] = nanAns [unpack c] := by
  have hs {w : Word} (h : ¬ FNan w) : isSnan (unpack w) = false := by
    rw [← Bool.not_eq_true, isSnan_unpack]
    exact fun k => h k.1
  simp [nanAns, hs ha, hs hb]

theorem fmac_nan_addend (h : InfProduct a b ∨ FFin a ∧ FFin b) (hc : FNan c) : fmac a b c = nanAns [unpack c] := by
  have hab : ¬ FNan a ∧ ¬ FNan b := by
    rcases h with (⟨ha, hb | ⟨hb, -⟩⟩ | ⟨ha, -, hb⟩) | ⟨ha, hb⟩
    · exact ⟨not_nan_of_inf ha, not_nan_of_inf hb⟩
    · exact ⟨not_nan_of_inf ha, not_nan_of_fin hb⟩
    · exact ⟨not_nan_of_fin ha, not_nan_of_inf hb⟩
    · exact ⟨not_nan_of_fin ha, not_nan_of_fin hb⟩
  rw [← nanAns_last hab.1 hab.2]
  rcases h with h | ⟨ha, hb⟩
  · rw [fmac_inf h, unpack_nan hc]
  · rw [fmac_fin ha hb, unpack_nan hc]

theorem fmac_fused (a b c : Word) : FpFused a b c (fmac a b c).1 (fmac a b c).2 := by
  refine ⟨fun h => ?_, fun h => ?_, fun h hc => ?_, fun h hc => ?_, fun h hc => ?_, fun ha hb hc => ?_, fun ha hb hc => ?_⟩
  · rw [fmac_bad h]
    exact ⟨rfl, fun _ => rfl⟩
  · rw [fmac_nan_factor h]
    exact nanAns_answer [a, b, c]
  · rw [fmac_nan_addend h hc]
    exact nanAns_answer [c]
  · rw [fmac_inf h, unpack_inf hc, ← Bool.bne_eq_xor]
    dsimp only
    exact ⟨fun k => by rw [if_pos k, ← inf_eq_infWord hc]; exact ⟨rfl, rfl⟩, fun k => by rw [if_neg k]; exact ⟨rfl, rfl⟩⟩
  · rw [fmac_inf h, unpack_fin hc]
    exact infWord_product _ _
  · rw [fmac_fin ha hb, unpack_inf hc]
    exact ⟨(inf_eq_infWord hc).symm, rfl⟩
  · rw [fmac_fin ha hb, unpack_fin hc, ← Bool.bne_eq_xor]
    refine roundS_exact (by positivity) ?_
    have hp : (fUnits a * fUnits b : ℝ) = sInt (bitOf a 31 != bitOf b 31) (mantissa a * mantissa b) *
        2 ^ ((exponent a : Int) - 149 + (exponent b - 149) + 149) * 2 ^ 149 := by
      rw [fUnits_real, fUnits_real, Bool.bne_eq_xor, sInt_xor, ← zpow_natCast 2 149, Int.cast_mul]
      simp only [zpow_add₀ (two_ne_zero' ℝ)]
      ring
    push_cast
    rw [hp, fUnits_real c, ← zpow_scaled (min_le_left _ ((exponent c : Int) - 149)),
      ← zpow_scaled (min_le_right ((exponent a : Int) - 149 + (exponent b - 149)) ((exponent c : Int) - 149))]
    ring

end

/-! ### FSQRT -/

/-- The root found bit by bit: the largest number, of those the bits left can make, whose square is no more than `n`. -/
theorem isqrtBits_spec (k n acc : Nat) (hlo : acc * acc ≤ n) (hhi : n < (acc + 2 ^ k) * (acc + 2 ^ k)) :
    isqrtBits k n acc * isqrtBits k n acc ≤ n ∧ n < (isqrtBits k n acc + 1) * (isqrtBits k n acc + 1) := by
  induction k generalizing acc with
  | zero => exact ⟨hlo, by simpa [isqrtBits] using hhi⟩
  | succ k ih =>
    rw [isqrtBits]
    split
    · next h => exact ih _ h (by rwa [add_assoc, ← two_mul, ← pow_succ'])
    · next h => exact ih _ hlo (not_le.1 h)

theorem isqrtBits_eq (n : Nat) (h : n < 2 ^ 120) : isqrtBits 60 n 0 = n.sqrt := by
  obtain ⟨hlo, hhi⟩ := isqrtBits_spec 60 n 0 (Nat.zero_le n) (by rw [zero_add, ← pow_add]; exact h)
  exact (Nat.eq_sqrt.2 ⟨hlo, hhi⟩)

/-- A root's whole part and whether its square is all hold it. -/
theorem Holds.sqrt (n : Nat) (e : Int) : Holds (√n * 2 ^ (e + 149)) n.sqrt e (decide (n.sqrt * n.sqrt ≠ n)) := by
  have ht : (0 : ℝ) < 2 ^ (e + 149) := by positivity
  refine ⟨mul_le_mul_of_nonneg_right Real.nat_sqrt_le_real_sqrt ht.le, mul_lt_mul_of_pos_right ?_ ht, ?_⟩
  · exact Real.real_sqrt_lt_nat_sqrt_succ
  · refine decide_eq_true_iff.trans (not_congr ?_)
    rw [mul_left_inj' ht.ne', Real.sqrt_eq_iff_mul_self_eq (Nat.cast_nonneg _) (Nat.cast_nonneg _)]
    exact_mod_cast eq_comm

theorem sqrt_scaled (m : Nat) {e : Int} (he : e % 2 = 0) :
    √(m * 2 ^ (e + 298)) = √((m * 2 ^ 80 : Nat) : ℝ) * 2 ^ (e / 2 - 40 + 149) := by
  rw [← Real.sqrt_sq (by positivity : (0 : ℝ) ≤ 2 ^ (e / 2 - 40 + 149)), ← Real.sqrt_mul (by positivity),
    ← zpow_natCast, ← zpow_mul]
  congr 1
  rw [Nat.cast_mul, Nat.cast_pow, Nat.cast_ofNat, mul_assoc, ← zpow_natCast 2 80, ← zpow_add₀ (by norm_num)]
  congr 2
  omega

/-- A root of a number of even exponent. -/
theorem root_rounds {m : Nat} {e : Int} (hm : m ≠ 0) (hm' : m < 2 ^ 25) (he : e % 2 = 0) :
    let r := isqrtBits 60 (m * 2 ^ 80) 0
    RoundsTo (√(m * 2 ^ (e + 298))) false (roundF false r (e / 2 - 40) (decide (r * r ≠ m * 2 ^ 80))).1
      (roundF false r (e / 2 - 40) (decide (r * r ≠ m * 2 ^ 80))).2 := by
  intro r
  have hr : r = (m * 2 ^ 80).sqrt := isqrtBits_eq _ (by omega)
  have hbig : 2 ^ 24 ≤ r := by
    rw [hr, Nat.le_sqrt]
    omega
  rw [sqrt_scaled m he, hr]
  exact roundF_rounds (Holds.sqrt _ _) (by omega) fun _ => lt_roundE (hr ▸ hbig)

theorem sign_of_pos {w : Word} (h : 0 < fUnits w) : bitOf w 31 = false := by
  rw [← Bool.not_eq_true]
  intro hs
  rw [fUnits_sign, hs, sInt, if_pos rfl] at h
  omega

theorem fsqrt_rounds {a : Word} (ha : FFin a) (h0 : 0 < fUnits a) :
    RoundsTo (√(fUnits a * 2 ^ 149)) false (fsqrt a).1 (fsqrt a).2 := by
  have hm : mantissa a ≠ 0 := fun k => h0.ne' (fUnits_eq_zero.2 k)
  have hs := sign_of_pos h0
  have hx : (fUnits a * 2 ^ 149 : ℝ) = mantissa a * 2 ^ ((exponent a : Int) - 149 + 298) := by
    rw [fUnits_real, hs, ← zpow_natCast 2 149, mul_assoc, ← zpow_add₀ (by norm_num),
      show sInt false (mantissa a) = (mantissa a : Int) from rfl, Int.cast_natCast]
    congr 2
    omega
  have := mantissa_lt a
  rw [fsqrt, unpack_fin ha, hs, hx]
  simp only [hm, if_false, Bool.false_eq_true]
  by_cases he : ((exponent a : Int) - 149).fmod 2 = 0
  · simp only [he, if_true]
    exact root_rounds hm (by omega) (by rwa [← Int.fmod_eq_emod_of_nonneg _ (by decide)])
  · simp only [he, if_false]
    rw [Int.fmod_eq_emod_of_nonneg _ (by decide)] at he
    have hv : (mantissa a * 2 ^ ((exponent a : Int) - 149 + 298) : ℝ) =
        (2 * mantissa a : Nat) * 2 ^ ((exponent a : Int) - 149 - 1 + 298) := by
      rw [show (exponent a : Int) - 149 + 298 = exponent a - 149 - 1 + 298 + 1 by ring, zpow_add_one₀ (by norm_num)]
      push_cast
      ring
    rw [hv]
    exact root_rounds (by omega) (by omega) (by omega)

/-- A zero is one of the two zero words. -/
theorem zero_eq_zeroWord {w : Word} (h : fUnits w = 0) : w = zeroWord (bitOf w 31) := by
  have hw : fld w 30 23 = 0 ∧ fld w 22 0 = 0 := by
    have := fUnits_eq_zero.1 h
    unfold mantissa at this
    split at this <;> omega
  have hz : fld (zeroWord (bitOf w 31)) 30 23 = 0 ∧ fld (zeroWord (bitOf w 31)) 22 0 = 0 := by cases bitOf w 31 <;> decide
  exact word_ext (zeroWord_zero _).2.1.symm (hw.1.trans hz.1.symm) (hw.2.trans hz.2.symm)

theorem midpoint_of_near_below {v a b : ℝ} (hab : a < b) (h : |v - a| ≤ |v - b|) : 2 * v ≤ a + b := by
  by_contra hc
  rw [abs_of_pos (by linarith)] at h
  rcases abs_cases (v - b) with k | k <;> linarith

theorem midpoint_of_near_above {v a b : ℝ} (hab : b < a) (h : |v - a| ≤ |v - b|) : a + b ≤ 2 * v := by
  by_contra hc
  rw [abs_of_neg (by linarith)] at h
  rcases abs_cases (v - b) with k | k <;> linarith

/-- The number a root of no more than 2^253 units rounds to: no other lies nearer, and it is the root just where its square says so. -/
theorem RoundsTo.root {x : Int} {r fl : Word} (hx : 2 ^ 149 ≤ x) (hlt : √x ≤ 2 ^ 253) (h : RoundsTo (√x) false r fl) :
    FFin r ∧ 0 < fUnits r ∧ (∀ w, FFin w → fUnits r < fUnits w → 4 * x ≤ (fUnits r + fUnits w) ^ 2) ∧
    (∀ w, FFin w → 0 ≤ fUnits w → fUnits w < fUnits r → (fUnits r + fUnits w) ^ 2 ≤ 4 * x) ∧
    fl = (if fUnits r ^ 2 = x then 0 else 0x100) := by
  obtain ⟨hsign, -, hfin, hnear, hexact, hinexact⟩ := h
  have hlt' : √x < (2 ^ 25 - 1) * 2 ^ 252 := hlt.trans_lt (by norm_num)
  have hxr : (2 : ℝ) ^ 149 ≤ x := by exact_mod_cast hx
  have hx0 : (0 : ℝ) ≤ x := le_trans (by norm_num) hxr
  have hsq : √x ^ 2 = (x : ℝ) := Real.sq_sqrt hx0
  have hge : 2 ^ 23 ≤ √x := (Real.le_sqrt' (by norm_num)).2 (le_trans (by norm_num) hxr)
  have habs {w : Word} (h : 0 ≤ fUnits w) : ((fUnits w).natAbs : ℝ) = fUnits w := by
    rw [Nat.cast_natAbs, abs_of_nonneg h]
  have hr0 : 0 ≤ fUnits r := by
    rw [fUnits_sign, hsign]
    exact Int.natCast_nonneg _
  specialize hfin hlt'
  specialize hnear hlt'
  specialize hexact hlt'
  specialize hinexact hlt'
  rw [habs hr0] at hexact hinexact hnear
  have hr0' : (0 : ℝ) ≤ fUnits r := by exact_mod_cast hr0
  refine ⟨hfin, ?_, fun w hfw hlw => ?_, fun w hfw h0 hlw => ?_, ?_⟩
  · obtain ⟨hfin1, h1⟩ : FFin 1 ∧ fUnits 1 = 1 := by unfold FFin; decide
    refine lt_of_le_of_ne hr0 fun h0 => ?_
    have := (hnear 1 hfin1).1
    rw [← h0, h1, Int.cast_zero, sub_zero, Int.natAbs_one, Nat.cast_one, abs_of_nonneg (by linarith), abs_of_nonneg (by linarith)] at this
    linarith
  · have hlw' : (fUnits r : ℝ) < fUnits w := by exact_mod_cast hlw
    have hd := (hnear w hfw).1
    rw [habs (hr0.trans hlw.le)] at hd
    have hmid := midpoint_of_near_below hlw' hd
    have : 4 * (x : ℝ) ≤ (fUnits r + fUnits w) ^ 2 := by
      rw [← hsq]
      nlinarith
    exact_mod_cast this
  · have hlw' : (fUnits w : ℝ) < fUnits r := by exact_mod_cast hlw
    have h0' : (0 : ℝ) ≤ fUnits w := by exact_mod_cast h0
    have hd := (hnear w hfw).1
    rw [habs h0] at hd
    have hmid := midpoint_of_near_above hlw' hd
    have : ((fUnits r : ℝ) + fUnits w) ^ 2 ≤ 4 * x := by
      rw [← hsq]
      nlinarith
    exact_mod_cast this
  · have hval : fUnits r ^ 2 = x ↔ √x = fUnits r := by
      rw [Real.sqrt_eq_iff_mul_self_eq hx0 hr0', ← sq]
      exact_mod_cast eq_comm
    split
    next h => exact hexact (hval.1 h)
    next h => exact (hinexact (mt hval.2 h)).2.2 hge

theorem fsqrt_root (a : Word) : FpRoot a (fsqrt a).1 (fsqrt a).2 := by
  refine ⟨fun h => ?_, ?_, fun h hs => ?_, fun h h0 => ?_, fun h h0 => ?_⟩
  · have : fsqrt a = nanAns [unpack a] := by
      rw [fsqrt, unpack_nan h]
      simp [nanAns, isSnan]
    rw [this]
    exact nanAns_answer [a]
  · rintro (h | ⟨h, h0⟩) hs
    · rw [fsqrt, unpack_inf h, hs]
      exact ⟨rfl, rfl⟩
    · rw [fsqrt, unpack_fin h, hs]
      simp only [mt fUnits_eq_zero.2 h0, if_false, if_true]
      exact ⟨rfl, rfl⟩
  · rw [fsqrt, unpack_inf h]
    simp only [hs, Bool.false_eq_true, if_false]
    exact ⟨by rw [inf_eq_infWord h, hs], trivial⟩
  · rw [fsqrt, unpack_fin h, fUnits_eq_zero.1 h0]
    exact ⟨(zero_eq_zeroWord h0).symm, rfl⟩
  · refine RoundsTo.root ?_ ?_ (by exact_mod_cast fsqrt_rounds h h0)
    · omega
    · rw [Real.sqrt_le_iff]
      refine ⟨by positivity, ?_⟩
      have hm : (mantissa a : ℝ) ≤ 2 ^ 24 := by exact_mod_cast (mantissa_lt a).le
      have he : (2 : ℝ) ^ exponent a ≤ 2 ^ 253 := pow_le_pow_right₀ (by norm_num) (exponent_le h)
      rw [fUnits_eq, sign_of_pos h0]
      calc ((mantissa a * 2 ^ exponent a * 2 ^ 149 : Int) : ℝ) ≤ 2 ^ 24 * 2 ^ 253 * 2 ^ 149 := by push_cast; gcongr; norm_num
        _ ≤ (2 ^ 253) ^ 2 := by norm_num

/-! ## The order of the numbers -/

/-- The numbers in their order: a finite word's value, and an infinity's beyond them all. -/
def rank (w : Word) : Int := if fld w 30 23 = 255 then sInt (bitOf w 31) (2 ^ 24 * 2 ^ 253) else fUnits w

/-- Equal as numbers. -/
abbrev FpSame (a b : Word) : Prop := a = b ∨ FFin a ∧ FFin b ∧ fUnits a = fUnits b

section
variable {a b : Word}

theorem rank_inf (h : FInf a) : rank a = sInt (bitOf a 31) (2 ^ 24 * 2 ^ 253) := if_pos h.1

theorem rank_fin (h : FFin a) : rank a = fUnits a := if_neg h

theorem fUnits_bounds (h : FFin a) : -(2 ^ 24 * 2 ^ 253) < fUnits a ∧ fUnits a < 2 ^ 24 * 2 ^ 253 := by
  have hm : mantissa a * 2 ^ exponent a < 2 ^ 24 * 2 ^ 253 :=
    Nat.mul_lt_mul_of_lt_of_le (mantissa_lt a) (Nat.pow_le_pow_right (by decide) (exponent_le h)) (by positivity)
  have := fUnits_natAbs a
  omega

theorem not_fin_of_inf (h : FInf a) : ¬ FFin a := fun k => k h.1

/-- The order of the statement is the order of the ranks. -/
theorem below_iff (ha : ¬ FNan a) (hb : ¬ FNan b) : FpBelow a b ↔ rank a < rank b := by
  unfold FpBelow
  rcases (word_cases a).resolve_left ha with h | h <;> rcases (word_cases b).resolve_left hb with k | k
  · simp only [h, k, not_fin_of_inf h, false_and, or_false, true_and, Ne, inf_inj h k, rank_inf]
    cases bitOf a 31 <;> cases bitOf b 31 <;> simp [sInt]
  · have hab : a ≠ b := fun e => not_fin_of_inf h (e ▸ k)
    have := fUnits_bounds k
    simp only [h, not_fin_of_inf h, not_inf_of_fin k, false_and, or_false, true_and, and_true, Ne, hab, not_false_eq_true,
      rank_inf h, rank_fin k, sInt]
    split <;> simp_all
    omega
  · have hab : a ≠ b := fun e => not_fin_of_inf k (e ▸ h)
    have := fUnits_bounds h
    simp only [k, not_fin_of_inf k, not_inf_of_fin h, false_and, and_false, or_false, false_or, true_and, and_true, Ne, hab,
      not_false_eq_true, rank_inf k, rank_fin h, sInt]
    split <;> simp_all
    omega
  · simp only [h, k, not_inf_of_fin, false_and, false_or, true_and, rank_fin]

theorem same_iff (ha : ¬ FNan a) (hb : ¬ FNan b) : FpSame a b ↔ rank a = rank b := by
  refine ⟨?_, fun hr => ?_⟩
  · rintro (rfl | ⟨h, k, he⟩)
    · rfl
    · rw [rank_fin h, rank_fin k, he]
  · rcases (word_cases a).resolve_left ha with h | h <;> rcases (word_cases b).resolve_left hb with k | k
    · rw [rank_inf h, rank_inf k] at hr
      refine .inl ((inf_inj h k).2 ?_)
      cases hs : bitOf a 31 <;> cases ht : bitOf b 31 <;> simp [hs, ht, sInt] at hr ⊢
    · have := fUnits_bounds k
      rw [rank_inf h, rank_fin k, sInt] at hr
      split at hr <;> omega
    · have := fUnits_bounds h
      rw [rank_fin h, rank_inf k, sInt] at hr
      split at hr <;> omega
    · exact .inr ⟨h, k, by rwa [rank_fin h, rank_fin k] at hr⟩

/-- The number at a common exponent with another. -/
theorem fUnits_common (w : Word) {t : Nat} (h : t ≤ exponent w) :
    fUnits w = sInt (bitOf w 31) (mantissa w) * 2 ^ (exponent w - t) * 2 ^ t := by
  rw [fUnits_eq, sInt_eq, sInt_eq, mul_assoc _ (2 ^ _) (2 ^ t), ← pow_add, Nat.sub_add_cancel h]
  push_cast
  ring

theorem fpLt_fin (ha : FFin a) (hb : FFin b) (z : Bool) : fpLt z (unpack a) (unpack b) = true ↔
    fUnits a < fUnits b ∨ (z = true ∧ fUnits a = 0 ∧ fUnits b = 0 ∧ bitOf a 31 = true ∧ bitOf b 31 = false) := by
  have e1 : ((exponent a : Int) - 149 - min ((exponent a : Int) - 149) ((exponent b : Int) - 149)).toNat =
    exponent a - min (exponent a) (exponent b) := by omega
  have e2 : ((exponent b : Int) - 149 - min ((exponent a : Int) - 149) ((exponent b : Int) - 149)).toNat =
    exponent b - min (exponent a) (exponent b) := by omega
  have ht : (0 : Int) < 2 ^ min (exponent a) (exponent b) := by positivity
  rw [unpack_fin ha, unpack_fin hb, fUnits_common a (min_le_left _ (exponent b)), fUnits_common b (min_le_right (exponent a) _)]
  simp only [fpLt, e1, e2, mul_lt_mul_iff_left₀ ht, Int.mul_eq_zero, ht.ne', or_false, Bool.or_eq_true, Bool.and_eq_true,
    decide_eq_true_eq, beq_iff_eq, Bool.not_eq_true', and_assoc]

theorem fpLt_iff (ha : ¬ FNan a) (hb : ¬ FNan b) (z : Bool) : fpLt z (unpack a) (unpack b) = true ↔
    rank a < rank b ∨
      (z = true ∧ FFin a ∧ FFin b ∧ fUnits a = 0 ∧ fUnits b = 0 ∧ bitOf a 31 = true ∧ bitOf b 31 = false) := by
  rw [← below_iff ha hb]
  rcases (word_cases a).resolve_left ha with h | h <;> rcases (word_cases b).resolve_left hb with k | k
  · rw [unpack_inf h, unpack_inf k]
    cases hs : bitOf a 31 <;> cases ht : bitOf b 31 <;> simp [fpLt, FpBelow, h, k, not_fin_of_inf, inf_inj h k, hs, ht]
  · have hab : a ≠ b := fun e => not_fin_of_inf h (e ▸ k)
    rw [unpack_inf h, unpack_fin k]
    simp [fpLt, FpBelow, h, not_fin_of_inf h, not_inf_of_fin k, hab]
  · have hab : a ≠ b := fun e => not_fin_of_inf k (e ▸ h)
    rw [unpack_fin h, unpack_inf k]
    simp [fpLt, FpBelow, k, not_fin_of_inf k, not_inf_of_fin h, hab]
  · rw [fpLt_fin h k]
    simp [FpBelow, h, k, not_inf_of_fin]

end

/-! ## Minimum, maximum and comparisons -/

/-- The invalid operation of signalling operands. -/
theorem snan_flag (a b : Word) {fl : Word} (h : fl = if isSnan (unpack a) || isSnan (unpack b) then fsNv else 0) :
    ((FSig a ∨ FSig b) → fl = 0x10) ∧ (¬ FSig a → ¬ FSig b → fl = 0) := by
  have hs : (isSnan (unpack a) || isSnan (unpack b)) = true ↔ FSig a ∨ FSig b := by rw [Bool.or_eq_true, isSnan_unpack, isSnan_unpack]
  exact ⟨fun k => by rw [h, if_pos (hs.2 k)]; rfl, fun ka kb => by rw [h, if_neg fun k => (hs.1 k).elim ka kb]⟩

/-- FMIN and FMAX of two numbers: the second operand where it comes first, or last. -/
theorem fminmax_numbers {a b : Word} (ha : ¬ FNan a) (hb : ¬ FNan b) (most : Bool) :
    (fminmax most a b).1 = if fpLt true (unpack b) (unpack a) = most then a else b := by
  simp only [fminmax, isNan_unpack_false ha, isNan_unpack_false hb, Bool.and_self, Bool.false_eq_true, if_false]
  cases fpLt true (unpack b) (unpack a) <;> cases most <;> rfl

theorem fminmax_extreme (most : Bool) (a b : Word) : FpExtreme most a b (fminmax most a b).1 (fminmax most a b).2 := by
  have hfl : (fminmax most a b).2 = if isSnan (unpack a) || isSnan (unpack b) then fsNv else 0 := by
    unfold fminmax
    dsimp only
    split_ifs <;> rfl
  obtain ⟨hsig, hquiet⟩ := snan_flag a b hfl
  refine ⟨hsig, hquiet, fun ha hb => ?_, fun ha hb => ?_, fun ha hb => ?_, fun ha hb => ?_⟩
  · simp only [fminmax, isNan_unpack.2 ha, isNan_unpack.2 hb, Bool.and_self, if_true]
    rfl
  · simp only [fminmax, isNan_unpack.2 ha, isNan_unpack_false hb, Bool.and_false, Bool.false_eq_true, if_false, if_true]
  · simp only [fminmax, isNan_unpack_false ha, isNan_unpack.2 hb, Bool.false_and, Bool.false_eq_true, if_false, if_true]
  · rw [fminmax_numbers ha hb]
    have hlt := fpLt_iff hb ha true
    rw [below_iff ha hb, below_iff hb ha]
    refine ⟨fun h => ?_, fun h => ?_, by split <;> simp⟩
    · have hf : fpLt true (unpack b) (unpack a) = false := by
        rw [← Bool.not_eq_true, hlt]
        rcases h with h | ⟨hfa, hfb, ha0, hb0, hs⟩
        · rintro (k | ⟨-, hfb, hfa, hb0, ha0, -, -⟩)
          · omega
          · rw [rank_fin hfa, rank_fin hfb] at h
            omega
        · rw [rank_fin hfa, rank_fin hfb, ha0, hb0, hs]
          simp
      rw [hf]
      cases most <;> rfl
    · rcases h with h | ⟨hfa, hfb, ha0, hb0, hs⟩
      · rw [hlt.2 (.inl h)]
        cases most <;> rfl
      · cases hsa : bitOf a 31
        · rw [hlt.2 (.inr ⟨rfl, hfb, hfa, hb0, ha0, hs, hsa⟩)]
          cases most <;> rfl
        · obtain rfl : a = b := by rw [zero_eq_zeroWord ha0, zero_eq_zeroWord hb0, hs, hsa]
          rw [ite_self, ite_self]

theorem any_nan {a b : Word} (h : FNan a ∨ FNan b) : (isNan (unpack a) || isNan (unpack b)) = true := by
  rwa [Bool.or_eq_true, isNan_unpack, isNan_unpack]

theorem no_nan {a b : Word} (ha : ¬ FNan a) (hb : ¬ FNan b) : (isNan (unpack a) || isNan (unpack b)) = false := by
  rw [isNan_unpack_false ha, isNan_unpack_false hb, Bool.or_self]

theorem fpLt_false_iff {a b : Word} (ha : ¬ FNan a) (hb : ¬ FNan b) : fpLt false (unpack a) (unpack b) = true ↔ rank a < rank b := by
  rw [fpLt_iff ha hb]
  simp

theorem fclt_compares (a b : Word) : FpCompares (FpBelow a b) false a b (fclt a b).1 (fclt a b).2 := by
  refine ⟨fun h => ?_, fun ha hb => ?_⟩
  · rw [fclt, if_pos (any_nan h)]
    exact ⟨rfl, fun _ => rfl, fun k => absurd k Bool.false_ne_true⟩
  · rw [fclt, no_nan ha hb, below_iff ha hb, ← fpLt_false_iff ha hb]
    exact ⟨Iff.rfl, rfl⟩

theorem fcle_compares (a b : Word) : FpCompares (FpBelow a b ∨ FpSame a b) false a b (fcle a b).1 (fcle a b).2 := by
  refine ⟨fun h => ?_, fun ha hb => ?_⟩
  · rw [fcle, if_pos (any_nan h)]
    exact ⟨rfl, fun _ => rfl, fun k => absurd k Bool.false_ne_true⟩
  · rw [fcle, no_nan ha hb, below_iff ha hb, same_iff ha hb, ← le_iff_lt_or_eq, ← not_lt, ← fpLt_false_iff hb ha]
    simp

theorem fceq_compares (a b : Word) : FpCompares (FpSame a b) true a b (fceq a b).1 (fceq a b).2 := by
  obtain ⟨hsig, hquiet⟩ := snan_flag a b (fl := (fceq a b).2) rfl
  refine ⟨fun h => ⟨?_, fun k => hsig (k.resolve_left nofun), fun _ => hquiet⟩,
    fun ha hb => ⟨?_, hquiet (fun k => ha k.1) fun k => hb k.1⟩⟩
  · have := any_nan h
    rw [Bool.or_eq_true] at this
    rcases this with k | k <;> simp [fceq, k]
  · have : FpSame a b ↔ ¬ rank a < rank b ∧ ¬ rank b < rank a := by rw [same_iff ha hb]; omega
    rw [this, ← fpLt_false_iff ha hb, ← fpLt_false_iff hb ha]
    simp [fceq, isNan_unpack_false ha, isNan_unpack_false hb]

theorem fcun_unordered (a b : Word) : ((fcun a b).1 = true ↔ FNan a ∨ FNan b) ∧
    ((FSig a ∨ FSig b) → (fcun a b).2 = 0x10) ∧ (¬ FSig a → ¬ FSig b → (fcun a b).2 = 0) := by
  refine ⟨?_, snan_flag a b rfl⟩
  rw [fcun, Bool.or_eq_true, isNan_unpack, isNan_unpack]

/-! ## Conversions -/

/-- Rounding is the same at every scale. -/
theorem nearestEven_scale {x n : Int} {k : Nat} (j : Nat) (h : NearestEven x k n) : NearestEven (x * 2 ^ j) (k + j) n := by
  have hj : 0 < 2 ^ j := by positivity
  have e : (x * 2 ^ j - n * 2 ^ (k + j)).natAbs = (x - n * 2 ^ k).natAbs * 2 ^ j := by
    rw [pow_add, ← mul_assoc, ← sub_mul, Int.natAbs_mul, Int.natAbs_pow]
    rfl
  unfold NearestEven at h ⊢
  rw [e, pow_add, ← mul_assoc, Nat.mul_lt_mul_right hj, Nat.mul_left_inj hj.ne']
  exact h

theorem nearestEven_exact (n : Int) (k : Nat) : NearestEven (n * 2 ^ k) k n := by
  refine .inl ?_
  rw [sub_self, Int.natAbs_zero, mul_zero]
  positivity

theorem rne_mul (c : Int) (k : Nat) : rne (c * 2 ^ k) k = c := by
  have hk : (0 : Int) < 2 ^ k := by positivity
  simp only [rne, Int.mul_fdiv_cancel _ hk.ne', Int.mul_fmod_left]
  rw [if_neg (by omega), if_neg (by omega)]

theorem sInt_tdiv (neg : Bool) (m j : Nat) : sInt neg (m / j) = (sInt neg m).tdiv j := by
  cases neg
  · exact Int.ofNat_tdiv ..
  · change -((m / j : Nat) : Int) = (-(m : Int)).tdiv j
    rw [Int.neg_tdiv]
    rfl

theorem sInt_dvd (neg : Bool) (m j : Nat) : (j : Int) ∣ sInt neg m ↔ m % j = 0 := by
  rw [← Nat.dvd_iff_mod_eq_zero, ← Int.natCast_dvd_natCast]
  cases neg
  · rfl
  · exact Int.dvd_neg

/-- The integer a magnitude of so many places below the point converts to, to nearest or toward zero. -/
def fraction (trunc neg : Bool) (m g : Nat) : Int := if trunc then sInt neg (m / 2 ^ g) else rne (sInt neg m) g

theorem fraction_exact (trunc neg : Bool) (m g : Nat) : m % 2 ^ g = 0 ↔ sInt neg m = fraction trunc neg m g * 2 ^ g := by
  have hc : ((2 ^ g : Nat) : Int) = 2 ^ g := by norm_cast
  rw [← sInt_dvd neg, hc]
  refine ⟨?_, fun h => ⟨_, h.trans (mul_comm ..)⟩⟩
  rintro ⟨c, hx⟩
  rw [mul_comm] at hx
  cases trunc
  · rw [fraction, if_neg Bool.false_ne_true, hx, rne_mul]
  · rw [fraction, if_pos rfl, sInt_tdiv, hx, hc, Int.mul_tdiv_cancel _ (by positivity)]

/-- The whole number a conversion of a finite word times 2^k finds before it clamps. -/
def wholePart (w : Word) (k : Nat) (trunc : Bool) : Int :=
  let e := (exponent w : Int) - 149 + k
  if 0 ≤ e then sInt (bitOf w 31) (mantissa w) * 2 ^ e.toNat else fraction trunc (bitOf w 31) (mantissa w) (-e).toNat

/-- Whether that number is all of it. -/
def wholeExact (w : Word) (k : Nat) : Bool :=
  let e := (exponent w : Int) - 149 + k
  decide (0 ≤ e) || mantissa w % 2 ^ (-e).toNat == 0

theorem wholePart_spec (w : Word) (k : Nat) (trunc : Bool) :
    (trunc = false → NearestEven (fUnits w * 2 ^ k) 149 (wholePart w k trunc)) ∧
      (trunc = true → wholePart w k trunc = (fUnits w * 2 ^ k).tdiv (2 ^ 149)) ∧
      (wholeExact w k = true ↔ fUnits w * 2 ^ k = wholePart w k trunc * 2 ^ 149) := by
  have hx : fUnits w * 2 ^ k = sInt (bitOf w 31) (mantissa w) * 2 ^ (exponent w + k) := by
    rw [fUnits_common w (Nat.zero_le _), Nat.sub_zero, pow_zero, mul_one, mul_assoc, ← pow_add]
  unfold wholePart wholeExact
  generalize he : (exponent w : Int) - 149 + k = e
  by_cases h0 : 0 ≤ e
  · have hn : fUnits w * 2 ^ k = sInt (bitOf w 31) (mantissa w) * 2 ^ e.toNat * 2 ^ 149 := by
      rw [hx, mul_assoc, ← pow_add]
      congr 2
      omega
    simp only [h0, if_true]
    rw [hn]
    exact ⟨fun _ => nearestEven_exact _ 149, fun _ => (Int.mul_tdiv_cancel _ (by positivity)).symm, by simp⟩
  · obtain ⟨g, j, hg, hj, h149⟩ : ∃ g j, (-e).toNat = g ∧ exponent w + k = j ∧ 149 = g + j := ⟨_, _, rfl, rfl, by omega⟩
    have hp : (0 : Int) < 2 ^ j := by positivity
    simp only [h0, if_false, decide_false, Bool.false_or, beq_iff_eq]
    rw [hx, hj, hg]
    refine ⟨fun ht => ?_, fun ht => ?_, ?_⟩
    · rw [ht, h149]
      exact nearestEven_scale _ (rne_nearest _ _)
    · rw [ht, h149, pow_add, Int.mul_tdiv_mul_of_pos_left _ _ hp, fraction, if_pos rfl, sInt_tdiv]
      norm_cast
    · rw [h149, pow_add, ← mul_assoc, mul_left_inj' hp.ne', ← fraction_exact]

theorem fToInt_fin (k : Nat) (lo hi : Int) (trunc : Bool) {a : Word} (h : FFin a) : fToInt k lo hi trunc a =
    if wholePart a k trunc < lo then (lo, fsNv) else if hi < wholePart a k trunc then (hi, fsNv)
    else (wholePart a k trunc, if wholeExact a k then 0 else fsNx) := by
  rw [fToInt, unpack_fin h]
  rfl

theorem toI_converts (k : Nat) {lo hi : Int} (hb : lo ≤ hi) (trunc : Bool) (a : Word) :
    FpToInt k lo hi trunc a (toI k lo hi trunc a).1 (toI k lo hi trunc a).2 := by
  refine ⟨fun h => ?_, fun h => ?_, fun h => ?_⟩
  · rw [toI, fToInt, unpack_nan h]
    exact ⟨rfl, rfl⟩
  · rw [toI, fToInt, unpack_inf h]
    exact ⟨rfl, rfl⟩
  · obtain ⟨hne, htz, hex⟩ := wholePart_spec a k trunc
    refine ⟨wholePart a k trunc, hne, htz, fun hn => ?_, fun hn => ?_, fun hn hn' => ?_⟩ <;> rw [toI, fToInt_fin k lo hi trunc h]
    · rw [if_pos hn]
      exact ⟨rfl, rfl⟩
    · rw [if_neg (by omega), if_pos hn]
      exact ⟨rfl, rfl⟩
    · rw [if_neg (by omega), if_neg (by omega)]
      exact ⟨rfl, if_congr hex rfl rfl⟩

theorem fOfInt_converts {k : Nat} (hk : k ≤ 149) (x : Int) : FpFromInt k x (fOfInt k x).1 (fOfInt k x).2 := by
  unfold FpFromInt
  have : decide (x < 0) = sumSign (x * 2 ^ (149 - k)) false := by
    rw [sumSign, Bool.false_and, Bool.or_false, decide_eq_decide,
      ← mul_lt_mul_iff_left₀ (by positivity : (0 : Int) < 2 ^ (149 - k)) (b := x), zero_mul]
  rw [this]
  refine roundS_exact Nat.one_pos ?_
  push_cast
  rw [mul_one, show -(k : Int) + 149 = (149 - k : Nat) by omega, zpow_natCast]

end Sys2Proof.Machine
end

section
/-! PROOFS: the FP32 instructions on a tick core (O6). -/

namespace Sys2Proof.Machine

/-! ## The FP32 instructions on a tick core (R125, R140) -/

section
variable {s : State} {l : Fin 64} {i : Instr} {f : FmtA} {lat : Nat} (h : Issues s l f.pr)
include h

theorem opA_answers {fn : Word → Word → Word × Word} {P : Word → Word → Prop} (hi : exec i s = ok (runFp l (opA f lat fn) s))
    (hP : let v := fn ((getCore s l).ctx.rg f.s1.toNat) ((getCore s l).ctx.rg f.s2.toNat); P v.1 v.2) :
    ∃ r fl, CoreComputes i l 1 s (RegResult f.d.toNat r fl) ∧ P r fl :=
  ⟨_, _, opA_computes h hi rfl, hP⟩

theorem opA1_answers {fn : Word → Word × Word} {P : Word → Word → Prop} (hs2 : f.s2 = 0)
    (hi : exec i s = ok (runFp l (opA1 f lat fn) s)) (hP : let v := fn ((getCore s l).ctx.rg f.s1.toNat); P v.1 v.2) :
    ∃ r fl, CoreComputes i l 1 s (RegResult f.d.toNat r fl) ∧ P r fl :=
  ⟨_, _, opA1_computes h hs2 hi rfl, hP⟩

theorem opC_answers {fn : Word → Word → Bool × Word} {P : Bool → Word → Prop} (hd : f.d.toNat < 8)
    (hi : exec i s = ok (runFp l (opC f fn) s))
    (hP : let v := fn ((getCore s l).ctx.rg f.s1.toNat) ((getCore s l).ctx.rg f.s2.toNat); P v.1 v.2) :
    ∃ r fl, CoreComputes i l 1 s (PredResult f.d.toNat r fl) ∧ P r fl :=
  ⟨_, _, runAlu_core hi h (decide_eq_true hd) le_rfl (apply_pred _ _ _ _ hd), hP⟩

theorem fdiv_answers : ∃ r fl, CoreComputes (.fdiv l f) l 12 s (RegResult f.d.toNat r fl) ∧
    FpQuotient ((getCore s l).ctx.rg f.s1.toNat) ((getCore s l).ctx.rg f.s2.toNat) r fl :=
  ⟨_, _, runAlu_core rfl h rfl le_rfl (apply_reg ..), fdiv_quotient _ _⟩

theorem fsqrt_answers (hs2 : f.s2 = 0) : ∃ r fl, CoreComputes (.fsqrt l f) l 14 s (RegResult f.d.toNat r fl) ∧
    FpRoot ((getCore s l).ctx.rg f.s1.toNat) r fl :=
  ⟨_, _, runAlu_core rfl h (beq_iff_eq.2 hs2) le_rfl (apply_reg ..), fsqrt_root _⟩

/-- FMAC also reads its destination. -/
theorem fmac_answers : ∃ r fl, CoreComputes (.fmac l f) l 1 s (RegResult f.d.toNat r fl) ∧
    FpFused ((getCore s l).ctx.rg f.s1.toNat) ((getCore s l).ctx.rg f.s2.toNat) ((getCore s l).ctx.rg f.d.toNat) r fl :=
  ⟨_, _, runAlu_core rfl h rfl le_rfl (apply_reg ..), fmac_fused _ _ _⟩

theorem floatOps_answer : ∀ e ∈ floatOps, ∃ r fl, CoreComputes (e.1 l f) l e.2.1 s (RegResult f.d.toNat r fl) ∧
    e.2.2 ((getCore s l).ctx.rg f.s1.toNat) ((getCore s l).ctx.rg f.s2.toNat) r fl := by
  simp only [floatOps, List.forall_mem_cons]
  exact ⟨opA_answers h rfl (fadd_sum _ _), opA_answers h rfl (fsub_difference _ _), opA_answers h rfl (fmul_product _ _), fdiv_answers h,
    opA_answers h rfl (fminmax_extreme false _ _), opA_answers h rfl (fminmax_extreme true _ _), fun _ he => nomatch he⟩

theorem floatUnaryOps_answer (hs2 : f.s2 = 0) : ∀ e ∈ floatUnaryOps,
    ∃ r fl, CoreComputes (e.1 l f) l e.2.1 s (RegResult f.d.toNat r fl) ∧ e.2.2 ((getCore s l).ctx.rg f.s1.toNat) r fl := by
  simp only [floatUnaryOps, List.forall_mem_cons]
  exact ⟨fsqrt_answers h hs2, opA1_answers h hs2 rfl ⟨rfl, rfl⟩, opA1_answers h hs2 rfl ⟨rfl, rfl⟩,
    opA1_answers h hs2 rfl (toI_converts 0 (by decide) false _), opA1_answers h hs2 rfl (toI_converts 0 (by decide) true _),
    opA1_answers h hs2 rfl (toI_converts 0 (by decide) false _), opA1_answers h hs2 rfl (toI_converts 0 (by decide) true _),
    opA1_answers h hs2 rfl (toI_converts 15 (by decide) false _), opA1_answers h hs2 rfl (toI_converts 15 (by decide) true _),
    opA1_answers h hs2 rfl (toI_converts 31 (by decide) false _), opA1_answers h hs2 rfl (toI_converts 31 (by decide) true _),
    opA1_answers h hs2 rfl (fOfInt_converts (by decide) _),
    opA1_answers h hs2 rfl (fOfInt_converts (by decide) _),
    opA1_answers h hs2 rfl (fOfInt_converts (by decide) _),
    opA1_answers h hs2 rfl (fOfInt_converts (by decide) _), fun _ he => nomatch he⟩

theorem floatCompareOps_answer (hd : f.d.toNat < 8) : ∀ e ∈ floatCompareOps,
    ∃ r fl, CoreComputes (e.1 l f) l 1 s (PredResult f.d.toNat r fl) ∧
      FpCompares (e.2.2 ((getCore s l).ctx.rg f.s1.toNat) ((getCore s l).ctx.rg f.s2.toNat)) e.2.1
        ((getCore s l).ctx.rg f.s1.toNat) ((getCore s l).ctx.rg f.s2.toNat) r fl := by
  simp only [floatCompareOps, List.forall_mem_cons]
  exact ⟨opC_answers h hd rfl (fceq_compares _ _), opC_answers h hd rfl (fclt_compares _ _), opC_answers h hd rfl (fcle_compares _ _),
    fun _ he => nomatch he⟩

end

/-- Settles O6: each group by the lemma of its table, whose rows are what the model's function answers of every operand. -/
theorem floatInstructions : Obligations.FloatInstructions := by
  unfold Obligations.FloatInstructions
  exact fun l f s h => ⟨floatOps_answer h, floatUnaryOps_answer h, fmac_answers h,
    fun hd => ⟨floatCompareOps_answer h hd, opC_answers h hd rfl (fcun_unordered _ _)⟩⟩

end Sys2Proof.Machine
end
